-- ==== Sys2Proof/Word.lean ====
section
/-! DEFINITION. The word types of the module: bytes, 64-bit registers (R12), 64-byte lines (R275), 256-byte
frame payloads (R360) and the digests of the standards the module names.  -/

namespace Sys2Proof

/-- One byte. -/
abbrev Byte := BitVec 8

/-- A register of the module (R12). -/
abbrev Word64 := BitVec 64

/-- A 64-byte line of external memory (R275), byte 0 in the low bits (R7). -/
abbrev Line := BitVec 512

/-- A SHA-384 digest (R5). -/
abbrev Digest := BitVec 384

/-- A 256-bit root secret or key (R302). -/
abbrev Key := BitVec 256

end Sys2Proof
end

