-- ==== Sys2Proof/Syntax.lean ====
section
/-! DEFINITION. The commands of the module: one constructor of Instr per row of spec/opcode_table.json, with the
operands each row acts on.  An operand is what the sender names (a register offset, a function, a frame) or what
the world outside the module decides (a measured voltage, the bytes a DMA read returned): see log 5. -/

namespace Sys2Proof

/-- A host function: PCIe port 0 or 1, function 0 (the PF) or 1-63 (R333, R334). -/
structure FnId where
  port : Nat
  fn : Nat
deriving DecidableEq, Repr

/-- The transport an SPDM or session message came by: a function's DOE, MCTP over SMBus, or a relay (R402, R385). -/
inductive Via
  | doe (f : FnId)
  | mctp
  | relay
deriving DecidableEq, Repr

/-- The outcome of checking a line's check bytes (R282), or of a Dome read (R463). -/
inductive Check
  | clean
  | single
  | uncorrectable
deriving DecidableEq, Repr

/-- A page in stored form: its run offset, ciphertext lines, version and tag (R244, R316). -/
structure StoredPage where
  u : Nat
  lines : List Line
  version : Nat
  tag : BitVec 128
deriving DecidableEq, Repr

/-- One entry of a tag list (R316). -/
structure TagEntry where
  version : Nat
  tag : BitVec 128
deriving DecidableEq, Repr

/-- A link frame (R360).  `tagOk` says whether its authentication tag verified at the receiver. -/
structure Frame where
  type : Nat
  epoch : Bool
  last : Bool
  route : Nat
  ret : Nat
  hops : Nat
  seq : Nat
  ack : Nat
  transfer : Nat
  index : Nat
  payload : List Byte
  tagOk : Bool
deriving DecidableEq, Repr

/-- One submission-queue entry as a Gatehouse core takes it: the function and pair, the 64 bytes of the entry (R344),
what the DMA read of DATA returned (none: UR, CA, poison or timeout), and what the check of the Dome lines read gave (R463). -/
structure HostCmd where
  f : FnId
  q : Nat
  entry : List Byte
  data : Option (List Byte)
  dome : Check
deriving DecidableEq, Repr

/-- One session operation (R308): its transport, its session and the payload inside the secured session. -/
structure SessOp where
  via : Via
  session : Nat
  payload : List Byte
deriving DecidableEq, Repr

/-- The units a retirement broadcast reaches (R321 step 1). -/
inductive RetireUnit
  | gatehouse
  | belfry
  | host
  | memory (c : Nat)
  | link (k : Nat)
deriving DecidableEq, Repr

/-- A host's request: the function, and the selective IDE stream that it came on, if any (R337). -/
structure HostReq where
  fn : FnId
  via : Option Nat
deriving DecidableEq, Repr

/-- A stream that protects a port's TLPs: link IDE, or a selective stream (R333, R337), by its ID. -/
inductive IdeStream
  | link (id : Nat)
  | selective (id : Nat)
deriving DecidableEq, Repr

/-- A host's write of one register: the offset in it, 4 or 8 bytes, the value (R13). -/
structure RegWrite where
  off : Nat
  size : Nat
  value : Nat
deriving DecidableEq, Repr

/-- The commands: one constructor per row of the opcode table. -/
inductive Instr
  -- registers (00, 16)
  | registerWrite (f : HostReq) (bar off size v : Nat)
  | unsupportedBarAccess (f : HostReq) (bar off size : Nat) (write : Bool)
  | lock (f : FnId) (off : Nat)
  | cntClear (f : FnId) (off : Nat)
  | counterSaturated (off n : Nat)
  -- Gatehouse health and parking (01)
  | coreHalt (core : Nat)
  | parkDeadlineExpired
  -- the time reference, the beat and its factor (02)
  | cadencePulse (src : Nat) (rising : Bool)
  | syntheticPulse
  | sourceLost
  | beatCounterWrap
  | cpWrap
  | calendarWrap
  | factorChange
  | factorStepDown
  | blfRunSet (f : FnId)
  | blfRunClear (f : FnId)
  | segAdmitSet (f : FnId)
  | segAdmitClear (f : FnId)
  | blfCpRead (f : FnId)
  -- segments (02, 09)
  | segmentAdmission
  | imagePlacement
  | segmentRelease
  | dropLateExpiry
  | segmentEnd
  -- release programs (02)
  | release (ctx : Nat)
  | waitRel (ctx : Nat)
  | waitPulse (ctx : Nat)
  | forecast (ctx : Nat)
  | ballast (ctx : Nat)
  | releaseLoop (ctx : Nat)
  | setAnchor (ctx : Nat)
  | releaseEnd (ctx : Nat)
  -- execute bundles of tower t (03, 05, 06, 07, 08)
  | nop (t : Nat)
  | loop (t : Nat)
  | barrier (t : Nat)
  | endSeg (t : Nat)
  | aregSet (t : Nat)
  | aregAdd (t : Nat)
  | aregStep (t : Nat)
  | load (t : Nat)
  | pass (t : Nat)
  | forward (t : Nat)
  | sample (t : Nat)
  | merge (t : Nat)
  | deltaRowCheck (t : Nat)
  | drain (t : Nat)
  | stream (t : Nat)
  | reduce (t : Nat)
  | rule (t : Nat)
  | zero (t : Nat)
  | save (t : Nat)
  | restore (t : Nat)
  | copy (t : Nat)
  | pop (t : Nat)
  | retire (t : Nat)
  | openOut (t : Nat)
  | push (t : Nat)
  -- the fetch engine of tower t (03)
  | inboundIssue (t : Nat)
  | outboundIssue (t : Nat)
  | entryPresent (t q : Nat) (retried : Bool) (dome : Check)
  | writeAccepted (t q : Nat)
  | stallLimitExceeded (t : Nat)
  | swapOut (t : Nat)
  | selfTestDone (t unit : Nat)
  -- settlement and residency (08, 09)
  | stepSettle
  | tier2FetchDone (idx : Nat) (pages : List StoredPage)
  | tier2FetchFailed (idx code : Nat)
  | tagListReceived (idx : Nat) (tags : List TagEntry) (dome : Check)
  | eviction
  | writebackDone (idx : Nat)
  | tier0Copy (idx bank page : Nat)
  | tier0Reclaim
  -- memory controllers (10)
  | memLineRead (entry u line slot gen : Nat) (chk : Check)
  | memLineWrite (entry u line slot gen : Nat) (data : Line)
  | checkByteRetry (chk : Check)
  | scrub (ch n : Nat) (chk : Check)
  | refresh (ch : Nat)
  | refreshForced (ch bank : Nat)
  | pkgTempChange (c temp : Nat)
  | memoryInitDone (c trainFail : Nat)
  -- key slots (11)
  | slotEnableSet (f : FnId)
  | slotEnableClear (f : FnId)
  | slotRetire (f : FnId)
  | retireBroadcast (slot : Nat) (u : RetireUnit)
  | zeroization (slot : Nat)
  | drainTimeout (slot : Nat)
  | slotFreed (slot : Nat)
  -- session operations (11)
  | keyInstall (o : SessOp)
  | keyRetire (o : SessOp)
  | sealSet (o : SessOp)
  | sealGet (o : SessOp)
  | allowHash (o : SessOp)
  | status (o : SessOp)
  | extract (o : SessOp)
  | baseKeyInstall (o : SessOp)
  -- SPDM requests (14)
  | getVersion (via : Via)
  | getCapabilities (via : Via)
  | negotiateAlgorithms (via : Via) (offersAll : Bool)
  | getDigests (via : Via)
  | getCertificate (via : Via) (slot : Nat)
  | challenge (via : Via) (slot : Nat) (nonce : Key) (summary : Nat)
  | getMeasurements (via : Via) (index slot : Nat) (nonce : Key) (sign : Bool)
  | keyExchange (via : Via) (slot summary : Nat)
  | finish (via : Via) (session : Nat) (verified : Bool)
  | endSession (via : Via) (session : Nat)
  | heartbeat (via : Via) (session : Nat)
  | keyUpdate (via : Via) (session : Nat)
  | getCsr (via : Via) (session slot : Nat)
  | setCertificate (via : Via) (session slot : Nat) (chain : List Byte)
  | unsupportedSpdmRequest (via : Via) (code : Nat)
  | sessionTimeout (session : Nat)
  -- host queues (12)
  | qEnableSet (f : HostReq) (q : Nat)
  | qEnableClear (f : HostReq) (q : Nat)
  | hstSqTail (f : HostReq) (q index : Nat)
  | hstCqHead (f : HostReq) (q index : Nat)
  | coalesceTimer (f : FnId) (q : Nat)
  | msixUnmask (f : HostReq) (vec : Nat)
  -- host commands (12)
  | submitSegment (c : HostCmd)
  | imageHash (c : HostCmd)
  | imageHashClear (c : HostCmd)
  | contextCreate (c : HostCmd)
  | contextWrite (c : HostCmd)
  | contextEnable (c : HostCmd)
  | contextDisable (c : HostCmd)
  | contextDelete (c : HostCmd)
  | contextRead (c : HostCmd)
  | loadChain (c : HostCmd)
  | loadRules (c : HostCmd)
  | loadGroups (c : HostCmd)
  | loadSchedule (c : HostCmd)
  | advanceStep (c : HostCmd)
  | loadRelease (c : HostCmd)
  | adaptRegister (c : HostCmd)
  | adaptRead (c : HostCmd)
  | adaptRemove (c : HostCmd)
  | adaptPrefetch (c : HostCmd)
  | adaptWriteback (c : HostCmd)
  | adaptRewrap (c : HostCmd)
  | baseLoad (c : HostCmd)
  | baseLoadDone (slot : Nat) (src : Option (List Byte))
  | baseFree (c : HostCmd)
  -- functions, TDISP, IDE, PCIe (12, 17)
  | functionLevelReset (f : FnId)
  | flrComplete (f : FnId)
  | getTdispVersion (f : FnId)
  | getTdispCapabilities (f : FnId)
  | lockInterface (f : FnId)
  | getDeviceInterfaceReport (f : FnId)
  | getDeviceInterfaceState (f : FnId)
  | startInterface (f : FnId)
  | stopInterface (f : FnId)
  | ideKm (f : FnId) (stream bound : Nat) (link : Bool)
  | ideIntegrityFailure (port : Nat) (stream : IdeStream)
  | configWriteLocked (f : FnId)
  | pcieLinkTrained (port rate width : Nat)
  | hstVfEnableSet (f : FnId) (port : Nat)
  | hstVfEnableClear (f : FnId) (port : Nat)
  | vfEnableChange (port numVfs : Nat)
  | perst (port : Nat)
  -- links (13)
  | lnkEnableSet (f : FnId) (k : Nat)
  | lnkEnableClear (f : FnId) (k : Nat)
  | linkTrained (k lanes : Nat)
  | linkKeyed (k partnerId partnerLink : Nat) (chainOk : Bool)
  | linkBringupTimeout (k : Nat)
  | linkDown (k : Nat)
  | linkCtl (k : Nat) (fr : Frame)
  | ackTimer (k : Nat)
  | fetchReq (k : Nat) (fr : Frame)
  | fetchData (k : Nat) (fr : Frame)
  | fetchEnd (k : Nat) (fr : Frame)
  | writeData (k : Nat) (fr : Frame)
  | cadence (k : Nat) (fr : Frame)
  | cadenceSend (k edgeOffset : Nat)
  | delayMeasure (k : Nat)
  | delayReq (k : Nat) (fr : Frame)
  | delayResp (k : Nat) (fr : Frame)
  | attest (k : Nat) (fr : Frame)
  | retireMarker (k : Nat) (fr : Frame)
  | retireAck (k : Nat) (fr : Frame)
  | spdmFrame (k : Nat) (fr : Frame)
  | rekeyThreshold (k : Nat)
  | frameCounterLimit (k : Nat)
  | transferDeadline
  -- firmware images and boot (14)
  | stage (f : FnId) (img : Option (List Byte))
  | stagingDone (flashOk : Bool)
  | activate (f : FnId)
  | activationDone (selfCheckOk : Bool)
  | commitSvn (f : FnId)
  | discard (f : FnId)
  | kepLogSel (f : FnId) (entry : Nat)
  | bootStage (n : Nat)
  -- supply, envelope, regions (15, 17)
  | powerUp
  | inputBandChange (vin : Nat)
  | overVoltage (vin : Nat)
  | holdoverEntry (vin : Nat)
  | holdoverExit (energy : Nat)
  | orderlyStop (cause : Nat)
  | orderlyStopYieldEnd
  | pfSafe
  | resume (f : FnId)
  | rippleMeasure (mv hz : Nat)
  | prcEnvelopeApply (f : FnId)
  | envelopeInForce
  | forecastSnap (f : FnId)
  | overdraw (watts : Nat)
  | overdrawClear
  | droop (r mv : Nat)
  | droopClear (r mv : Nat)
  | thermalSample (r temp : Nat)
  | neighbourLimit (a b : Nat) (thermal : Bool) (diff : Nat)
  | neighbourClear
  | regionFence (r cause value : Nat)
  | thermalTrip (sensor temp : Nat)
  | pwrgdInDeasserted
  -- the event recorder (16)
  | recordWrite
  | tokenAdd (code : Nat)
  | evrClear (f : FnId)
  | evrTime (f : FnId) (v : RegWrite)
  | evrEnableSet (f : FnId)
  | evrEnableClear (f : FnId)
  | failClear (f : FnId)
  -- resets (17)
  | warm (f : FnId)
  | regionReset (f : FnId)
  | regionResetDone (failUnits : List Nat)
  | cold (f : FnId)
deriving DecidableEq, Repr

end Sys2Proof
end

