-- ==== Sys2Proof/Decode.lean ====
section
/-! DEFINITION. The words of commands.  The table gives no row any bits: the module takes register accesses, bus commands and
events, none of which is an encoded word. -/

namespace Sys2Proof

/-- The command a word of `nbits` bits spells: none, since no row of the table has an encoding. -/
def decodeTableWord (_nbits _w : Nat) : Option Instr := none

end Sys2Proof
end

