-- ==== Sys2Proof/Config.lean ====
section
/-! DEFINITION. What an implementation fixes and the spec leaves open: the ciphers, hashes and signatures of the external
standards the spec names (log 4), as functions nothing in Lean can evaluate, and free values (log 14). -/

namespace Sys2Proof.Config

/-- HKDF-SHA-384 with an empty salt and an info string (R302): a 256-bit key derived from a root secret. -/
opaque hkdf : Key → List Byte → Key

/-- AES-256-XTS on one 64-byte line (R285) under a data and a tweak key, with the 128-bit tweak: a permutation of lines. -/
opaque xts : Key → Key → Nat → Equiv.Perm Line

/-- AES-256-GMAC under a tag key (R286, R376), with a 96-bit IV, over a list of lines. -/
opaque gmac : Key → Nat → List Line → BitVec 128

/-- AES-256-GCM (R360, R366) under a key, with a 96-bit IV, additional data and a plaintext: the ciphertext and the tag. -/
opaque gcm : Key → Nat → List Byte → List Byte → List Byte × BitVec 128

/-- The first 64 bits of HMAC-SHA-384 under the version-tree key over package, level, node index and the node's bytes (R313). -/
opaque treeMac : Key → Nat → Nat → Nat → Line → BitVec 64

/-- The SECDED (72,64) check byte of a 64-bit word (R276). -/
opaque secded : BitVec 64 → Byte

/-- SHA-384 (R5). -/
opaque sha384 : List Byte → Digest

/-- ECDSA P-384 verification (R389): which key (0: Knaot's image key, 1: the operator's), the bytes signed, r then s. -/
opaque ecdsaOk : Nat → List Byte → List Byte → Bool

/-- ECDSA P-384 signing (R396, R453): which key (0 device, 1 alias), the digest, and a count that makes each fresh. -/
opaque ecdsaSign : Nat → Digest → Nat → BitVec 768

/-- A value the spec leaves open, by a running count (log 14): the version-tree key (R301), nonces, session keys. -/
opaque freeKey : Nat → Key

/-- An integer the spec leaves open, by a running count (log 14). -/
opaque freeNat : Nat → Nat

/-- AES-256-GMAC under a tag key over the request bytes of R376, with ORIGIN_ID and NONCE as its IV. -/
opaque requestMac : Key → Nat → List Byte → BitVec 128

/-- The measurement of the Keep ROM (R393 index 0x01). -/
opaque romDigest : Digest

/-- The fuse policy (R392): a SHA-384 over fuse words whose widths the spec does not give: ADMIN_PORT, OPERATOR_SIG_REQUIRED,
the four SVN minima; OPERATOR_KEY_HASH and DEBUG_DISABLED are the module's own. -/
opaque fusePolicy : Nat → Bool → List Nat → Digest

/-- Certificate chains that Knaot and the Keep ROM write (R401): slot 0, and slot 1 by the Keep firmware's measurement. -/
opaque certChain : Nat → Digest → List Byte

/-- Blocks of 16 pages, less one, of a context's transient allocation, which the spec does not size (R278). -/
opaque transientBlocks : Nat → Nat

/-- A storage error that appears in an accumulation group in a beat (R156; log 120): tower, group, entry, and whether it is
uncorrectable. -/
opaque upset : Nat → Option (Nat × Nat × Nat × Bool)

/-- A shape record that a re-support leaves behind, by a running count (R180; log 101). -/
opaque freeShape : Nat → List Byte

end Sys2Proof.Config
end

