-- ==== Sys2Proof/Machine/Bits.lean ====
section
/-! DEFINITION. Bit fields and byte order (R7): fields are [hi:lo] with bit 0 least significant, multi-byte
fields are little-endian. -/

namespace Sys2Proof.Machine

/-- `w` bits of `v` from bit `lo` up. -/
def bits (v lo w : Nat) : Nat := (v >>> lo) % 2 ^ w

/-- Bit `i` of `v`. -/
def bit (v i : Nat) : Bool := (v >>> i) % 2 = 1

/-- `v` with its `w` bits from `lo` replaced by `x`. -/
def putBits (v lo w x : Nat) : Nat :=
  v - (bits v lo w) * 2 ^ lo + (x % 2 ^ w) * 2 ^ lo

/-- A Bool as a bit. -/
def b2n (b : Bool) : Nat := if b then 1 else 0

/-- A `w`-bit two's-complement value as an integer. -/
def signed (w v : Nat) : Int := if v % 2 ^ w < 2 ^ (w - 1) then (v % 2 ^ w : Nat) else (v % 2 ^ w : Nat) - (2 ^ w : Nat)

/-- An integer as a `w`-bit two's-complement value. -/
def unsigned (w : Nat) (i : Int) : Nat := (i % (2 ^ w : Nat)).toNat

/-- Little-endian value of a list of bytes. -/
def leNat : List Byte → Nat
  | [] => 0
  | b :: bs => b.toNat + 256 * leNat bs

/-- `n` little-endian bytes of `v`. -/
def leBytes : Nat → Nat → List Byte
  | 0, _ => []
  | n + 1, v => BitVec.ofNat 8 v :: leBytes n (v / 256)

/-- The `n` bytes at offset `o` of a byte list; bytes past its end read as zero. -/
def slice (bs : List Byte) (o n : Nat) : List Byte :=
  let xs := (bs.drop o).take n
  xs ++ List.replicate (n - xs.length) 0

/-- The little-endian value of the `n` bytes at offset `o`. -/
def fieldLE (bs : List Byte) (o n : Nat) : Nat := leNat (slice bs o n)

/-- The bytes of an ASCII string. -/
def ascii (s : String) : List Byte := s.toList.map (fun c => BitVec.ofNat 8 c.toNat)

/-- All of the bytes are zero. -/
def allZero (bs : List Byte) : Bool := bs.all (· = 0)

/-- Ceiling division. -/
def ceilDiv (a b : Nat) : Nat := (a + b - 1) / b

/-- `n` rounded up to a multiple of `k`. -/
def roundUp (n k : Nat) : Nat := ceilDiv n k * k

/-- The number of bits set among the low `w` bits of `v`. -/
def popcount : Nat → Nat → Nat
  | 0, _ => 0
  | w + 1, v => v % 2 + popcount w (v / 2)

/-- The positions of the bits set among the low `w` bits of `v`, ascending. -/
def setBits (w v : Nat) : List Nat := (List.range w).filter (fun i => bit v i)

/-- `a` is at or after `b`, modulo 2^64 (R45). -/
def atOrAfter (a b : Nat) : Bool := decide ((a + 2 ^ 64 - b % 2 ^ 64) % 2 ^ 64 < 2 ^ 63)

/-- Saturate `v` at `hi`. -/
def sat (hi v : Nat) : Nat := min hi v

/-- A signed value saturated to `w` bits of two's complement. -/
def satSigned (w : Nat) (i : Int) : Int := max (-(2 ^ (w - 1) : Nat)) (min ((2 ^ (w - 1) : Nat) - 1) i)

/-- The first element satisfying `p` with its index. -/
def findIdx? {α : Type} (p : α → Bool) (xs : List α) : Option (Nat × α) :=
  (xs.zipIdx.find? (fun e => p e.1)).map (fun e => (e.2, e.1))

/-- Apply `f` to the elements satisfying `p`. -/
def mapIf {α : Type} (p : α → Bool) (f : α → α) (xs : List α) : List α :=
  xs.map (fun x => if p x then f x else x)

end Sys2Proof.Machine
end

