-- ==== Sys2Proof/Machine/Num.lean ====
section
/-! DEFINITION. Exact binary numbers, the 15 formats of R98 to R102, their decoding (R103 to R107) and their
encoding (R108 to R110, R113), and the accumulator's addition (R129). -/

namespace Sys2Proof.Machine

/-- A number on its way through the array or the chain: one quiet NaN (R107), an infinity, or the exact value
(-1)^neg * m * 2^e; m = 0 is a zero that keeps its sign. -/
inductive Num
  | nan
  | inf (neg : Bool)
  | fin (neg : Bool) (m : Nat) (e : Int)
deriving DecidableEq, Repr

/-- Positive zero. -/
def Num.zero : Num := .fin false 0 0

/-- The number of significant bits of `m`. -/
def bitLen (m : Nat) : Nat := if m = 0 then 0 else Nat.log2 m + 1

def Num.isNan : Num → Bool
  | .nan => true
  | _ => false

def Num.isInf : Num → Bool
  | .inf _ => true
  | _ => false

def Num.finite : Num → Bool
  | .fin _ _ _ => true
  | _ => false

def Num.isZero : Num → Bool
  | .fin _ 0 _ => true
  | _ => false

def Num.sign : Num → Bool
  | .nan => false
  | .inf n => n
  | .fin n _ _ => n

def Num.neg : Num → Num
  | .nan => .nan
  | .inf n => .inf !n
  | .fin n m e => .fin (!n) m e

/-- The sign cleared. -/
def Num.abs : Num → Num
  | .nan => .nan
  | .inf _ => .inf false
  | .fin _ m e => .fin false m e

/-- The magnitude of `x` with its significand scaled to exponent `e` (at most x's own). -/
def scaleTo (m : Nat) (e lo : Int) : Nat := m <<< (e - lo).toNat

/-- A signed significand and exponent as a number; a zero is positive. -/
def Num.ofInt (i : Int) (e : Int) : Num := .fin (decide (i < 0)) i.natAbs e

/-- The exact product (R107). -/
def Num.mul : Num → Num → Num
  | .nan, _ => .nan
  | _, .nan => .nan
  | .inf n, .inf k => .inf (n != k)
  | .inf n, .fin k m _ => if m = 0 then .nan else .inf (n != k)
  | .fin k m _, .inf n => if m = 0 then .nan else .inf (n != k)
  | .fin n m e, .fin k m' e' => .fin (n != k) (m * m') (e + e')

/-- The exact sum, an exact zero sum being +0 unless both operands are -0 (R129). -/
def Num.add : Num → Num → Num
  | .nan, _ => .nan
  | _, .nan => .nan
  | .inf n, .inf k => if n = k then .inf n else .nan
  | .inf n, .fin _ _ _ => .inf n
  | .fin _ _ _, .inf n => .inf n
  | .fin n m e, .fin k m' e' =>
    if m = 0 ∧ m' = 0 then .fin (n && k) 0 0
    else if m = 0 then .fin k m' e'
    else if m' = 0 then .fin n m e
    else
      let lo := min e e'
      let a : Int := scaleTo m e lo
      let b : Int := scaleTo m' e' lo
      .ofInt ((if n then -a else a) + (if k then -b else b)) lo

/-- Compare two numbers that are no NaN: a < b. -/
def Num.lt : Num → Num → Bool
  | .nan, _ => false
  | _, .nan => false
  | .inf n, .inf k => n && !k
  | .inf n, .fin _ _ _ => n
  | .fin _ _ _, .inf k => !k
  | .fin n m e, .fin k m' e' =>
    let lo := min e e'
    let a : Int := scaleTo m e lo
    let b : Int := scaleTo m' e' lo
    decide ((if n then -a else a) < (if k then -b else b))

/-- Strictly positive. -/
def Num.pos (x : Num) : Bool := Num.zero.lt x

/-- Round a significand to nearest-even at `n` bits: the new significand, the new exponent, and whether it changed. -/
def roundSig (n m : Nat) (e : Int) : Nat × Int × Bool :=
  let l := bitLen m
  if l ≤ n then (m, e, false)
  else
    let k := l - n
    let q := m >>> k
    let r := m % 2 ^ k
    let half := 2 ^ (k - 1)
    let up := r > half || (r == half && q % 2 == 1)
    (if up then q + 1 else q, e + k, r != 0)

/-- The position of the leading bit of m * 2^e, for m not 0. -/
def leadPos (m : Nat) (e : Int) : Int := (bitLen m : Int) - 1 + e

/-- Round to nearest-even at `n` significand bits within the accumulator's range (R129); the flag says that the
value changed. -/
def Num.rne (n : Nat) : Num → Num × Bool
  | .nan => (.nan, false)
  | .inf s => (.inf s, false)
  | .fin s m e =>
    if m = 0 then (.fin s 0 0, false)
    else
      let r := roundSig n m e
      let p := leadPos r.1 r.2.1
      if p ≥ 512 then (.inf s, true)
      else if p < -510 then (.fin s 0 0, true)
      else (.fin s r.1 r.2.1, r.2.2)

/-- The module's one accumulation addition (R129). -/
def accAdd (n : Nat) (a b : Num) : Num × Bool := (a.add b).rne n

/-- The value without the flag. -/
def accAdd' (n : Nat) (a b : Num) : Num := (accAdd n a b).1

/-- A result of the chain: FP32, nearest-even, subnormals flushed with their sign (R184). -/
def fp32 : Num → Num
  | .nan => .nan
  | .inf s => .inf s
  | .fin s m e =>
    if m = 0 then .fin s 0 0
    else
      let r := roundSig 24 m e
      let p := leadPos r.1 r.2.1
      if p ≥ 128 then .inf s
      else if p < -126 then .fin s 0 0
      else .fin s r.1 r.2.1

/-- The kinds of special codes of the floating formats (R99). -/
inductive Special
  | ieee
  | e4m3
  | none
deriving DecidableEq, Repr

/-- A floating format: exponent bits, fraction bits, bias, specials, and the position of its fraction (R99). -/
structure FloatFmt where
  eb : Nat
  fb : Nat
  bias : Nat
  special : Special
  lo : Nat
deriving DecidableEq, Repr

/-- The floating formats of R98 and R99. -/
def floatFmt : Nat → Option FloatFmt
  | 0x0 => some ⟨8, 23, 127, .ieee, 0⟩
  | 0x1 => some ⟨8, 10, 127, .ieee, 13⟩
  | 0x2 => some ⟨8, 7, 127, .ieee, 0⟩
  | 0x3 => some ⟨5, 10, 15, .ieee, 0⟩
  | 0x4 => some ⟨5, 2, 15, .ieee, 0⟩
  | 0x5 => some ⟨4, 3, 7, .e4m3, 0⟩
  | 0x6 => some ⟨3, 2, 3, .none, 0⟩
  | 0x7 => some ⟨2, 3, 1, .none, 0⟩
  | 0x8 => some ⟨2, 1, 1, .none, 0⟩
  | _ => none

/-- The integer formats: width and whether signed (R100). -/
def intFmt : Nat → Option (Nat × Bool)
  | 0x9 => some (32, true)
  | 0xA => some (16, true)
  | 0xB => some (8, true)
  | 0xC => some (8, false)
  | 0xD => some (4, true)
  | _ => none

/-- The stored width of a format in bits, 8 for the 6-bit formats (R101). -/
def fmtBits : Nat → Nat
  | 0x0 => 32
  | 0x1 => 32
  | 0x2 => 16
  | 0x3 => 16
  | 0x8 => 4
  | 0x9 => 32
  | 0xA => 16
  | 0xD => 4
  | _ => 8

/-- A format code the module supports (R98). -/
def fmtOk (f : Nat) : Bool := decide (f < 0xF)

/-- The fraction table G of R106. -/
def dltG : Nat → Nat
  | 0 => 0 | 1 => 6 | 2 => 12 | 3 => 18 | 4 => 24 | 5 => 31 | 6 => 38 | 7 => 45
  | 8 => 53 | 9 => 61 | 10 => 69 | 11 => 78 | 12 => 87 | 13 => 97 | 14 => 107 | _ => 117

/-- The DLT8 magnitude m(C), 0 for C = 0 (R102, R106). -/
def dltMag (c : Nat) : Num :=
  if c = 0 then .zero else .fin false (128 + dltG (c % 16)) ((c / 16 : Nat) - 11 : Int)

/-- A DLT8 element before its page scale (R102). -/
def decodeDlt8 (v : Nat) : Num :=
  if bit v 7 then (dltMag (v % 128)).neg else dltMag (v % 128)

/-- Decode one element of format `f` (R103 to R106); subnormals flush to a zero of their sign. -/
def decodeFmt (f v : Nat) : Num :=
  match floatFmt f with
  | some p =>
    let frac := bits v p.lo p.fb
    let e := bits v (p.lo + p.fb) p.eb
    let s := bit v (p.lo + p.fb + p.eb)
    let top := 2 ^ p.eb - 1
    let special : Bool := match p.special with
      | .ieee => decide (e = top)
      | .e4m3 => decide (e = top ∧ frac = 7)
      | .none => false
    if special then (if p.special = .ieee ∧ frac = 0 then .inf s else .nan)
    else if e = 0 then .fin s 0 0
    else .fin s (2 ^ p.fb + frac) ((e : Int) - p.bias - p.fb)
  | none =>
    match intFmt f with
    | some (w, true) => let i := signed w v; if i = 0 then .zero else .ofInt i 0
    | some (w, false) => .fin false (v % 2 ^ w) 0
    | none => decodeDlt8 v

/-- Decode an FP32 word. -/
def decode32 (v : Nat) : Num := decodeFmt 0 v

/-- Rounding of an encoder: nearest-even, or stochastic with the element's 16-bit field (R113). -/
inductive Rounding
  | nearest
  | stochastic (r : Nat)
deriving DecidableEq, Repr

/-- Round a magnitude to a whole number of units of 2^`lo` (R108 step 1, R113). -/
def roundAt (rd : Rounding) (m : Nat) (e lo : Int) : Nat :=
  if e ≥ lo then scaleTo m e lo
  else
    let k := (lo - e).toNat
    let q := m >>> k
    let r := m % 2 ^ k
    match rd with
    | .nearest =>
      let half := 2 ^ (k - 1)
      if r > half || (r == half && q % 2 == 1) then q + 1 else q
    | .stochastic f =>
      let d := if k ≥ 16 then r >>> (k - 16) else r <<< (16 - k)
      if d > f then q + 1 else q

/-- The largest finite significand and exponent of a floating format. -/
def FloatFmt.largest (p : FloatFmt) : Nat × Int :=
  match p.special with
  | .ieee => (2 ^ (p.fb + 1) - 1, (2 ^ p.eb - 2 : Nat) - (p.bias : Int) - p.fb)
  | .e4m3 => (2 ^ (p.fb + 1) - 2, (2 ^ p.eb - 1 : Nat) - (p.bias : Int) - p.fb)
  | .none => (2 ^ (p.fb + 1) - 1, (2 ^ p.eb - 1 : Nat) - (p.bias : Int) - p.fb)

/-- Pack sign, exponent field and fraction of a floating format. -/
def FloatFmt.pack (p : FloatFmt) (s : Bool) (e frac : Nat) : Nat :=
  (frac + e * 2 ^ p.fb + b2n s * 2 ^ (p.fb + p.eb)) * 2 ^ p.lo

/-- The encoding of a normal value m * 2^e whose significand fits. -/
def FloatFmt.packNormal (p : FloatFmt) (s : Bool) (m : Nat) (e : Int) : Nat :=
  let l := leadPos m e
  let sh := (p.fb : Int) - (bitLen m - 1 : Nat)
  let sig := if sh ≥ 0 then m <<< sh.toNat else m >>> (-sh).toNat
  p.pack s (l + p.bias).toNat (sig % 2 ^ p.fb)

/-- What infinity encodes as (R109). -/
def FloatFmt.inf (p : FloatFmt) (s : Bool) : Nat :=
  match p.special with
  | .ieee => p.pack s (2 ^ p.eb - 1) 0
  | .e4m3 => 0x7F
  | .none => p.packNormal s p.largest.1 p.largest.2

/-- What NaN encodes as (R109). -/
def FloatFmt.nan (p : FloatFmt) : Nat :=
  match p.special with
  | .ieee => p.pack false (2 ^ p.eb - 1) (2 ^ (p.fb - 1))
  | .e4m3 => 0x7F
  | .none => 0

/-- The index C with m(C) ≤ |v| < m(C + 1), searched downward from `c` (R113). -/
def dltIndex (v : Num) : Nat → Nat
  | 0 => 0
  | c + 1 => if v.lt (dltMag (c + 1)) then dltIndex v c else c + 1

/-- Encode to DLT8 a value already divided by its scale (R109, R113); a zero keeps its sign. -/
def encodeDlt8 (rd : Rounding) (x : Num) : Nat :=
  let sgn := if x.sign then 0x80 else 0
  match x with
  | .nan => 0
  | .inf _ => sgn + 127
  | .fin _ m e =>
    let v : Num := .fin false m e
    let c := dltIndex v 127
    if c = 127 then sgn + 127
    else
      let lo := dltMag c
      let hi := dltMag (c + 1)
      match lo, hi with
      | .fin _ ml el, .fin _ mh eh =>
        let b := min e (min el eh)
        let a := scaleTo m e b - scaleTo ml el b
        let w := scaleTo mh eh b - scaleTo ml el b
        let up := match rd with
          | .nearest => decide (2 * a > w) || (decide (2 * a = w) && decide (c % 2 = 1))
          | .stochastic r => decide (65536 * a / w > r)
        sgn + (if up then c + 1 else c)
      | _, _ => sgn

/-- Encode a value to format `f` (R108, R109, R113).  DESIGN CHOICE (log 121): an integer format under stochastic rounding (R113) rounds
stochastically at its unit bit, where R109 rounds integers to nearest. -/
def encodeFmt (f : Nat) (sat : Bool) (rd : Rounding) (x : Num) : Nat :=
  match floatFmt f with
  | some p =>
    match x with
    | .nan => p.nan
    | .inf s => p.inf s
    | .fin s m e =>
      if m = 0 then p.pack s 0 0
      else
        let lo := leadPos m e - p.fb
        let q := roundAt rd m e lo
        let big := p.largest
        if leadPos q lo < 1 - (p.bias : Int) then p.pack s 0 0
        else if (Num.fin false big.1 big.2).lt (.fin false q lo) then
          (if p.special = .ieee ∧ !sat then p.inf s else p.packNormal s big.1 big.2)
        else p.packNormal s q lo
  | none =>
    match intFmt f with
    | some (w, sg) =>
      let hi : Int := if sg then (2 ^ (w - 1) : Nat) - 1 else (2 ^ w : Nat) - 1
      let low : Int := if sg then -(2 ^ (w - 1) : Nat) else 0
      match x with
      | .nan => 0
      | .inf s => unsigned w (if s then low else hi)
      | .fin s m e =>
        let q : Int := roundAt rd m e 0
        unsigned w (max low (min hi (if s then -q else q)))
    | none => encodeDlt8 rd x

/-- The FP32 word of a chain value. -/
def encode32 (x : Num) : Nat := encodeFmt 0 false .nearest x

/-- Read an accumulator entry's word as R132 lays down: its value. -/
def entryVal (w : Nat) : Num :=
  let sig := bits w 0 40
  let e := bits w 40 10
  let s := bit w 50
  if e = 0 then (if sig = 0 then .fin s 0 0 else .nan)
  else if e = 0x3FF then (if sig = 0 then .inf s else .nan)
  else if bit sig 39 then .fin s sig ((e : Int) - 511 - 39) else .nan

/-- The INEXACT bit of an entry. -/
def entryInexact (w : Nat) : Bool := bit w 51

/-- The LEVEL of an entry. -/
def entryLevel (w : Nat) : Nat := bits w 52 6

/-- The NODE bit of an entry. -/
def entryNode (w : Nat) : Bool := bit w 58

/-- The word of an entry (R132): a value of at most 40 significand bits with its INEXACT, LEVEL and NODE. -/
def entryWord (x : Num) (inexact : Bool) (level : Nat) (node : Bool) : Nat :=
  let v := match x with
    | .nan => 0x80_0000_0000 + 0x3FF * 2 ^ 40
    | .inf s => 0x3FF * 2 ^ 40 + b2n s * 2 ^ 50
    | .fin s m e =>
      if m = 0 then b2n s * 2 ^ 50
      else
        let sh := 40 - (bitLen m : Int)
        let sig := if sh ≥ 0 then m <<< sh.toNat else m >>> (-sh).toNat
        sig + (leadPos m e + 511).toNat * 2 ^ 40 + b2n s * 2 ^ 50
  v + b2n inexact * 2 ^ 51 + (level % 64) * 2 ^ 52 + b2n node * 2 ^ 58

/-- A word loaded by RESTORE: bits [63:59] ignored, NaN made canonical, the other bits kept (R132). -/
def entryClean (w : Nat) : Nat := entryWord (entryVal w) (entryInexact w) (entryLevel w) (entryNode w)

end Sys2Proof.Machine
end

