-- ==== Sys2Proof/Machine/Fp.lean ====
section
/-! DEFINITION. The chain's FP32 arithmetic (R184), its primitives and composites (R192, R193), the reductions'
choices (R198), and the damped 8 x 8 solver (R232). -/

namespace Sys2Proof.Machine

def fAdd (a b : Num) : Num := fp32 (a.add b)
def fSub (a b : Num) : Num := fp32 (a.add b.neg)
def fMul (a b : Num) : Num := fp32 (a.mul b)
def fFma (a b c : Num) : Num := fp32 ((a.mul b).add c)

/-- A small integer or power of two as a chain value. -/
def fInt (i : Int) : Num := .ofInt i 0

/-- One half. -/
def fHalf : Num := .fin false 1 (-1)

/-- Integer square root by bits: the largest r below 2^k with r*r at most n, extending `r`. -/
def isqrtGo (n : Nat) : Nat → Nat → Nat
  | 0, r => r
  | k + 1, r => let r' := r + 2 ^ k; isqrtGo n k (if r' * r' ≤ n then r' else r)

/-- Integer square root. -/
def isqrt (n : Nat) : Nat := isqrtGo n (bitLen n / 2 + 1) 0

/-- The correctly rounded quotient of two significands, one exponent apart: exact bits and a sticky bit. -/
def divSig (m : Nat) (e : Int) (m' : Nat) (e' : Int) (s : Bool) : Num :=
  let k := bitLen m' + 32
  let q := (m <<< k) / m'
  let r := (m <<< k) % m'
  fp32 (.fin s (2 * q + b2n (r ≠ 0)) (e - e' - k - 1))

/-- Correctly rounded FP32 division (R232). -/
def fDiv : Num → Num → Num
  | .nan, _ => .nan
  | _, .nan => .nan
  | .inf _, .inf _ => .nan
  | .inf s, .fin t _ _ => .inf (s != t)
  | .fin s _ _, .inf t => .fin (s != t) 0 0
  | .fin s m e, .fin t m' e' =>
    if m' = 0 then (if m = 0 then .nan else .inf (s != t))
    else if m = 0 then .fin (s != t) 0 0
    else divSig m e m' e' (s != t)

/-- RECIP (R193). -/
def fRecip (x : Num) : Num := fDiv (fInt 1) x

/-- The square root of m * 2^e as exact bits and a sticky bit. -/
def sqrtSig (m : Nat) (e : Int) : Num :=
  let m1 := if e % 2 = 0 then m else 2 * m
  let e1 := if e % 2 = 0 then e else e - 1
  let n := m1 <<< 64
  let r := isqrt n
  .fin false (2 * r + b2n (r * r ≠ n)) (e1 / 2 - 33)

/-- SQRT (R193). -/
def fSqrt : Num → Num
  | .nan => .nan
  | .inf s => if s then .nan else .inf false
  | .fin s m e => if m = 0 then .fin s 0 0 else if s then .nan else fp32 (sqrtSig m e)

/-- RSQRT (R193): the square root of 2^(2k) / m, as exact bits and a sticky bit. -/
def fRsqrt : Num → Num
  | .nan => .nan
  | .inf s => if s then .nan else .fin false 0 0
  | .fin s m e =>
    if m = 0 then .inf s
    else if s then .nan
    else
      let m1 := if e % 2 = 0 then m else 2 * m
      let e1 := if e % 2 = 0 then e else e - 1
      let k := bitLen m1 + 40
      let r := isqrt (2 ^ (2 * k) / m1)
      fp32 (.fin false (2 * r + b2n (r * r * m1 ≠ 2 ^ (2 * k))) (-(e1 / 2) - k - 1))

/-- The fraction bits of the fixed-point evaluation of EXP and LOG. -/
def fixP : Nat := 320

/-- Sum of y^k / k! in fixed point: `t` is the running term, `k` its index. -/
def expSeries (y : Nat) : Nat → Nat → Nat → Nat → Nat
  | 0, _, _, acc => acc
  | n + 1, k, t, acc => let t' := t * y / 2 ^ fixP / k; expSeries y n (k + 1) t' (acc + t')

/-- Square `n` times in fixed point. -/
def sqTimes : Nat → Nat → Nat
  | 0, v => v
  | n + 1, v => sqTimes n (v * v / 2 ^ fixP)

/-- e^x in fixed point, for x given in fixed point: the series at x / 2^16, squared 16 times. -/
def expFix (x : Nat) : Nat := sqTimes 16 (expSeries (x / 2 ^ 16) 40 1 (2 ^ fixP) (2 ^ fixP))

/-- |x| in fixed point. -/
def toFix (m : Nat) (e : Int) : Nat :=
  let s := e + fixP
  if s ≥ 0 then m <<< s.toNat else m >>> (-s).toNat

/-- EXP, correctly rounded (R192, R193). -/
def fExp : Num → Num
  | .nan => .nan
  | .inf s => if s then .fin false 0 0 else .inf false
  | .fin s m e =>
    if m = 0 then fInt 1
    else if leadPos m e ≥ 8 then (if s then .fin false 0 0 else .inf false)
    else
      let v := expFix (toFix m e)
      if s then fp32 (.fin false (2 ^ (2 * fixP) / v * 2 + 1) (-(fixP : Int) - 1))
      else fp32 (.fin false (2 * v + 1) (-(fixP : Int) - 1))

/-- Sum of z^(2k+1) / (2k+1) in fixed point. -/
def atanhSeries (z2 : Nat) : Nat → Nat → Nat → Nat → Nat
  | 0, _, _, acc => acc
  | n + 1, k, t, acc => atanhSeries z2 n (k + 2) (t * z2 / 2 ^ fixP) (acc + t / k)

/-- ln(a / b) in fixed point for b ≤ a ≤ 2 b: twice atanh((a - b) / (a + b)). -/
def lnFix (a b : Nat) : Nat :=
  let z := ((a - b) <<< fixP) / (a + b)
  2 * atanhSeries (z * z / 2 ^ fixP) 110 1 z 0

/-- LOG, correctly rounded (R192, R193): ln of the significand plus the exponent times ln 2. -/
def fLog : Num → Num
  | .nan => .nan
  | .inf s => if s then .nan else .inf false
  | .fin s m e =>
    if m = 0 then .inf true
    else if s then .nan
    else
      let k := bitLen m - 1
      if m = 2 ^ k ∧ e = -(k : Int) then .fin false 0 0
      else
        let f : Int := lnFix m (2 ^ k)
        let v : Int := f + (leadPos m e) * lnFix 2 1
        fp32 (.fin (decide (v < 0)) (2 * v.natAbs + 1) (-(fixP : Int) - 1))

/-- The constants of R192. -/
def geluC : Num := decode32 0x3F4C422A
def geluA : Num := decode32 0x3D372713
def geluB : Num := fMul (fInt 3) geluA

def fSigmoid (x : Num) : Num := fRecip (fAdd (fInt 1) (fExp x.neg))
def fTanh (x : Num) : Num := fSub (fMul (fInt 2) (fSigmoid (fMul (fInt 2) x))) (fInt 1)
def fSilu (x : Num) : Num := fMul x (fSigmoid x)
def geluU (x : Num) : Num := fMul geluC (fAdd x (fMul geluA (fMul (fMul x x) x)))
def fGelu (x : Num) : Num := fMul (fMul fHalf x) (fAdd (fInt 1) (fTanh (geluU x)))
def fRelu (x : Num) : Num := if x.isNan then .nan else if x.pos then x else .zero

/-- The function of S2 or FN by code (R192); codes 13-15 are reserved and refused at load. -/
def chainFn (code : Nat) (x : Num) : Num :=
  match code with
  | 1 => fRelu x
  | 2 => fGelu x
  | 3 => fSilu x
  | 4 => fSigmoid x
  | 5 => fTanh x
  | 6 => fExp x
  | 7 => fLog x
  | 8 => fRecip x
  | 9 => fRsqrt x
  | 10 => fSqrt x
  | 11 => fMul x x
  | 12 => x.abs
  | _ => x

/-- The derivative of MUL_DERIV by code 1-5 (R192). -/
def chainDeriv (code : Nat) (z : Num) : Num :=
  match code with
  | 1 => if z.isNan then .nan else if z.pos then fInt 1 else .zero
  | 4 => let s := fSigmoid z; fMul s (fSub (fInt 1) s)
  | 5 => let t := fTanh z; fSub (fInt 1) (fMul t t)
  | 3 => let s := fSigmoid z; fMul s (fAdd (fInt 1) (fMul z (fSub (fInt 1) s)))
  | _ =>
    let t := fTanh (geluU z)
    fAdd (fMul fHalf (fAdd (fInt 1) t))
      (fMul (fMul fHalf z)
        (fMul (fSub (fInt 1) (fMul t t)) (fMul geluC (fAdd (fInt 1) (fMul geluB (fMul z z))))))

/-- MAX (R198): NaN wins, MAX(+0, -0) is +0. -/
def fMax (a b : Num) : Num :=
  if a.isNan || b.isNan then .nan
  else if a.isZero && b.isZero then (if a.sign then b else a)
  else if a.lt b then b else a

/-- MIN (R198): NaN wins, MIN(+0, -0) is -0. -/
def fMin (a b : Num) : Num :=
  if a.isNan || b.isNan then .nan
  else if a.isZero && b.isZero then (if a.sign then a else b)
  else if b.lt a then b else a

/-- SIGN (R224). -/
def fSign (a : Num) : Num :=
  if a.isNan then .nan else if a.isZero then .zero else if a.sign then fInt (-1) else fInt 1

/-- A cell of a matrix held as a list of rows. -/
def cell (a : List (List Num)) (i j : Nat) : Num := (a.getD i []).getD j .zero

/-- Replace a cell. -/
def setCell (a : List (List Num)) (i j : Nat) (v : Num) : List (List Num) := a.set i ((a.getD i []).set j v)

/-- The outcome of the Cholesky factorisation (R232). -/
inductive CholStatus
  | ok
  | nan
  | fail
deriving DecidableEq, Repr

/-- d - x0*y0 - x1*y1 - ..., each operation rounded, in order of the list. -/
def subDot (d : Num) (xy : List (Num × Num)) : Num := xy.foldl (fun d p => fSub d (fMul p.1 p.2)) d

/-- Column `j` of the factorisation on L. -/
def cholCol (a l : List (List Num)) (j : Nat) : List (List Num) × CholStatus :=
  let d := subDot (cell a j j) ((List.range j).map (fun k => (cell l j k, cell l j k)))
  if d.isNan then (l, .nan)
  else if !d.pos then (l, .fail)
  else
    let l := setCell l j j (fSqrt d)
    ((List.range' (j + 1) (7 - j)).foldl (fun l i =>
      let s := subDot (cell a i j) ((List.range j).map (fun k => (cell l i k, cell l j k)))
      setCell l i j (fDiv s (cell l j j))) l, .ok)

/-- The factorisation from column `j`, `n` columns left. -/
def chol (a : List (List Num)) : Nat → Nat → List (List Num) → List (List Num) × CholStatus
  | 0, _, l => (l, .ok)
  | n + 1, j, l => match cholCol a l j with
    | (l', .ok) => chol a n (j + 1) l'
    | r => r

/-- The damped matrix of attempt `extra` (1 or 2). -/
def solveMat (a b : List Num) (lam : Num) (extra : Nat) : List (List Num) :=
  (List.range 8).map (fun i => (List.range 8).map (fun j =>
    let p := fMul (a.getD i .zero) (a.getD j .zero)
    if i = j then
      let d := fAdd (b.getD i .zero) lam
      fAdd p (if extra = 2 then fAdd d lam else d)
    else p))

/-- Forward then back substitution (R232). -/
def solveSub (l : List (List Num)) (r : List Num) : List Num :=
  let y := (List.range 8).foldl (fun y i =>
    let s := subDot (r.getD i .zero) ((List.range i).map (fun k => (cell l i k, y.getD k .zero)))
    y ++ [fDiv s (cell l i i)]) []
  (List.range 8).foldl (fun x n =>
    let i := 7 - n
    let s := subDot (y.getD i .zero) ((List.range' (i + 1) n).map (fun k => (cell l k i, x.getD (k - i - 1) .zero)))
    fDiv s (cell l i i) :: x) []

/-- SOLVE8 (R232): the eight results and whether the sign-only update was taken. -/
def solve8 (a b r : List Num) (lam : Num) : List Num × Bool :=
  let z := List.replicate 8 (List.replicate 8 Num.zero)
  match chol (solveMat a b lam 1) 8 0 z with
  | (_, .nan) => (List.replicate 8 .nan, false)
  | (l, .ok) => (solveSub l r, false)
  | (_, .fail) =>
    match chol (solveMat a b lam 2) 8 0 z with
    | (_, .nan) => (List.replicate 8 .nan, false)
    | (l, .ok) => (solveSub l r, false)
    | (_, .fail) => (r.map fSign, true)

end Sys2Proof.Machine
end

