-- ==== Sys2Proof/Machine/Image.lean ====
section
/-! DEFINITION. The segment image (R92, R93), the fields of execute bundles (R68) and fetch descriptors (R83), the
chain word header and stages (R188 to R190), and the structure check of R95. -/

namespace Sys2Proof.Machine

/-- A member entry of the image (R93). -/
structure MemberRef where
  ctx : Nat
  adapt : Nat
  slot : Nat
deriving DecidableEq, Repr

/-- A run of the row map (R93). -/
structure RowRun where
  first : Nat
  count : Nat
  member : Nat
deriving DecidableEq, Repr

/-- A tower's program (R93, R94): bundles, descriptors, queue words and register words. -/
structure TowerProg where
  tower : Nat
  bundles : List Nat
  descs : List Nat
  queues : List Nat
  regs : List Nat
deriving DecidableEq, Repr

/-- A parsed segment image (R92, R93). -/
structure Image where
  length : Nat
  towerSet : Nat
  earliest : Nat
  deadline : Nat
  dropLate : Bool
  spire : Bool
  training : Bool
  releaseIndex : Nat
  baseSlot : Nat
  members : List MemberRef
  rows : List RowRun
  barriers : List (Nat × Bool)
  plan : List (Nat × List Nat)
  energy : List (Nat × Nat)
  progs : List TowerProg
deriving DecidableEq, Repr

/-- `n` little-endian words of `k` bytes from offset `o`. -/
def words (bs : List Byte) (o k n : Nat) : List Nat := (List.range n).map (fun i => fieldLE bs (o + k * i) k)

/-- The towers named by a set bitmap, ascending. -/
def towersOf (set : Nat) : List Nat := setBits 64 set

/-- A tower entry's program (R93). -/
def parseProg (bs : List Byte) (o : Nat) : TowerProg :=
  { tower := fieldLE bs o 1
    bundles := words bs (fieldLE bs (o + 0x10) 8) 32 (fieldLE bs (o + 8) 4)
    descs := words bs (fieldLE bs (o + 0x18) 8) 64 (fieldLE bs (o + 0xC) 4)
    queues := words bs (fieldLE bs (o + 0x20) 8) 8 16
    regs := words bs (fieldLE bs (o + 0x28) 8) 8 32 }

/-- The image of a list of bytes (R92, R93); its fields mean what they say once `checkImage` passes. -/
def parseImage (bs : List Byte) : Image :=
  let set := fieldLE bs 0x18 8
  let fl := fieldLE bs 0x30 4
  { length := fieldLE bs 0x10 8
    towerSet := set
    earliest := fieldLE bs 0x20 8
    deadline := fieldLE bs 0x28 8
    dropLate := bit fl 0
    spire := bit fl 1
    training := bit fl 2
    releaseIndex := fieldLE bs 0x34 1
    baseSlot := fieldLE bs 0x35 1
    members := (words bs (fieldLE bs 0x48 8) 8 (fieldLE bs 0x36 2)).map
      (fun w => ⟨bits w 0 16, bits w 16 16, bits w 32 16⟩)
    rows := (words bs (fieldLE bs 0x50 8) 8 (fieldLE bs 0x3C 4)).map
      (fun w => ⟨bits w 0 32, bits w 32 24, bits w 56 8⟩)
    barriers := (words bs (fieldLE bs 0x58 8) 8 (fieldLE bs 0x38 4)).map (fun w => (bits w 0 40, bit w 40))
    plan := (List.range (fieldLE bs 0x40 4)).map (fun i =>
      let o := fieldLE bs 0x60 8 + 260 * i
      (fieldLE bs o 4, words bs (o + 4) 2 128))
    energy := (words bs (fieldLE bs 0x68 8) 8 (fieldLE bs 0x44 4)).map (fun w => (bits w 0 32, bits w 32 32))
    progs := (List.range (popcount 64 set)).map (fun i => parseProg bs (fieldLE bs 0x70 8 + 64 * i)) }

/-- The member the row map binds to a segment row (R93). -/
def Image.memberOf (im : Image) (row : Nat) : Option Nat :=
  (im.rows.find? (fun r => r.first ≤ row && row < r.first + r.count)).map (·.member)

/-- The program of tower `t`. -/
def Image.prog (im : Image) (t : Nat) : Option TowerProg := im.progs.find? (·.tower = t)

/-- The bytes of a tower's program region (R94). -/
def TowerProg.region (p : TowerProg) : Nat := roundUp (32 * p.bundles.length + 64 * p.descs.length) 64

/-- The first byte of the program region (R94). -/
def TowerProg.base (p : TowerProg) : Nat := 0x60_0000 - p.region

/-- A run-length list expanded at index `i`. -/
def runAt {α : Type} : List (Nat × α) → Nat → Option α
  | [], _ => none
  | (n, v) :: rs, i => if i < n then some v else runAt rs (i - n)

/-! Bundle fields (R68 and the slot tables). -/

def bWait (b : Nat) : Nat := bits b 0 16
def bCtl (b : Nat) : Nat := bits b 16 4
def bLoopCount (b : Nat) : Nat := bits b 20 20
def bLoopBody (b : Nat) : Nat := bits b 40 8 + 1
def bBarrier (b : Nat) : Nat := bits b 20 12
def bCReg (b : Nat) : Nat := bits b 20 5
def bCVal (b : Nat) : Nat := bits b 25 23
def bMop (b : Nat) : Nat := bits b 48 4
def bMGroup (b : Nat) : Nat := bits b 52 3
def bMRows (b : Nat) : Nat := bits b 55 7 + 1
def bPlanes (b : Nat) : Nat := bits b 62 2 + 1
def bMReg (b : Nat) : Nat := bits b 64 5
def bMInc (b : Nat) : Bool := bit b 69
def bInFmt (b : Nat) : Nat := bits b 70 4
def bWFmt (b : Nat) : Nat := bits b 74 4
def bStart (b : Nat) : Bool := bit b 78
def bSwap (b : Nat) : Bool := bit b 79
def bMask (b : Nat) : Nat := bits b 80 4
def bMode (b : Nat) : Nat := bits b 84 2
def bDop (b : Nat) : Nat := bits b 96 3
def bDGroup (b : Nat) : Nat := bits b 99 3
def bPageA (b : Nat) : Nat := bits b 102 5
def bRowA (b : Nat) : Nat := bits b 107 5
def bDSrc (b : Nat) : Nat := bits b 112 5
def bDDst (b : Nat) : Nat := bits b 117 5
def bRowInc (b : Nat) : Bool := bit b 122
def bVop (b : Nat) : Nat := bits b 128 4
def bVGroup (b : Nat) : Nat := bits b 132 3
def bChain (b : Nat) : Nat := bits b 135 5
def bVSrc (b : Nat) : Nat := bits b 140 5
def bVDst (b : Nat) : Nat := bits b 145 5
def bSide (b : Nat) : Nat := bits b 150 5
def bSrcInc (b : Nat) : Bool := bit b 155
def bDstInc (b : Nat) : Bool := bit b 156
def bSideEn (b : Nat) : Bool := bit b 157
def bVRows (b : Nat) : Nat := bits b 158 8 + 1
def bOutFmt (b : Nat) : Nat := bits b 166 4
def bLen (b : Nat) : Nat := bits b 170 6
def bAop (b : Nat) : Nat := bits b 176 3
def bAGroup (b : Nat) : Nat := bits b 179 3
def bGroup2 (b : Nat) : Nat := bits b 182 3
def bAReg (b : Nat) : Nat := bits b 185 5
def bAInc (b : Nat) : Bool := bit b 190
/-- Queue sub-op `i` (0 is A, 1 is B). -/
def bQop (b i : Nat) : Nat := bits b (208 + 24 * i) 3
def bQueue (b i : Nat) : Nat := bits b (211 + 24 * i) 4
def bQReg (b i : Nat) : Nat := bits b (215 + 24 * i) 5

/-! Descriptor fields (R83). -/

def dKind (d : Nat) : Nat := bits d 0 4
def dLast (d : Nat) : Bool := bit d 4
def dTurn (d : Nat) : Bool := bit d 5
def dQueue (d : Nat) : Nat := bits d 8 4
def dTurnW (d : Nat) : Nat := bits d 12 2
def dSpace (d : Nat) : Nat := bits d 16 8
def dMember (d : Nat) : Nat := bits d 24 8
def dRows (d : Nat) : Nat := bits d 32 32
def dAddr (d : Nat) : Nat := bits d 64 64
def dAddrStride (d : Nat) : Nat := bits d 128 32
def dRowBytes (d : Nat) : Nat := bits d 160 32
def dBufOff (d : Nat) : Nat := bits d 192 32
def dBufStride (d : Nat) : Nat := bits d 224 32
def dIssue (d : Nat) : Nat := bits d 256 40
def dDeadline (d : Nat) : Nat := bits d 320 40
def dRepeat (d : Nat) : Nat := bits d 384 32
def dBeatStep (d : Nat) : Nat := bits d 416 32
def dAddrStep (d : Nat) : Nat := bits d 448 32
def dFwd (d : Nat) : Nat := bits d 480 12
def dBudget (d : Nat) : Nat := bits d 496 16

/-- A descriptor fills a queue (inbound), by its kind (R84). -/
def dInbound (d : Nat) : Bool := dKind d = 0 || dKind d = 2 || dKind d = 4 || dKind d = 5

/-! Queue words and register words (R93). -/

def qEn (w : Nat) : Bool := bit w 0
def qOut (w : Nat) : Bool := bit w 1
def qBase (w : Nat) : Nat := bits w 8 23
def qSlot (w : Nat) : Nat := bits w 32 22

/-! Chain words (R188 to R190): 256 bits. -/

def cInFmt (w : Nat) : Nat := bits w 0 4
def cSideFmt (w : Nat) : Nat := bits w 4 4
def cRscale (w : Nat) : Nat := bits w 8 5
def cRscaleEn (w : Nat) : Bool := bit w 13
def cSscale (w : Nat) : Nat := bits w 14 5
def cSscaleEn (w : Nat) : Bool := bit w 19
def cOscale (w : Nat) : Nat := bits w 20 5
def cOscaleEn (w : Nat) : Bool := bit w 25
def cCscaleTb (w : Nat) : Nat := bits w 26 2
def cCscaleEn (w : Nat) : Bool := bit w 28
def cAuxTb (w : Nat) : Nat := bits w 29 2
def cAuxEn (w : Nat) : Bool := bit w 31
def cRed (w : Nat) : Nat := bits w 32 5
def cRedAcc (w : Nat) : Bool := bit w 37
def cDstTb (w : Nat) : Nat := bits w 38 3
def cRow (w : Nat) : Nat := bits w 41 5
def cRowEn (w : Nat) : Bool := bit w 46
def cEidx (w : Nat) : Nat := bits w 47 5
def cBlk (w : Nat) : Nat := bits w 52 5
/-- The OP of stage `s`. -/
def cOp (w s : Nat) : Nat := bits w (64 + 24 * s) 4
/-- The ARG of stage `s`. -/
def cArg (w s : Nat) : Nat := bits w (68 + 24 * s) 20

/-- A stage uses the side operand (R191 rule 2). -/
def cUsesSide (w : Nat) : Bool := cOp w 1 = 3 || cOp w 3 = 1 || cOp w 3 = 2

/-- A stage reads the auxiliary vector. -/
def cUsesAux (w : Nat) : Bool := cOp w 1 = 1 || cOp w 1 = 2 || cOp w 3 = 4

/-- S1 reads RED_A. -/
def cRowVal (w : Nat) : Bool := cOp w 1 = 6 || cOp w 1 = 7

/-- The bits of ARG each stage operation names (R189, R190); none: the OP is reserved. -/
def cArgMask (s op : Nat) : Option Nat :=
  match s with
  | 0 => if op ≤ 1 then some 0 else none
  | 1 => if op = 4 || op = 5 then some 0xFFFF else if op ≤ 7 then some 0 else none
  | 2 => if op ≤ 12 then some 0 else none
  | 3 => if op = 2 then some 0xF else if op = 3 then some 0x3FF else if op ≤ 4 then some 0 else none
  | 4 => if op = 1 || op = 5 then some 0x7F else if op = 4 then some 0x3 else if op ≤ 3 then some 0 else none
  | 5 => if op ≤ 6 then some 0 else if op = 7 then some 0x3E0 else if op ≤ 9 then some 0x3FF else none
  | 6 => if op ≤ 1 then some 0x1FFFF else if op = 2 then some 0 else none
  | _ => if op = 1 then some 0xFFFF else if op ≤ 2 then some 0 else none

/-- The reasons of R191 that the word alone shows: rules 1 (but for OUT_FMT), 2 (width), 3, 4, 5, 8 (S7), 10, 11, 12. -/
def chainWordOk (w : Nat) : Bool :=
  let stages := (List.range 8).all (fun s => match cArgMask s (cOp w s) with
    | some m => cArg w s &&& m = cArg w s
    | none => false)
  let reads := (if cCscaleEn w then [cCscaleTb w] else []) ++ (if cAuxEn w then [cAuxTb w] else [])
    ++ (if cOp w 4 = 4 then [cArg w 4 % 4] else [])
  stages && bits w 57 7 = 0 && decide (cDstTb w ≤ 4) && cInFmt w != 0xF && cSideFmt w != 0xF
    && !(cUsesSide w && fmtBits (cSideFmt w) > 16)
    && !(cDstTb w != 0 && reads.contains (cDstTb w - 1))
    && !(cRowVal w && cOp w 5 != 0)
    && !(cOp w 6 = 2 && cOp w 5 = 0)
    && !(cDstTb w != 0 && cOp w 7 != 0)
    && !(cOp w 3 = 2 && !(1 ≤ cArg w 3 && cArg w 3 ≤ 5))
    && !(cOp w 7 = 1 && cArg w 7 = 0)
    && !(cUsesAux w && !cAuxEn w)

/-- The vector slot `b` may name chain word `w` (R191 rules 1, 2 and 6 to 9). -/
def chainUseOk (w b : Nat) : Bool :=
  let vop := bVop b
  let ob := fmtBits (bOutFmt b)
  let rowBytes := 128 * (bLen b + 1) * ob / 8
  chainWordOk w && bSideEn b == cUsesSide w
    && !(vop = 3 && cOp w 6 != 2)
    && (if vop = 1 ∧ ob = 32 then cOp w 7 = 2 else cOp w 7 != 2)
    && !(cDstTb w != 0 && (bVRows b > 128 || rowBytes > 256 || cOp w 7 != 0))
    && !(7 ≤ cOp w 5 && bVRows b > 128)

/-! The structure check (R95). -/

/-- The half-open ranges of the image's tables, each with a kind; ranges of kind 1 (bundles) or 2 (descriptors) may be
shared whole (R93, R95 test 1). -/
def imageTables (bs : List Byte) : List (Nat × Nat × Nat) :=
  let n := popcount 64 (fieldLE bs 0x18 8)
  let tow := fieldLE bs 0x70 8
  [(0, 0x100, 0), (fieldLE bs 0x48 8, 8 * fieldLE bs 0x36 2, 0), (fieldLE bs 0x50 8, 8 * fieldLE bs 0x3C 4, 0),
   (fieldLE bs 0x58 8, 8 * fieldLE bs 0x38 4, 0), (fieldLE bs 0x60 8, 260 * fieldLE bs 0x40 4, 0),
   (fieldLE bs 0x68 8, 8 * fieldLE bs 0x44 4, 0), (tow, 64 * n, 0)] ++
  (if tow + 64 * n ≤ bs.length then
    (List.range n).flatMap (fun i =>
      let o := tow + 64 * i
      [(fieldLE bs (o + 0x10) 8, 32 * fieldLE bs (o + 8) 4, 1), (fieldLE bs (o + 0x18) 8, 64 * fieldLE bs (o + 0xC) 4, 2),
       (fieldLE bs (o + 0x20) 8, 128, 0), (fieldLE bs (o + 0x28) 8, 256, 0)])
  else [])

/-- Two table ranges may stand together. -/
def tablesOk (a b : Nat × Nat × Nat) : Bool :=
  a.1 + a.2.1 ≤ b.1 || b.1 + b.2.1 ≤ a.1 || a.2.1 = 0 || b.2.1 = 0 || (a = b && a.2.2 != 0)

/-- Every pair of a list satisfies `p`. -/
def allPairs {α : Type} (p : α → α → Bool) : List α → Bool
  | [] => true
  | x :: xs => xs.all (p x) && allPairs p xs

/-- Test 1 (R95). -/
def imageTest1 (bs : List Byte) (submitted : Nat) : Bool :=
  fieldLE bs 0 4 = 0x5A56_4953 && fieldLE bs 4 2 = 1 && fieldLE bs 6 2 = 0x100
    && fieldLE bs 8 8 = submitted && decide (submitted ≤ 32 * 2 ^ 20) && decide (bs.length = submitted)
    && decide (fieldLE bs 0x35 1 ≤ 1) && bits (fieldLE bs 0x30 4) 3 29 = 0 && allZero (slice bs 0x78 136)
    && (imageTables bs).all (fun t => decide (t.1 + t.2.1 ≤ bs.length))
    && allPairs tablesOk (imageTables bs)
    && (words bs (fieldLE bs 0x48 8) 8 (fieldLE bs 0x36 2)).all (fun w => bits w 48 16 = 0)
    && (words bs (fieldLE bs 0x58 8) 8 (fieldLE bs 0x38 4)).all (fun w => bits w 41 23 = 0)
    && (List.range (popcount 64 (fieldLE bs 0x18 8))).all (fun i =>
      let o := fieldLE bs 0x70 8 + 64 * i
      allZero (slice bs (o + 1) 7) && allZero (slice bs (o + 0x30) 16)
        && (words bs (fieldLE bs (o + 0x20) 8) 8 16).all (fun w => bits w 2 6 = 0 && bit w 31 = false && bits w 54 10 = 0)
        && (words bs (fieldLE bs (o + 0x28) 8) 8 32).all (fun w => bit w 23 = false && bits w 47 17 = 0))

/-- Test 2. -/
def imageTest2 (im : Image) : Bool :=
  decide (1 ≤ im.length) && decide (im.length < 2 ^ 40) && im.towerSet != 0
    && im.progs.map (·.tower) == towersOf im.towerSet

/-- Strictly increasing. -/
def increasing : List Nat → Bool
  | a :: b :: r => decide (a < b) && increasing (b :: r)
  | _ => true

/-- Test 3. -/
def imageTest3 (im : Image) : Bool :=
  increasing (im.barriers.map (·.1)) && im.barriers.all (·.1 < im.length) && decide (im.barriers.length ≤ 4096)

/-- The sum of the run lengths of a run list. -/
def runTotal {α : Type} (r : List (Nat × α)) : Nat := (r.map (·.1)).sum

/-- Test 4. -/
def imageTest4 (im : Image) : Bool :=
  runTotal im.plan = ceilDiv im.length 4096 && runTotal im.energy = ceilDiv im.length 4096

/-- Two row-map runs do not overlap. -/
def rowRunsApart (a b : RowRun) : Bool := a.first + a.count ≤ b.first || b.first + b.count ≤ a.first

/-- Test 5.  DESIGN CHOICE (log 127): R92's limits on a row-map run's COUNT and on ROWMAP_COUNT, to which no test is assigned, are
judged here. -/
def imageTest5 (im : Image) : Bool :=
  decide (1 ≤ im.members.length) && decide (im.members.length ≤ 256)
    && im.members.all (fun m => decide (m.adapt ≤ 16383) && decide (m.slot ≤ 4095))
    && decide ((im.members.map (·.adapt)).Nodup) && allPairs rowRunsApart im.rows
    && im.rows.all (fun r => decide (r.member < im.members.length) && decide (1 ≤ r.count) && decide (im.rows.length ≤ 65536))

/-- The slots of one bundle hold no reserved code, field or format (test 6); `chain` is the context's chain table.  The fields of a NOP
slot are reserved only where its table says so (log 45). -/
def bundleOk (spire heritage : Bool) (chain : List Nat) (b : Nat) : Bool :=
  let ctl := match bCtl b with
    | 0 => bits b 20 28 = 0
    | 1 => decide (1 ≤ bLoopCount b)
    | 2 => bits b 32 16 = 0
    | 3 => bits b 20 28 = 0
    | 4 => true
    | 5 => true
    | 6 => true
    | _ => false
  let even (g : Nat) : Bool := !spire || g % 2 = 0
  let mat := match bMop b with
    | 0 => bits b 86 10 = 0
    | 1 => bits b 52 12 = 0 && bits b 70 4 = 0 && bits b 78 2 = 0 && bits b 84 12 = 0 && bWFmt b != 0xF
    | 2 => bits b 80 4 = 0 && bits b 86 10 = 0 && bInFmt b != 0xF && bWFmt b != 0xF && even (bMGroup b)
      && (bMode b = 0 || (bInFmt b = 0 && bWFmt b = 0)) && (!heritage || decide (bMode b ≤ 1))
      && (!(fmtBits (bInFmt b) = 4 && fmtBits (bWFmt b) = 4) || bPlanes b % 2 = 0)
    | _ => false
  let del := decide (bDop b ≤ 3) && bits b 123 5 = 0
    && (!(bDop b = 1 || bDop b = 2) || even (bDGroup b))
  let vec := match bVop b with
    | 0 => true
    | 4 => bVGroup b = 0 && !bSideEn b && bOutFmt b = 0 && bLen b = 0
    | 1 => bOutFmt b != 0xF && bLen b = 0 && decide (bVRows b ≤ 128) && even (bVGroup b)
      && chainUseOk (chain.getD (bChain b) 0) b
    | 2 => bOutFmt b != 0xF && chainUseOk (chain.getD (bChain b) 0) b
    | 3 => bOutFmt b != 0xF && chainUseOk (chain.getD (bChain b) 0) b
    | _ => false
  let acc := decide (bAop b ≤ 4) && bits b 191 17 = 0 && (bAop b = 0 || even (bAGroup b))
    && (bAop b != 4 || even (bGroup2 b))
  let q := (List.range 2).all (fun i => decide (bQop b i ≤ 4) && bits b (220 + 24 * i) 12 = 0)
  ctl && mat && del && vec && acc && q && !(spire && heritage)

/-- The loop bodies of a bundle list as (start, last) pairs. -/
def loopBodies (bs : List Nat) : List (Nat × Nat) :=
  (bs.zipIdx.filter (fun e => bCtl e.1 = 1)).map (fun e => (e.2, e.2 + bLoopBody e.1 - 1))

/-- Loops nest at most four deep, inner bodies wholly inside outer ones, all inside the program (R71). -/
def loopsOk (bs : List Nat) : Bool :=
  let ls := loopBodies bs
  ls.all (fun l => decide (l.2 < bs.length) && decide ((ls.filter (fun o => o.1 ≤ l.1 && l.1 ≤ o.2)).length ≤ 4)
    && ls.all (fun o => l.2 < o.1 || o.2 < l.1 || (o.1 ≤ l.1 && l.2 ≤ o.2) || (l.1 ≤ o.1 && o.2 ≤ l.2)))

/-- Test 6. -/
def imageTest6 (im : Image) (heritage : Bool) (chain : List Nat) : Bool :=
  !(im.spire && heritage) && im.progs.all (fun p =>
    p.bundles.all (bundleOk im.spire heritage chain) && loopsOk p.bundles
      && ((p.bundles.filter (fun b => bCtl b = 3)).length = 1) && (p.bundles.getLast?.map bCtl == some 3))

/-- Test 7. -/
def imageTest7 (im : Image) : Bool :=
  im.progs.all (fun p => p.bundles.all (fun b => (List.range 2).all (fun i =>
    let w := p.queues.getD (bQueue b i) 0
    match bQop b i with
    | 0 => true
    | 1 => qEn w && !qOut w
    | 2 => qEn w && !qOut w
    | _ => qEn w && qOut w)))

/-- A descriptor against R83 to R85, R88 and R91 (test 8). -/
def descOk (im : Image) (p : TowerProg) (d : Nat) : Bool :=
  let k := dKind d
  let sp := dSpace d
  let spaceOk := match k with
    | 0 => decide (sp ≤ 2)
    | 1 => sp = 1 || sp = 2
    | 2 => sp = 3
    | 3 => sp = 3
    | 4 => sp = 1
    | 5 => sp = 4
    | _ => false
  let w := 4 * 2 ^ dTurnW d
  let q := p.queues.getD (dQueue d) 0
  let n := dRepeat d
  let lastDl := dDeadline d + (n - 1) * dBeatStep d
  let turnOk := if dTurn d then (k = 0 || k = 2) && dTurnW d != 3 && dRows d % 128 = 0 && dRowBytes d % (16 * w) = 0
    else dTurnW d != 3
  let yieldOk := im.barriers.all (fun y => !y.2 || (List.range n).all (fun i =>
    !(dIssue d + i * dBeatStep d < y.1 && y.1 < dDeadline d + i * dBeatStep d)))
  spaceOk && bits d 6 2 = 0 && bits d 14 2 = 0 && bits d 296 24 = 0 && bits d 360 24 = 0 && bits d 492 4 = 0
    && (k = 5 || bits d 480 32 = 0) && qEn q && qOut q != dInbound d
    && decide (1 ≤ dRows d) && decide (dRows d ≤ 65536) && dRowBytes d % 64 = 0 && decide (64 ≤ dRowBytes d)
    && decide (dRowBytes d ≤ 2 ^ 20) && decide (1 ≤ n) && decide (n ≤ 65536)
    && dAddr d % 64 = 0 && dAddrStride d % 64 = 0 && dAddrStep d % 64 = 0 && dBufOff d % 64 = 0 && dBufStride d % 64 = 0
    && decide (dIssue d ≤ dDeadline d) && decide (lastDl < im.length) && turnOk
    && decide (dMember d < im.members.length) && (n = 1 || dLast d) && yieldOk

/-- Test 8. -/
def imageTest8 (im : Image) : Bool := im.progs.all (fun p => p.descs.all (descOk im p))

/-- Test 9. -/
def imageTest9 (im : Image) : Bool :=
  im.progs.all (fun p =>
    let qs := p.queues.filter qEn
    qs.all (fun q => decide (qBase q + 16 * qSlot q ≤ p.base) && qSlot q % 64 = 0 && qSlot q != 0)
      && allPairs (fun a b => qBase a + 16 * qSlot a ≤ qBase b || qBase b + 16 * qSlot b ≤ qBase a) qs
      && p.regs.all (fun r => decide (bits r 0 23 < p.base)))

/-- Test 10. -/
def imageTest10 (im : Image) : Bool :=
  im.progs.all (fun p => decide (32 * p.bundles.length + 64 * p.descs.length ≤ 384 * 1024))

/-- The number of the first test of R95 that fails, 0 when all pass. -/
def checkImage (bs : List Byte) (submitted : Nat) (heritage : Bool) (chain : List Nat) : Nat :=
  if !imageTest1 bs submitted then 1
  else
  let im := parseImage bs
  if !imageTest2 im then 2
  else if !imageTest3 im then 3
  else if !imageTest4 im then 4
  else if !imageTest5 im then 5
  else if !imageTest6 im heritage chain then 6
  else if !imageTest7 im then 7
  else if !imageTest8 im then 8
  else if !imageTest9 im then 9
  else if !imageTest10 im then 10
  else 0

end Sys2Proof.Machine
end

