-- ==== Sys2Proof/Machine/Lattice.lean ====
section
/-! DEFINITION. The Lattice generator (R216), its counter and key (R217), and the field of an element (R114). -/

namespace Sys2Proof.Machine

/-- A 32-bit rotation to the left. -/
def rotl32 (x n : Nat) : Nat := ((x * 2 ^ n) ||| (x / 2 ^ (32 - n))) % 2 ^ 32

/-- The rotation pairs of the ten rounds (R216). -/
def latticeRot : List (Nat × Nat) :=
  [(7, 19), (13, 5), (24, 11), (3, 17), (21, 9), (15, 26), (10, 2), (27, 14), (6, 23), (18, 12)]

/-- The four words of the generator. -/
structure LatticeWords where
  x0 : Nat
  x1 : Nat
  x2 : Nat
  x3 : Nat
deriving DecidableEq, Repr

/-- One round of R216. -/
def latticeRound (k0 k1 rnd a b : Nat) (x : LatticeWords) : LatticeWords :=
  let x0 := (x.x0 + x.x1 + k0 + rnd * 0x5A3C96E1) % 2 ^ 32
  let x3 := rotl32 (x.x3 ^^^ x0) a
  let x2 := (x.x2 + x3 + k1 + rnd * 0x2D71B4C7) % 2 ^ 32
  let x1 := rotl32 (x.x1 ^^^ x2) b
  ⟨x1, x2, x3, x0⟩

/-- The rounds from index `rnd` on. -/
def latticeGo (k0 k1 : Nat) : List (Nat × Nat) → Nat → LatticeWords → LatticeWords
  | [], _, x => x
  | (a, b) :: rs, rnd, x => latticeGo k0 k1 rs (rnd + 1) (latticeRound k0 k1 rnd a b x)

/-- The Lattice generator (R216). -/
def lattice (counter key : Nat) : Nat :=
  let x := latticeGo (bits key 0 32) (bits key 32 32) latticeRot 0
    ⟨bits counter 0 32, bits counter 32 32, bits counter 64 32, bits counter 96 32⟩
  x.x0 + x.x1 * 2 ^ 32 + x.x2 * 2 ^ 64 + x.x3 * 2 ^ 96

/-- What the random fields of a context depend on (R217, R219). -/
structure Seeding where
  seed : Nat
  stream : Nat
  step : Nat
  heritage : Bool
deriving DecidableEq, Repr

/-- The 16-bit random field of the element at `index` of tensor `t` (R114, R217). -/
def latticeField (s : Seeding) (t index : Nat) : Nat :=
  let c := if s.heritage then index / 8 + s.step * 2 ^ 32 + t * 2 ^ 64
    else index / 8 + t * 2 ^ 32 + s.step * 2 ^ 48 + s.stream * 2 ^ 80
  let key := if s.heritage then s.seed ^^^ (s.stream * 2 ^ 48) % 2 ^ 64 else s.seed
  bits (lattice c key) (16 * (index % 8)) 16

end Sys2Proof.Machine
end

