-- ==== Sys2Proof/Machine/TowerState.lean ====
section
/-! DEFINITION. The state of one tower (03 R63 to R97, 05, 06, 07): stores, planes, groups, registers, queues, fetch
engine, schedule and faults; and what a running segment's towers latch at release (R212). -/

namespace Sys2Proof.Machine

/-- An address register: 23-bit value and signed 23-bit step (R67). -/
structure AReg where
  val : Nat
  step : Nat
deriving DecidableEq, Repr

/-- A weight plane (R73, R121): the format of the LOAD that last wrote it (0xF: cleared, no format) and its raw lines. -/
structure Plane where
  fmt : Nat
  lines : SMap Nat
deriving DecidableEq, Repr

/-- A plane cleared to +0 (R66). -/
def Plane.clear : Plane := ⟨0xF, []⟩

/-- An accumulation group (R132, R138, R146): its entries' words by 128 r + j, whether it is empty, the level of the
Spire node it holds, and storage errors not yet read (1 single-bit, 2 uncorrectable: R156). -/
structure Group where
  full : Bool
  words : SMap Nat
  level : Option Nat
  err : SMap Nat
deriving DecidableEq, Repr

/-- An empty group. -/
def Group.empty : Group := ⟨false, [], none, []⟩

/-- Who holds a group (R75): the OWNER code of TWR_GROUP_OWNER, the first beat no longer held, and for a PASS the
first beat of its tail. -/
structure Hold where
  owner : Nat
  until_ : Nat
  tail : Nat
deriving DecidableEq, Repr

/-- The states of a queue entry (R79). -/
inductive EntSt
  | free
  | filling
  | present
  | inUse
  | opened
  | pushed
  | writing
deriving DecidableEq, Repr

/-- A queue entry: state, originating code of its poison (0: none, R89), the causes that apply to its wait (R52, as bits
of the cause index), and the repeats of it still in flight. -/
structure QEntry where
  st : EntSt
  poison : Nat
  causes : Nat
  flight : Nat
  sealed : Bool
  freeAt : Nat
deriving DecidableEq, Repr

/-- A FREE entry. -/
def QEntry.free : QEntry := ⟨.free, 0, 0, 0, false, 0⟩

/-- A queue of sixteen entries with its ring positions (R79): fill or open, pop or push, retire or write. -/
structure Queue where
  entries : List QEntry
  head : Nat
  mid : Nat
  tail : Nat
deriving DecidableEq, Repr

/-- An empty queue. -/
def Queue.empty : Queue := ⟨List.replicate 16 .free, 0, 0, 0⟩

/-- A page as it stood when a read of it reached its controller (R289): the run page, the stored lines that the read takes, by
line, the version and tag, whether the version path verified, and which of those lines were uncorrectable. -/
structure PageSnap where
  u : Nat
  lines : List (Nat × Line)
  version : Nat
  tag : BitVec 128
  path : Bool
  bad : List Nat
deriving DecidableEq, Repr

/-- A repeat the fetch engine has issued (R85 to R87): descriptor, repeat, queue entry, converted deadline in nominal beats, the
schedule beat it issued at; whether it has landed or been accepted before the rest of its entry (log 113); the run-table entry and
the lines, as (run page, line), that it moves; the pages as its reads found them; the lines that tier-0 copies serve, by address,
and the pool unit of the first; the lines beyond the plan, which carry no deadline (R51); and the first beat at which its last
tile can have left the turning unit (R88). -/
structure Flight where
  desc : Nat
  rep : Nat
  queue : Nat
  entry : Nat
  deadline : Int
  sched : Nat
  landed : Bool
  src : Nat × List (Nat × Nat)
  snaps : List PageSnap
  copied : List (Nat × Line)
  unit : Nat
  free : List (Nat × Nat)
  turnedAt : Nat
deriving DecidableEq, Repr

/-- One level of the loop stack (R71): first and last bundle of the body, and passes still to make. -/
structure LoopFrame where
  first : Nat
  last : Nat
  left : Nat
deriving DecidableEq, Repr

/-- A row check of the delta lane under way (R173): its latest beat, the rows and member, and the bundle it names. -/
structure RowCheck where
  due : Nat
  first : Nat
  count : Nat
  member : Nat
  group : Nat
  bundle : Nat
  sched : Nat
deriving DecidableEq, Repr

/-- A fault of a tower (R78): code, slot code, ITEM, bundle or descriptor index, schedule beat. -/
structure TFault where
  code : Nat
  slot : Nat
  item : Nat
  bundle : Nat
  beat : Nat
deriving DecidableEq, Repr

/-- An execute access of a bank (R65). -/
structure PortUse where
  bank : Nat
  write : Bool
deriving DecidableEq, Repr

/-- A parameter group of an adaptation (R208). -/
structure ParamGroup where
  first : Nat
  pages : Nat
  flags : Nat
  g : List Nat
deriving DecidableEq, Repr

/-- What a tower copies of a member at release (R212) and of its context (R187, R205). -/
structure Latch where
  bank : Nat
  frozen : Nat
  row : List Nat
  seeding : Seeding
  strict : Bool
  groups : List ParamGroup
deriving DecidableEq, Repr

/-- A report to the finite flag (R202, R231, R234): the member (none: every member), the tensor ID and the index. -/
structure Report where
  member : Option Nat
  tensor : Nat
  index : Nat
deriving DecidableEq, Repr

/-- A value on its way into an entry, with its INEXACT trace (R133). -/
abbrev Acc := Num × Bool

/-! Operations under way.  What an operation reads is taken in the beat of the read and what it writes lands in the beat of the
write (R73, R134, R172, R176, R177, R195, R197, R230): these types hold what lies between the two. -/

/-- The operation that an access, a write or a fault belongs to (R65, R78): its number in issue order, slot code, ITEM, bundle,
schedule beat and the beat in which it issued. -/
structure OpId where
  num : Nat
  slot : Nat
  item : Nat
  bundle : Nat
  sched : Nat
  at_ : Nat
deriving DecidableEq, Repr

/-- A write to come: the beat it lands in, a tile buffer or none for the tower store, address, bytes, value, the member tag its lines
take (R166), and whether it is an execute access of its own (a RULE's port is held beat by beat: R230). -/
structure LandWrite where
  op : OpId
  beat : Nat
  tile : Option Nat
  addr : Nat
  n : Nat
  v : Nat
  tag : Nat
  port : Bool
deriving DecidableEq, Repr

/-- The delta table's header (R167). -/
structure DHeader where
  records : Nat
  turned : Bool
  noAdd : Bool
  plane0 : Nat
  xfmt : Nat
  rscale : Nat
  rscaleEn : Bool
  reserved : Nat
deriving DecidableEq, Repr

/-- A record of the delta table (R167). -/
structure DRec where
  row0 : Nat
  rows : Nat
  plane : Nat
  ksub : Nat
  member : Nat
  page : Nat
  offset : Nat
  quota : Nat
  slot : Nat
  grad : Nat
  reserved : Bool
deriving DecidableEq, Repr

/-- One decoded entry of a tile-interval (R163). -/
structure DEntry where
  slot : Nat
  k : Nat
  j : Nat
  value : Nat
deriving DecidableEq, Repr

/-- A delta operation's frame: its PASS and the tower-store limit. -/
structure DCtx where
  sample : Bool
  issue : Nat
  rows : Nat
  planes : Nat
  inFmt : Nat
  wFmt : Nat
  beats : Nat
  a : Nat
  step : Nat
  src : Nat
  srcStep : Nat
  table : Nat
  rowA : Nat
  limit : Nat
deriving DecidableEq, Repr

/-- What a lane read of R171 reads: 0 a table block, 1 a page header, 2 slot bytes. -/
structure LaneItem where
  kind : Nat
  addr : Nat
deriving DecidableEq, Repr

/-- The lane's work on one FORWARD or SAMPLE (R171 to R176).  Of the table: the blocks read, by address.  Of the record `idx`, whose
reads are under way: whether they have begun, those left, its pages' headers and its slot blocks.  The last eight page headers; the
entries with their page scales of the records before it.  Of SAMPLE's rows: the first not begun, the reads left of the one under
way, the blocks at hand, by twice the address and 1 more for a row factor's; and the rows read, with their factors.  The first pair
(row, record) that may come next, the gradient partials by record, and the run blocks to read. -/
structure Lane where
  c : DCtx
  tabs : List (Nat × Nat)
  idx : Nat
  begun : Bool
  left : List LaneItem
  pages : List (Nat × Nat)
  slots : List (Nat × Nat)
  heads : List (Nat × Nat)
  ents : List (List (DEntry × Num))
  srcNext : Nat
  srcLeft : List Nat
  src : List (Nat × Nat)
  rows : List (Nat × Nat × Num)
  next : Nat × Nat
  parts : List (Nat × List (Nat × Acc))
  runs : List (Nat × Nat)
deriving DecidableEq, Repr

/-- A PASS under way (R134): its bundle, the input rows' register, the planes it uses, the rows read (by four times the row, plus the
plane), in Spire order the leafs so far, the contributions by row with the beat of the row's last pair, and its delta lane. -/
structure PassJob where
  op : OpId
  b : Nat
  a : AReg
  planes : List Plane
  ins : SMap Nat
  leafs : SMap Nat
  deltas : List (Nat × Nat × List (Nat × Acc))
  lane : Option Lane
deriving DecidableEq, Repr

/-- A LOAD under way (R73): planes, format, address, and the lines read. -/
structure LoadJob where
  op : OpId
  mask : List Nat
  fmt : Nat
  addr : Nat
  got : SMap Nat
deriving DecidableEq, Repr

/-- A MERGE under way (R177), with the member tag judged at its issue. -/
structure MergeJob where
  op : OpId
  src : Nat
  dst : Nat
  tag : Nat
deriving DecidableEq, Repr

/-- What one chunk of a chain operation has read (R195): row, chunk, source, side, channel scales, S1's and S3's auxiliary values,
permutation. -/
structure Cap where
  i : Nat
  k : Nat
  src : Nat
  side : Nat
  cs : Nat
  aux1 : Nat
  aux3 : Nat
  perm : Nat
deriving DecidableEq, Repr

/-- The state a row's reduction carries (R198 to R200). -/
structure RedSt where
  v : Num
  col : Int
  s : Num
  picked : Num
  sums : Option Num
deriving DecidableEq, Repr

/-- A chain operation under way (R195, R197): its bundle and the registers at issue (R67); the chunks read; the per-row vectors read,
by 16 times the 64-row block plus a kind (0 RSCALE, 1 SSCALE, 2 OSCALE, 3 and 4 the targets of S3 and S5, 8 on the vectors at
RED_A); the reduction of the row under way, its first offending column, and what the rows of the block leave at RED_A. -/
structure ChainJob where
  op : OpId
  b : Nat
  aregs : List AReg
  caps : List Cap
  vecs : SMap Nat
  red : RedSt
  bad : Option Nat
  outs : List (List Nat)
deriving DecidableEq, Repr

/-- What a RULE is told of its member (R212, R226): its program, the member and group indices, the group's entry, what was latched. -/
structure RuleCtx where
  prog : List Nat
  member : Nat
  gi : Nat
  group : ParamGroup
  latch : Latch
deriving DecidableEq, Repr

/-- A RULE under way (R230): what it knows of its member, whether its group is frozen (R215), the frames' registers and count, and
the lines read of the frame under way. -/
structure RuleJob where
  op : OpId
  ctx : RuleCtx
  frozen : Bool
  src : AReg
  dst : AReg
  rows : Nat
  got : SMap Nat
deriving DecidableEq, Repr

/-- A SAVE or RESTORE under way (R147): the bundle, the address, whether the group was full at issue, entry 0
of the tile as it stood in the issue beat (R140), and the entries read. -/
structure AccJob where
  op : OpId
  b : Nat
  addr : Nat
  full : Bool
  first : Nat
  got : SMap Nat
deriving DecidableEq, Repr

/-- An operation under way. -/
inductive Job
  | pass (j : PassJob)
  | load (j : LoadJob)
  | merge (j : MergeJob)
  | chain (j : ChainJob)
  | rule (j : RuleJob)
  | acc (j : AccJob)
deriving DecidableEq, Repr

/-- What a tower does with its segment (TWR_STATUS.STATE, but for FENCED). -/
inductive TowerSt
  | idle
  | loading
  | running
  | waiting
  | swapped
  | faulted
deriving DecidableEq, Repr

/-- A tower.  `swapLeft` is the beats of a swap's save or restore still to come (R91), `doneAt` is the beat in which its END issued, `freeFrom` the first beat in which it may be released on (R55);
`arrayUntil` to `accUntil` are the first beats in which a unit is free again (R63), `jobs` the operations under way in issue order,
`landing` the writes to come. -/
structure Tower where
  st : TowerSt
  seg : Option Nat
  ctx : Nat
  startIn : Nat
  swapLeft : Nat
  pc : Nat
  last : Option Nat
  sched : Nat
  lag : Nat
  wait : Nat
  cause : Nat
  barriers : Nat
  atBarrier : Bool
  done : Bool
  doneAt : Nat
  freeFrom : Nat
  loops : List LoopFrame
  aregs : List AReg
  store : SMap Nat
  tags : SMap Nat
  tiles : List (SMap Nat)
  active : List Plane
  shadow : List Plane
  groups : List Group
  holds : List Hold
  arrayUntil : Nat
  loadUntil : Nat
  chainUntil : Nat
  accUntil : Nat
  jobs : List Job
  landing : List LandWrite
  queues : List Queue
  inPtr : Nat × Nat
  outPtr : Nat × Nat
  inBlocked : Bool
  flightIn : List Flight
  flightOut : List Flight
  turnUntil : Nat
  dropped : Nat
  checks : List RowCheck
  stalls : Nat
  waits : Nat
  fault : TFault
  ops : Nat
  testDone : Bool
  testPass : Bool
  fenced : Bool
  testUnit : Nat
  testEnd : Nat
deriving DecidableEq, Repr

/-- A tower after its reset; its self-test ends at nominal beat `testEnd` (R153). -/
def Tower.reset (testEnd : Nat) : Tower :=
  { st := .idle, seg := none, ctx := 0xFFFF, startIn := 0, swapLeft := 0, pc := 0, last := none, sched := 0, lag := 0, wait := 0
    cause := 0, barriers := 0, atBarrier := false, done := false, doneAt := 0, freeFrom := 0, loops := []
    aregs := List.replicate 32 ⟨0, 0⟩, store := [], tags := [], tiles := List.replicate 4 []
    active := List.replicate 4 .clear, shadow := List.replicate 4 .clear, groups := List.replicate 8 .empty
    holds := List.replicate 8 ⟨0, 0, 0⟩, arrayUntil := 0, loadUntil := 0, chainUntil := 0
    accUntil := 0, jobs := [], landing := [], queues := List.replicate 16 .empty, inPtr := (0, 0)
    outPtr := (0, 0), inBlocked := false, flightIn := [], flightOut := [], turnUntil := 0, dropped := 0, checks := [], stalls := 0, waits := 0
    fault := ⟨0, 0, 0, 0, 0⟩, ops := 0, testDone := false, testPass := false, fenced := false, testUnit := 0
    testEnd := testEnd }

end Sys2Proof.Machine
end

