-- ==== Sys2Proof/Machine/Array.lean ====
section
/-! DEFINITION. The tower store (R64 to R66), the array's products (R119, R121 to R128), the passes in linear and in
Spire order (R130, R131, R135 to R139, R149, R150), and the accumulator operations (R140 to R148, R156). -/

namespace Sys2Proof.Machine

/-- Addresses are 23 bits wide (R67). -/
def adr (a : Nat) : Nat := a % 2 ^ 23

/-- An address plus `k` times a signed 23-bit step (R67). -/
def adrStep (a step k : Nat) : Nat := adr (a + step * k)

/-- The bank of an address (R64). -/
def bankOf (a : Nat) : Nat := a / 0x18_0000

/-- The little-endian value of `n` bytes at `a` of a store held by 64-byte lines; a line never written reads zero
(R66). -/
def storeRead (m : SMap Nat) (a n : Nat) : Nat :=
  let l := a / 64
  let k := ceilDiv (a % 64 + n) 64
  let v := (List.range k).foldr (fun i acc => m.get 0 (l + i) + acc * 2 ^ 512) 0
  bits v (8 * (a % 64)) (8 * n)

/-- Write `n` bytes at `a`. -/
def storeWrite (m : SMap Nat) (a n v : Nat) : SMap Nat :=
  let l := a / 64
  let k := ceilDiv (a % 64 + n) 64
  let old := (List.range k).foldr (fun i acc => m.get 0 (l + i) + acc * 2 ^ 512) 0
  let new := putBits old (8 * (a % 64)) (8 * n) v
  (List.range k).foldl (fun m i => m.set 0 (l + i) (bits new (512 * i) 512)) m

/-- The lines that `n` bytes at `a` touch. -/
def linesAt (a n : Nat) : List Nat := List.range' (a / 64) (ceilDiv (a % 64 + n) 64)

/-- Set the member tag of the lines of `n` bytes at `a` (R166): 0 is NONE, m + 1 is member m. -/
def tagLines (m : SMap Nat) (a n tag : Nat) : SMap Nat := (linesAt a n).foldl (fun m l => m.set 0 l tag) m

/-- A write to the tower store: the bytes, and in the tags of the lines a member's, or NONE (R166). -/
def Tower.writeTagged (t : Tower) (a n v tag : Nat) : Tower :=
  { t with store := storeWrite t.store a n v, tags := tagLines t.tags a n tag }

/-- Register `r` of a tower. -/
def Tower.areg (t : Tower) (r : Nat) : AReg := t.aregs.getD r ⟨0, 0⟩

/-- Element `i` of a packed row of width `w` bits. -/
def element (row w i : Nat) : Nat := bits row (w * i) w

/-- The pieces of an operand by rank (lo 0, mid 1, hi 2) that NATIVE mode forms (R126). -/
def nativePieces (fmt v : Nat) : List (Nat × Num) :=
  match fmt with
  | 0x0 => match decodeFmt 0 v with
    | .fin s m e => [(0, .fin s (m % 4) e), (1, .fin s (bits m 2 11) (e + 2)), (2, .fin s (m >>> 13) (e + 13))]
    | x => [(0, .fin x.sign 0 0), (1, .fin x.sign 0 0), (2, x)]
  | 0xA => match decodeFmt 0xA v with
    | .fin s m e => [(0, .fin s (m % 256) e), (2, .fin s (m >>> 8) (e + 8))]
    | x => [(2, x)]
  | 0x9 => match decodeFmt 0x9 v with
    | .fin s m e => [(0, .fin s (m % 2048) e), (1, .fin s (bits m 11 11) (e + 11)), (2, .fin s (m >>> 22) (e + 22))]
    | x => [(2, x)]
  | f => [(2, decodeFmt f v)]

/-- The EMU split of an FP32 operand (R119).  DESIGN CHOICE (log 122): a piece that is zero is +0 for a finite operand and has the
operand's sign for a non-finite one. -/
def emuPieces (v : Nat) : List (Nat × Num) :=
  match decodeFmt 0 v with
  | .fin s m e =>
    let x : Num := .fin s m e
    let hi := (x.rne 8).1
    let r := x.add hi.neg
    let mid := (r.rne 8).1
    [(0, r.add mid.neg), (1, mid), (2, hi)]
  | x => [(0, .fin x.sign 0 0), (1, .fin x.sign 0 0), (2, x)]

/-- The ranks of a format's pieces in NATIVE mode (R126). -/
def ranksOf (fmt : Nat) : List Nat :=
  match fmt with
  | 0x0 => [0, 1, 2]
  | 0x9 => [0, 1, 2]
  | 0xA => [0, 2]
  | _ => [2]

/-- The piece pairs of a row-plane in order, input rank first (R118, R127). -/
def piecePairs (mode inFmt wFmt : Nat) : List (Nat × Nat) :=
  match mode with
  | 1 => [(2, 2)]
  | 2 => [(2, 1), (1, 2), (2, 2)]
  | 3 => [(2, 0), (0, 2), (1, 1), (2, 1), (1, 2), (2, 2)]
  | _ => (List.range 5).flatMap (fun s => (ranksOf inFmt).flatMap (fun i =>
      (ranksOf wFmt).filterMap (fun k => if i + k = s then some (i, k) else none)))

/-- The piece of rank `r`. -/
def pieceAt (ps : List (Nat × Num)) (r : Nat) : Num :=
  match ps.find? (·.1 = r) with
  | some p => p.2
  | none => .zero

/-- The narrow path is taken (R125). -/
def narrowPath (mode inFmt wFmt : Nat) : Bool :=
  let split (f : Nat) : Bool := f = 0 || f = 0xA || f = 0x9
  let floating (f : Nat) : Bool := decide (f ≤ 8) || f = 0xE
  mode = 1 || (mode = 0 && !split inFmt && !split wFmt && (floating inFmt || floating wFmt))

/-- The operand class's beats per row-plane (R115, R118). -/
def classBeats (f : Nat) : Nat :=
  match f with
  | 0x0 => 16 | 0x1 => 8 | 0x2 => 2 | 0x3 => 4 | 0x9 => 32 | 0xA => 4 | _ => 1

/-- Beats per row-plane of a PASS. -/
def passBeats (mode inFmt wFmt : Nat) : Nat :=
  match mode with
  | 1 => 2 | 2 => 6 | 3 => 12 | _ => max (classBeats inFmt) (classBeats wFmt)

/-- Both operands are 4-bit (R116). -/
def pair4 (inFmt wFmt : Nat) : Bool := fmtBits inFmt = 4 && fmtBits wFmt = 4

/-- Row-planes per row: a 4-bit pair takes its planes two by two (R116). -/
def rowPlanes (inFmt wFmt planes : Nat) : Nat := if pair4 inFmt wFmt then planes / 2 else planes

/-- The busy beats of a PASS (R63's table). -/
def passBusy (mode inFmt wFmt rows planes : Nat) : Nat := rows * rowPlanes inFmt wFmt planes * passBeats mode inFmt wFmt

/-- The sum of one product group within a window, and whether truncation dropped a bit (R128). -/
def windowSum (window : Nat) (ps : List Num) : Num × Bool :=
  if ps.any (·.isNan) || (ps.any (· = .inf false) && ps.any (· = .inf true)) then (.nan, false)
  else match ps.find? (·.isInf) with
    | some x => (x, false)
    | none =>
      let nz := ps.filter (fun p => !p.isZero)
      if nz.isEmpty then (.fin (ps.all (·.sign)) 0 0, false)
      else
        let top : Int := nz.foldl (fun (t : Int) p => match p with
          | .fin _ m e => max t (leadPos m e)
          | _ => t) (-100000)
        let low := top - (window - 1 : Nat)
        let r := nz.foldl (fun (acc : Int × Bool) p => match p with
          | .fin s m e =>
            let k := if e ≥ low then scaleTo m e low else m >>> (low - e).toNat
            let lost := decide (e < low) && decide (m % 2 ^ (low - e).toNat ≠ 0)
            (acc.1 + (if s then -(k : Int) else k), acc.2 || lost)
          | _ => acc) (0, false)
        (.ofInt r.1 low, r.2)

/-- Add at `n` bits, gathering INEXACT (R129, R133). -/
def Acc.add (n : Nat) (a b : Acc) : Acc :=
  let r := accAdd n a.1 b.1
  (r.1, a.2 || b.2 || r.2)

/-- What a PASS is told of its operands: MODE, the formats, HERITAGE and PLANES. -/
structure PassOps where
  mode : Nat
  inFmt : Nat
  wFmt : Nat
  heritage : Bool
  planes : Nat
deriving DecidableEq, Repr

/-- An operand of a PASS: its value and its pieces by rank. -/
abbrev Operand := Num × List (Nat × Num)

/-- An operand of format `fmt` under MODE (R119, R126). -/
def passOperand (mode fmt v : Nat) : Operand :=
  if mode = 0 then (decodeFmt fmt v, nativePieces fmt v) else (decodeFmt 0 v, emuPieces v)

/-- The product of piece `i` of `x` and piece `k` of `y` (R107, R119, R126): a non-finite operand is carried whole in hi, so its one
product with the other operand is the product of the whole values; its other pieces are zeros and form zeros. -/
def pieceProduct (x y : Operand) (i k : Nat) : Num :=
  if x.1.finite && y.1.finite then (pieceAt x.2 i).mul (pieceAt y.2 k)
  else if (x.1.finite || i = 2) && (y.1.finite || k = 2) then x.1.mul y.1
  else .fin (x.1.sign != y.1.sign) 0 0

/-- The product-group sums of one row-plane's plane for one column, in order (R122, R127, R128). -/
def groupSums (o : PassOps) (xs ws : List Nat) : List Acc :=
  let window := if o.heritage then 24 else 28
  let px := xs.map (passOperand o.mode o.inFmt)
  let pw := ws.map (passOperand o.mode o.wFmt)
  (piecePairs o.mode o.inFmt o.wFmt).flatMap (fun ik =>
    (List.range 4).map (fun g =>
      windowSum window (((px.drop (32 * g)).take 32).zipWith
        (fun a b => pieceProduct a b ik.1 ik.2) ((pw.drop (32 * g)).take 32))))

/-- Split a list in chunks of `n`. -/
def chunks {α : Type} (n : Nat) : Nat → List α → List (List α)
  | 0, _ => []
  | k + 1, xs => if xs.isEmpty then [] else xs.take n :: chunks n k (xs.drop n)

/-- One entry's linear update (R130, R131, R135, R149, R150).  `sums` holds each plane's group sums in order. -/
def linearEntry (o : PassOps) (start : Bool) (old : Acc) (sums : List (List Acc)) (delta : Option Acc) : Acc :=
  let narrow := narrowPath o.mode o.inFmt o.wFmt
  let nb := if o.heritage then 20 else 22
  let z : Acc := (.zero, false)
  let r := if narrow then
      (chunks (if o.heritage then 2 else 4) sums.length sums).foldl (fun (a : Acc × Bool) c =>
        let n := c.flatten.foldl (Acc.add nb) z
        (if a.2 then n else Acc.add 40 a.1 n, false)) (old, start)
    else
      sums.flatten.foldl (fun (a : Acc × Bool) s => (if a.2 then s else Acc.add 40 a.1 s, false)) (old, start)
  match delta with
  | some d => Acc.add 40 r.1 d
  | none => r.1

/-- One entry's Spire leaf (R136). -/
def spireLeaf (o : PassOps) (sums : List (List Acc)) (delta : Option Acc) : Acc :=
  let z : Acc := (.zero, false)
  let x := if narrowPath o.mode o.inFmt o.wFmt then
      let node (p : Nat) : Acc := match sums[p]? with
        | some s =>
          let g (i : Nat) := s.getD i z
          Acc.add 22 (Acc.add 22 (g 0) (g 1)) (Acc.add 22 (g 2) (g 3))
        | none => z
      Acc.add 22 (Acc.add 22 (node 0) (node 1)) (Acc.add 22 (node 2) (node 3))
    else sums.flatten.foldl (Acc.add 40) z
  match delta with
  | some d => Acc.add 40 x d
  | none => x

/-- The address of row `r`, plane `p` of a PASS's input rows at `a` with row pitch `step` (matrix slot). -/
def passAddr (a : AReg) (inFmt r p : Nat) : Nat := adr (adrStep a.val a.step r + p * 16 * fmtBits inFmt)

/-- The 128 raw elements of a row read. -/
def rowElems (fmt row : Nat) : List Nat := (List.range 128).map (element row (fmtBits fmt))

/-- The raw weights of column `j` of a plane (R121). -/
def planeColumn (p : Plane) (wFmt j : Nat) : List Nat :=
  let w := fmtBits wFmt
  (List.range 128).map (fun k => if p.fmt = 0xF then 0 else
    bits (storeRead p.lines (k * 16 * w + w * j / 8) (max 1 (w / 8))) (w * j % 8) w)

/-- Entry (r, j) of a group as a value with its INEXACT bit. -/
def Group.entry (g : Group) (i : Nat) : Acc := (entryVal (g.words.get 0 i), entryInexact (g.words.get 0 i))

/-- Read errors of an accumulation group come to light (R156): an uncorrectable entry of `sel` becomes the canonical
NaN for good; the events 0x010D and 0x010C with (group, entry).  DESIGN CHOICE (log 124): the LEVEL and NODE bits of the word that is
put there are clear. -/
def Group.check (g : Group) (sel : Nat → Bool) : Group × List (Nat × Nat) :=
  g.err.foldl (fun (a : Group × List (Nat × Nat)) e =>
    if sel e.1 then
      if e.2 = 1 then (a.1, a.2 ++ [(0x010D, e.1)])
      else ({ a.1 with words := a.1.words.set 0 e.1 (entryWord .nan false 0 false), err := a.1.err.erase e.1 },
        a.2 ++ [(0x010C, e.1)])
    else a) (g, [])

/-- Write entries of a group. -/
def Group.put (g : Group) (es : List (Nat × Nat)) : Group :=
  { g with full := true, words := es.foldl (fun m e => m.set 0 e.1 e.2) g.words
           err := es.foldl (fun m e => m.erase e.1) g.err }

/-- Group `g` of a tower. -/
def Tower.group (t : Tower) (g : Nat) : Group := t.groups.getD g .empty

def Tower.setGroup (t : Tower) (g : Nat) (x : Group) : Tower := { t with groups := t.groups.set g x }

/-- The nodes of a Spire pair, oldest first (R138): level and words. -/
def Tower.nodes (t : Tower) (g : Nat) : List (Nat × SMap Nat) :=
  (match (t.group (g + 1)).level with
    | some l => [(l, (t.group (g + 1)).words)]
    | none => []) ++
  (match (t.group g).level with
    | some l => [(l, (t.group g).words)]
    | none => [])

/-- The group that holds a node's words, each carrying NODE and LEVEL (R132, R138). -/
def nodeGroup (n : Nat × SMap Nat) : Group := ⟨true, n.2, some n.1, []⟩

/-- Put a pair's nodes, oldest first, back (R138). -/
def Tower.setNodes (t : Tower) (g : Nat) (ns : List (Nat × SMap Nat)) : Tower :=
  match ns with
  | [] => (t.setGroup g .empty).setGroup (g + 1) .empty
  | [n] => (t.setGroup g (nodeGroup n)).setGroup (g + 1) .empty
  | o :: n :: _ => (t.setGroup g (nodeGroup n)).setGroup (g + 1) (nodeGroup o)

/-- The levels left by a push of level `l` on nodes of levels `ls`, newest first (R138). -/
def pushLevels : List Nat → Nat → List Nat
  | [], l => [l]
  | x :: xs, l => if x = l then pushLevels xs (l + 1) else l :: x :: xs

/-- A push of level `l` would leave three nodes (R139). -/
def pushFaults (ls : List Nat) (l : Nat) : Bool := decide ((pushLevels ls l).length > 2)

/-- Entry-by-entry full-width addition of two tiles, INEXACT ORed (R129, R133). -/
def addTiles (a b : SMap Nat) (level : Nat) (node : Bool) : SMap Nat :=
  (List.range 16384).foldl (fun m i =>
    let r := Acc.add 40 (entryVal (a.get 0 i), entryInexact (a.get 0 i)) (entryVal (b.get 0 i), entryInexact (b.get 0 i))
    m ++ (let w := entryWord r.1 r.2 level node; if w = 0 then [] else [(i, w)])) []

/-- Every entry of a tile with the given LEVEL and NODE. -/
def relevel (m : SMap Nat) (level : Nat) (node : Bool) : SMap Nat :=
  (List.range 16384).filterMap (fun i =>
    let w := m.get 0 i
    let v := entryWord (entryVal w) (entryInexact w) level node
    if v = 0 then none else some (i, v))

/-- Push a node on a pair whose nodes are given newest first (R138); the result is newest first.  DESIGN CHOICE (log 123): two nodes of
level 63 give one of level 64, whose words hold the level modulo 64. -/
def pushNode : List (Nat × SMap Nat) → Nat → SMap Nat → List (Nat × SMap Nat)
  | [], l, v => [(l, relevel v l true)]
  | x :: xs, l, v =>
    if x.1 = l then pushNode xs (l + 1) (addTiles x.2 v (l + 1) true) else (l, relevel v l true) :: x :: xs

/-- Push a tile of level `l` onto pair `g`. -/
def Tower.push (t : Tower) (g l : Nat) (v : SMap Nat) : Tower :=
  t.setNodes g (pushNode (t.nodes g).reverse l v).reverse

/-- The address of 128-byte run `k` of quarter `q` of a saved tile (accumulator slot). -/
def tileAddr (a k q : Nat) : Nat := a + q * 0x18_0000 + 128 * k

/-- The address of entry `i` of a saved tile. -/
def tileEntry (a i : Nat) : Nat := tileAddr a (i / 64) (i % 64 / 16) + 8 * (i % 16)

/-- The words of `n` entries from entry `i` on, packed. -/
def packEntries (m : SMap Nat) (i n : Nat) : Nat := (List.range n).foldr (fun k acc => m.get 0 (i + k) + acc * 2 ^ 64) 0

/-- The packed words of one row of a group, or of the fold of a Spire pair (R141), as a DRAIN reads it. -/
def Tower.drainRow (t : Tower) (spire : Bool) (g r : Nat) : Nat :=
  if spire then
    match t.nodes g with
    | [] => 0
    | [n] => packEntries n.2 (128 * r) 128
    | o :: n :: _ => packEntries ((List.range' (128 * r) 128).map (fun i =>
        let x := Acc.add 40 (entryVal (o.2.get 0 i), entryInexact (o.2.get 0 i)) (entryVal (n.2.get 0 i), entryInexact (n.2.get 0 i))
        (i, entryWord x.1 x.2 0 false))) (128 * r) 128
  else packEntries (t.group g).words (128 * r) 128

/-- The sums of the planes of one row and column (R123): `ins` holds the row's planes as read. -/
def rowSums (o : PassOps) (planes : List Plane) (ins : List Nat) (j : Nat) : List (List Acc) :=
  (ins.zip planes).map (fun x => groupSums o (rowElems o.inFmt x.1) (planeColumn x.2 o.wFmt j))

/-- Row `r` of a linear PASS on its group (R123, R131): `delta j` is the contribution to column `j`. -/
def Group.passRow (g : Group) (o : PassOps) (start : Bool) (planes : List Plane) (ins : List Nat) (r : Nat)
    (delta : Nat → Option Acc) : Group :=
  g.put ((List.range 128).map (fun j =>
    let i := 128 * r + j
    let x := linearEntry o start (g.entry i) (rowSums o planes ins j) (delta j)
    (i, entryWord x.1 x.2 0 false)))

/-- The leafs of row `r` of a PASS in Spire order (R135, R137). -/
def leafRow (o : PassOps) (planes : List Plane) (ins : List Nat) (r : Nat) (delta : Nat → Option Acc) : List (Nat × Nat) :=
  (List.range 128).filterMap (fun j =>
    let x := spireLeaf o (rowSums o planes ins j) (delta j)
    let w := entryWord x.1 x.2 0 true
    if w = 0 then none else some (128 * r + j, w))

/-- Exchange the active and shadow planes (R73). -/
def Tower.swapPlanes (t : Tower) : Tower := { t with active := t.shadow, shadow := t.active }

/-- The bytes of a plane of a format (matrix slot). -/
def planeBytes (f : Nat) : Nat := 2048 * fmtBits f

/-- A LOAD's effect (R73, R121): the planes, in ascending order, from the lines read of their consecutive images. -/
def Tower.loadPlanes (t : Tower) (mask : List Nat) (f : Nat) (got : SMap Nat) : Tower :=
  let n := planeBytes f / 64
  { t with shadow := mask.zipIdx.foldl (fun (ps : List Plane) e =>
      ps.set e.1 ⟨f, (List.range n).filterMap (fun i =>
        let v := got.get 0 (e.2 * n + i)
        if v = 0 then none else some (i, v))⟩) t.shadow }

/-- The bytes a LOAD reads in a beat (R73). -/
def loadPortion (f : Nat) : Nat := if fmtBits f = 4 then 64 else 128

/-- The load beats of one plane (R63's table). -/
def planeBeats (f : Nat) : Nat := if fmtBits f ≤ 8 then 128 else if fmtBits f = 16 then 256 else 512

end Sys2Proof.Machine
end

