-- ==== Sys2Proof/Machine/Delta.lean ====
section
/-! DEFINITION. The delta lane: pages and their slots (R162 to R165), the delta table (R167, R168), contributions
(R169), gradient samples (R175, R176), the lane's reads and pairs (R171, R172), its checks (R173) and MERGE (R177). -/

namespace Sys2Proof.Machine

/-- The fields of a table header's 128 bits (R167). -/
def dHeader (w : Nat) : DHeader :=
  ⟨bits w 0 8, bit w 8, bit w 9, bits w 10 2, bits w 12 4, bits w 16 23, bit w 39, bits w 40 88⟩

/-- The fields of a record's 128 bits (R167). -/
def dRec (w : Nat) : DRec :=
  ⟨bits w 0 7, bits w 7 7 + 1, bits w 14 2, bits w 16 2, bits w 24 8, bits w 32 23, bits w 56 11, bits w 67 9 + 1,
   bits w 76 28, bits w 104 23, bits w 18 6 != 0 || bit w 55 || bit w 127⟩

/-- Record `r` covers PASS row `x`. -/
def DRec.covers (r : DRec) (x : Nat) : Bool := r.row0 ≤ x && x < r.row0 + r.rows

/-- The slots of a tile-interval as (slot number, index code, value) decoded in order (R163); none: malformed.
`q` is the last live position, `seen` says that an empty slot was met. -/
def decodeSlots : Option Nat → Bool → List (Nat × Nat × Nat) → Option (List DEntry)
  | _, _, [] => some []
  | q, seen, (n, c, v) :: xs =>
    if v = 0x80 then (if c ≠ 0 then none else decodeSlots q true xs)
    else if seen then none
    else
      match q with
      | none => (decodeSlots (some c) false xs).map (⟨n, c / 128, c % 128, v⟩ :: ·)
      | some p =>
        if c = 0 ∨ p + c > 65535 then none
        else (decodeSlots (some (p + c)) false xs).map (⟨n, (p + c) / 128, (p + c) % 128, v⟩ :: ·)

/-- The page address and the index in it of the i-th slot of a record (R162). -/
def DRec.place (r : DRec) (i : Nat) : Nat × Nat := (r.page + 4096 * ((r.offset + i) / 1344), (r.offset + i) % 1344)

/-- The address of slot `s` of a page. -/
def slotAddr (page s : Nat) : Nat := page + 0x40 + 3 * s

/-- A record's slots as (slot number, code, value), from the three bytes at each of their addresses. -/
def recSlots (read : Nat → Nat) (r : DRec) : List (Nat × Nat × Nat) :=
  (List.range r.quota).map (fun i =>
    let p := r.place i
    let w := read (slotAddr p.1 p.2)
    (r.slot + i, bits w 0 16, bits w 16 8))

/-- A record's pages: one, or two when it runs past slot 1,343. -/
def recPages (r : DRec) : List Nat :=
  if r.offset + r.quota > 1344 then [r.page, r.page + 4096] else [r.page]

/-- The page scale of a header (R162). -/
def headScale (h : Nat) : Num := decode32 (bits h 32 32)

/-- The header `h`, its first 16 bytes, of page `a` is valid and stands where record `r` expects it (R162, R165, R173: 0x0110). -/
def headOk (r : DRec) (a h : Nat) : Bool :=
  bits h 0 16 = 0x4450 && bits h 16 8 = 1 && bits h 24 8 = 0xE && (headScale h).finite
    && bits h 64 28 + r.offset = r.slot + (if a = r.page then 0 else 1344)
    && (List.range r.quota).all (fun i => (r.place i).1 != a || decide ((r.place i).2 < bits h 96 16))

/-- The lines of a record's slot bytes. -/
def recLines (r : DRec) : List Nat :=
  ((List.range r.quota).flatMap (fun i => linesAt (slotAddr (r.place i).1 (r.place i).2) 3)).dedup

/-- The header breaks R168.  DESIGN CHOICE (log 126): a table address that is misaligned or reaches the program region breaks it too,
at the lane's read of the table. -/
def hdrBad (c : DCtx) (h : DHeader) : Bool :=
  h.records = 0 || decide (h.records > 128) || h.reserved != 0 || decide (c.table % 64 ≠ 0)
    || decide (c.table + 16 + 16 * h.records > c.limit)
    || (c.sample && !h.turned) || (!c.sample && h.noAdd) || (!h.turned && decide (h.plane0 + c.planes > 4))
    || (c.sample && h.xfmt = 0xF) || (c.sample && h.rscaleEn && decide (h.rscale + 512 > c.limit))

/-- A record breaks R168, given the records before it. -/
def recBad (c : DCtx) (h : DHeader) (before : List DRec) (r : DRec) : Bool :=
  r.reserved || before.any (fun b => decide (b.row0 > r.row0)) || decide (r.row0 + r.rows > c.rows)
    || before.any (fun b => b.member != r.member && decide (r.row0 < b.row0 + b.rows))
    || (!c.sample && !h.turned && (List.range' r.row0 r.rows).any (fun x => decide (3 ≤ (before.filter (·.covers x)).length)))
    || decide (c.planes ≤ r.plane) || decide (r.page % 4096 ≠ 0) || decide (1343 < r.offset)
    || (recPages r).any (fun a => decide (a + 4096 > c.limit))
    || (c.sample && decide (r.grad % 64 ≠ 0)) || decide (r.grad + 8 * r.quota > c.limit)

/-- One of the records from `n` on breaks R168. -/
def anyRecBad (c : DCtx) (h : DHeader) (rs : List DRec) (n : Nat) : Bool :=
  rs.zipIdx.any (fun e => decide (n ≤ e.2) && recBad c h (rs.take e.2) e.1)

/-- The beat at which row-plane `p` of row `r` starts. -/
def DCtx.rowPlane (c : DCtx) (r p : Nat) : Nat :=
  let n := rowPlanes c.inFmt c.wFmt c.planes
  let q := if pair4 c.inFmt c.wFmt then p / 2 else p
  c.issue + (r * n + q) * c.beats

/-- The beat at which row r's last row-plane starts: b_r of R172. -/
def DCtx.lastPlane (c : DCtx) (r : Nat) : Nat := c.rowPlane r (c.planes - 1)

/-- The first beat after the PASS has read row-plane `p` of row `r` (R172). -/
def DCtx.inputAt (c : DCtx) (r p : Nat) : Nat := c.rowPlane r p + ceilDiv (16 * fmtBits c.inFmt) 256

/-- The 256-byte blocks that `n` bytes at `a` touch. -/
def blocksAt (a n : Nat) : List Nat := (List.range (ceilDiv (a % 256 + n) 256)).map (fun i => a / 256 * 256 + 256 * i)

/-- What is held under key `k`. -/
def held (bs : List (Nat × Nat)) (k : Nat) : Nat := ((bs.find? (·.1 = k)).map (·.2)).getD 0

/-- The `n` bytes at `a` out of blocks held by address. -/
def blkRead (bs : List (Nat × Nat)) (a n : Nat) : Nat :=
  bits ((blocksAt a n).foldr (fun b acc => held bs b + acc * 2 ^ 2048) 0) (8 * (a % 256)) (8 * n)

/-- The table block that holds record `i`. -/
def DCtx.tableBlock (c : DCtx) (i : Nat) : Nat := (c.table + 16 + 16 * i) / 256 * 256

/-- The 256-byte blocks of a record's slot bytes, ascending. -/
def recSlotBlocks (r : DRec) : List Nat :=
  ((List.range r.quota).flatMap (fun k => blocksAt (slotAddr (r.place k).1 (r.place k).2) 3)).dedup

/-! The lane's view of its table (R172; log 125): what it has read as it read it, the rest as it stands. -/

/-- The 16 bytes at `a` of the table. -/
def Lane.word (l : Lane) (m : SMap Nat) (a : Nat) : Nat :=
  if l.tabs.any (·.1 = a / 256 * 256) then blkRead l.tabs a 16 else storeRead m a 16

/-- The table's header. -/
def Lane.header (l : Lane) (m : SMap Nat) : DHeader := dHeader (l.word m l.c.table)

/-- The table's records. -/
def Lane.records (l : Lane) (m : SMap Nat) : List DRec :=
  (List.range (min (l.header m).records 128)).map (fun i => dRec (l.word m (l.c.table + 16 + 16 * i)))

/-- The records one of whose bytes lies in table block `b`. -/
def DCtx.recsIn (c : DCtx) (b : Nat) (rs : List DRec) : List DRec := (rs.zipIdx.filter (fun e => c.tableBlock e.2 = b)).map (·.1)

/-- Pair (`r`, `k`) is not before pair `p`. -/
def pairFrom (p : Nat × Nat) (r k : Nat) : Bool := decide (p.1 < r) || (p.1 = r && decide (p.2 ≤ k))

/-- The next pair (row, record) of a lane (R172): rows ascending, records in table order within a row. -/
def Lane.pair (l : Lane) (rs : List DRec) : Option (Nat × Nat) :=
  ((List.range l.c.rows).flatMap (fun r => (rs.zipIdx.filter (fun e => e.1.covers r && pairFrom l.next r e.2)).map (fun e => (r, e.2)))).head?

/-- The lane of a FORWARD or SAMPLE at its issue.  DESIGN CHOICE (log 125): no header read for an earlier operation is kept. -/
def Lane.start (c : DCtx) : Lane :=
  { c := c, tabs := [], idx := 0, begun := false, left := [], pages := [], slots := [], heads := [], ents := [], srcNext := 0
    srcLeft := [], src := [], rows := [], next := (0, 0), parts := [], runs := [] }

/-- A lane read in `bank` is free in a beat in which lanes read `banks` already (R171). -/
def laneFree (banks : List Nat) (bank : Nat) : Bool := decide (banks.length < 2) && !banks.contains bank

/-- The lines of a record's slot bytes that lie in the 256-byte block at `b` carry its member's tag (R173). -/
def blockTagsOk (tags : SMap Nat) (r : DRec) (b : Nat) : Bool :=
  (recLines r).all (fun l => l / 4 != b / 256 || tags.get 0 l = r.member + 1)

/-- The lines of a record's gradient run that lie in the block at `b` carry NONE or its member's tag (R176). -/
def runTagsOk (tags : SMap Nat) (r : DRec) (b : Nat) : Bool :=
  (linesAt r.grad (8 * r.quota)).all (fun l => l / 4 != b / 256 || tags.get 0 l = 0 || tags.get 0 l = r.member + 1)

/-- The entries of a record, from its slot bytes, each with its page's scale; none: malformed (R163). -/
def Lane.entries (l : Lane) (r : DRec) : Option (List (DEntry × Num)) :=
  (decodeSlots none false (recSlots (fun a => blkRead l.slots a 3) r)).map (fun es =>
    es.map (fun e => (e, headScale (held l.pages (r.place (e.slot - r.slot)).1))))

/-- Add a term to the values held by index (R169, R175). -/
def addTerm (d : List (Nat × Acc)) (t : Nat × Acc) : List (Nat × Acc) :=
  match d.find? (·.1 = t.1) with
  | some o => (d.filter (·.1 ≠ t.1)) ++ [(t.1, Acc.add 40 o.2 t.2)]
  | none => d ++ [t]

/-- The product an entry makes for a row (R169): the output column and the value; `inp p k` is the row's decoded
input element k of plane p. -/
def entryTerm (c : DCtx) (h : DHeader) (r : DRec) (inp : Nat → Nat → Num) (e : DEntry × Num) : Option (Nat × Acc) :=
  let v (x : Num) : Acc := ((x.mul (decodeDlt8 e.1.value)).mul e.2).rne 40
  if h.turned then
    if e.1.k / 128 ≠ r.ksub then none else some (e.1.k % 128, v (inp r.plane e.1.j))
  else
    let p := (e.1.k / 128 : Int) - h.plane0
    if 0 ≤ p ∧ p < c.planes then some (e.1.j, v (inp p.toNat (e.1.k % 128))) else none

/-- A record's contribution to a row, on top of what the records before it made (R169). -/
def contribution (c : DCtx) (h : DHeader) (r : DRec) (inp : Nat → Nat → Num) (es : List (DEntry × Num)) (d : List (Nat × Acc)) :
    List (Nat × Acc) :=
  (es.filterMap (entryTerm c h r inp)).foldl addTerm d

/-- A record's gradient partials after a row (R175): `x` holds the row at SRC_A, `f` its factor. -/
def samplePartials (h : DHeader) (r : DRec) (inp : Nat → Nat → Num) (x : Nat) (f : Num) (es : List (DEntry × Num))
    (d : List (Nat × Acc)) : List (Nat × Acc) :=
  es.foldl (fun d e =>
    if e.1.k / 128 ≠ r.ksub then d
    else
      addTerm d (e.1.slot, (((decodeFmt h.xfmt (element x (fmtBits h.xfmt) (e.1.k % 128))).mul (inp r.plane e.1.j)).mul f).rne 40)) d

/-- The part of a record's gradient run in the block at `b` (R176): address and bytes. -/
def runPart (r : DRec) (b : Nat) : Nat × Nat :=
  (max b r.grad, min (b + 256) (r.grad + roundUp (8 * r.quota) 64) - max b r.grad)

/-- The bytes written back to the part of a gradient run in the block at `b` (R176): each entry with its partial added, zero behind
the last. -/
def sampleRun (m : SMap Nat) (r : DRec) (ps : List (Nat × Acc)) (b : Nat) : Nat :=
  let p := runPart r b
  (List.range (p.2 / 8)).foldr (fun j acc =>
    let i := (p.1 - r.grad) / 8 + j
    let w := storeRead m (p.1 + 8 * j) 8
    let w' := if r.quota ≤ i then 0
      else match ps.find? (·.1 = r.slot + i) with
        | some q => let s := Acc.add 40 (entryVal w, entryInexact w) q.2; entryWord s.1 s.2 0 false
        | none => w
    w' + acc * 2 ^ 64) 0

/-- MERGE's tag of the line pair `i` (R177): none: two different members. -/
def mergeTag (a b : Nat) : Option Nat := if a = 0 then some b else if b = 0 ∨ a = b then some a else none

/-- The one member tag that a MERGE's 64 source and 64 destination lines carry, or none: two different members. -/
def mergeTags (tags : SMap Nat) (src dst : Nat) : Option Nat :=
  (linesAt src 4096 ++ linesAt dst 4096).foldl (fun a l => a.bind (fun x => mergeTag x (tags.get 0 l))) (some 0)

/-- The sums of one 256-byte beat of a MERGE (R177). -/
def mergeSum (m : SMap Nat) (src dst : Nat) : Nat :=
  (List.range 32).foldr (fun i acc =>
    let a := storeRead m (src + 8 * i) 8
    let b := storeRead m (dst + 8 * i) 8
    let s := Acc.add 40 (entryVal b, entryInexact b) (entryVal a, entryInexact a)
    entryWord s.1 s.2 0 false + acc * 2 ^ 64) 0

end Sys2Proof.Machine
end

