-- ==== Sys2Proof/Machine/Chain.lean ====
section
/-! DEFINITION. The vector chain: DRAIN, STREAM and REDUCE through the stages S0 to S7 (R184 to R202), with the tile
buffers (R186), the reductions (R198 to R200), requantisation (R201) and the reports to the finite flag (R202). -/

namespace Sys2Proof.Machine

/-- What a chain operation works on. -/
structure CCtx where
  b : Nat
  w : Nat
  now : Nat
  spire : Bool
  image : Image
  latches : List Latch
  own : Seeding
deriving DecidableEq, Repr

def CCtx.drain (c : CCtx) : Bool := bVop c.b = 1
def CCtx.rows (c : CCtx) : Nat := bVRows c.b
/-- Elements of a row (R194). -/
def CCtx.cols (c : CCtx) : Nat := if c.drain then 128 else 128 * (bLen c.b + 1)
/-- S6 writes rows. -/
def CCtx.hasOut (c : CCtx) : Bool := cOp c.w 6 != 2
/-- Elements per beat (R194). -/
def CCtx.perBeat (c : CCtx) : Nat :=
  if c.drain then 128
  else
    let w := max (fmtBits (cInFmt c.w)) (max (if c.hasOut then fmtBits (bOutFmt c.b) else 0)
      (if cUsesSide c.w then fmtBits (cSideFmt c.w) else 0))
    min 256 (2048 / w)
/-- Chunks of a row. -/
def CCtx.chunks (c : CCtx) : Nat := ceilDiv c.cols c.perBeat
/-- The busy beats (R194). -/
def CCtx.busy (c : CCtx) : Nat := c.rows * c.chunks

/-- A plain drain leaves y unrounded up to S6 (R185). -/
def CCtx.plain (c : CCtx) : Bool :=
  c.drain && cOp c.w 1 = 0 && cOp c.w 2 = 0 && cOp c.w 3 = 0 && cOp c.w 5 = 0

/-- The vectors a reduction or S1 reads at RED_A (R195). -/
def redReads (w : Nat) : Nat :=
  if cRowVal w then 1
  else if !cRedAcc w then 0
  else match cOp w 5 with
    | 0 => 0 | 7 => 2 | 8 => 3 | 9 => 3 | _ => 1

/-- The vectors a reduction writes at RED_A (R195). -/
def redWrites (w : Nat) : Nat :=
  match cOp w 5 with
  | 0 => 0 | 7 => 2 | 8 => 3 | 9 => 4 | _ => 1

/-- The registers of the targets that S3 and S5 read (R190), with the kind under which a `ChainJob` holds their blocks. -/
def targetRegs (w : Nat) : List (Nat × Nat) :=
  (if cOp w 3 = 3 then [(3, cArg w 3 % 32)] else []) ++ (if cOp w 5 = 8 ∨ cOp w 5 = 9 then [(4, cArg w 5 % 32)] else [])

/-- Where output row `i` goes, as (address, first column, columns) pieces (R190 S7, R196). -/
def CCtx.outPieces (c : CCtx) (t : Tower) (i : Nat) : List (Nat × Nat × Nat) :=
  let d := t.areg (bVDst c.b)
  let a := adrStep d.val d.step i
  match cOp c.w 7 with
  | 1 => (List.range (c.cols / 128)).map (fun k => (a + k * (cArg c.w 7 % 2 ^ 16) * 64, 128 * k, 128))
  | 2 => [(a, 0, 64), (a + 0x18_0000, 64, 64)]
  | _ => [(a, 0, c.cols)]

/-- The operand ranges of a chain operation (R64, R195): address and bytes. -/
def CCtx.ranges (c : CCtx) (t : Tower) : List (Nat × Nat) :=
  let src := t.areg (bVSrc c.b)
  let side := t.areg (bSide c.b)
  let rows := List.range c.rows
  (if c.drain then [] else rows.map (fun i => (adrStep src.val src.step i, c.cols * fmtBits (cInFmt c.w) / 8)))
  ++ (if cUsesSide c.w then rows.map (fun i => (adrStep side.val side.step i, c.cols * fmtBits (cSideFmt c.w) / 8)) else [])
  ++ (if cRscaleEn c.w then [((t.areg (cRscale c.w)).val, 4 * c.rows)] else [])
  ++ (if cUsesSide c.w && cSscaleEn c.w then [((t.areg (cSscale c.w)).val, 4 * c.rows)] else [])
  ++ (if c.hasOut && cOscaleEn c.w then [((t.areg (cOscale c.w)).val, 4 * c.rows)] else [])
  ++ (List.range (max (redReads c.w) (redWrites c.w))).map (fun k => ((t.areg (cRed c.w)).val + 512 * k, 4 * c.rows))
  ++ (targetRegs c.w).map (fun x => ((t.areg x.2).val, 4 * c.rows))
  ++ (if c.hasOut && cDstTb c.w = 0 then
        rows.flatMap (fun i => (c.outPieces t i).map (fun p => (p.1, p.2.2 * fmtBits (bOutFmt c.b) / 8)))
      else [])

/-- The reads of the per-row vectors that the chunk which begins a 64-row block makes (R195): the beats after its entry, the kind
under which a `ChainJob` holds the block, and the vector's address. -/
def CCtx.vectors (c : CCtx) (t : Tower) : List (Nat × Nat × Nat) :=
  (if cRscaleEn c.w then [(0, 0, (t.areg (cRscale c.w)).val)] else [])
  ++ (if cUsesSide c.w && cSscaleEn c.w then [(1, 1, (t.areg (cSscale c.w)).val)] else [])
  ++ (List.range (redReads c.w)).map (fun v => (2 + v, 8 + v, (t.areg (cRed c.w)).val + 512 * v))
  ++ (targetRegs c.w).map (fun x => (2, x.1, (t.areg x.2).val))
  ++ (if c.hasOut && cOscaleEn c.w then [(3, 2, (t.areg (cOscale c.w)).val)] else [])

/-- Chunk `q` of the operation begins a 64-row block (R195). -/
def CCtx.begins (c : CCtx) (q : Nat) : Bool := q % c.chunks = 0 && q / c.chunks % 64 = 0

/-- Rows of the operation in 64-row block `b`. -/
def CCtx.blockRows (c : CCtx) (b : Nat) : Nat := min 64 (c.rows - 64 * b)

/-- The elements of chunk `k` of a row. -/
def CCtx.chunkCols (c : CCtx) (k : Nat) : Nat := min c.perBeat (c.cols - k * c.perBeat)

/-- The address and bytes of the source chunk and of the side chunk `q` (R195). -/
def CCtx.srcChunk (c : CCtx) (t : Tower) (q : Nat) : Nat × Nat :=
  let s := t.areg (bVSrc c.b)
  let k := q % c.chunks
  (adrStep s.val s.step (q / c.chunks) + k * c.perBeat * fmtBits (cInFmt c.w) / 8, c.chunkCols k * fmtBits (cInFmt c.w) / 8)

@[inherit_doc CCtx.srcChunk]
def CCtx.sideChunk (c : CCtx) (t : Tower) (q : Nat) : Nat × Nat :=
  let s := t.areg (bSide c.b)
  let k := q % c.chunks
  (adrStep s.val s.step (q / c.chunks) + k * c.perBeat * fmtBits (cSideFmt c.w) / 8, c.chunkCols k * fmtBits (cSideFmt c.w) / 8)

/-- The execute reads of a chain operation `d` beats after its issue (R195); two stages that name one target register make one
access. -/
def CCtx.reads (c : CCtx) (t : Tower) (d : Nat) : List PortUse :=
  let rd (a : Nat) : PortUse := ⟨bankOf a, false⟩
  (if !c.drain && decide (d < c.busy) then [rd (c.srcChunk t d).1] else [])
  ++ (if cUsesSide c.w && decide (1 ≤ d ∧ d - 1 < c.busy) then [rd (c.sideChunk t (d - 1)).1] else [])
  ++ (((c.vectors t).filter (fun v => decide (v.1 ≤ d ∧ d - v.1 < c.busy) && c.begins (d - v.1)
        && !(v.2.1 = 4 && (targetRegs c.w).any (fun x => x.1 = 3 && x.2 = cArg c.w 5 % 32)))).map (fun v =>
      rd (v.2.2 + 4 * ((d - v.1) / c.chunks))))

/-- Pairwise tree sum at 40 bits, lane 2k with lane 2k + 1 upward (R198). -/
def treeSum : Nat → List Num → Num
  | 0, xs => xs.headD .zero
  | n + 1, xs =>
    match xs with
    | [] => .zero
    | [x] => x
    | _ => treeSum n ((chunks 2 xs.length xs).map (fun p => match p with
        | [a, b] => accAdd' 40 a b
        | [a] => a
        | _ => .zero))

/-- The identity of a reduction (R198). -/
def redIdentity (op : Nat) : RedSt :=
  match op with
  | 4 => ⟨.inf true, -1, .zero, .zero, none⟩
  | 5 => ⟨.inf false, -1, .zero, .zero, none⟩
  | 7 => ⟨.inf true, -1, .zero, .zero, none⟩
  | 8 => ⟨.inf true, -1, .zero, .zero, none⟩
  | 9 => ⟨.inf true, -1, .zero, .zero, none⟩
  | _ => ⟨.zero, -1, .zero, .zero, none⟩

/-- Word `i` of a per-row vector of which a `ChainJob` holds the blocks. -/
def ChainJob.vec (j : ChainJob) (kind i : Nat) : Nat := bits (j.vecs.get 0 (16 * (i / 64) + kind)) (32 * (i % 64)) 32

/-- The prior state of row `i` at RED_A (R199). -/
def ChainJob.prior (j : ChainJob) (w i : Nat) : RedSt :=
  if cRedAcc w then
    let f (k : Nat) := decode32 (j.vec (8 + k) i)
    match cOp w 5 with
    | 7 => ⟨f 0, signed 32 (j.vec 9 i), .zero, .zero, none⟩
    | 8 => ⟨f 0, -1, f 1, f 2, none⟩
    | 9 => ⟨f 0, -1, f 1, f 2, none⟩
    | _ => ⟨f 0, -1, .zero, .zero, none⟩
  else redIdentity (cOp w 5)

/-- Add a chunk's sum to the row's, left to right at 40 bits. -/
def addSum (st : RedSt) (x : Num) : RedSt :=
  { st with sums := some (match st.sums with
      | some s => accAdd' 40 s x
      | none => x) }

/-- ARGMAX over one value (R198): a NaN is the largest, a tie keeps the lower column. -/
def argStep (st : RedSt) (v : Num) (col : Int) : RedSt :=
  if st.v.isNan then st
  else if v.isNan then { st with v := v, col := col }
  else if st.v.lt v then { st with v := v, col := col }
  else if !v.lt st.v && decide (col < st.col) then { st with v := v, col := col }
  else st

/-- One chunk of a reduction (R198, R200); `c0` is the absolute column of the chunk's first element. -/
def redChunk (op : Nat) (st : RedSt) (xs : List Num) (c0 : Int) (target : Int) : RedSt :=
  match op with
  | 1 => addSum st (treeSum xs.length xs)
  | 2 => addSum st (treeSum xs.length (xs.map (fun x => ((x.mul x).rne 40).1)))
  | 3 => addSum st (treeSum xs.length (xs.map Num.abs))
  | 4 => { st with v := xs.foldl fMax st.v }
  | 5 => { st with v := xs.foldl fMin st.v }
  | 6 => { st with v := (xs.map Num.abs).foldl fMax st.v }
  | 7 => xs.zipIdx.foldl (fun st e => argStep st e.1 (c0 + e.2)) st
  | 8 | 9 =>
    let m := xs.foldl fMax st.v
    let es := fp32 (treeSum xs.length (xs.map (fun x => fExp (fSub x m))))
    let st' := if m = .inf true then st
      else { st with v := m, s := fAdd (fMul st.s (fExp (fSub st.v m))) es }
    if c0 ≤ target ∧ target < c0 + xs.length then { st' with picked := xs.getD (target - c0).toNat .zero } else st'
  | _ => st

/-- The values a row's reduction writes, by vector (R199): FP32 words, or the ARGMAX column. -/
def redOut (op : Nat) (st : RedSt) : List Nat × Bool :=
  match op with
  | 0 => ([], false)
  | 7 => ([encode32 st.v, unsigned 32 st.col], !st.v.finite)
  | 8 => ([encode32 st.v, encode32 st.s, encode32 st.picked], !(st.v.finite && st.s.finite && st.picked.finite))
  | 9 =>
    let lse := fAdd st.v (fLog st.s)
    let loss := fSub lse st.picked
    ([encode32 st.v, encode32 st.s, encode32 loss, encode32 lse],
      !(st.v.finite && st.s.finite && loss.finite && lse.finite))
  | _ =>
    let r := match st.sums with
      | some s => fp32 (accAdd' 40 s st.v)
      | none => st.v
    ([encode32 r], !r.finite)

/-- Land a write. -/
def Tower.land (t : Tower) (x : LandWrite) : Tower :=
  match x.tile with
  | some k => { t with tiles := t.tiles.set k (storeWrite (t.tiles.getD k []) x.addr x.n x.v) }
  | none => t.writeTagged x.addr x.n x.v x.tag

/-- `n` values of a tile buffer from value `i` on, packed (R186). -/
def tileRow (t : Tower) (k i n : Nat) : Nat := storeRead (t.tiles.getD k []) (4 * i) (4 * n)

/-- Value `i` of packed FP32 values. -/
def packed32 (v i : Nat) : Num := decode32 (bits v (32 * i) 32)

/-- The index of a per-column vector (R188). -/
def CCtx.colIndex (c : CCtx) (t : Tower) (col : Nat) : Nat :=
  if c.drain then 128 * ((t.areg (cBlk c.w)).val % 64) + col else col

/-- S4 within one 128-element block (R190): the source lane and whether it is negated. -/
def s4Lane (w : Nat) (tile : Nat → Nat) (c : Nat) : Nat × Bool :=
  match cOp w 4 with
  | 1 => ((c + cArg w 4 % 128) % 128, false)
  | 2 => if c % 2 = 0 then (c + 1, true) else (c - 1, false)
  | 3 => if c < 64 then (c + 64, true) else (c - 64, false)
  | 4 => (tile c % 128, false)
  | 5 => (cArg w 4 % 128, false)
  | _ => (c, false)

/-- A BF16 constant of ARG. -/
def argBf16 (w s : Nat) : Num := decodeFmt 2 (cArg w s % 2 ^ 16)

/-- What stages S0 to S3 take for one element (R185, R190): the accumulator entry or the decoded source, row scale, channel scale,
side value, row value, S1's and S3's auxiliary value, and whether the column is the target. -/
structure Lane03 where
  x : Num
  rs : Num
  cs : Num
  z : Num
  rv : Num
  aux1 : Num
  aux3 : Num
  onehot : Bool

/-- Stages S0 to S3 on one element (R185, R190). -/
def stages03 (c : CCtx) (a : Lane03) : Num :=
  let s := fp32 (a.rs.mul a.cs)
  let y := if c.drain then (let y := ((a.x.mul s).rne 40).1; if c.plain then y else fp32 y) else fp32 (a.x.mul s)
  let v := if cOp c.w 0 = 1 then y.neg else y
  let v := match cOp c.w 1 with
    | 1 => fAdd v a.aux1
    | 2 => fMul v a.aux1
    | 3 => fAdd v a.z
    | 4 => fAdd v (argBf16 c.w 1)
    | 5 => fMul v (argBf16 c.w 1)
    | 6 => fMul v a.rv
    | 7 => fSub v a.rv
    | _ => v
  let v := if cOp c.w 2 = 0 then v else chainFn (cOp c.w 2) v
  match cOp c.w 3 with
  | 1 => fMul v a.z
  | 2 => fMul v (chainDeriv (cArg c.w 3 % 16) a.z)
  | 3 => if a.onehot then fSub v (fInt 1) else v
  | 4 => fMul v a.aux3
  | _ => v

/-- The random field of column `col` of row `i` (R201): the row's member context, else the segment's (log 13). -/
def CCtx.index (c : CCtx) (t : Tower) (i col : Nat) : Nat :=
  let e := t.areg (cEidx c.w)
  unsigned 32 (128 * ((e.val : Int) + i * signed 23 e.step) + col)

/-- The member the row map binds to output row `i`, when ROW_EN is set (R202). -/
def CCtx.member (c : CCtx) (t : Tower) (i : Nat) : Option Nat :=
  if cRowEn c.w then c.image.memberOf ((t.areg (cRow c.w)).val + i) else none

/-- The seeding of output row `i`. -/
def CCtx.seeding (c : CCtx) (t : Tower) (i : Nat) : Seeding :=
  match c.member t i with
  | some m => match c.latches[m]? with
    | some l => l.seeding
    | none => c.own
  | none => c.own

/-- The tensor ID of reports and random fields: 0xFFFF when S6 is NONE (R202). -/
def CCtx.tensor (c : CCtx) : Nat := if c.hasOut then bits (cArg c.w 6) 1 16 else 0xFFFF

/-- Chunks of a unit: of a 128-element block, or one chunk when it is wider. -/
def CCtx.unitChunks (c : CCtx) : Nat := ceilDiv 128 c.perBeat

/-- The values of unit `u` of row `i` at the entry to S4, from the chunks read (R185, R190). -/
def ChainJob.unit03 (j : ChainJob) (c : CCtx) (t0 : Tower) (i u : Nat) : List Num :=
  let per := c.perBeat
  let f32 (kind : Nat) (en : Bool) : Num := if en then decode32 (j.vec kind i) else fInt 1
  let rs := f32 0 (cRscaleEn c.w)
  let ss := f32 1 (cSscaleEn c.w)
  let rv := if cRowVal c.w then decode32 (j.vec 8 i) else .zero
  let base3 := 128 * (t0.areg (cArg c.w 3 / 32 % 32)).val
  (List.range' (u * c.unitChunks) c.unitChunks).flatMap (fun k =>
    let cap := (j.caps.find? (fun x => x.i = i && x.k = k)).getD ⟨i, k, 0, 0, 0, 0, 0, 0⟩
    (List.range (c.chunkCols k)).map (fun q => stages03 c
      { x := if c.drain then entryVal (bits cap.src (64 * q) 64) else decodeFmt (cInFmt c.w) (element cap.src (fmtBits (cInFmt c.w)) q)
        rs := rs
        cs := if cCscaleEn c.w then packed32 cap.cs q else fInt 1
        z := if cUsesSide c.w then fMul (decodeFmt (cSideFmt c.w) (element cap.side (fmtBits (cSideFmt c.w)) q)) ss else .zero
        rv := rv
        aux1 := if cAuxEn c.w then packed32 cap.aux1 q else .zero
        aux3 := if cAuxEn c.w then packed32 cap.aux3 q else .zero
        onehot := decide (((base3 + k * per + q : Nat) : Int) = signed 32 (j.vec 3 i)) }))

/-- The source lane, within the unit, of each of its lanes at S4 and whether it is negated (R190), from the chunks read. -/
def ChainJob.lanes (j : ChainJob) (c : CCtx) (i u n : Nat) : List (Nat × Bool) :=
  (List.range n).map (fun q =>
    let k := u * c.unitChunks + q / c.perBeat
    let perm := ((j.caps.find? (fun x => x.i = i && x.k = k)).map (fun x => x.perm)).getD 0
    let l := s4Lane c.w (fun x => bits perm (8 * x) 8) (q % 128)
    (q / 128 * 128 + l.1, l.2))

/-- The writes of the output columns `lo` on of row `i` held in `enc`, landing in `beat` (R190 S7, R195). -/
def CCtx.outWrites (c : CCtx) (t0 : Tower) (op : OpId) (beat i lo : Nat) (enc : List Nat) : List LandWrite :=
  let ow := fmtBits (bOutFmt c.b)
  let pack (xs : List Nat) : Nat := xs.foldr (fun x acc => x + acc * 2 ^ ow) 0
  if cDstTb c.w != 0 then
    [⟨op, beat, some (cDstTb c.w - 1), 256 * i + lo * ow / 8, enc.length * ow / 8, pack enc, 0, false⟩]
  else
    (c.outPieces t0 i).filterMap (fun p =>
      let a := max p.2.1 lo
      let b := min (p.2.1 + p.2.2) (lo + enc.length)
      if a < b then
        some ⟨op, beat, none, p.1 + (a - p.2.1) * ow / 8, (b - a) * ow / 8, pack ((enc.drop (a - lo)).take (b - a)), 0, true⟩
      else none)

/-- One unit of a row passes S4 to S7 (R195): what it adds to the reduction, its writes, and its first offending column (R202). -/
def ChainJob.evalUnit (j : ChainJob) (c : CCtx) (t0 : Tower) (i u : Nat) : ChainJob × List LandWrite :=
  let per := c.perBeat
  let c0 := u * (per * c.unitChunks)
  let v3 := j.unit03 c t0 i u
  let n := v3.length
  let lanes := j.lanes c i u n
  let v4 := lanes.map (fun l => let v := v3.getD l.1 .zero; if l.2 then v.neg else v)
  let base5 := 128 * (t0.areg (cArg c.w 5 / 32 % 32)).val
  let target : Int := if cOp c.w 5 = 8 ∨ cOp c.w 5 = 9 then signed 32 (j.vec 4 i) else -1
  let red0 := if u = 0 then j.prior c.w i else j.red
  let red := (chunks (min per n) n v4).zipIdx.foldl (fun st e =>
    redChunk (cOp c.w 5) st e.1 (base5 + c0 + e.2 * per : Nat) target) red0
  let os := decode32 (j.vec 2 i)
  let v6 := v4.map (fun v => if cOscaleEn c.w && c.hasOut then
    (if c.plain then ((v.mul os).rne 40).1 else fp32 (v.mul os)) else v)
  let sd := c.seeding t0 i
  let enc := v6.zipIdx.map (fun e => encodeFmt (bOutFmt c.b) (bit (cArg c.w 6) 0)
    (if cOp c.w 6 = 1 then .stochastic (latticeField sd c.tensor (c.index t0 i (c0 + e.2))) else .nearest) e.1)
  let outs := if !c.hasOut then [] else
    (List.range c.unitChunks).flatMap (fun k =>
      c.outWrites t0 j.op (c.now + i * c.chunks + u * c.unitChunks + k + 12) i (c0 + k * per) ((enc.drop (k * per)).take per))
  let bad := ((List.range n).filter (fun k =>
      (c.hasOut && !(v6.getD k .zero).finite) || (!(v3.getD k .zero).finite && !lanes.any (·.1 = k)))).head?
  ({ j with
      red := red, caps := j.caps.filter (fun x => !(x.i = i && x.k / c.unitChunks = u))
      bad := match (if u = 0 then none else j.bad) with
        | some x => some x
        | none => bad.map (c0 + ·) }, outs)

/-- A row is over (R199, R202): what it leaves at RED_A, written with the block it completes, and its report. -/
def ChainJob.endRow (j : ChainJob) (c : CCtx) (t0 : Tower) (i : Nat) : ChainJob × List LandWrite × List Report :=
  let out := redOut (cOp c.w 5) j.red
  let outs := j.outs ++ [out.1]
  let beat := c.now + (i + 1) * c.chunks + 11
  let last := i % 64 = 63 || i + 1 = c.rows
  let ws := if last then
      (List.range (redWrites c.w)).map (fun v =>
        (⟨j.op, beat + v, none, (t0.areg (cRed c.w)).val + 512 * v + 4 * (i / 64 * 64), 4 * outs.length,
          outs.foldr (fun x acc => x.getD v 0 + acc * 2 ^ 32) 0, 0, true⟩ : LandWrite))
    else []
  let rep := match (if out.2 then some 0 else j.bad) with
    | some col => [(⟨c.member t0 i, c.tensor, c.index t0 i col⟩ : Report)]
    | none => []
  ({ j with outs := if last then [] else outs }, ws, rep)

/-- What chunk `q` has read of its own `x` beats after its entry, from the tower as it stands in that beat (R195). -/
def ChainJob.capture (j : ChainJob) (c : CCtx) (t t0 : Tower) (q x : Nat) : ChainJob :=
  let i := q / c.chunks
  let k := q % c.chunks
  let upd (f : Cap → Cap) : ChainJob := { j with caps := mapIf (fun y => y.i = i && y.k = k) f j.caps }
  let col := c.colIndex t0 (k * c.perBeat)
  match x with
  | 0 =>
    let s := c.srcChunk t0 q
    let v := if c.drain then t.drainRow c.spire (bVGroup c.b) i else storeRead t.store s.1 s.2
    { j with caps := j.caps ++ [⟨i, k, v, 0, 0, 0, 0, 0⟩] }
  | 1 => if cUsesSide c.w then upd (fun y => { y with side := storeRead t.store (c.sideChunk t0 q).1 (c.sideChunk t0 q).2 }) else j
  | 2 => if cCscaleEn c.w then upd (fun y => { y with cs := tileRow t (cCscaleTb c.w) col (c.chunkCols k) }) else j
  | 3 => if cAuxEn c.w then upd (fun y => { y with aux1 := tileRow t (cAuxTb c.w) col (c.chunkCols k) }) else j
  | 7 => if cAuxEn c.w then upd (fun y => { y with aux3 := tileRow t (cAuxTb c.w) col (c.chunkCols k) }) else j
  | 8 => if cOp c.w 4 = 4 then upd (fun y => { y with perm := tileRow t (cArg c.w 4 % 4) 0 32 }) else j
  | _ => j

/-- The blocks of per-row vectors that are read `d` beats after the issue (R195). -/
def ChainJob.readVectors (j : ChainJob) (c : CCtx) (t t0 : Tower) (d : Nat) : ChainJob :=
  (c.vectors t0).foldl (fun (j : ChainJob) v =>
    if v.1 ≤ d ∧ d - v.1 < c.busy ∧ c.begins (d - v.1) then
      let b := (d - v.1) / c.chunks / 64
      { j with vecs := j.vecs.set 0 (16 * b + v.2.1) (storeRead t.store (v.2.2 + 256 * b) (4 * c.blockRows b)) }
    else j) j

end Sys2Proof.Machine
end

