-- ==== Sys2Proof/Machine/Rule.lean ====
section
/-! DEFINITION. Rule programs (R223 to R225) and the RULE operation's frames, evaluation and working copy (R226 to
R233). -/

namespace Sys2Proof.Machine

def rOp (w : Nat) : Nat := bits w 0 6
def rD (w : Nat) : Nat := bits w 6 3
def rA (w : Nat) : Nat := bits w 9 3
def rB (w : Nat) : Nat := bits w 12 3
def rC (w : Nat) : Nat := bits w 15 3
def rK (w : Nat) : Nat := bits w 18 4
def rMode (w : Nat) : Nat := bits w 22 2

/-- The bits of a rule word that its operation uses (R223, R224); none: a reserved OP. -/
def ruleMask (op : Nat) : Option Nat :=
  let d := 0x7 * 2 ^ 6
  let a := 0x7 * 2 ^ 9
  let b := 0x7 * 2 ^ 12
  let c := 0x7 * 2 ^ 15
  let k := 0xF * 2 ^ 18
  let m := 0x3 * 2 ^ 22
  match op with
  | 0x00 => some 0
  | 0x01 | 0x02 | 0x03 | 0x04 => some (0x3F + d)
  | 0x05 | 0x06 => some (0x3F + d + k)
  | 0x07 | 0x11 => some (0x3F + d + m)
  | 0x08 | 0x09 | 0x0A | 0x0D | 0x0E => some (0x3F + d + a + b)
  | 0x0B | 0x10 | 0x12 => some (0x3F + d + a + b + c)
  | 0x0C => some (0x3F + d + a + k)
  | 0x0F | 0x13 => some (0x3F + d + a)
  | 0x18 | 0x19 => some (0x3F + a + 2 ^ 22)
  | _ => none

/-- The registers a rule word reads. -/
def ruleReads (w : Nat) : List Nat :=
  match rOp w with
  | 0x08 | 0x09 | 0x0A | 0x0D | 0x0E => [rA w, rB w]
  | 0x0B | 0x10 | 0x12 => [rA w, rB w, rC w]
  | 0x0C | 0x0F | 0x13 | 0x18 | 0x19 => [rA w]
  | _ => []

/-- The word writes its D register. -/
def ruleWrites (w : Nat) : Bool := !(rOp w = 0 || rOp w = 0x18 || rOp w = 0x19)

/-- The word index at which a program of R225 is refused, none if it is valid; `i` is the index of the first word of the
list, `stm` and `stu` count those words so far, `wr` holds the registers written. -/
def ruleBad : Nat → Nat → Nat → List Nat → List Nat → Option Nat
  | _, _, _, _, [] => some 31
  | i, stm, stu, wr, w :: ws =>
    match ruleMask (rOp w) with
    | none => some i
    | some m =>
      if w &&& m ≠ w ∨ (rOp w = 0x0C ∧ ¬ (1 ≤ rK w ∧ rK w ≤ 12)) then some i
      else if (ruleReads w).any (fun r => !wr.contains r) then some i
      else if rOp w = 0 then (if stm = 1 then none else some i)
      else if (rOp w = 0x18 ∧ stm = 1) ∨ (rOp w = 0x19 ∧ stu = 1) then some i
      else ruleBad (i + 1) (if rOp w = 0x18 then stm + 1 else stm) (if rOp w = 0x19 then stu + 1 else stu)
        (if ruleWrites w then rD w :: wr else wr) ws

/-- The words of a program up to its first END. -/
def ruleBody (ws : List Nat) : List Nat := ws.takeWhile (fun w => rOp w != 0)

/-- P of R230. -/
def ruleP (ws : List Nat) : Nat :=
  let n := ((ruleBody ws).map (fun w => if rOp w = 0x12 then 8 else 1)).sum
  max 96 (6 * (n + 3))

/-- The parts of a frame (R227). -/
def frameMaster : Nat := 0x1000
def frameMom : Nat := 0x2500
def frameGrad : Nat := 0x3000
def frameBytes : Nat := 0x5A00

/-- The lanes' state in a group of eight: registers v0 to v7, STM and STU with their rounding modes, the first
non-finite report of each lane, and whether SOLVE8 took the sign-only update. -/
structure RuleSt where
  v : List (List Num)
  stm : Option (List Num × Nat)
  stu : Option (List Num × Nat)
  rep : List (Option Nat)
  singular : Bool
deriving DecidableEq, Repr

def RuleSt.init : RuleSt := ⟨List.replicate 8 (List.replicate 8 .zero), none, none, List.replicate 8 none, false⟩

def RuleSt.get (s : RuleSt) (r : Nat) : List Num := s.v.getD r []

/-- Note a report of tag `tag` in the lanes whose value is non-finite and that have none yet. -/
def RuleSt.note (s : RuleSt) (tag : Nat) (xs : List Num) : RuleSt :=
  { s with rep := s.rep.zipWith (fun r x => match r with
      | some t => some t
      | none => if x.finite then none else some tag) xs }

/-- Set register D, noting non-finite results (R231). -/
def RuleSt.put (s : RuleSt) (d tag : Nat) (xs : List Num) : RuleSt := { s with v := s.v.set d xs }.note tag xs

/-- The eight values a load takes: `inPage` says which lanes are below SLOTS; the others load +0 (R228). -/
def laneLoad (inPage : List Bool) (f : Nat → Num) : List Num :=
  inPage.zipIdx.map (fun e => if e.1 then f e.2 else .zero)

/-- One rule word on a group of eight whose first slot is `s` of the page at `a`, slot number `n` (R224). -/
def ruleWord (c : RuleCtx) (m : SMap Nat) (a s n : Nat) (inPage : List Bool) (st : RuleSt) (w : Nat) : RuleSt :=
  let x := st.get (rA w)
  let y := st.get (rB w)
  let z := st.get (rC w)
  let d := rD w
  let const (v : Num) : List Num := List.replicate 8 v
  match rOp w with
  | 0x01 => st.put d 0xF010 (laneLoad inPage (fun i => fp32 (entryVal (storeRead m (a + frameGrad + 8 * (s + i)) 8))))
  | 0x02 => st.put d 0xF011 (laneLoad inPage (fun i => decode32 (storeRead m (a + frameMaster + 4 * (s + i)) 4)))
  | 0x03 => st.put d 0xF011 (laneLoad inPage (fun i => decodeFmt 2 (storeRead m (a + frameMom + 2 * (s + i)) 2)))
  | 0x04 => st.put d 0xF011 (laneLoad inPage (fun i =>
      fp32 ((decodeDlt8 (storeRead m (slotAddr a (s + i) + 2) 1)).mul (headScale (storeRead m a 16)))))
  | 0x05 => st.put d 0xF011 (const (decode32 (c.latch.row.getD (rK w) 0)))
  | 0x06 => st.put d 0xF011 (const (decode32 (c.group.g.getD (rK w % 4) 0)))
  | 0x07 => st.put d 0xF011 (const (match rMode w with
      | 0 => .zero | 1 => fInt 1 | 2 => fInt (-1) | _ => fHalf))
  | 0x08 => st.put d 0xF011 (x.zipWith fAdd y)
  | 0x09 => st.put d 0xF011 (x.zipWith fSub y)
  | 0x0A => st.put d 0xF011 (x.zipWith fMul y)
  | 0x0B => st.put d 0xF011 ((x.zip y).zipWith (fun p q => fFma p.1 p.2 q) z)
  | 0x0C => st.put d 0xF011 (x.map (chainFn (rK w)))
  | 0x0D => st.put d 0xF011 (x.zipWith fMax y)
  | 0x0E => st.put d 0xF011 (x.zipWith fMin y)
  | 0x0F => st.put d 0xF011 (x.map fSign)
  | 0x10 => st.put d 0xF011 ((x.zip y).zipWith (fun p q => if p.1.pos then p.2 else q) z)
  | 0x11 => st.put d 0xF011 ((List.range 8).map (fun i =>
      fp32 (.fin false (latticeField c.latch.seeding (0xF002 + rMode w) (n + i)) (-16))))
  | 0x12 =>
    let r := solve8 x y z (decode32 (c.group.g.getD 0 0))
    { st.put d 0xF011 r.1 with singular := st.singular || r.2 }
  | 0x13 =>
    let g (i : Nat) := x.getD i .zero
    st.put d 0xF011 (const (fAdd (fAdd (fAdd (g 0) (g 1)) (fAdd (g 2) (g 3))) (fAdd (fAdd (g 4) (g 5)) (fAdd (g 6) (g 7)))))
  | 0x18 => { st with stm := some (x, rMode w % 2) }.note 0xF011 x
  | 0x19 => { st with stu := some (x, rMode w % 2) }.note 0xF011 x
  | _ => st

/-- What a page's evaluation leaves: per slot the STM value and STU word (none: unchanged), the rounding mode of the
working copy, the first report, and the slots of lane 0 of the singular groups. -/
structure PageOut where
  stm : List (Option Num)
  mode : Nat
  stu : List (Option Nat)
  report : Option (Nat × Nat)
  singular : List Nat
deriving DecidableEq, Repr

/-- Slot `s` of the page at `a` is live (R163). -/
def slotLive (m : SMap Nat) (a s : Nat) : Bool := storeRead m (slotAddr a s + 2) 1 != 0x80

/-- Evaluate the program on every group of eight of a page (R228, R231); the STU value R231 tests is the momentum the
lane writes (log 91). -/
def rulePage (c : RuleCtx) (m : SMap Nat) (a : Nat) : PageOut :=
  let slots := min (storeRead m (a + 0xC) 2) 1344
  let first := bits (storeRead m (a + 8) 4) 0 28
  (List.range (ceilDiv slots 8)).foldl (fun (o : PageOut) j =>
    let s := 8 * j
    let inPage := (List.range 8).map (fun i => decide (s + i < slots))
    let live := (List.range 8).map (fun i => decide (s + i < slots) && slotLive m a (s + i))
    let st := (ruleBody c.prog).foldl (ruleWord c m a s (first + s) inPage) .init
    let ms : List (Option Num) := match st.stm with
      | some x => live.zipWith (fun (l : Bool) v => if l then some v else none) x.1
      | none => List.replicate 8 none
    let us : List (Option Nat) := match st.stu with
      | some x => (live.zip x.1).zipIdx.map (fun e => if e.1.1 then
          some (encodeFmt 2 false (if x.2 = 1 then
            .stochastic (latticeField c.latch.seeding 0xF001 (first + s + e.2)) else .nearest) e.1.2) else none)
      | none => List.replicate 8 none
    let rep := ((live.zip (st.rep.zip us)).zipIdx.filterMap (fun e => match e.1 with
      | (true, some t, _) => some (t, first + s + e.2)
      | (true, none, some u) => if (decodeFmt 2 u).finite then none else some (0xF011, first + s + e.2)
      | _ => none)).head?
    { stm := o.stm ++ ms.take (slots - s)
      mode := match st.stm with
        | some x => x.2
        | none => 0
      stu := o.stu ++ us.take (slots - s)
      report := match o.report with
        | some r => some r
        | none => rep
      singular := if st.singular then o.singular ++ [first + s] else o.singular }) ⟨[], 0, [], none, []⟩

/-- The exponent E of R229 for a non-zero finite amax, clamped. -/
def scaleExp (m : Nat) (e : Int) : Int :=
  let e0 := leadPos m e - 3
  let fits := !(Num.fin false 245 (e0 - 4)).lt (.fin false m e)
  max (-126) (min 127 (if fits then e0 else e0 + 1))

/-- The page scale of R229 as a power of two. -/
def rulescale (stm : List (Option Num)) : Int :=
  match (stm.filterMap id).foldl (fun a v => fMax a v.abs) Num.zero with
  | .fin _ m e => if m = 0 then 0 else scaleExp m e
  | _ => 0

/-- A value divided by 2^e. -/
def Num.shift (x : Num) (k : Int) : Num :=
  match x with
  | .fin s m e => .fin s m (e - k)
  | y => y

/-- What a frame's evaluation writes (R228, R229): the page image, the masters and the momentum, one behind the other; `m` holds the
frame as read, from address 0. -/
def ruleFrame (c : RuleCtx) (m : SMap Nat) : Nat × PageOut :=
  let o := rulePage c m 0
  let first := bits (storeRead m 8 4) 0 28
  let e := rulescale o.stm
  let page0 := putBits (storeRead m 0 4096) 32 32 (encode32 (.fin false 1 e))
  let page := o.stm.zipIdx.foldl (fun p x => match x.1 with
    | some v =>
      let rd : Rounding := if o.mode = 1 then .stochastic (latticeField c.latch.seeding 0xF000 (first + x.2)) else .nearest
      let b := encodeDlt8 rd (v.shift e)
      putBits p (8 * (0x40 + 3 * x.2 + 2)) 8 (if b = 0x80 then 0 else b)
    | none => p) page0
  let masters := o.stm.zipIdx.foldl (fun p x => match x.1 with
    | some v => putBits p (32 * x.2) 32 (encode32 v)
    | none => p) (storeRead m frameMaster 5376)
  let mom := o.stu.zipIdx.foldl (fun p x => match x.1 with
    | some v => putBits p (16 * x.2) 16 v
    | none => p) (storeRead m frameMom 2688)
  (page + masters * 2 ^ (8 * frameMaster) + mom * 2 ^ (8 * frameMom), o)

/-- The bytes of a frame that a RULE writes, its padding not among them (R227). -/
def frameWritten : Nat := frameMom + 2688

/-- A frame's read faults at block `b` of it (R226, R227): a page outside the group, with the header; a line of another member. -/
def frameFault (c : RuleCtx) (t : Tower) (a b : Nat) : Option Nat :=
  let page := bits (storeRead t.store (a + 8) 4) 0 28 / 1344
  if b = 0 ∧ !(c.group.first ≤ page && page < c.group.first + c.group.pages) then some 0x0111
  else if (linesAt (a + 256 * b) 256).any (fun l => t.tags.get 0 l != 0 && t.tags.get 0 l != c.member + 1) then some 0x010F
  else none

/-- The ports a RULE holds `d` beats after its issue (R230). -/
def RuleJob.ports (j : RuleJob) (d : Nat) : List PortUse :=
  let p := ruleP j.ctx.prog
  (if d < 16 + j.rows * p then [⟨bankOf j.src.val, false⟩] else [])
  ++ (if 16 + p ≤ d ∧ d < 16 + j.rows * p + 48 then [⟨bankOf j.dst.val, true⟩] else [])

/-- The 48 writes of frame `i`, one a beat from beat `beat` on (R230). -/
def RuleJob.writes (j : RuleJob) (i beat v : Nat) : List LandWrite :=
  (List.range 48).map (fun b =>
    let n := min 256 (frameWritten - 256 * b)
    ⟨j.op, beat + b, none, adrStep j.dst.val j.dst.step i + 256 * b, n, bits v (2048 * b) (8 * n), 0, false⟩)

end Sys2Proof.Machine
end

