-- ==== Sys2Proof/Machine/Engine.lean ====
section
/-! DEFINITION. The operations under way, beat by beat: what each reads in a beat, what it forms, what lands (R73, R134, R147, R171
to R177, R195, R197, R230), the bank ports they share (R65) and the faults they meet (R173, R174, R226). -/

namespace Sys2Proof.Machine

/-- What a tower's execute engine sees of its segment: the image, its program, the beat, what was latched at release
(R187, R212), and HERITAGE. -/
structure TEnv where
  im : Image
  prog : TowerProg
  now : Nat
  latches : List Latch
  chain : List Nat
  rules : List Nat
  own : Seeding
deriving DecidableEq, Repr

/-- HERITAGE of the segment (R149). -/
def TEnv.heritage (e : TEnv) : Bool := e.own.heritage

/-- What the issue of a bundle or a beat of its operations gives besides the tower: reports in element order with the operation's
number, events as (code, three arguments), pages written and suppressed as (member, group, pages), singular marks as (member, group,
slot), the beats of array and lane counted; and of a beat the execute accesses made, the banks that lanes read, whether the lane's
multiply unit is taken (R172), and faults. -/
structure BOut where
  t : Tower
  reports : List (Nat × Report)
  events : List (Nat × Nat × Nat × Nat)
  pages : List (Nat × Nat × Nat)
  frozen : List (Nat × Nat × Nat)
  singular : List (Nat × Nat × Nat)
  arrayBeats : Nat
  laneBeats : Nat
  uses : List (OpId × PortUse)
  lanes : List Nat
  paired : Bool
  faults : List TFault
deriving DecidableEq, Repr

def BOut.of (t : Tower) : BOut := ⟨t, [], [], [], [], [], 0, 0, [], [], false, []⟩

/-- Execute accesses of an operation in the beat (R65). -/
def BOut.use (o : BOut) (op : OpId) (us : List PortUse) : BOut := { o with uses := o.uses ++ us.map (fun u => (op, u)) }

/-- The operation goes on after the beat. -/
def BOut.keep (o : BOut) (j : Job) : BOut := { o with t := { o.t with jobs := o.t.jobs ++ [j] } }

/-- Writes to come. -/
def BOut.land (o : BOut) (ws : List LandWrite) : BOut := { o with t := { o.t with landing := o.t.landing ++ ws } }

/-- The operation meets a fault in the beat. -/
def BOut.fault (o : BOut) (op : OpId) (code : Nat) : BOut :=
  { o with faults := o.faults ++ [⟨code, op.slot, op.item, op.bundle, op.sched⟩] }

/-- Storage errors that an operation's reads of group `g` bring to light (R156). -/
def BOut.check (o : BOut) (g : Nat) (sel : Nat → Bool) : BOut :=
  let r := (o.t.group g).check sel
  { o with t := o.t.setGroup g r.1, events := o.events ++ r.2.map (fun x => if x.1 = 0x010C then (x.1, 0, g, x.2) else (x.1, 0, 0, 0)) }

/-- The same for a group or, in Spire order, its pair. -/
def BOut.checks (o : BOut) (spire : Bool) (g : Nat) (sel : Nat → Bool) : BOut :=
  if spire then (o.check g sel).check (g + 1) sel else o.check g sel

/-! The delta lane. -/

/-- The PASS's input row-plane as read, decoded (R169). -/
def PassJob.elem (j : PassJob) (fmt r p k : Nat) : Num := decodeFmt fmt (element (j.ins.get 0 (4 * r + p)) (fmtBits fmt) k)

/-- The contribution so far to row `r`. -/
def PassJob.delta (j : PassJob) (r : Nat) : List (Nat × Acc) := ((j.deltas.find? (·.1 = r)).map (·.2.2)).getD []

/-- The row's contribution, or its pair's inputs, are late (R172): 0x010E in beat b_r + 4. -/
def Lane.late (l : Lane) (h : DHeader) (next : Option (Nat × Nat)) (n : Nat) : Bool :=
  !h.noAdd && (match next with
    | some p => (List.range l.c.rows).any (fun r => decide (p.1 ≤ r ∧ l.c.lastPlane r + 4 = n))
    | none => false)

/-- Pair (`r`, `k`) can be taken in beat `n` (R172). -/
def Lane.ready (l : Lane) (h : DHeader) (d : DRec) (r k n : Nat) : Bool :=
  decide (k < l.ents.length) && decide ((if h.turned then l.c.inputAt r d.plane else l.c.inputAt r (l.c.planes - 1)) ≤ n)
    && (!l.c.sample || l.rows.any (·.1 = r))

/-- The lane takes the pair (`r`, `k`) (R169, R172, R175); the last pair of a record sets its gradient run to be read (R176). -/
def PassJob.takePair (j : PassJob) (l : Lane) (h : DHeader) (rs : List DRec) (r k n : Nat) : PassJob × Lane :=
  let d := rs.getD k (dRec 0)
  let es := l.ents.getD k []
  let inp (p i : Nat) : Num := j.elem l.c.inFmt r p i
  let j := if h.noAdd then j
    else { j with deltas := j.deltas.filter (·.1 ≠ r) ++ [(r, n, contribution l.c h d inp es (j.delta r))] }
  let l' := { l with next := (r, k + 1) }
  let l' := if l.c.sample then
      let x := ((l.rows.find? (·.1 = r)).map (·.2)).getD (0, .zero)
      let old := ((l.parts.find? (·.1 = k)).map (·.2)).getD []
      let more := (List.range' (r + 1) (l.c.rows - (r + 1))).any d.covers
      { l' with
        parts := l.parts.filter (·.1 ≠ k) ++ [(k, samplePartials h d inp x.1 x.2 es old)]
        runs := if more then l.runs else l.runs ++ (blocksAt d.grad (roundUp (8 * d.quota) 64)).map (fun b => (k, b)) }
    else l'
  (j, l')

/-- The blocks that row `r` of a SAMPLE needs (R171), by twice the address and 1 more for the block of its factor. -/
def Lane.rowKeys (l : Lane) (h : DHeader) (r : Nat) : List Nat :=
  (blocksAt (adrStep l.c.src l.c.srcStep r) (16 * fmtBits h.xfmt)).map (2 * ·)
    ++ (if h.rscaleEn then [2 * ((h.rscale + 4 * r) / 256 * 256) + 1] else [])

/-- All blocks of SAMPLE row `r` are read. -/
def Lane.rowDone (l : Lane) (h : DHeader) (r : Nat) : Lane :=
  let bs := (l.src.filter (fun x => x.1 % 2 = 0)).map (fun x => (x.1 / 2, x.2))
  let fs := (l.src.filter (fun x => x.1 % 2 = 1)).map (fun x => (x.1 / 2, x.2))
  { l with rows := l.rows ++ [(r, blkRead bs (adrStep l.c.src l.c.srcStep r) (16 * fmtBits h.xfmt),
      if h.rscaleEn then decode32 (blkRead fs (h.rscale + 4 * r) 4) else fInt 1)] }

/-- A lane read of the 256-byte block at `a` (R171). -/
def BOut.laneRead (o : BOut) (op : OpId) (a : Nat) : BOut :=
  { o.use op [⟨bankOf a, false⟩] with lanes := o.lanes ++ [bankOf a] }

/-- SAMPLE's reads of a beat (R171): its rows in order, each from the start of its first row-plane. -/
def Lane.sources (h : DHeader) (rs : List DRec) (op : OpId) (n : Nat) : Nat → Lane × BOut → Lane × BOut
  | 0, x => x
  | f + 1, (l, o) =>
    match l.srcLeft with
    | key :: ks =>
      if laneFree o.lanes (bankOf (key / 2)) then
        let l := { l with src := l.src ++ [(key, storeRead o.t.store (key / 2) 256)], srcLeft := ks }
        Lane.sources h rs op n f (if ks = [] then l.rowDone h (l.srcNext - 1) else l, o.laneRead op (key / 2))
      else (l, o)
    | [] =>
      match (List.range' l.srcNext (l.c.rows - l.srcNext)).find? (fun r => rs.any (·.covers r)) with
      | none => (l, o)
      | some r =>
        if l.c.rowPlane r 0 ≤ n then
          let keys := l.rowKeys h r
          let l := { l with srcNext := r + 1, src := l.src.filter (fun x => keys.contains x.1)
                            srcLeft := keys.filter (fun k => !l.src.any (·.1 = k)) }
          Lane.sources h rs op n f (if l.srcLeft = [] then l.rowDone h r else l, o)
        else (l, o)

/-- The first beat in which the lane may write a block again: one block a beat (R176). -/
def laneWriteFrom (t : Tower) : Nat := ((t.landing.filter (fun w => w.op.slot = 2)).map (fun w => w.beat + 1)).foldl max 0

/-- The gradient-run reads of a beat, each with the write that follows it four beats later or more (R176). -/
def Lane.readRuns (rs : List DRec) (op : OpId) (n : Nat) : Nat → Lane × BOut → Lane × BOut
  | 0, x => x
  | f + 1, (l, o) =>
    match l.runs with
    | (k, b) :: xs =>
      if laneFree o.lanes (bankOf b) then
        let d := rs.getD k (dRec 0)
        let ps := ((l.parts.find? (·.1 = k)).map (·.2)).getD []
        let p := runPart d b
        let w : LandWrite := ⟨op, max (n + 4) (laneWriteFrom o.t), none, p.1, p.2, sampleRun o.t.store d ps b, d.member + 1, true⟩
        let o := o.laneRead op b
        if runTagsOk o.t.tags d b then Lane.readRuns rs op n f ({ l with runs := xs }, o.land [w])
        else (l, o.fault op 0x010F)
      else (l, o)
    | [] => (l, o)

/-- The lane turns to record `idx`, whose table block it has read: the headers it lacks and the slot blocks are to be read (R171). -/
def Lane.begin (l : Lane) (d : DRec) : Lane :=
  let kept := l.heads.filter (fun x => (recPages d).contains x.1)
  { l with
    begun := true, pages := kept, slots := []
    left := ((recPages d).filter (fun p => !kept.any (·.1 = p))).map (fun p => ⟨1, p⟩) ++ (recSlotBlocks d).map (fun b => ⟨2, b⟩) }

/-- A table block is read (R167, R168, R173): the lane faults with 0x010E on a bad header or record; the row checks of its records
begin. -/
def Lane.readTable (l : Lane) (op : OpId) (n : Nat) (o : BOut) : Lane × BOut :=
  let b := l.c.tableBlock l.idx
  let first := l.tabs = []
  let l := { l with tabs := l.tabs ++ [(b, storeRead o.t.store b 256)] }
  let o := o.laneRead op b
  let h := l.header o.t.store
  let rs := l.records o.t.store
  let n0 := (rs.zipIdx.filter (fun e => decide (l.c.tableBlock e.2 < b))).length
  let n1 := (rs.zipIdx.filter (fun e => decide (l.c.tableBlock e.2 ≤ b))).length
  if (first && hdrBad l.c h) || anyRecBad l.c h (rs.take n1) n0 then (l, o.fault op 0x010E)
  else (l.begin (rs.getD l.idx (dRec 0)), { o with t := { o.t with
    checks := o.t.checks ++ (l.c.recsIn b rs).map (fun d =>
      (⟨n + 64, l.c.rowA + d.row0, d.rows, d.member, op.item, op.bundle, op.sched⟩ : RowCheck)) } })

/-- A page header of record `d` is read (R173). -/
def Lane.readHead (l : Lane) (op : OpId) (d : DRec) (a : Nat) (o : BOut) : Lane × BOut :=
  let w := storeRead o.t.store a 16
  let l := { l with left := l.left.tail, pages := l.pages ++ [(a, w)], heads := (l.heads ++ [(a, w)]).drop (l.heads.length - 7) }
  (l, if headOk d a w then o.laneRead op a else (o.laneRead op a).fault op 0x0110)

/-- A block of slot bytes of record `d` is read (R173): headers kept from earlier reads are judged with the first of them, the tags with
each, the tile-interval with the last. -/
def Lane.readSlots (l : Lane) (op : OpId) (d : DRec) (b : Nat) (o : BOut) : Lane × BOut :=
  let l := { l with left := l.left.tail, slots := l.slots ++ [(b, storeRead o.t.store b 256)] }
  let ok := blockTagsOk o.t.tags d b
  let o := o.laneRead op b
  if !l.pages.all (fun x => headOk d x.1 x.2) then (l, o.fault op 0x0110)
  else if !ok then (l, o.fault op 0x010F)
  else if l.left = [] then
    match l.entries d with
    | some es => ({ l with ents := l.ents ++ [es], idx := l.idx + 1, begun := false }, o)
    | none => (l, o.fault op 0x0110)
  else (l, o)

/-- The reads of items 1 to 3 of R171 in a beat, all of the record `cur` once one is taken (log 12). -/
def Lane.items (op : OpId) (n : Nat) : Nat → Option Nat → Lane × BOut → Lane × BOut
  | 0, _, x => x
  | f + 1, cur, (l, o) =>
    let rs := l.records o.t.store
    if o.faults.any (fun x => x.slot = 2) then (l, o)
    else if l.tabs != [] && decide (rs.length ≤ l.idx) then (l, o)
    else if cur != none && cur != some l.idx then (l, o)
    else if !l.tabs.any (·.1 = l.c.tableBlock l.idx) then
      if laneFree o.lanes (bankOf (l.c.tableBlock l.idx)) then Lane.items op n f (some l.idx) (l.readTable op n o) else (l, o)
    else
      let d := rs.getD l.idx (dRec 0)
      let l := if l.begun then l else l.begin d
      match l.left with
      | x :: _ =>
        if laneFree o.lanes (bankOf x.addr) then
          Lane.items op n f (some l.idx) (if x.kind = 1 then l.readHead op d x.addr o else l.readSlots op d x.addr o)
        else (l, o)
      | [] => (l, o)

/-- The lane's work on an operation is over in beat `n` (R170, R176): every record read, every pair taken, every run written, and its
last delta addition made. -/
def PassJob.laneOver (j : PassJob) (l : Lane) (o : BOut) (busy n : Nat) : Bool :=
  let rs := l.records o.t.store
  l.tabs != [] && decide (rs.length ≤ l.idx) && (l.pair rs).isNone && l.runs = []
    && !o.t.landing.any (fun w => w.op.num = j.op.num && w.op.slot = 2 && decide (n < w.beat))
    && ((l.header o.t.store).noAdd || decide (j.op.at_ + busy + 4 ≤ n))

/-- A beat of the delta lane (R171, R172, R176): one pair, then SAMPLE's reads, the gradient runs' and those of items 1 to 3.  The lane
stands on slot code 2 of the PASS's bundle (R174). -/
def PassJob.laneBeat (j : PassJob) (n : Nat) (o : BOut) : PassJob × BOut :=
  match j.lane with
  | none => (j, o)
  | some l =>
    let op := { j.op with slot := 2 }
    let h := l.header o.t.store
    let rs := l.records o.t.store
    let next := l.pair rs
    if l.late h next n then (j, o.fault op 0x010E)
    else
      let take := match next with
        | some p => !o.paired && l.ready h (rs.getD p.2 (dRec 0)) p.1 p.2 n
        | none => false
      let x := match next with
        | some p => if take then j.takePair l h rs p.1 p.2 n else (j, l)
        | none => (j, l)
      let o := if take then { o with paired := true, laneBeats := o.laneBeats + 1 } else o
      let y := if l.c.sample then Lane.sources h rs op n (l.c.rows + 3) (x.2, o) else (x.2, o)
      let y := Lane.readRuns rs op n 3 y
      let y := Lane.items op n 4 none y
      ({ x.1 with lane := some y.1 }, y.2)

/-- The lane stops in beat `n` (R174): rows whose contributions are not complete receive none. -/
def PassJob.stopLane (m : SMap Nat) (n : Nat) (j : PassJob) : PassJob :=
  match j.lane with
  | none => j
  | some l =>
    let p := l.pair (l.records m)
    { j with lane := none, deltas := j.deltas.filter (fun d => decide (d.2.1 < n) && (match p with
        | some x => decide (d.1 < x.1)
        | none => true)) }

/-- The tower's lanes stop in beat `n`, and what they were about to write is not written. -/
def Tower.stopLanes (t : Tower) (n : Nat) : Tower :=
  let mine := t.jobs.filterMap (fun j => match j with
    | .pass p => if p.lane.isSome then some p.op.num else none
    | _ => none)
  { t with
    jobs := t.jobs.map (fun j => match j with
      | .pass p => .pass (p.stopLane t.store n)
      | x => x)
    landing := t.landing.filter (fun w => !(w.op.slot = 2 && mine.contains w.op.num)) }

/-! The units. -/

/-- What the bundle of a PASS says of its operands. -/
def PassJob.ops (j : PassJob) (heritage : Bool) : PassOps := ⟨bMode j.b, bInFmt j.b, bWFmt j.b, heritage, bPlanes j.b⟩

/-- The busy beats of a bundle's PASS. -/
def bBusy (b : Nat) : Nat := passBusy (bMode b) (bInFmt b) (bWFmt b) (bMRows b) (bPlanes b)

/-- The beats a row of a bundle's PASS takes. -/
def bRowBeats (b : Nat) : Nat := rowPlanes (bInFmt b) (bWFmt b) (bPlanes b) * passBeats (bMode b) (bInFmt b) (bWFmt b)

/-- The PASS's read of beat `d` (R116, matrix slot): up to 256 bytes of the row-plane under way. -/
def PassJob.read (j : PassJob) (d : Nat) (o : BOut) : PassJob × BOut :=
  let f := bInFmt j.b
  let per := passBeats (bMode j.b) f (bWFmt j.b)
  let n := rowPlanes f (bWFmt j.b) (bPlanes j.b)
  let r := d / per / n
  let k := d % per
  let ps := if pair4 f (bWFmt j.b) then [2 * (d / per % n), 2 * (d / per % n) + 1] else [d / per % n]
  if d < bBusy j.b ∧ 256 * k < 16 * fmtBits f then
    let a := passAddr j.a f r (ps.headD 0) + 256 * k
    let len := min 256 (16 * fmtBits f - 256 * k)
    ({ j with ins := ps.foldl (fun m p =>
        m.upd 0 (4 * r + p) (· + storeRead o.t.store (passAddr j.a f r p + 256 * k) len * 2 ^ (2048 * k))) j.ins },
      o.use j.op [⟨bankOf a, false⟩])
  else (j, o)

/-- Row `r` of a PASS reaches its entries (R134), or joins the leafs that are pushed with the last row (R137, R138). -/
def PassJob.writeRow (j : PassJob) (e : TEnv) (r : Nat) (o : BOut) : PassJob × BOut :=
  let g := bMGroup j.b
  let ins := (List.range (bPlanes j.b)).map (fun p => j.ins.get 0 (4 * r + p))
  let ds := j.delta r
  let delta (c : Nat) : Option Acc := (ds.find? (·.1 = c)).map (·.2)
  if e.im.spire then
    let leafs := j.leafs ++ leafRow (j.ops e.heritage) j.planes ins r delta
    if r + 1 = bMRows j.b then
      let o := if bStart j.b then { o with t := o.t.setNodes g [] } else o.checks true g (fun _ => true)
      ({ j with leafs := [] }, { o with t := o.t.push g 0 leafs })
    else ({ j with leafs := leafs }, o)
  else
    let o := if bStart j.b then o else o.check g (fun i => i / 128 = r)
    (j, { o with t := o.t.setGroup g ((o.t.group g).passRow (j.ops e.heritage) (bStart j.b) j.planes ins r delta) })

/-- A beat of a PASS: its lane, its read, and the row that reaches the entries. -/
def PassJob.beat (e : TEnv) (j : PassJob) (o : BOut) : BOut :=
  let d := e.now - j.op.at_
  let busy := bBusy j.b
  let per := bRowBeats j.b
  let x := j.laneBeat e.now o
  let x := x.1.read d x.2
  let o := if d < busy then { x.2 with arrayBeats := x.2.arrayBeats + 1 } else x.2
  let x := if per + 5 ≤ d ∧ (d - 5) % per = 0 ∧ (d - 5) / per ≤ bMRows j.b then x.1.writeRow e ((d - 5) / per - 1) o else (x.1, o)
  let j := { x.1 with lane := x.1.lane.bind (fun l => if x.1.laneOver l x.2 busy e.now then none else some l) }
  if busy + 5 ≤ d && j.lane.isNone then x.2 else x.2.keep (.pass j)

/-- A beat of a LOAD (R73): one portion; the planes hold their new weights after the last. -/
def LoadJob.beat (e : TEnv) (j : LoadJob) (o : BOut) : BOut :=
  let d := e.now - j.op.at_
  let n := loadPortion j.fmt
  let a := j.addr + n * d
  let j := { j with got := storeWrite j.got (n * d) n (storeRead o.t.store a n) }
  let o := o.use j.op [⟨bankOf a, false⟩]
  if d + 1 = j.mask.length * planeBeats j.fmt then { o with t := o.t.loadPlanes j.mask j.fmt j.got } else o.keep (.load j)

/-- A beat of a MERGE (R177): 256 bytes of source and destination, whose sum is written four beats later. -/
def MergeJob.beat (e : TEnv) (j : MergeJob) (o : BOut) : BOut :=
  let d := e.now - j.op.at_
  let s := j.src + 256 * d
  let t := j.dst + 256 * d
  let o := { o with laneBeats := o.laneBeats + 1 }
  let o := if d < 16 then
      (o.use j.op [⟨bankOf s, false⟩, ⟨bankOf t, false⟩]).land [⟨j.op, e.now + 4, none, t, 256, mergeSum o.t.store s t, j.tag, true⟩]
    else o
  if d + 1 = 20 then o else o.keep (.merge j)

/-- The chain context of a vector slot. -/
def TEnv.cctx (e : TEnv) (b : Nat) : CCtx :=
  ⟨b, e.chain.getD (bChain b) 0, e.now, e.im.spire, e.im, e.latches, e.own⟩

/-- A beat of a chain operation (R195): each chunk on its way reads what its stage takes, the unit whose last chunk stands at S5 is
evaluated, and the operation leaves the pipeline eleven beats after its last busy one. -/
def ChainJob.beat (e : TEnv) (j : ChainJob) (o : BOut) : BOut :=
  let c := { e.cctx j.b with now := j.op.at_ }
  let d := e.now - j.op.at_
  let t0 : Tower := { o.t with aregs := j.aregs }
  let o := if c.drain ∧ d < c.busy then o.checks c.spire (bVGroup j.b) (fun i => i / 128 = d / c.chunks) else o
  let o := o.use j.op (c.reads t0 d)
  let j := (List.range 9).foldl (fun (j : ChainJob) x => if x ≤ d ∧ d - x < c.busy then j.capture c o.t t0 (d - x) x else j) j
  let j := j.readVectors c o.t t0 d
  let q := d - 9
  let i := q / c.chunks
  let k := q % c.chunks
  let x := if 9 ≤ d ∧ q < c.busy ∧ (k % c.unitChunks + 1 = c.unitChunks ∨ k + 1 = c.chunks) then
      let y := j.evalUnit c t0 i (k / c.unitChunks)
      if k + 1 = c.chunks then
        let z := y.1.endRow c t0 i
        (z.1, { o.land (y.2 ++ z.2.1) with reports := o.reports ++ z.2.2.map (fun r => (j.op.num, r)) })
      else (y.1, o.land y.2)
    else (j, o)
  if d = c.busy + 10 then x.2 else x.2.keep (.chain x.1)

/-- A beat of a RULE (R226 to R231): the frame read is evaluated and its writes begin, the next one's block is read; a frame fault
stops the RULE, and what earlier frames left is still written (R174; log 129). -/
def RuleJob.beat (e : TEnv) (j : RuleJob) (o : BOut) : BOut :=
  let d := e.now - j.op.at_
  let p := ruleP j.ctx.prog
  let o := o.use j.op (j.ports d)
  let i := (d - 16) / p
  let b := (d - 16) % p
  let x := if 16 + p ≤ d ∧ b = 0 ∧ i ≤ j.rows ∧ !j.frozen then
      let r := ruleFrame j.ctx j.got
      ({ j with got := [] }, { o.land (j.writes (i - 1) e.now r.1) with
        reports := o.reports ++ (match r.2.report with
          | some y => [(j.op.num, (⟨some j.ctx.member, y.1, y.2⟩ : Report))]
          | none => [])
        pages := o.pages ++ [(j.ctx.member, j.ctx.gi, 1)]
        singular := o.singular ++ r.2.singular.map (fun k => (j.ctx.member, j.ctx.gi, k)) })
    else (j, o)
  let a := adrStep j.src.val j.src.step i
  if 16 ≤ d ∧ i < j.rows ∧ b < 90 ∧ !j.frozen then
    match frameFault j.ctx o.t a b with
    | some f => x.2.fault j.op f
    | none => x.2.keep (.rule { x.1 with got := storeWrite x.1.got (256 * b) 256 (storeRead o.t.store (a + 256 * b) 256) })
  else if d = 63 + j.rows * p then x.2 else x.2.keep (.rule x.1)

/-- A beat of a SAVE or RESTORE (R147, accumulator slot): 64 entries; the last makes a RESTORE's tile part of the group, and takes the
node that a SAVE in Spire order wrote out of its pair (R140). -/
def AccJob.beat (e : TEnv) (j : AccJob) (o : BOut) : BOut :=
  let d := e.now - j.op.at_
  let g := bAGroup j.b
  let sp := e.im.spire
  let sel (i : Nat) : Bool := i / 64 = d
  if bAop j.b = 2 then
    let o := o.checks sp g sel
    let m := if sp then ((o.t.nodes g).head?.map (·.2)).getD [] else (o.t.group g).words
    let o := o.land ((List.range 4).map (fun q =>
      (⟨j.op, e.now, none, tileAddr j.addr d q, 128, packEntries m (64 * d + 16 * q) 16, 0, true⟩ : LandWrite)))
    if d = 255 then (if sp then { o with t := o.t.setNodes g (o.t.nodes g).tail } else o) else o.keep (.acc j)
  else
    let o := o.use j.op ((List.range 4).map (fun q => ⟨bankOf (tileAddr j.addr d q), false⟩))
    let got := (List.range' (64 * d) 64).foldl (fun (m : SMap Nat) i =>
      m.set 0 i (entryClean (storeRead o.t.store (tileEntry j.addr i) 8))) j.got
    if d = 255 then
      let o := if j.full then o.checks sp g (fun _ => true) else o
      if sp then (if entryNode j.first then { o with t := o.t.push g (entryLevel j.first) got } else o)
      else
        let gr := o.t.group g
        { o with t := o.t.setGroup g (if j.full then { gr with words := addTiles gr.words got 0 false } else ⟨true, got, none, []⟩) }
    else o.keep (.acc { j with got := got })

/-- A beat of an operation. -/
def Job.beat (e : TEnv) (o : BOut) : Job → BOut
  | .pass j => j.beat e o
  | .load j => j.beat e o
  | .merge j => j.beat e o
  | .chain j => j.beat e o
  | .rule j => j.beat e o
  | .acc j => j.beat e o

/-- `a` issued after `b`. -/
def OpId.later (a b : OpId) : Bool := decide (b.num < a.num) || (a.num = b.num && decide (b.slot < a.slot))

/-- The operation issued last among those that use a port another use takes as well (R65). -/
def collision (us : List (OpId × PortUse)) : Option OpId :=
  (us.filter (fun u => decide ((us.filter (·.2 = u.2)).length ≥ 2))).foldl (fun (m : Option OpId) u => match m with
    | some x => some (if u.1.later x then u.1 else x)
    | none => some u.1) none

/-- A beat of the tower's operations: every read takes what stood before the beat, then the beat's writes land.  Where
they need more than a bank's ports (R65), all of them stop and nothing of the beat stands; where the lane meets a fault, it stops
(R174). -/
def Tower.workBeat (t : Tower) (e : TEnv) : BOut :=
  let o := t.jobs.foldl (Job.beat e) (.of { t with jobs := [] })
  let o := if o.faults.any (fun f => f.slot = 2) then { o with t := o.t.stopLanes e.now, laneBeats := 0 } else o
  let now := o.t.landing.filter (fun w => w.beat = e.now)
  let us := o.uses ++ (now.filter (·.port)).map (fun w => (w.op, (⟨bankOf w.addr, true⟩ : PortUse)))
  match collision us with
  | some op => (BOut.of { t with jobs := [], landing := [] }).fault op 0x0106
  | none =>
    let rest := o.t.landing.filter (fun w => w.beat != e.now)
    { o with t := now.foldl Tower.land { o.t with landing := rest } }

/-- Levels of a Spire pair, newest first, once the passes under way have pushed (R138, R139). -/
def Tower.levels (t : Tower) (g : Nat) : List Nat :=
  t.jobs.foldl (fun ls j => match j with
    | .pass p => if bMGroup p.b = g then pushLevels (if bStart p.b then [] else ls) 0 else ls
    | _ => ls) ((t.nodes g).reverse.map (·.1))

/-- The delta lane is busy (R170, R177). -/
def Tower.laneBusy (t : Tower) : Bool :=
  t.jobs.any (fun j => match j with
    | .pass p => p.lane.isSome
    | .merge _ => true
    | _ => false)

end Sys2Proof.Machine
end

