-- ==== Sys2Proof/Machine/Bundle.lean ====
section
/-! DEFINITION. The issue of an execute bundle: its schedule beat (R69), what it waits for (R70, R80, R72), the checks
R77 makes in order, the order of its effects (R67, R70, R73 to R76), and what it starts. -/

namespace Sys2Proof.Machine

/-- The outcome of a try to issue a bundle: not due, waiting on a queue (R70), a precise fault (code, slot, item, first
argument in place of the context), or issued. -/
inductive Issue
  | notDue
  | waits
  | fault (code slot item : Nat) (origin : Option Nat)
  | issued (o : BOut)
deriving DecidableEq, Repr

/-- The bundle the tower stands before. -/
def TEnv.bundle (e : TEnv) (t : Tower) : Nat := e.prog.bundles.getD t.pc 0

/-- The schedule beat of the next bundle (R69). -/
def TEnv.due (e : TEnv) (t : Tower) : Nat :=
  match t.last with
  | none => bWait (e.bundle t)
  | some l => l + 1 + bWait (e.bundle t)

/-- The tower may issue: it runs, stands at no barrier, and has reached the bundle's schedule beat. -/
def TEnv.isDue (e : TEnv) (t : Tower) : Bool :=
  t.st = .running && !t.done && !t.atBarrier && t.startIn = 0 && t.swapLeft = 0 && decide (t.pc < e.prog.bundles.length)
    && t.sched = e.due t

/-- Queue `q`. -/
def Tower.queue (t : Tower) (q : Nat) : Queue := t.queues.getD q .empty

def Tower.setQueue (t : Tower) (q : Nat) (x : Queue) : Tower := { t with queues := t.queues.set q x }

/-- Entry `k` of a queue's ring. -/
def Queue.entry (q : Queue) (k : Nat) : QEntry := q.entries.getD (k % 16) .free

def Queue.setEntry (q : Queue) (k : Nat) (e : QEntry) : Queue := { q with entries := q.entries.set (k % 16) e }

/-- The slot address of ring entry `k` (R79). -/
def slotOf (p : TowerProg) (q k : Nat) : Nat :=
  let w := p.queues.getD q 0
  adr (qBase w + k % 16 * qSlot w)

/-- Act one queue sub-op (R80): the queue afterwards, or none when it has nothing to act on; the entry it took. -/
def queueAct (q : Queue) (op : Nat) : Option (Queue × Nat) :=
  let step (p : Nat) := (p + 1) % 16
  match op with
  | 1 => let e := q.entry q.mid
    if e.st = .present then some ({ q.setEntry q.mid { e with st := .inUse } with mid := step q.mid }, q.mid) else none
  | 2 => let e := q.entry q.tail
    if e.st = .inUse then some ({ q.setEntry q.tail .free with tail := step q.tail }, q.tail) else none
  | 3 => let e := q.entry q.head
    if e.st = .free then some ({ q.setEntry q.head { e with st := .opened } with head := step q.head }, q.head) else none
  | 4 => let e := q.entry q.mid
    if e.st = .opened then some ({ q.setEntry q.mid { e with st := .pushed } with mid := step q.mid }, q.mid) else none
  | _ => some (q, 0)

/-- The outcome of the two sub-ops of a bundle: waiting, a fault of sub-op `i`, or the tower with its queues moved, the
loads (register, address), and the poison of a popped entry with its sub-op. -/
inductive QueueRes
  | waits
  | fault (i : Nat)
  | ok (t : Tower) (loads : List (Nat × Nat)) (poison : Option (Nat × Nat))
deriving DecidableEq, Repr

/-- Sub-op A, then sub-op B (R70, R80, R81). -/
def queueOps (e : TEnv) (b : Nat) (t : Tower) : QueueRes :=
  (List.range 2).foldl (fun r i =>
    match r with
    | .ok t loads poison =>
      let op := bQop b i
      if op = 0 then r
      else
        let q := bQueue b i
        match queueAct (t.queue q) op with
        | none => if op = 1 ∨ op = 3 then .waits else .fault i
        | some (q', k) =>
          let p := ((t.queue q).entry k).poison
          -- a retired slot is the fetch engine's from the next beat (R81)
          let q' := if op = 2 then q'.setEntry k { QEntry.free with freeAt := e.now + 1 } else q'
          .ok (t.setQueue q q') (if op = 1 ∨ op = 3 then loads ++ [(bQReg b i, slotOf e.prog q k)] else loads)
            (match poison with
              | some x => some x
              | none => if op = 1 ∧ p ≠ 0 then some (i, p) else none)
    | x => x) (.ok t [] none)

/-- Every outbound entry has been accepted (R72): one that is still OPEN has not (log 46). -/
def outAccepted (p : TowerProg) (t : Tower) : Bool :=
  (List.range 16).all (fun q => !qOut (p.queues.getD q 0) || (t.queue q).entries.all (fun e => e.st = .free))

/-- The queue, ring position and direction of the pop or open that the waiting bundle stalls at, with its sub-op: sub-op A,
then sub-op B behind it (R52, R70, R81). -/
def TEnv.waitsOn (e : TEnv) (x : Tower) : Option (Nat × Nat × Nat × Bool) :=
  let b := e.bundle x
  let at_ (i : Nat) (q : Queue) : Option (Nat × Nat × Nat × Bool) :=
    if (bQop b i = 1 ∨ bQop b i = 3) ∧ (queueAct q (bQop b i)).isNone then
      some (i, bQueue b i, if bQop b i = 1 then q.mid else q.head, bQop b i = 1)
    else none
  let qa := x.queue (bQueue b 0)
  match at_ 0 qa with
  | some w => some w
  | none => at_ 1 (match queueAct qa (bQop b 0) with
      | some r => if bQueue b 1 = bQueue b 0 then r.1 else x.queue (bQueue b 1)
      | none => x.queue (bQueue b 1))

/-- The bundle's waits (R70): an unsatisfied POP or OPEN, or an END with outbound entries not yet accepted.  A sub-op that will
fault does so only when the bundle issues. -/
def TEnv.waits (e : TEnv) (t : Tower) : Bool :=
  (e.waitsOn t).isSome || (bCtl (e.bundle t) = 3 && !outAccepted e.prog t)

/-- Every operation has finished, tails and latencies included (R72): none is under way, no write is to come, no unit is busy. -/
def Tower.quiet (t : Tower) (now : Nat) : Bool :=
  t.jobs = [] && t.landing = [] && decide (t.arrayUntil ≤ now ∧ t.loadUntil ≤ now ∧ t.chainUntil ≤ now ∧ t.accUntil ≤ now)

/-- The operand ranges of the matrix slot (R64, R72's table): a LOAD's planes, or a PASS's row-planes. -/
def matrixRanges (b : Nat) (t : Tower) : List (Nat × Nat) :=
  let r := t.areg (bMReg b)
  match bMop b with
  | 1 => (List.range (popcount 4 (bMask b))).map (fun k => (adr (r.val + k * planeBytes (bWFmt b)), planeBytes (bWFmt b)))
  | 2 =>
    let n := 16 * fmtBits (bInFmt b)
    (List.range (bMRows b)).flatMap (fun i => (List.range (bPlanes b)).map (fun p => (adr (adrStep r.val r.step i + p * n), n)))
  | _ => []

/-- The operand ranges of the accumulator slot. -/
def accRanges (b : Nat) (t : Tower) : List (Nat × Nat) :=
  let a := (t.areg (bAReg b)).val
  if bAop b = 2 ∨ bAop b = 3 then (List.range 4).map (fun q => (a + q * 0x18_0000, 0x8000)) else []

/-- The frame of the delta operation attached to the bundle's PASS. -/
def TEnv.dctx (e : TEnv) (b : Nat) (t : Tower) : DCtx :=
  let s := t.areg (bDSrc b)
  { sample := bDop b = 2, issue := e.now, rows := bMRows b, planes := bPlanes b, inFmt := bInFmt b, wFmt := bWFmt b
    beats := passBeats (bMode b) (bInFmt b) (bWFmt b), a := (t.areg (bMReg b)).val, step := (t.areg (bMReg b)).step
    src := s.val, srcStep := s.step, table := (t.areg (bPageA b)).val, rowA := (t.areg (bRowA b)).val
    limit := e.prog.base }

/-- The operand ranges of the delta slot: the rows that SAMPLE reads, those that a record of its table covers (R171), and MERGE's two
blocks. -/
def TEnv.deltaRanges (e : TEnv) (b : Nat) (t : Tower) : List (Nat × Nat) :=
  match bDop b with
  | 2 =>
    let l := Lane.start (e.dctx b t)
    let rs := l.records t.store
    ((List.range l.c.rows).filter (fun r => rs.any (·.covers r))).map (fun r =>
      (adrStep l.c.src l.c.srcStep r, 16 * fmtBits (l.header t.store).xfmt))
  | 3 => [((t.areg (bDSrc b)).val, 4096), ((t.areg (bDDst b)).val, 4096)]
  | _ => []

/-- A range is 64-byte aligned and below the program region (R64). -/
def rangeOk (limit : Nat) (r : Nat × Nat) : Bool := r.1 % 64 = 0 && decide (r.1 + r.2 ≤ limit)

/-- The vector slot's operand ranges. -/
def TEnv.vecRanges (e : TEnv) (b : Nat) (t : Tower) : List (Nat × Nat) :=
  match bVop b with
  | 0 => []
  | 4 =>
    let s := t.areg (bVSrc b)
    let d := t.areg (bVDst b)
    (List.range (bVRows b)).flatMap (fun i =>
      [(adrStep s.val s.step i, frameBytes), (adrStep d.val d.step i, frameBytes)])
  | _ => (e.cctx b).ranges t

/-- The ITEM of a slot (R78). -/
def slotItem (b slot : Nat) : Nat :=
  match slot with
  | 0 => if 4 ≤ bCtl b ∧ bCtl b ≤ 6 then bCReg b else 0
  | 1 => if bMop b = 2 then bMGroup b else 0
  | 2 => if bDop b = 3 then 0 else bDGroup b
  | 3 => if bVop b = 1 then bVGroup b else bChain b
  | 4 => bAGroup b
  | 5 => bQueue b 0
  | _ => bQueue b 1

/-- The groups a slot names, in a Spire segment with the odd partner (R75). -/
def slotGroups (spire : Bool) (b slot : Nat) : List Nat :=
  let w (g : Nat) := if spire then [g, g + 1] else [g]
  match slot with
  | 1 => if bMop b = 2 then w (bMGroup b) else []
  | 3 => if bVop b = 1 then w (bVGroup b) else []
  | 4 => (if bAop b ≠ 0 then w (bAGroup b) else []) ++ (if bAop b = 4 then w (bGroup2 b) else [])
  | _ => []

/-- Check 1 of R77: the slot of a unit still busy (R63, R72, R73); a FORWARD whose PASS issues in the tail of the one before may find the
lane at its last rows (R170). -/
def busySlot (now b : Nat) (t : Tower) : Option Nat :=
  if bCtl b = 3 ∧ !t.quiet now then some 0
  else if bMop b = 1 ∧ t.loadUntil > now then some 1
  else if bMop b = 2 ∧ (t.arrayUntil > now ∨ (bSwap b ∧ t.loadUntil > now)) then some 1
  else if bDop b ≠ 0 ∧ t.laneBusy ∧ !(bDop b = 1 && bMop b = 2 && decide (now < t.arrayUntil + 6)) then some 2
  else if bVop b ≠ 0 ∧ t.chainUntil > now then some 3
  else if bAop b ≠ 0 ∧ t.accUntil > now then some 4
  else none

/-- A held group stands in the way of slot `slot` (R76): the tail of the previous PASS does not stop a PASS. -/
def heldFor (now : Nat) (t : Tower) (slot g : Nat) : Bool :=
  let h := t.holds.getD g ⟨0, 0, 0⟩
  decide (h.until_ > now) && !(slot = 1 && (h.owner = 1 || h.owner = 2) && decide (h.tail ≤ now))

/-- Check 2 of R77: the slot at fault with a group (R74, R76, R139). -/
def groupSlot (e : TEnv) (b : Nat) (t : Tower) : Option Nat :=
  let gs (s : Nat) := slotGroups e.im.spire b s
  if (gs 1).any (heldFor e.now t 1) then some 1
  else if (bDop b = 1 ∨ bDop b = 2) ∧ !(bMop b = 2 && bMGroup b = bDGroup b) then some 2
  else if (gs 3).any (fun g => heldFor e.now t 3 g || (gs 1).contains g) then some 3
  else if (gs 4).any (fun g => heldFor e.now t 4 g || (gs 1).contains g || (gs 3).contains g)
      || (bAop b = 4 && bAGroup b = bGroup2 b) then some 4
  else if e.im.spire ∧ bMop b = 2 ∧ pushFaults (if bStart b then [] else t.levels (bMGroup b)) 0 then some 1
  else if e.im.spire ∧ bAop b = 3 then
    let w := storeRead t.store (tileEntry (t.areg (bAReg b)).val 0) 8
    if entryNode w && pushFaults (t.levels (bAGroup b)) (entryLevel w) then some 4 else none
  else none

/-- Check 3 of R77: the slot with an operand out of range. -/
def rangeSlot (e : TEnv) (b : Nat) (t : Tower) : Option Nat :=
  let lim := e.prog.base
  if !(matrixRanges b t).all (rangeOk lim) then some 1
  else if !(e.deltaRanges b t).all (rangeOk lim) then some 2
  else if !(e.vecRanges b t).all (rangeOk lim) then some 3
  else if !(accRanges b t).all (fun r => rangeOk lim r)
      || ((bAop b = 2 || bAop b = 3) && decide ((t.areg (bAReg b)).val + 0x8000 > 0x18_0000)) then some 4
  else none

/-- Every entry of every queue is FREE (R82). -/
def queuesFree (t : Tower) : Bool := t.queues.all (fun q => q.entries.all (·.st = .free))

/-- Check 5 of R77: a BARRIER or END stands at its beat, and END behind every barrier (R72, R90; log 93). -/
def beatWrong (e : TEnv) (b : Nat) (t : Tower) : Bool :=
  (bCtl b = 2 && !(bBarrier b = t.barriers && (e.im.barriers[bBarrier b]?.map (·.1) == some t.sched)))
    || (bCtl b = 3 && !(t.sched + 1 = e.im.length && decide (e.im.barriers.length ≤ t.barriers)))

/-- Check 7 of R77: a plane's recorded format (R73). -/
def planeWrong (b : Nat) (t : Tower) : Bool :=
  bMop b = 2 && ((if bSwap b then t.shadow else t.active).take (bPlanes b)).any (fun p => p.fmt != 0xF && p.fmt != bWFmt b)

/-- The group entry a RULE names (R226): SIDE_A gives the member and the group. -/
def TEnv.ruleCtx (e : TEnv) (b : Nat) (t : Tower) : Option RuleCtx :=
  let v := (t.areg (bSide b)).val
  match e.latches[bits v 0 8]? with
  | some l => match l.groups[bits v 8 8]? with
    | some g => if bits v 0 8 < e.im.members.length then
        some ⟨(e.rules.drop (32 * bChain b)).take 32, bits v 0 8, bits v 8 8, g, l⟩ else none
    | none => none
  | none => none

/-- A frame crosses no bank boundary (R226). -/
def frameInBank (a : Nat) : Bool := bankOf a = bankOf (a + frameBytes - 1)

/-- The RULE's own checks at issue: 0x0111 (R226), then 0x0104 (R215). -/
def ruleFault (e : TEnv) (b : Nat) (t : Tower) : Option Nat :=
  if bVop b ≠ 4 then none
  else
    let s := t.areg (bVSrc b)
    let d := t.areg (bVDst b)
    match e.ruleCtx b t with
    | none => some 0x0111
    | some c =>
      if !e.im.training || !(List.range (bVRows b)).all (fun i =>
          frameInBank (adrStep s.val s.step i) && frameInBank (adrStep d.val d.step i)) then some 0x0111
      else if c.latch.strict && bit c.latch.frozen (bits (t.areg (bSide b)).val 8 8) then some 0x0104
      else none

/-- The first check of R77 that fails, with its slot and ITEM; then the checks at issue of RULE and MERGE. -/
def issueFault (e : TEnv) (b : Nat) (t : Tower) : Option (Nat × Nat × Nat × Option Nat) :=
  let f (code slot : Nat) := some (code, slot, slotItem b slot, none)
  match busySlot e.now b t with
  | some s => f 0x0105 s
  | none =>
  match groupSlot e b t with
  | some s => f 0x0103 s
  | none =>
  match rangeSlot e b t with
  | some s => f 0x0107 s
  | none =>
  match queueOps e b t with
  | .fault i => f 0x0102 (5 + i)
  | .waits => none
  | .ok t' _ poison =>
    let yield := bCtl b = 2 && (e.im.barriers[bBarrier b]?.map (·.2) == some true)
    if yield && !queuesFree t' then f 0x0102 0
    else if beatWrong e b t then f 0x0109 0
    else match poison with
      | some (i, code) => some (0x0108, 5 + i, slotItem b (5 + i), some code)
      | none =>
        if planeWrong b t then f 0x0115 1
        else match ruleFault e b t with
          | some c => f c 3
          | none =>
            if bDop b = 3 ∧ (mergeTags t.tags (t.areg (bDSrc b)).val (t.areg (bDDst b)).val).isNone then f 0x010F 2
            else none

/-- The register updates at the end of the issue beat, by precedence (R67). -/
def aregUpdate (b : Nat) (loads : List (Nat × Nat)) (r : Nat) (a : AReg) : AReg :=
  let incs := (if bCtl b = 5 ∧ bCReg b = r then bCVal b else 0)
    + (if bMop b = 1 ∧ bMInc b ∧ bMReg b = r then a.step * popcount 4 (bMask b) else 0)
    + (if bMop b = 2 ∧ bMInc b ∧ bMReg b = r then a.step * bMRows b else 0)
    + (if (bDop b = 1 ∨ bDop b = 2) ∧ bRowInc b ∧ bRowA b = r then a.step else 0)
    + (if bVop b ≠ 0 ∧ bSrcInc b ∧ bVSrc b = r then a.step else 0)
    + (if bVop b ≠ 0 ∧ bDstInc b ∧ bVDst b = r then a.step else 0)
    + (if bAop b ≠ 0 ∧ bAInc b ∧ bAReg b = r then a.step else 0)
  let v := match (loads.filter (·.1 = r)).getLast? with
    | some l => l.2
    | none => if bCtl b = 4 ∧ bCReg b = r then bCVal b else adr (a.val + incs)
  ⟨v, if bCtl b = 6 ∧ bCReg b = r then bCVal b else a.step⟩

/-- The loop stack after bundle `pc` (R71): a LOOP reached in sequence pushes its body. -/
def loopPush (b pc : Nat) (ls : List LoopFrame) : List LoopFrame :=
  if bCtl b = 1 ∧ !ls.any (·.first = pc) then ⟨pc, pc + bLoopBody b - 1, bLoopCount b - 1⟩ :: ls else ls

/-- The next bundle after `pc` (R71): back to the body's first while passes are left. -/
def loopNext (pc : Nat) : List LoopFrame → Nat × List LoopFrame
  | [] => (pc + 1, [])
  | l :: ls =>
    if l.last ≠ pc then (pc + 1, l :: ls)
    else if l.left = 0 then loopNext pc ls
    else (l.first, { l with left := l.left - 1 } :: ls)

/-- Hold groups (R75). -/
def Tower.hold (t : Tower) (gs : List Nat) (h : Hold) : Tower :=
  { t with holds := gs.foldl (fun hs g => hs.set g h) t.holds }

/-- The control slot (R90, R91, R72); at END every entry left is discarded (R82). -/
def controlSlot (e : TEnv) (b : Nat) (o : BOut) : BOut :=
  let t := o.t
  match bCtl b with
  | 2 =>
    let t := { t with atBarrier := true, barriers := t.barriers + 1 }
    if e.im.barriers[bBarrier b]?.map (·.2) == some true then
      { o with t := { t with store := [], tags := [], tiles := List.replicate 4 []
                             active := List.replicate 4 .clear, shadow := List.replicate 4 .clear } }
    else { o with t := t }
  | 3 => { o with t := { t with done := true, doneAt := e.now, queues := List.replicate 16 .empty, flightIn := [] } }
  | _ => o

/-- The operation of slot `slot` that the bundle starts. -/
def TEnv.opId (e : TEnv) (b slot : Nat) (t : Tower) : OpId := ⟨t.ops, slot, slotItem b slot, t.pc, t.sched, e.now⟩

/-- A PASS starts, with its attached delta operation (R123, R170, R175); `r` is the tower whose registers are read. -/
def passSlot (e : TEnv) (b : Nat) (r : Tower) (o : BOut) : BOut :=
  let g := bMGroup b
  let o := if bSwap b then { o with t := o.t.swapPlanes } else o
  let busy := bBusy b
  let attached := bDop b = 1 || bDop b = 2
  let t := o.t.hold (if e.im.spire then [g, g + 1] else [g]) ⟨if attached then 2 else 1, e.now + busy + 6, e.now + busy⟩
  { o with t := { t with arrayUntil := e.now + busy } }.keep (.pass
    { op := e.opId b 1 r, b := b, a := r.areg (bMReg b), planes := t.active, ins := [], leafs := [], deltas := []
      lane := if attached then some (.start (e.dctx b r)) else none })

/-- The matrix slot. -/
def matrixSlot (e : TEnv) (b : Nat) (r : Tower) (o : BOut) : BOut :=
  match bMop b with
  | 1 =>
    let ps := setBits 4 (bMask b)
    if ps = [] then o
    else
      { o with t := { o.t with loadUntil := e.now + ps.length * planeBeats (bWFmt b) } }.keep
        (.load ⟨e.opId b 1 r, ps, bWFmt b, (r.areg (bMReg b)).val, []⟩)
  | 2 => passSlot e b r o
  | _ => o

/-- MERGE (R177), with the tag judged at its issue; FORWARD and SAMPLE act with their PASS. -/
def deltaSlot (e : TEnv) (b : Nat) (r : Tower) (o : BOut) : BOut :=
  if bDop b = 3 then
    let s := (r.areg (bDSrc b)).val
    let d := (r.areg (bDDst b)).val
    o.keep (.merge ⟨e.opId b 2 r, s, d, (mergeTags o.t.tags s d).getD 0⟩)
  else o

/-- The vector slot: a chain operation, or a RULE (R194, R215, R228). -/
def vectorSlot (e : TEnv) (b : Nat) (r : Tower) (o : BOut) : BOut :=
  if bVop b = 0 then o
  else if bVop b = 4 then
    match e.ruleCtx b r with
    | none => o
    | some c =>
      let rows := bVRows b
      let frozen := bit c.latch.frozen c.gi
      let o := { o with t := { o.t with chainUntil := e.now + 16 + rows * ruleP c.prog } }.keep
        (.rule ⟨e.opId b 3 r, c, frozen, r.areg (bVSrc b), r.areg (bVDst b), rows, []⟩)
      if frozen then
        { o with events := o.events ++ [(0x0113, c.gi, rows, 0)], frozen := o.frozen ++ [(c.member, c.gi, rows)] }
      else o
  else
    let c := e.cctx b
    let t := { o.t with chainUntil := e.now + c.busy }
    let t := if c.drain then
        t.hold (if e.im.spire then [bVGroup b, bVGroup b + 1] else [bVGroup b]) ⟨3, e.now + c.busy, e.now + c.busy⟩
      else t
    { o with t := t }.keep (.chain ⟨e.opId b 3 r, b, r.aregs, [], [], redIdentity (cOp c.w 5), none, []⟩)

/-- The accumulator slot (R140, R147): ZERO and COPY touch groups that nothing else can see before they are over. -/
def accSlot (e : TEnv) (b : Nat) (r : Tower) (o : BOut) : BOut :=
  let g := bAGroup b
  let a := (r.areg (bAReg b)).val
  let sp := e.im.spire
  let gs := (if sp then [g, g + 1] else [g]) ++ (if bAop b = 4 then (if sp then [bGroup2 b, bGroup2 b + 1] else [bGroup2 b]) else [])
  let busy := if bAop b = 1 then 1 else 256
  let hold (o : BOut) : BOut := { o with t := { o.t with accUntil := e.now + busy }.hold gs ⟨4, e.now + busy, e.now + busy⟩ }
  match bAop b with
  | 1 => hold { o with t := if sp then o.t.setNodes g [] else o.t.setGroup g .empty }
  | 2 | 3 => (hold o).keep (.acc ⟨e.opId b 4 r, b, a, (o.t.group g).full, storeRead o.t.store (tileEntry a 0) 8, []⟩)
  | 4 =>
    let o := o.checks sp g (fun _ => true)
    hold { o with t := if sp then o.t.setNodes (bGroup2 b) (o.t.nodes g)
      else o.t.setGroup (bGroup2 b) { o.t.group g with full := true, err := [] } }
  | _ => o

/-- Everything a bundle does when it issues: sub-ops, slots, registers, position (R67, R69 to R71). -/
def issueEffect (e : TEnv) (b : Nat) (t t' : Tower) (loads : List (Nat × Nat)) : BOut :=
  let o := accSlot e b t (vectorSlot e b t (deltaSlot e b t (matrixSlot e b t (.of t'))))
  let o := controlSlot e b o
  let nx := loopNext t.pc (loopPush b t.pc t.loops)
  { o with t := { o.t with
      aregs := t.aregs.zipIdx.map (fun a => aregUpdate b loads a.2 a.1)
      last := some t.sched, pc := nx.1, loops := nx.2, wait := 0, cause := 0, ops := t.ops + 1 } }

/-- Try to issue the tower's next bundle (R69, R70, R77). -/
def tryIssue (e : TEnv) (t : Tower) : Issue :=
  if !e.isDue t then .notDue
  else if e.waits t then .waits
  else
    let b := e.bundle t
    match issueFault e b t with
    | some f => .fault f.1 f.2.1 f.2.2.1 f.2.2.2
    | none =>
      match queueOps e b t with
      | .ok t' loads _ => .issued (issueEffect e b t t' loads)
      | _ => .waits

end Sys2Proof.Machine
end

