-- ==== Sys2Proof/Machine/HostState.lean ====
section
/-! DEFINITION. The state of the host complex (12), the Keep (11, 14) and the links (13). -/

namespace Sys2Proof.Machine

/-- The states of a queue pair (HST_Q_STATUS.STATE). -/
inductive PairSt
  | disabled
  | running
  | stopped
  | draining
deriving DecidableEq, Repr

/-- A queue pair (R338 to R343): its registers, ring positions, phase, the code that stopped it, commands taken and not
completed, completions since the last interrupt with the nominal beat of the first, and an epoch: a completion whose
command was taken in an earlier epoch is dropped (R340, R349). -/
structure Pair where
  sqBase : Nat
  cqBase : Nat
  cfg : Nat
  st : PairSt
  sqHead : Nat
  sqTail : Nat
  cqHead : Nat
  cqTail : Nat
  phase : Bool
  error : Nat
  taken : Nat
  unread : Nat
  pend : Nat
  pendAt : Nat
  epoch : Nat
deriving DecidableEq, Repr

def Pair.reset : Pair := ⟨0, 0, 0, .disabled, 0, 0, 0, 0, false, 0, 0, 0, 0, 0, 0⟩

/-- An MSI-X table entry (R335, R343): address, data, mask bit and pending bit. -/
structure Msix where
  addr : Nat
  data : Nat
  mask : Bool
  pend : Bool
deriving DecidableEq, Repr

/-- An entry at reset: masked (log 15). -/
def Msix.reset : Msix := ⟨0, 0, true, false⟩

/-- The states of a TDI (R336). -/
inductive TdiSt
  | unlocked
  | locked
  | run
  | error
deriving DecidableEq, Repr

/-- A function (R334 to R337, R349 to R351): HST_VF_ENABLE, VECTORS, TDI, bound stream, pairs, MSI-X, and whether a
function-level reset is under way. -/
structure HostFn where
  enable : Bool
  vectors : Nat
  tdi : TdiSt
  stream : Option Nat
  pairs : SMap Pair
  msix : SMap Msix
  flr : Bool
deriving DecidableEq, Repr

/-- A function at reset: the PF is enabled with 64 vectors, a VF is not and has one (R351 register map). -/
def HostFn.reset (pf : Bool) : HostFn := ⟨pf, if pf then 64 else 1, .unlocked, none, [], [], false⟩

/-- A port (R333, R337, R355): link, VFs, IDE and its functions. -/
structure Port where
  up : Bool
  rate : Nat
  width : Nat
  numVfs : Nat
  linkIde : Bool
  secure : List Nat
  fns : SMap HostFn
deriving DecidableEq, Repr

def Port.reset : Port := ⟨false, 0, 0, 0, false, [], []⟩

/-- Where a command's completion goes: function, pair and its epoch, COMMAND_ID, SQ_HEAD, RESULT_ADDR. -/
structure Req where
  f : FnId
  q : Nat
  epoch : Nat
  cmdId : Nat
  head : Nat
  result : Nat
deriving DecidableEq, Repr

/-- A DMA write the module issued (log 8). -/
structure DmaWrite where
  f : FnId
  addr : Nat
  data : List Byte
deriving DecidableEq, Repr

/-- The states of a key slot (R303). -/
inductive SlotSt
  | free
  | enabled
  | active
  | retiring
  | zeroizing
  | dead
deriving DecidableEq, Repr

/-- A key slot (R301 to R304, R320 to R326): state, BOUND_FN, root secret, generation g, floor F, policy, the nominal beat of
its drain deadline, the units the retirement broadcast has reached (0 host, 1 + c controllers, 17 + k links, 53 Gatehouse,
54 Belfry), the count of requests sent for it (R373, NONCE), and the beat it became ACTIVE. -/
structure KeySlot where
  st : SlotSt
  fn : FnId
  root : Key
  gen : Nat
  floor : Nat
  policy : Nat
  deadline : Nat
  told : List Nat
  nonce : Nat
  activeAt : Nat
deriving DecidableEq, Repr

def KeySlot.reset : KeySlot := ⟨.free, ⟨0, 0⟩, 0, 0, 1, 0, 0, [], 0, 0⟩

/-- An SPDM session (R403): transport, certificate slot of its KEY_EXCHANGE, whether FINISH completed it, the nominal beat of its
last message, and how often KEY_UPDATE changed its keys. -/
structure Session where
  via : Via
  cert : Nat
  open_ : Bool
  last : Nat
  updates : Nat
deriving DecidableEq, Repr

/-- A firmware image as the Keep knows it (R387): kind, SVN, VERSION and its measurement (R388). -/
structure FwImage where
  kind : Nat
  svn : Nat
  version : Nat
  measure : Digest
deriving DecidableEq, Repr

/-- One image kind (R390): slots A and B, which is active, whether the other is staged, whether it failed, SVN minimum. -/
structure FwKind where
  a : Option FwImage
  b : Option FwImage
  activeB : Bool
  staged : Bool
  failed : Bool
  svnMin : Nat
deriving DecidableEq, Repr

/-- A measurement log entry (R397). -/
structure LogEntry where
  time : Nat
  kind : Nat
  ctx : Nat
  arg : Nat
  digest : Digest
deriving DecidableEq, Repr

/-- The reset record (R395). -/
structure ResetRecord where
  warm : Nat
  regions : List Nat
  links : Nat
  flr : Nat
  contexts : Nat
deriving DecidableEq, Repr

/-- What the responder last sent (R402; SPDM message bodies are the standard's, so a response is named by its request's
code, an SPDM error code or 0, and the bytes the spec gives). -/
structure SpdmOut where
  via : Via
  code : Nat
  error : Nat
  body : List Byte
deriving DecidableEq, Repr

/-- The Keep (11, 14).  `windowReset` is the kind whose activation window a
reset cut short, until the next boot records it (R410); `relayParts` are the frames of relayed messages as (TRANSFER, INDEX, payload), `relayTo` the label and
TRANSFER of the complete message to be answered (R385). -/
structure Keep where
  slots : SMap KeySlot
  refCode : Nat
  refSlot : Nat
  waiting : List Nat
  sessions : SMap Session
  nextSession : Nat
  open_ : Bool
  basic : Bool
  fwState : Nat
  fwKind : Nat
  fwNew : Option FwImage
  fws : List FwKind
  bootStage : Nat
  log : List LogEntry
  logSel : Nat
  logShown : Option LogEntry
  resets : ResetRecord
  cert2 : List Byte
  cert3 : List Byte
  out : List SpdmOut
  windowReset : Nat
  relayParts : List (Nat × Nat × List Byte)
  relayTo : Option (Nat × Nat)
deriving DecidableEq, Repr

/-- The states of a link (LNK_STATUS.STATE). -/
inductive LinkSt
  | down
  | training
  | keying
  | up
  | failed
deriving DecidableEq, Repr

/-- A frame in the replay buffer (R363): the frame, times sent, the key slot its transfer names. -/
structure Sent where
  fr : Frame
  times : Nat
  slot : Nat
deriving DecidableEq, Repr

/-- A frame on the wire (R360): the header in the clear, the payload encrypted, the tag. -/
structure Wire where
  header : List Byte
  body : List Byte
  tag : BitVec 128
deriving DecidableEq, Repr

/-- A link (R357 to R367, R381); `secret` is its session's export master secret and `low` says whether this module has the lower ID
(R366); `wire` the frame it sent last; `dropped` counts the frames it dropped out of sequence (R11, R363; log 116). -/
structure LinkS where
  enable : Bool
  st : LinkSt
  since : Nat
  lanes : Nat
  epoch : Bool
  epochs : Nat
  partner : Nat
  partnerLink : Nat
  txCount : Nat
  rxCount : Nat
  rxEpoch : Bool
  seqTx : Nat
  seqRx : Nat
  acked : Nat
  ackAt : Nat
  nak : Bool
  replay : List Sent
  queue : List Sent
  samples : List Nat
  delayAt : Nat
  delayT1 : Nat
  refCode : Nat
  rekeyWait : Bool
  marks : List Nat
  secret : Key
  low : Bool
  wire : Option Wire
  dropped : Nat
deriving DecidableEq, Repr

def LinkS.reset : LinkS :=
  { enable := false, st := .down, since := 0, lanes := 0, epoch := false, epochs := 0, partner := 0, partnerLink := 0
    txCount := 0, rxCount := 0, rxEpoch := false, seqTx := 0, seqRx := 0, acked := 0, ackAt := 0, nak := false, replay := []
    queue := [], samples := [], delayAt := 0, delayT1 := 0, refCode := 0, rekeyWait := false, marks := [], secret := 0, low := false, wire := none, dropped := 0 }

/-- What a transfer record is for at this module: a relay, a source, or an origin for a descriptor's fetch, write-back or
tower read, or a base slot's load. -/
inductive XferRole
  | relay
  | source (desc object first count : Nat)
  | fetch (desc : Nat)
  | writeback (desc first : Nat)
  | tower (t q entry desc rep : Nat)
  | base (slot : Nat)
deriving DecidableEq, Repr

/-- The descriptor whose write-back a transfer is part of. -/
def XferRole.wbOf : XferRole → Option Nat
  | .writeback d _ => some d
  | _ => none

/-- A transfer record (R377): the links it uses here, its deadline, frames seen and the payloads placed by INDEX, the labels
that lead away from the origin and back to it (R371); `ended`: the transfer
is over here, and what arrived waits to land; `total`: FETCH_END's FRAMES, once it has come. -/
structure Xfer where
  origin : Nat
  transfer : Nat
  slot : Nat
  gen : Nat
  links : List Nat
  deadline : Nat
  role : XferRole
  frames : Nat
  data : List (Nat × List Byte)
  out : Option Nat
  back : Option Nat
  retired : Bool
  ended : Bool
  total : Option Nat
deriving DecidableEq, Repr

end Sys2Proof.Machine
end

