-- ==== Sys2Proof/Machine/TimeState.lean ====
section
/-! DEFINITION. The state of time, power and the event recorder: the beat and calendar (02 R33 to R45, R448), the Belfry's
registers and stretch, the envelope and forecast (15 R420 to R430), the supply and the regions (15 R412 to R437), and the
event recorder (16). -/

namespace Sys2Proof.Machine

/-- The clocks.  `beats` is BLF_BEAT; `total` counts beats since the last Belfry reset without wrapping; `nominal` counts
nominal beats since power-up; `eighths` is the part of a nominal beat gathered so far; `cal` is calendar time in 0.1 ns,
without its slew; `slewD` 0.1 ns are slewed in over `slewN` nominal beats, of which `slewE` have passed (R448);
`first` marks the first beat of an arbiter window (R47). -/
structure Clock where
  total : Nat
  nominal : Nat
  eighths : Nat
  cal : Nat
  slewD : Int
  slewN : Nat
  slewE : Nat
  first : Bool
deriving DecidableEq, Repr

/-- The time reference's states (R41). -/
inductive TrefSt
  | search
  | locking
  | locked
  | freeRun
deriving DecidableEq, Repr

/-- The time reference (R39 to R42).  Times are nominal beats; `lastPulse` is the last accepted pulse, `train` the last
edge of the synthetic train, `trainP` its period; `good` counts consecutive pulses within 8 ns; `origin` is the ORIGIN of
the relayed cadence (R382); `dropped` counts dropped pulses (R40); `entered` is the edge that last began LOCKING, and
`wasFree` tells that it left FREE_RUN. -/
structure Tref where
  st : TrefSt
  active : Nat
  period : Nat
  phase : Int
  lastPulse : Nat
  periods : List Nat
  good : Nat
  train : Nat
  trainP : Nat
  origin : Nat
  dropped : Nat
  entered : Nat
  wasFree : Bool
deriving DecidableEq, Repr

/-- The Belfry's own registers and its stretch (R36 to R38, R61).  A request holds its factor code, 0 when none;
`lastClear` is the beat the last request above the lower code cleared, `lastStep` the beat of the last change; `hold` the
transition beats still to come; `fracP` the P of R44 as it stood at the last pulse counted. -/
structure Belfry where
  run : Bool
  segAdmit : Bool
  everRun : Bool
  refCode : Nat
  refCtx : Nat
  beatLatch : Nat
  pulses : Nat
  elapsed : Nat
  fracP : Nat
  applied : Nat
  reqHoldover : Nat
  reqEnvelope : Nat
  reqNeighbour : Nat
  reqOverdraw : Nat
  lastClear : Nat
  lastStep : Nat
  hold : Nat
  stepWait : Bool
  stopped : Bool
  wraps : Nat
deriving DecidableEq, Repr

/-- A FORECAST reservation (R58, R421): the context, watts, first window and windows. -/
structure Reservation where
  ctx : Nat
  watts : Nat
  first : Nat
  count : Nat
deriving DecidableEq, Repr

/-- Ballast (R425): charged to a context, on a number of towers, watts held from window `first` for `count` windows, then
tapering at `ramp` W/ms. -/
structure Ballast where
  ctx : Nat
  towers : List Nat
  watts : Nat
  first : Nat
  count : Nat
  ramp : Nat
deriving DecidableEq, Repr

/-- The envelope and the forecast (R420 to R429).  `charged` is the ballast energy charged to each context and not yet reported
(R425, R430), `ballastPart` what BLF_BALLAST_ENERGY has not yet counted, both in µW times a window; `since` is the window in which
the pending envelope was accepted. -/
structure Power where
  envPower : Nat
  envPhase : Nat
  pending : Option (Nat × Nat)
  since : Nat
  apply : Bool
  reservations : List Reservation
  ballast : List Ballast
  snapBase : Nat
  snap : SMap Nat
  refCode : Nat
  charged : SMap Nat
  ballastPart : Nat
deriving DecidableEq, Repr

/-- A region (R431 to R435): setpoint is in Trim; measured voltage and temperature, the droop and thermal requests,
fenced with its cause, and the consecutive samples at 110 °C or more. -/
structure Region where
  mv : Nat
  temp : Nat
  droop : Nat
  thermal : Nat
  fenced : Bool
  cause : Nat
  hot : Nat
deriving DecidableEq, Repr

/-- The supply's states (PRC_SUPPLY.STATE, R412 to R418). -/
inductive SupplySt
  | normal
  | low
  | holdover
  | stopping
  | pfSafe
deriving DecidableEq, Repr

/-- The PRC: input, hold-up store, ripple and regions.  `band` is the last input band (0 sag, 1 low, 2 operating, 3 swell,
4 over), `bandLeft` one more than the nominal beat at which each band was
last left, 0 for never (R412); `holdSince` when holdover began; `busy` is the region under a partial
reset, `resetWait` one asked for in an activation window (R410); `powered` is false with the power stage off; `stopAt` is the beat
the orderly stop began; `switchOpen` the beat the input switch opened. -/
structure Prc where
  vin : Nat
  iin : Nat
  pin : Nat
  state : SupplySt
  pwrgd : Bool
  energy : Nat
  ripple : Nat
  freq : Nat
  rippleAt : Option Nat
  band : Nat
  bandLeft : List Nat
  holdSince : Nat
  stopAt : Nat
  regions : List Region
  busy : Option Nat
  resetWait : Option Nat
  powered : Bool
  switchOpen : Option Nat
deriving DecidableEq, Repr

/-- An event on its way to the recorder (R443): code, slot, arguments, context, instance. -/
structure Event where
  code : Nat
  slot : Nat
  a0 : Nat
  a1 : Nat
  a2 : Nat
  ctx : Nat
  inst : Nat
deriving DecidableEq, Repr

/-- A record (R443), or an event queued with the time, CP and SUPPRESSED it will carry; `beat` is the nominal beat of its
arrival, and once written that of its writing. -/
structure EvRecord where
  time : Nat
  cp : Nat
  ev : Event
  suppressed : Nat
  beat : Nat
deriving DecidableEq, Repr

/-- A performance counter (R440), with the nominal beat of its last increments and how many fell in that beat (R441). -/
structure Counter where
  count : Nat
  ovf : Bool
  beat : Nat
  part : Nat
deriving DecidableEq, Repr

/-- A code's token bucket (R449): tokens missing from BURST, pending suppressed count, and the nominal beat at which it last
fell below BURST and how many tokens were added since.  A full bucket with nothing pending is the default. -/
structure Bucket where
  missing : Nat
  pending : Nat
  since : Nat
  added : Nat
deriving DecidableEq, Repr

/-- The event recorder (16).  `rates` holds the staged RATE + 2^16 BURST of codes set away from R450; `live` those in
force while `enable` is set (R452). -/
structure Evr where
  enable : Bool
  refCode : Nat
  records : List EvRecord
  full : Bool
  timeSet : Bool
  queue : List EvRecord
  epoch : Nat
  lost : Counter
  filtered : Counter
  rateSel : Nat
  rates : SMap Nat
  live : SMap Nat
  irq : Nat
  filters : SMap Nat
  liveIrq : Nat
  liveFilters : SMap Nat
  buckets : SMap Bucket
deriving DecidableEq, Repr

def Clock.reset : Clock := ⟨0, 0, 0, 0, 0, 1, 0, true⟩

def Tref.reset (now : Nat) : Tref := ⟨.search, 3, 0, 0, now, [], 0, now, 0, 0, 0, 0, false⟩

def Belfry.reset : Belfry :=
  { run := false, segAdmit := false, everRun := false, refCode := 0, refCtx := 0, beatLatch := 0, pulses := 0, elapsed := 0, fracP := 0
    applied := 0, reqHoldover := 0, reqEnvelope := 0, reqNeighbour := 0, reqOverdraw := 0, lastClear := 0, lastStep := 0
    hold := 0, stepWait := false, stopped := false, wraps := 0 }

/-- PRC_ENV_POWER at its reset value: 1,150 W, 500 W/ms up and down, free step 20 W (R420). -/
def envPowerReset : Nat := 1150 + 500 * 2 ^ 16 + 500 * 2 ^ 32 + 20 * 2 ^ 48

/-- PRC_ENV_PHASE at its reset value: one slot, slot 0 (R420). -/
def envPhaseReset : Nat := 1

def Power.reset : Power :=
  { envPower := envPowerReset, envPhase := envPhaseReset, pending := none, since := 0, apply := false, reservations := [], ballast := []
    snapBase := 0, snap := [], refCode := 0, charged := [], ballastPart := 0 }

def Region.reset : Region := ⟨0, 0, 0, 0, false, 0, 0⟩

def Prc.reset : Prc :=
  { vin := 0, iin := 0, pin := 0, state := .normal, pwrgd := false, energy := 0, ripple := 0, freq := 0, rippleAt := none
    band := 0, bandLeft := [0, 0, 0, 0, 0], holdSince := 0, stopAt := 0, regions := List.replicate 16 .reset, busy := none, resetWait := none
    powered := false, switchOpen := none }

def Counter.zero : Counter := ⟨0, false, 0, 0⟩

def Bucket.full : Bucket := ⟨0, 0, 0, 0⟩

def Evr.reset : Evr :=
  { enable := false, refCode := 0, records := [], full := false, timeSet := false, queue := [], epoch := 0
    lost := .zero, filtered := .zero, rateSel := 0x0101, rates := [], live := [], irq := 0, filters := [], liveIrq := 0
    liveFilters := [], buckets := [] }

/-! Derived time (R34 to R44). -/

/-- The period of a beat in eighths of a nominal beat, by factor code (R36). -/
def factorEighths : Nat → Nat
  | 0 => 8 | 1 => 9 | 2 => 10 | 3 => 12 | 4 => 16 | _ => 32

/-- Calendar time in 0.1 ns with the slew taken in so far (R448). -/
def Clock.calNow (c : Clock) : Nat := ((c.cal : Int) + c.slewD * (min c.slewE c.slewN : Nat) / (max c.slewN 1 : Nat)).toNat

/-- Calendar time in UTC nanoseconds, modulo 2^64 (R448). -/
def Clock.time (c : Clock) : Nat := c.calNow / 10 % 2 ^ 64

/-- P of R44 and R56: the mean of the last 16 periods; before any is measured, `nominal` (log 10). -/
def Tref.p (r : Tref) (nominal : Nat) : Nat := if r.period = 0 then nominal else r.period

/-- FRACTION (R44). -/
def fraction (elapsed p : Nat) : Nat := min (elapsed * 2 ^ 24 / max p 1) (2 ^ 24 - 1)

/-- The cadence position (R43): FRACTION is taken with the P of the pulse that began the period, so that a P measured, or a
NOMINAL_PERIOD written, within a period moves the position neither back nor forward (R42 to R44, log 10). -/
def cpOf (b : Belfry) : Nat := b.pulses % 2 ^ 40 * 2 ^ 24 + fraction b.elapsed b.fracP

/-! The event recorder (R445 to R451). -/

/-- The codes of R450 with RATE 0. -/
def unlimited : List Nat :=
  [0x040A, 0x0330, 0x0331, 0x0332, 0x0506, 0x050A, 0x0514, 0x0516, 0x0517, 0x0801, 0x0807, 0x0810, 0x0904, 0x0905, 0x0906,
   0x0907, 0x0A0E]

/-- RATE and BURST of R450 in EVR_RATE's layout. -/
def defaultRate (code : Nat) : Nat := (if unlimited.contains code then 0 else 16) + 64 * 2 ^ 16

/-- RATE and BURST in force (R452). -/
def Evr.rate (e : Evr) (code : Nat) : Nat := if e.enable then e.live.get (defaultRate code) code else defaultRate code

/-- Take an occurrence into the rate limit at nominal beat `now` (R449): none, if it is suppressed; else the recorder and
the pending count the occurrence carries. -/
def Evr.limit (e : Evr) (code now : Nat) : Evr × Option Nat :=
  let r := e.rate code
  let b := e.buckets.get .full code
  if r % 2 ^ 16 = 0 then ({ e with buckets := e.buckets.set .full code { b with pending := 0 } }, some b.pending)
  else if b.missing < r / 2 ^ 16 then
    ({ e with buckets := e.buckets.set .full code ⟨b.missing + 1, 0, if b.missing = 0 then now else b.since, if b.missing = 0 then 0 else b.added⟩ }, some b.pending)
  else ({ e with buckets := e.buckets.set .full code { b with pending := min 0xFFFF (b.pending + 1) } }, none)

/-- Give a lost or filtered event's count back to its code (R446). -/
def Evr.giveBack (e : Evr) (code n : Nat) : Evr :=
  { e with buckets := e.buckets.upd .full code (fun b => { b with pending := min 0xFFFF (b.pending + n) }) }

/-- Increments of a counter in beat `now`, with `n` more (R441). -/
def Counter.here (c : Counter) (now n : Nat) : Nat := (if c.beat = now then c.part else 0) + n

/-- Add to a performance counter in beat `now` (R440): the counter, and whether this reached the largest value. -/
def Counter.bump (c : Counter) (now n : Nat) : Counter × Bool :=
  if n = 0 then (c, false)
  else if c.ovf then ({ c with beat := now, part := c.here now n }, false)
  else if c.count + n ≥ 2 ^ 48 - 1 then (⟨2 ^ 48 - 1, true, now, c.here now n⟩, true)
  else (⟨c.count + n, false, now, c.here now n⟩, false)

/-- Clear a performance counter in beat `now`: the increments of that beat count after the clear (R441). -/
def Counter.cleared (c : Counter) (now : Nat) : Counter :=
  if c.here now 0 = 0 then .zero else (Counter.zero.bump now (c.here now 0)).1

/-- The count as a clear in beat `now` finds it, before that beat's increments (R441). -/
def Counter.before (c : Counter) (now : Nat) : Nat := c.count - c.here now 0

/-- The action of the first filter word that matches an event (R451); 0 when none does. -/
def filterAction (fs : SMap Nat) (ev : Event) : Nat :=
  match fs.find? (fun f =>
    let w := f.2
    bits w 16 16 != 0 && ((ev.code ^^^ bits w 0 16) &&& bits w 16 16) = 0
      && (bits w 32 16 = 0xFFFE || bits w 32 16 = ev.slot)) with
  | some f => bits f.2 48 2
  | none => 0

/-- Insert an arrival into the queue: after every earlier beat, and in its beat by block byte, then instance (R445). -/
def insertEvent (r : EvRecord) : List EvRecord → List EvRecord
  | [] => [r]
  | q :: qs =>
    if q.beat = r.beat ∧ (q.ev.code / 256 > r.ev.code / 256 ∨ (q.ev.code / 256 = r.ev.code / 256 ∧ q.ev.inst > r.ev.inst))
    then r :: q :: qs else q :: insertEvent r qs

/-- What an event's arrival does outside the recorder: an interrupt, or FAIL_N (R451). -/
structure EvAct where
  irq : Bool
  fail : Bool
deriving DecidableEq, Repr

/-- The stamp of a beat: calendar time, CP, the beat's number and the nominal beat. -/
structure Stamp where
  time : Nat
  cp : Nat
  beat : Nat
  nominal : Nat
deriving DecidableEq, Repr

/-- The arrival of one event: rate limit, filters, queue (R445, R446, R449, R451); whether EVR_LOST or EVR_FILTERED
reached its largest value. -/
def Evr.arrive (e : Evr) (st : Stamp) (ev : Event) : Evr × EvAct × Bool :=
  match e.limit ev.code st.nominal with
  | (e, none) => (e, ⟨false, false⟩, false)
  | (e, some n) =>
    let act := if e.enable then filterAction e.liveFilters ev else 0
    let irq := decide (act = 2) && bit e.liveIrq 8
    if act = 1 ∧ ev.slot = 0xFFFF then
      let c := e.filtered.bump st.beat 1
      ({ e.giveBack ev.code n with filtered := c.1 }, ⟨false, false⟩, c.2)
    else if e.queue.length ≥ 1024 then
      let c := e.lost.bump st.beat 1
      ({ e.giveBack ev.code n with lost := c.1 }, ⟨irq, act = 3⟩, c.2)
    else ({ e with queue := insertEvent ⟨st.time, st.cp, ev, n, st.beat⟩ e.queue }, ⟨irq, act = 3⟩, false)

/-- Event 0x0906 of a counter of block byte `blk`, register offset `off`, instance `inst` (R440). -/
def satEvent (blk off inst : Nat) : Event := ⟨0x0906, 0xFFFF, blk, off, inst, 0xFFFF, inst⟩

/-- An event's arrival, and the 0x0906 it causes if a counter of the recorder saturates with it (R440). -/
def Evr.take (e : Evr) (st : Stamp) (ev : Event) : Evr × EvAct :=
  let r := e.arrive st ev
  if r.2.2 then
    let r' := r.1.arrive st (satEvent 9 (if r.1.lost.ovf && !e.lost.ovf then 0x18 else 0x40) 0)
    (r'.1, ⟨r.2.1.irq || r'.2.1.irq, r.2.1.fail || r'.2.1.fail⟩)
  else (r.1, r.2.1)

/-- The arrival of several events of one beat. -/
def Evr.takeAll (e : Evr) (st : Stamp) : List Event → Evr × EvAct
  | [] => (e, ⟨false, false⟩)
  | ev :: evs =>
    let r := e.take st ev
    let r' := Evr.takeAll r.1 st evs
    (r'.1, ⟨r.2.irq || r'.2.irq, r.2.fail || r'.2.fail⟩)

/-- A token of code `code` that falls due at nominal beat `now` (R449): one every 1.25 × 10^9 / RATE nominal beats from the
beat the bucket last fell below BURST. -/
def Evr.token (e : Evr) (code now : Nat) : Evr :=
  let r := e.rate code % 2 ^ 16
  let b := e.buckets.get .full code
  if r ≠ 0 ∧ b.missing ≠ 0 ∧ (now - b.since) * r ≥ 1_250_000_000 * (b.added + 1) then
    let b' : Bucket := if b.missing = 1 then ⟨0, b.pending, 0, 0⟩ else ⟨b.missing - 1, b.pending, b.since, b.added + 1⟩
    { e with buckets := e.buckets.set .full code b' }
  else e

/-- Write the event at the head of the queue in beat `now` (R446): its own record, the final 0x0907 record, or a loss. -/
def Evr.write (e : Evr) (now : Nat) : Evr × Bool :=
  match e.queue with
  | [] => (e, false)
  | q :: qs =>
    let e := { e with queue := qs }
    if e.full then
      let c := e.lost.bump now 1
      ({ e.giveBack q.ev.code q.suppressed with lost := c.1 }, c.2)
    else
    let q := { q with beat := now }
    if e.records.length < 65535 then ({ e with records := e.records ++ [q] }, false)
    else
      ({ e with records := e.records ++ [{ q with ev := { q.ev with code := 0x0907, a0 := q.ev.code, a1 := q.ev.a0, a2 := q.ev.a1 } }]
                full := true }, false)

/-- EVR_CLEAR (R447): a new epoch whose record 0 tells the lost count and the previous epoch. -/
def Evr.clear (e : Evr) (st : Stamp) : Evr :=
  { e with
    records := [⟨st.time, st.cp, ⟨0x0905, 0xFFFF, min 0xFFFF (e.lost.before st.beat), e.epoch % 2 ^ 16, 0, 0xFFFF, 0⟩, 0, st.beat⟩]
    full := false, lost := e.lost.cleared st.beat, epoch := (e.epoch + 1) % 2 ^ 32 }

end Sys2Proof.Machine
end

