-- ==== Sys2Proof/Machine/GateState.lean ====
section
/-! DEFINITION. The state of the Gatehouse and the Belfry's queue (01, 02, 08, 09): segments, contexts, the directory and
base slots, the Dome pool; and of the memory complex (10). -/

namespace Sys2Proof.Machine

/-- What a segment's step outcome needs from it (R234 to R237): the fault code, the reports by tower and operation, pages
written as (member, group, pages), pages suppressed and groups marked SINGULAR. -/
structure SegOut where
  fault : Nat
  reports : List (Nat × Nat × Report)
  pages : List (Nat × Nat × Nat)
  frozen : List (Nat × Nat × Nat)
  singular : List (Nat × Nat × Nat)
deriving DecidableEq, Repr

def SegOut.none_ : SegOut := ⟨0, [], [], [], []⟩

/-- The states of a segment. -/
inductive SegSt
  | parked
  | waiting
  | handed
  | queued
  | running
  | swapped
  | ended
deriving DecidableEq, Repr

/-- A segment (R46 to R56).  `raw` is its image; `order` its place in submission order; `steps` the member contexts whose
step it belongs to; the park deadlines of R256, the first beat that found one of them reached (`overAt`), and whether what it
waits for was ready in time (`granted`, R30); the adaptations it pins (R31); what was latched at release (R187, R205, R212); its
start; what towers saved at a swap, and the run page its save starts at (R273); the line slots it has used by 128 × plan window +
channel, and its excess over its plan (R51, R291); counts, slip and end (R348). -/
structure Seg where
  id : Nat
  ctx : Nat
  req : Req
  raw : List Byte
  stepEnd : Bool
  resupport : Bool
  st : SegSt
  parkCp : Option Nat
  parkNominal : Nat
  overAt : Option Nat
  granted : Bool
  steps : List Nat
  pooled : Nat
  pinned : List Nat
  latches : List Latch
  chain : List Nat
  rules : List Nat
  own : Seeding
  start : Nat
  startNominal : Nat
  saved : List (Nat × Tower)
  saveAt : Nat
  used : SMap Nat
  contention : Nat
  out : SegOut
  elapsed : Nat
  stall : Nat
  wait : Nat
  slip : Nat
  endTime : Nat
  endCp : Nat
  energy : Nat
  due : Nat
  left : List Nat
  committed : Nat
  heldCount : Nat
  status : Nat
deriving DecidableEq, Repr

def Seg.img (s : Seg) : Image := parseImage s.raw

/-- A release program under way (R60): index, anchor, loop counters by index, the segment WAIT_END awaits, whether
FORECAST's reservation was made. -/
structure ProgRun where
  idx : Nat
  anchor : Nat
  loops : SMap Nat
  waitEnd : Option Nat
deriving DecidableEq, Repr

/-- The first line of the step state block (R241). -/
structure CommitLine where
  step : Nat
  pos : Nat
  last : Nat
  bank : Nat
deriving DecidableEq, Repr

/-- The step record (R241), with what settlement gathers: the closing segment and the segments of the step, and the parts
of those that ended, by submission order. -/
structure StepRec where
  st : Nat
  finite : Bool
  faulted : Bool
  tensor : Nat
  index : Nat
  frozenSup : Nat
  faultCode : Nat
  singular : List Nat
  closing : Option Nat
  segs : List Nat
  parts : List (Nat × SegOut × Nat)
deriving DecidableEq, Repr

def StepRec.idle : StepRec := ⟨0, false, false, 0, 0, 0, 0, [], none, [], []⟩

/-- A context (R266): CTX_ENABLE, its descriptor as written (R268), its step state block, the steps that follow one closed and
not yet settled (R204, log 30), tables, hash list, what the tenant
allowed by kind (R309, by log 29), its Dome pages, whether it holds a transient allocation, whether its area holds a
poisoned line (R463), and whether its program starts in the next beat (R60). -/
structure Ctx where
  enable : Bool
  raw : List Byte
  commit : CommitLine
  record : StepRec
  later : List StepRec
  prog : List Nat
  running : Option ProgRun
  chain : List Nat
  rules : List Nat
  groups : List ParamGroup
  sched : List (List Nat)
  endMode : Nat
  loopRow : Nat
  hashes : SMap Digest
  allowed : SMap Digest
  dome : SMap Nat
  transient : Bool
  poisoned : Bool
  starts : Bool
deriving DecidableEq, Repr

/-- Change every step record of a context. -/
def Ctx.mapRecs (v : Ctx) (f : StepRec → StepRec) : Ctx := { v with record := f v.record, later := v.later.map f }

/-- The step record of a context that segment `i` belongs to. -/
def Ctx.recOf (v : Ctx) (i : Nat) : Option StepRec := (v.record :: v.later).find? (fun r => r.segs.contains i)

/-- The step is settled or abandoned: the next opens, or none is open (R204, R241). -/
def Ctx.closeStep (v : Ctx) : Ctx :=
  match v.later with
  | [] => { v with record := { v.record with st := 0, closing := none, segs := [] } }
  | r :: rs => { v with record := r, later := rs }

/-- A TRAINING segment `i` joins the open step, or opens one (R204). -/
def Ctx.joinStep (v : Ctx) (i : Nat) (closes : Bool) : Ctx :=
  let add (r : StepRec) : StepRec := { r with segs := r.segs ++ [i], closing := if closes then some i else none }
  if v.record.st = 0 then { v with record := add { StepRec.idle with st := 1 } }
  else if v.record.closing = none then { v with record := add v.record }
  else match v.later.getLast? with
    | some r => if r.closing = none then { v with later := v.later.dropLast ++ [add r] }
      else { v with later := v.later ++ [add { StepRec.idle with st := 1 }] }
    | none => { v with later := [add { StepRec.idle with st := 1 }] }

/-! The fields of a context descriptor (R268). -/

def Ctx.training (v : Ctx) : Bool := bit (fieldLE v.raw 0 2) 1
def Ctx.heritage (v : Ctx) : Bool := bit (fieldLE v.raw 0 2) 2
def Ctx.cobatch (v : Ctx) : Bool := bit (fieldLE v.raw 0 2) 3
def Ctx.strict (v : Ctx) : Bool := bit (fieldLE v.raw 0 2) 4
def Ctx.baseSlot (v : Ctx) : Nat := fieldLE v.raw 2 1
def Ctx.keySlot (v : Ctx) : Nat := fieldLE v.raw 4 2
def Ctx.owner (v : Ctx) : FnId := ⟨bits (fieldLE v.raw 6 2) 15 1, bits (fieldLE v.raw 6 2) 0 6⟩
def Ctx.adapt (v : Ctx) : Nat := fieldLE v.raw 8 2
def Ctx.units (v : Ctx) : Nat := fieldLE v.raw 0xA 2
def Ctx.seed (v : Ctx) : Nat := fieldLE v.raw 0x10 8
def Ctx.stream (v : Ctx) : Nat := fieldLE v.raw 0x18 2

/-- The states of a descriptor (R247). -/
inductive DirSt
  | free
  | remote
  | fetching
  | resident
  | evicting
deriving DecidableEq, Repr

/-- A fetch under way (R255 to R258): for the training form, KEEP_LOCAL, the commands to complete, whether the seal passed, the tag list. -/
structure Fetch where
  training : Bool
  keepLocal : Bool
  reqs : List Req
  sealOk : Bool
  tags : List TagEntry
deriving DecidableEq, Repr

/-- A descriptor (R247) with its shape store record (R159), its seal record (R316; `sealBad`: it holds a poisoned
line, R463) and what is under way on it. -/
structure Desc where
  st : DirSt
  training : Bool
  dirty : Bool
  keySlot : Nat
  gen : Nat
  matrices : Nat
  baseTag : Nat
  pins : Nat
  claimant : Nat
  kind : Nat
  trainCtx : Nat
  hostFn : FnId
  pages : Nat
  slots : Nat
  tpn : Nat
  lastRelease : Nat
  tier2 : Nat
  commit : CommitLine
  shape : List Byte
  sealV : Digest
  sealSt : Nat
  fetch : Option Fetch
  wb : Option (Option Req)
  sealBad : Bool
  poisoned : Bool
deriving DecidableEq, Repr

def CommitLine.zero : CommitLine := ⟨0, 0, 0, 0⟩

/-- A FREE descriptor. -/
def Desc.free : Desc :=
  { st := .free, training := false, dirty := false, keySlot := 0, gen := 0, matrices := 0, baseTag := 0, pins := 0, claimant := 0
    kind := 0, trainCtx := 0xFFFF, hostFn := ⟨0, 0⟩, pages := 0, slots := 0, tpn := 0, lastRelease := 0, tier2 := 0
    commit := .zero, shape := [], sealV := 0, sealSt := 0, fetch := none, wb := none, sealBad := false, poisoned := false }

/-- Who holds a unit of the Dome pool (R251): a context's allocation, a placed image, or a tier-0 copy. -/
inductive UnitClaim
  | free
  | ctx (x : Nat)
  | image (seg : Nat)
  | copy
deriving DecidableEq, Repr

/-- A tier-0 copy (R263): its pool unit, descriptor, bank, page, the beat it was complete, whether it is dead, its lines. -/
structure Copy0 where
  unit : Nat
  idx : Nat
  bank : Nat
  page : Nat
  at_ : Nat
  dead : Bool
  data : List Line
deriving DecidableEq, Repr

/-- The states of a base slot (R271). -/
inductive BaseSt
  | empty
  | loading
  | ready
  | freeing
deriving DecidableEq, Repr

/-- A base slot (R271, R398): state, tag, BYTES, hash, the command of its load, and whether it
is read over a link. -/
structure Base where
  st : BaseSt
  tag : Nat
  bytes : Nat
  hash : Digest
  req : Option Req
  link : Bool
deriving DecidableEq, Repr

def Base.empty : Base := ⟨.empty, 0, 0, 0, none, false⟩

/-- A completion not yet written (R347): its target, status, RESULT and result record. -/
structure Post where
  req : Req
  status : Nat
  result : Nat
  record : List Byte
deriving DecidableEq, Repr

/-- The Gatehouse (01, 09, 17); `refArgs` are the arguments of the last refused rule table (R222, log 102), `units` the unit
table of the Dome pool (R251), `posts` the completions held back during its activation window (R407). -/
structure Gate where
  ready : Bool
  run : List Bool
  halted : List Bool
  refCode : Nat
  refCtx : Nat
  refFn : FnId
  refArgs : Nat × Nat
  bases : List Base
  units : SMap UnitClaim
  copies : List Copy0
  stopping : Bool
  posts : List Post
deriving DecidableEq, Repr

/-- An extent of a run-table entry (R279): run offset, base index, blocks of 16 pages. -/
structure Extent where
  start : Nat
  base : Nat
  k : Nat
deriving DecidableEq, Repr

/-- A run-table entry (R279). -/
structure RunEnt where
  slot : Nat
  gen : Nat
  first : Nat
  pages : Nat
  tagged : Bool
  extents : List Extent
deriving DecidableEq, Repr

/-- A controller (R282 to R284, R296): training failures, fill, temperature, refresh rate, error log, whether a line waits
for its retry. -/
structure MemCtl where
  init : Bool
  trainFail : Nat
  temp : Nat
  hot : Bool
  errCode : Nat
  errCh : Nat
  errGroup : Nat
deriving DecidableEq, Repr

def MemCtl.reset : MemCtl := ⟨false, 0, 0, false, 0, 0, 0⟩

/-- A request for one line: run-table entry, run page, line, slot, generation. -/
structure LineReq where
  entry : Nat
  u : Nat
  line : Nat
  slot : Nat
  gen : Nat
deriving DecidableEq, Repr

/-- A line read that waits for its check-byte retry (R282), with its page as the read found it (R289). -/
structure Retry where
  req : LineReq
  snap : PageSnap
deriving DecidableEq, Repr

/-- What a controller delivered for a line read: the plaintext line or a poison code. -/
structure LineOut where
  entry : Nat
  u : Nat
  line : Nat
  poison : Nat
  data : Line
deriving DecidableEq, Repr

/-- The memory complex's own state (R279, R282): the run table, controllers, the waiting retries, oldest first, the last delivery,
and the stored lines that stay uncorrectable until they are written; the bank each channel refreshes next (R296); the Dome's
lines of version roots, by Dome line, that are poisoned (R315, R463). -/
structure MemSt where
  runs : SMap RunEnt
  ctls : List MemCtl
  retries : List Retry
  last : Option LineOut
  bad : SMap Nat
  banks : SMap Nat
  badRoots : List Nat
deriving DecidableEq, Repr

/-- LPDDR5X (R277, R285, R286, R313): stored lines by 64 × PFN + line, page versions and page tags by PFN.  The fill leaves
every line zero (R284), so an unlisted line, version or tag reads as zero.  `digests` are the digests of the version tree that
have been written, by `nodeKey`: those of leaves and L1 nodes stand in memory, those of L2 nodes are the Dome's roots. -/
structure Dram where
  lines : SMap Line
  versions : SMap Nat
  tags : SMap (BitVec 128)
  digests : SMap (BitVec 64)
deriving DecidableEq, Repr

end Sys2Proof.Machine
end

