-- ==== Sys2Proof/Machine/State.lean ====
section
/-! DEFINITION. The whole state: what no command changes (Trim), everything else on the die (Core), external memory, the
event recorder, and the queue of waiting commands; the reasons a step can stop; the module at reset (log 6). -/

namespace Sys2Proof.Machine

/-- The reasons for a fault.  The module's own faults are effects on the state, so the model raises none: no command of the
table ends in one.  Safe. -/
inductive Fault
  /-- Raised by no meaning: kept so that the type has a name for a stop.  Safe. -/
  | none_
deriving DecidableEq, Repr

/-- The reasons for a refusal. -/
inductive Refusal
  /-- Raised by Dispatch for a command whose meaning is not written.  Safe: nothing is proved about it. -/
  | notModelled (mnemonic : String)
deriving DecidableEq, Repr

/-- What is fixed at manufacture and no command changes (log 7): the port of the administration PF (R334), the regions'
voltage setpoints in mV (R431), the fuses OPERATOR_SIG_REQUIRED and the Keep's identity (R365, R389). -/
structure Trim where
  adminPort : Nat
  setpoints : List Nat
  opSigRequired : Bool
  moduleId : Nat
deriving DecidableEq, Repr

/-- The module's outputs: FAIL_N with its causes (0 not READY, 1 filter, 2 core halted, 3 channel training, 4 Dome poison,
5 power-fail-safe, 6 thermal trip, 7 boot), DMA writes, MSI-X messages as (function, vector). -/
structure Outs where
  failN : List Nat
  dma : List DmaWrite
  msi : List (FnId × Nat)
deriving DecidableEq, Repr

/-- Everything on the die but the recorder. -/
structure Core where
  outbox : List Event
  regs : SMap Nat
  ctr : SMap Counter
  free : Nat
  locks : List (Nat × Nat)
  clk : Clock
  tref : Tref
  blf : Belfry
  pow : Power
  prc : Prc
  tripWord : Option (Nat × Nat)
  segs : List Seg
  nextSeg : Nat
  towers : List Tower
  ctxs : SMap Ctx
  dir : SMap Desc
  gate : Gate
  mem : MemSt
  keep : Keep
  ports : List Port
  links : List LinkS
  xfers : List Xfer
  nextXfer : Nat
  cadence : Nat × Nat × Nat
  out : Outs
deriving DecidableEq, Repr

/-- The state. -/
structure State where
  trim : Trim
  core : Core
  dram : Dram
  evr : Evr
  pending : List Instr
deriving DecidableEq, Repr

/-- The trim of the module at hand (log 7): port 0 administers, every region at 760 mV, no operator signature required. -/
def Trim.reset : Trim := { adminPort := 0, setpoints := List.replicate 16 760, opSigRequired := false, moduleId := 1 }

/-- The Gatehouse before boot stage 4. -/
def Gate.reset : Gate :=
  { ready := false, run := List.replicate 4 false, halted := List.replicate 4 false, refCode := 0, refCtx := 0, refFn := ⟨0, 0⟩
    refArgs := (0, 0), bases := [.empty, .empty], units := [], copies := [], stopping := false, posts := [] }

/-- One image kind at manufacture: slot A holds an image of SVN 0 that is active (log 7). -/
def FwKind.reset (k : Nat) : FwKind := ⟨some ⟨k, 0, 0, 0⟩, none, false, false, false, 0⟩

/-- The version-tree key's slot, filled by the Keep from its random source at every cold reset (R301). -/
def KeySlot.tree (free : Nat) : KeySlot := { KeySlot.reset with st := .active, root := Config.freeKey free, gen := 1 }

/-- The Keep after a cold reset, over the flash and fuses it keeps (R459). -/
def Keep.reset (fws : List FwKind) (cert2 : List Byte) (free : Nat) : Keep :=
  { slots := [(4098, .tree free)], refCode := 0, refSlot := 0, waiting := [], sessions := [], nextSession := 1
    open_ := false, basic := false, fwState := 0, fwKind := 0, fwNew := none, fws := fws
    bootStage := 0, log := [], logSel := 0, logShown := none, resets := ⟨0, List.replicate 16 0, 0, 0, 0⟩, cert2 := cert2
    cert3 := [], out := [], windowReset := 0, relayParts := [], relayTo := none }

/-- The shape store: one record of 8 KiB, two pages, for each descriptor (R159, R279). -/
def shapeBlocks : Nat := 2048

/-- The version store (R313): 1,588,506 lines in each package. -/
def treeBlocks : Nat := 24_821

/-- The run-table entries of the system regions (R279; log 20): plaintext, under no key, in the lowest frames. -/
def systemRuns : SMap RunEnt :=
  [(16642, ⟨0xFFFF, 0, 0, 16 * shapeBlocks, false, [⟨0, 0, shapeBlocks⟩]⟩),
   (16643, ⟨0xFFFF, 0, 0, 16 * treeBlocks, false, [⟨0, shapeBlocks, treeBlocks⟩]⟩)]

def MemSt.reset : MemSt := ⟨systemRuns, List.replicate 16 .reset, [], none, [], [], []⟩

def Dram.zero : Dram := ⟨[], [], [], []⟩

/-- The die after a cold reset, over what flash, fuses and the supply keep: `nominal` is the nominal beat. -/
def Core.coldReset (prc : Prc) (trip : Option (Nat × Nat)) (fws : List FwKind) (cert2 : List Byte) (free : Nat) : Core :=
  { outbox := [], regs := [], ctr := [], free := free + 1, locks := [], clk := .reset, tref := .reset 0, blf := .reset
    pow := .reset, prc := prc, tripWord := trip, segs := [], nextSeg := 1, towers := List.replicate 64 (.reset 0), ctxs := []
    dir := [], gate := .reset, mem := .reset, keep := .reset fws cert2 free, ports := [.reset, .reset]
    links := List.replicate 36 .reset, xfers := [], nextXfer := 1, cadence := (3, 0, 0), out := ⟨[0], [], []⟩ }

/-- The module at reset (log 6). -/
def State.reset : State :=
  { trim := .reset, core := Core.coldReset .reset none ((List.range 4).map (fun k => FwKind.reset (k + 1))) [] 0
    dram := .zero, evr := .reset, pending := [] }

end Sys2Proof.Machine
end

