-- ==== Sys2Proof/Machine/Ops.lean ====
section
/-! DEFINITION. The named operations every meaning is built from: access to the parts of Core, counters (R440), events
(R443, R444), completions and interrupts (R342, R343, R347), FAIL_N, and how a meaning acts on the state. -/

namespace Sys2Proof.Machine

/-! Time. -/

/-- BAR0 offsets of the registers the operations read (R12). -/
def offTref : Nat := 0x10_0020
def offPowerCfg : Nat := 0x10_0118
def offTier1 : Nat := 0x410
def offGenThreshold : Nat := 0x20_0028
def hstBase (p : Nat) : Nat := 0x8_0000 + p * 0x1_0000
def memBase (c : Nat) : Nat := 0x80_0000 + c * 0x1_0000
def lnkBase (k : Nat) : Nat := 0x100_0000 + k * 0x1_0000
def twrBase (t : Nat) : Nat := 0x200_0000 + t * 0x4_0000
def offFwd (e : Nat) : Nat := 0x125_0000 + 8 * e

/-- The reset value of a register whose stored fields the model keeps in `regs` (the register headers' Reset columns). -/
def regReset (off : Nat) : Nat :=
  if off = offTref then 0b01 * 4 + 0b11 * 16 + 20_000 * 2 ^ 16
  else if off = offPowerCfg then 140 + 40 * 2 ^ 16
  else if off = offTier1 then 32 + 64 * 2 ^ 16 + 200 * 2 ^ 32
  else if off = offGenThreshold then 0xFF00
  else if off = 0x30_0010 then envPowerReset
  else if off = 0x30_0018 then envPhaseReset
  else if off / 0x1_0000 = 0x8 ∨ off / 0x1_0000 = 0x9 then (if off % 0x1_0000 = 0x18 then 1 else 0)
  else if 0x80_0000 ≤ off ∧ off < 0x90_0000 then
    (match off % 0x1_0000 with | 0x00 => 4 | 0x10 => 24 | 0x18 => 0x8000_0000 | _ => 0)
  else if 0x100_0000 ≤ off ∧ off < 0x124_0000 then (if off % 0x1_0000 = 0x38 then 2 ^ 48 else 0)
  else if 0x200_0000 ≤ off ∧ off < 0x300_0000 then (if off % 0x4_0000 = 0x30 then 0x100_0000 else 0)
  else 0

/-- The stored value of the register at a BAR0 offset. -/
def Core.reg (c : Core) (off : Nat) : Nat := c.regs.get (regReset off) off

def Core.setReg (c : Core) (off v : Nat) : Core := { c with regs := c.regs.set (regReset off) off v }

/-- NOMINAL_PERIOD in nominal beats: 1,250 to the microsecond (R256). -/
def Core.nominalPeriod (c : Core) : Nat := bits (c.reg offTref) 16 15 * 1250

/-- P of R44 (log 10). -/
def Core.period (c : Core) : Nat := c.tref.p c.nominalPeriod

/-- The cadence position (R43). -/
def Core.cp (c : Core) : Nat := cpOf c.blf

/-- The stamp of the present beat (R443): CP is 0 while BLF_RUN has never been set.  Every beat lasts a nominal beat or
more, so the nominal beat names the beat. -/
def Core.stamp (c : Core) : Stamp := ⟨c.clk.time, if c.blf.everRun then c.cp else 0, c.clk.nominal, c.clk.nominal⟩

/-- The number of the present arbiter window (R292). -/
def Core.window (c : Core) : Nat := c.clk.nominal / 4096

/-! Events, counters. -/

/-- Send an event to the recorder (R443). -/
def Core.raise (c : Core) (ev : Event) : Core := { c with outbox := c.outbox ++ [ev] }

/-- An event of the system: SLOT and CONTEXT 0xFFFF (R444). -/
def sysEvent (code a0 a1 a2 inst : Nat) : Event := ⟨code, 0xFFFF, a0 % 2 ^ 16, a1 % 2 ^ 16, a2 % 2 ^ 16, 0xFFFF, inst⟩

/-- An event that concerns a key slot (R444). -/
def slotEvent (code slot a0 a1 : Nat) : Event := ⟨code, slot, a0 % 2 ^ 16, a1 % 2 ^ 16, 0, 0xFFFF, 0⟩

/-- Context `x`, none if it does not exist. -/
def Core.ctx? (c : Core) (x : Nat) : Option Ctx := (c.ctxs.find? (·.1 = x)).map (·.2)

def Core.setCtx (c : Core) (x : Nat) (v : Ctx) : Core := { c with ctxs := c.ctxs.insert x v }

def Core.updCtx (c : Core) (x : Nat) (f : Ctx → Ctx) : Core :=
  match c.ctx? x with
  | some v => c.setCtx x (f v)
  | none => c

/-- An event that concerns a context: its KEY_SLOT (R444). -/
def Core.ctxEvent (c : Core) (code x a0 a1 a2 inst : Nat) : Event :=
  ⟨code, (match c.ctx? x with | some v => v.keySlot | none => 0xFFFF), a0 % 2 ^ 16, a1 % 2 ^ 16, a2 % 2 ^ 16, x, inst⟩

/-- The block byte (R17), base and instance of a BAR0 offset (R12). -/
def blockAt (off : Nat) : Nat × Nat × Nat :=
  if off < 0x10_0000 then
    (if 0x8_0000 ≤ off ∧ off < 0xA_0000 then (6, hstBase ((off - 0x8_0000) / 0x1_0000), (off - 0x8_0000) / 0x1_0000)
     else (0xA, 0, 0))
  else if off < 0x20_0000 then (3, 0x10_0000, 0)
  else if off < 0x30_0000 then (5, 0x20_0000, 0)
  else if off < 0x40_0000 then (8, 0x30_0000, 0)
  else if off < 0x80_0000 then (9, 0x40_0000, 0)
  else if off < 0x90_0000 then (4, memBase ((off - 0x80_0000) / 0x1_0000), (off - 0x80_0000) / 0x1_0000)
  else if 0x100_0000 ≤ off ∧ off < 0x200_0000 then
    (if off < 0x124_0000 then (7, lnkBase ((off - 0x100_0000) / 0x1_0000), (off - 0x100_0000) / 0x1_0000) else (7, 0x100_0000, 0))
  else if 0x200_0000 ≤ off ∧ off < 0x300_0000 then (1, twrBase ((off - 0x200_0000) / 0x4_0000), (off - 0x200_0000) / 0x4_0000)
  else (2, 0x300_0000, 0)

/-- Add `n` to the performance counter at a BAR0 offset; its saturation records 0x0906 (R440). -/
def Core.bump (c : Core) (off n : Nat) : Core :=
  let r := (c.ctr.get .zero off).bump c.clk.nominal n
  let c := { c with ctr := c.ctr.set .zero off r.1 }
  if r.2 then c.raise (satEvent (blockAt off).1 ((off - (blockAt off).2.1) % 2 ^ 16) (blockAt off).2.2) else c

/-- The counters whose offsets satisfy `p` at their reset value. -/
def Core.clearCtr (c : Core) (p : Nat → Bool) : Core := { c with ctr := c.ctr.keep (fun o => !p o) }

/-- Clear the counters whose offsets satisfy `p` in this beat (R441). -/
def Core.cntClear (c : Core) (p : Nat → Bool) : Core :=
  { c with ctr := c.ctr.mapV .zero (fun o x => if p o then x.cleared c.clk.nominal else x) }

/-! Access to the parts. -/

def Core.tower (c : Core) (t : Nat) : Tower := c.towers.getD t (.reset 0)
def Core.setTower (c : Core) (t : Nat) (x : Tower) : Core := { c with towers := c.towers.set t x }
def Core.seg? (c : Core) (i : Nat) : Option Seg := c.segs.find? (·.id = i)
def Core.setSeg (c : Core) (s : Seg) : Core := { c with segs := c.segs.map (fun x => if x.id = s.id then s else x) }
def Core.dropSeg (c : Core) (i : Nat) : Core := { c with segs := c.segs.filter (fun s => s.id != i) }
def Core.desc (c : Core) (i : Nat) : Desc := c.dir.get .free i
def Core.setDesc (c : Core) (i : Nat) (d : Desc) : Core := { c with dir := c.dir.set .free i d }
def Core.updDesc (c : Core) (i : Nat) (f : Desc → Desc) : Core := c.setDesc i (f (c.desc i))
def Core.slot (c : Core) (k : Nat) : KeySlot := c.keep.slots.get .reset k
def Core.setSlot (c : Core) (k : Nat) (x : KeySlot) : Core := { c with keep := { c.keep with slots := c.keep.slots.set .reset k x } }
def Core.port (c : Core) (p : Nat) : Port := c.ports.getD p .reset
def Core.setPort (c : Core) (p : Nat) (x : Port) : Core := { c with ports := c.ports.set p x }
def Core.fn (c : Core) (f : FnId) : HostFn := (c.port f.port).fns.get (.reset (f.fn = 0)) f.fn
def Core.setFn (c : Core) (f : FnId) (x : HostFn) : Core :=
  c.setPort f.port { c.port f.port with fns := (c.port f.port).fns.set (.reset (f.fn = 0)) f.fn x }
def Core.pair (c : Core) (f : FnId) (q : Nat) : Pair := (c.fn f).pairs.get .reset q
def Core.setPair (c : Core) (f : FnId) (q : Nat) (x : Pair) : Core :=
  c.setFn f { c.fn f with pairs := (c.fn f).pairs.set .reset q x }
def Core.link (c : Core) (k : Nat) : LinkS := c.links.getD k .reset
def Core.setLink (c : Core) (k : Nat) (x : LinkS) : Core := { c with links := c.links.set k x }
def Core.base (c : Core) (b : Nat) : Base := c.gate.bases.getD b .empty
def Core.setBase (c : Core) (b : Nat) (x : Base) : Core := { c with gate := { c.gate with bases := c.gate.bases.set b x } }

/-- A fresh free value's index (log 14). -/
def Core.fresh (c : Core) : Core := { c with free := c.free + 1 }

/-- BOUND_FN and OWNER as the registers hold them: [15] port, [5:0] function. -/
def fnCode (f : FnId) : Nat := f.port % 2 * 2 ^ 15 + f.fn % 64
def fnOf (v : Nat) : FnId := ⟨bits v 15 1, bits v 0 6⟩

/-- Assert FAIL_N for a cause. -/
def Core.failN (c : Core) (cause : Nat) : Core :=
  if cause ∈ c.out.failN then c else { c with out := { c.out with failN := c.out.failN ++ [cause] } }

/-- Release a cause of FAIL_N. -/
def Core.okN (c : Core) (cause : Nat) : Core := { c with out := { c.out with failN := c.out.failN.filter (· != cause) } }

/-- A block's LOCK bit, by its base offset (R15), as it stood at the start of this beat: a LOCK set in this beat applies from
the next (R468). -/
def Core.locked (c : Core) (base : Nat) : Bool := c.locks.any (fun x => x.1 = base && decide (x.2 < c.clk.nominal))

/-- Gatehouse core `k` does its duties (R21, R24). -/
def Core.coreUp (c : Core) (k : Nat) : Bool := !c.gate.halted.getD k false

/-- The parameter groups of an adaptation: those of a context that names it, else one group of every page (log 24). -/
def Core.groupsOf (c : Core) (i : Nat) : List ParamGroup :=
  match c.ctxs.find? (fun x => x.2.adapt = i && !x.2.groups.isEmpty) with
  | some x => x.2.groups
  | none => [⟨0, (c.desc i).pages, 0, []⟩]

/-! Interrupts and completions. -/

/-- Fire an MSI-X vector of a function: the message, or the pending bit while it is masked (R343); a function in ERROR sends nothing
(R350). -/
def Core.fire (c : Core) (f : FnId) (v : Nat) : Core :=
  let m := (c.fn f).msix.get .reset v
  if (c.fn f).tdi = .error then c
  else if m.mask then c.setFn f { c.fn f with msix := (c.fn f).msix.set .reset v { m with pend := true } }
  else { c with out := { c.out with msi := c.out.msi ++ [(f, v)] } }

/-- A DMA write by a function (log 8), counted in HST_DMA_WR_BYTES; none by a function in ERROR (R350). -/
def Core.dma (c : Core) (f : FnId) (addr : Nat) (bs : List Byte) : Core :=
  if (c.fn f).tdi = .error then c
  else
  let c : Core := { c with out := { c.out with dma := c.out.dma ++ [(⟨f, addr, bs⟩ : DmaWrite)] } }
  c.bump (hstBase f.port + 0x88) bs.length

/-- The 16 bytes of a completion (R347). -/
def completionBytes (p : Pair) (q : Nat) (x : Post) : List Byte :=
  leBytes 8 (x.req.cmdId % 2 ^ 16 + x.status % 2 ^ 16 * 2 ^ 16 + x.req.head % 2 ^ 12 * 2 ^ 32 + q % 64 * 2 ^ 44
    + b2n p.phase * 2 ^ 50) ++ leBytes 8 x.result

/-- The pair after a completion entry is written, and whether its vector fires (R341 to R343). -/
def Pair.posted (p : Pair) (now : Nat) : Pair × Bool :=
  let size := 2 ^ bits p.cfg 5 4
  let wrap := decide (p.cqTail + 1 ≥ size)
  let fires := decide (p.pend + 1 ≥ max 1 (bits p.cfg 16 8))
  ({ p with
     cqTail := if wrap then 0 else p.cqTail + 1, phase := if wrap then !p.phase else p.phase, taken := p.taken - 1
     unread := p.unread + 1, pend := if fires then 0 else p.pend + 1, pendAt := if p.pend = 0 then now else p.pendAt
     st := if p.st = .draining ∧ p.taken ≤ 1 then .disabled else p.st }, fires)

/-- Write one completion: result record, entry, interrupt (R342). -/
def Core.writePost (c : Core) (x : Post) : Core :=
  let f := x.req.f
  let p := c.pair f x.req.q
  let c := if x.req.result ≠ 0 ∧ x.record ≠ [] then c.dma f x.req.result x.record else c
  let c := c.dma f (p.cqBase + 16 * p.cqTail) (completionBytes p x.req.q x)
  let r := p.posted c.clk.nominal
  let c := c.setPair f x.req.q r.1
  if r.2 then c.fire f (bits p.cfg 9 6) else c

/-- The Gatehouse's completions wait (R407). -/
def Core.gateWindow (c : Core) : Bool := c.keep.fwState = 2 && c.keep.fwKind = 2

/-- Complete a command: dropped if its pair was stopped, disabled or reset since it was taken (R340, R349), or its
Gatehouse core halted (R24); held back during the Gatehouse's activation window. -/
def Core.post (c : Core) (x : Post) : Core :=
  if (c.pair x.req.f x.req.q).epoch ≠ x.req.epoch ∨ c.gate.halted.getD x.req.f.port false then c
  else if c.gateWindow then { c with gate := { c.gate with posts := c.gate.posts ++ [x] } }
  else c.writePost x

/-- A completion with a status and no record. -/
def Core.complete (c : Core) (r : Req) (status result : Nat) : Core := c.post ⟨r, status, result, []⟩

/-- Complete several commands alike. -/
def Core.completeAll (c : Core) (rs : List Req) (status result : Nat) : Core :=
  rs.foldl (fun (c : Core) r => c.complete r status result) c

/-- A refused command (R9, R346): its completion carries the code, and in RESULT [47:32] the first argument. -/
def Core.refuse (c : Core) (r : Req) (code arg : Nat) : Core :=
  (c.bump (hstBase r.f.port + 0xA8) 1).complete r code (arg % 2 ^ 16 * 2 ^ 32)

/-- READY follows boot stage 4 and every controller's fill or marked failure (R284, R456). -/
def Core.readyCheck (c : Core) : Core :=
  if c.keep.bootStage ≥ 4 ∧ !c.gate.ready ∧ c.mem.ctls.all (fun m => m.init || m.trainFail != 0) then
    { c with gate := { c.gate with ready := true } }.okN 0
  else c

/-! How a meaning acts. -/

/-- Deliver what the outbox holds to the recorder, with the stamp of the beat (R445); a matching filter interrupts or
asserts FAIL_N (R451). -/
def State.deliver (s : State) (st : Stamp) : State :=
  let r := s.evr.takeAll st s.core.outbox
  let c := { s.core with outbox := [] }
  let c := if r.2.irq then c.fire ⟨s.trim.adminPort, 0⟩ (bits r.1.liveIrq 0 6) else c
  let c := if r.2.fail then c.failN 1 else c
  { s with core := c, evr := r.1 }

/-- A meaning on the die alone. -/
def State.act (s : State) (f : Core → Core) : Host.Outcome State Fault Refusal :=
  .next ({ s with core := f s.core }.deliver s.core.stamp)

/-- A meaning on the die and external memory. -/
def State.actM (s : State) (f : Core → Dram → Core × Dram) : Host.Outcome State Fault Refusal :=
  .next ({ s with core := (f s.core s.dram).1, dram := (f s.core s.dram).2 }.deliver s.core.stamp)

/-- A meaning that reads the trim as well. -/
def State.actT (s : State) (f : Trim → Core → Core) : Host.Outcome State Fault Refusal :=
  .next ({ s with core := f s.trim s.core }.deliver s.core.stamp)

/-- A meaning of the recorder: on the recorder and the die, then delivery. -/
def State.actE (s : State) (f : Trim → Core → Evr → Core × Evr) : Host.Outcome State Fault Refusal :=
  .next ({ s with core := (f s.trim s.core s.evr).1, evr := (f s.trim s.core s.evr).2 }.deliver s.core.stamp)

/-- The administration PF (R334). -/
def Trim.admin (t : Trim) : FnId := ⟨t.adminPort, 0⟩

/-! Notes in the measurement log and reset record (R395, R397). -/

/-- The last `n` elements of a list. -/
def newest {α : Type} (n : Nat) : List α → List α
  | [] => []
  | x :: xs => if xs.length < n then x :: xs else newest n xs

/-- Add a log entry; the ring keeps the newest 4,096. -/
def Core.note (c : Core) (kind ctx arg : Nat) (d : Digest) : Core :=
  { c with keep := { c.keep with log := newest 4096 (c.keep.log ++ [⟨c.clk.time, kind, ctx, arg, d⟩]) } }

/-- Saturating increment of a reset record count. -/
def incSat (w n : Nat) : Nat := min (2 ^ w - 1) (n + 1)

/-- A reset other than cold, in the log and the record (R410, R459): kind 1 warm, 2 region, 3 link, 4 function-level,
5 context (log 16), with its region or link. -/
def Core.noteReset (c : Core) (kind which : Nat) : Core :=
  let r := c.keep.resets
  let r := match kind with
    | 1 => { r with warm := incSat 32 r.warm }
    | 2 => { r with regions := r.regions.set which (incSat 16 (r.regions.getD which 0)) }
    | 3 => { r with links := incSat 32 r.links }
    | 4 => { r with flr := incSat 32 r.flr }
    | _ => { r with contexts := incSat 32 r.contexts }
  { c with keep := { c.keep with resets := r } }.note 8 0xFFFF (kind + which % 2 ^ 12 * 16) 0

/-! Register accesses (R13). -/

/-- An access that reaches a register: 32 or 64 bits, aligned (R13). -/
def accessOk (off size : Nat) : Bool := (size = 4 || size = 8) && off % size = 0

/-- The `w` mask bits from `lo` up. -/
def fieldMask (lo w : Nat) : Nat := (2 ^ w - 1) * 2 ^ lo

/-- `old` with the bits of `m` taken from `v`. -/
def mergeBits (m old v : Nat) : Nat := old - (old &&& m) + (v &&& m)

/-- The bits a write of `size` bytes at offset `off` touches, and its value in place, in the 64-bit register (R13). -/
def lanes (off size : Nat) : Nat := fieldMask (8 * (off % 8)) (8 * size)
def placed (off size v : Nat) : Nat := v % 2 ^ (8 * size) * 2 ^ (8 * (off % 8))

end Sys2Proof.Machine
end

