-- ==== Sys2Proof/Machine/Plan.lean ====
section
/-! DEFINITION. The Belfry's plan: the forecast and what fits the envelope (15 R421 to R424), the phase slot, the requests
for a factor (R36, R37). -/

namespace Sys2Proof.Machine

/-- One tower's share of a segment's draw: the energy runs, the towers it is shared among, L, and the schedule beat the tower
stands at now (negative before its start). -/
structure Load where
  runs : List (Nat × Nat)
  towers : Nat
  len : Nat
  pos : Int
deriving DecidableEq, Repr

/-- The draw of a load in µW in the window `k` windows from now (R421): energy / towers / (4096 × 0.8 ns × f); `ahead` is the
nominal beats to that window's start. -/
def Load.draw (l : Load) (eighths ahead : Nat) : Nat :=
  let at_ := l.pos + ((ahead * 8 / eighths : Nat) : Int)
  if at_ < 0 ∨ at_ ≥ l.len then 0
  else ((runAt l.runs (at_.toNat / 4096)).getD 0) * 80_000_000_000_000 / (2 ^ 31 * max l.towers 1 * eighths)

/-- The window, from now, at which a load is over. -/
def Load.over (l : Load) (eighths : Nat) : Nat := ((l.len : Int) - l.pos).toNat * eighths / 8 / 4096 + 2

/-- The loads of the running segments; one that a fault stopped draws no more. -/
def Core.loads (c : Core) : List Load :=
  c.segs.flatMap (fun s =>
    if s.st = .running ∧ s.out.fault = 0 then
      (towersOf s.img.towerSet).map (fun t =>
        (⟨s.img.energy, (towersOf s.img.towerSet).length, s.img.length, ((c.tower t).sched : Int) - (c.tower t).startIn⟩ : Load))
    else [])

/-- Reservations of window `w` in µW (R421); none in holdover (R413). -/
def Power.reserved (p : Power) (w : Nat) : Nat :=
  ((p.reservations.filter (fun r => decide (r.first ≤ w ∧ w < r.first + r.count))).map (·.watts)).sum * 1_000_000

/-- One ballast's draw in window `w` in µW: held, then tapering at its ramp (R425). -/
def Ballast.draw (b : Ballast) (w : Nat) : Nat :=
  if w < b.first then 0
  else if w < b.first + b.count then b.watts * 1_000_000
  else b.watts * 1_000_000 - (w - b.first - b.count) * b.ramp * 3_276_800 / 1_000

def Power.ballastAt (p : Power) (w : Nat) : Nat := (p.ballast.map (fun b => b.draw w)).sum

/-- The window in which the last of the ballasts has tapered off (R425). -/
def Power.taperEnd (p : Power) : Nat :=
  (p.ballast.map (fun b => b.first + b.count + ceilDiv (b.watts * 10_000_000) (max 1 (b.ramp * 32_768)))).foldl max 0

/-- The present factor's period in eighths. -/
def Core.eighths (c : Core) : Nat := factorEighths c.blf.applied

/-- Idle draw and reserve, and the store's recharge (R414, R421), in µW. -/
def Core.idleDraw (c : Core) : Nat :=
  (bits (c.reg offPowerCfg) 0 16 + bits (c.reg offPowerCfg) 16 16 + (if c.prc.energy < 3100 then 60 else 0)) * 1_000_000

/-- The forecast of the window `k` windows from now, with loads `ls`, at factor `e` (R421). -/
def Core.forecast (c : Core) (ls : List Load) (e k : Nat) : Nat :=
  let ahead := if k = 0 then 0 else (c.window + k) * 4096 - c.clk.nominal
  c.idleDraw + (ls.map (fun l => l.draw e ahead)).sum
    + (if c.prc.state = .holdover then 0 else c.pow.reserved (c.window + k) + c.pow.ballastAt (c.window + k))

/-- MAX_POWER, RAMP_UP and RAMP_DOWN in force (R420). -/
def Power.maxPower (p : Power) : Nat := bits p.envPower 0 16
def Power.rampUp (p : Power) : Nat := bits p.envPower 16 16
def Power.rampDown (p : Power) : Nat := bits p.envPower 32 16
def Power.freeStep (p : Power) : Nat := bits p.envPower 48 8

/-- The first window after which nothing changes: the forecast is constant from there (R421). -/
def Core.horizon (c : Core) (ls : List Load) (e : Nat) : Nat :=
  let xs := ls.map (fun l => l.over e) ++ c.pow.reservations.map (fun r => r.first + r.count + 1 - c.window)
    ++ c.pow.ballast.map (fun b => b.first + b.count + b.watts * 1000 / (max b.ramp 1 * 3) + 2 - c.window)
  min 78_125 (xs.foldl max 1)

/-- The windows of bin `b`, summed (R421). -/
def Core.binSum (c : Core) (ls : List Load) (e b : Nat) : Nat :=
  ((List.range 125).map (fun i => c.forecast ls e (125 * b + i))).sum

/-- The measured mean draw of the last completed bin, 125 windows' sum in µW; with nothing measured, the idle draw
(log 17). -/
def Core.lastBin (c : Core) : Nat := if c.prc.pin = 0 then c.idleDraw * 125 else c.prc.pin * 125_000_000

/-- Consecutive bin sums keep the ramps: `a` before `b` (R422): 409.6 µs at W/ms, times 125 windows, in µW. -/
def Power.ramped (p : Power) (a b : Nat) : Bool :=
  decide (b ≤ a + p.rampUp * 409_600 * 125) && decide (a ≤ b + p.rampDown * 409_600 * 125)

/-- The forecast fits the envelope (R422): every window, and every bin against the bin before. -/
def Core.fits (c : Core) (ls : List Load) (e : Nat) : Bool :=
  let n := c.horizon ls e
  let sums := (List.range (n / 125 + 2)).map (c.binSum ls e)
  (List.range (n + 1)).all (fun k => decide (c.forecast ls e k ≤ c.pow.maxPower * 1_000_000))
    && ((c.lastBin :: sums).zip sums).all (fun x => c.pow.ramped x.1 x.2)

/-- The loads a segment's towers would add, started at the offsets given (R424). -/
def startLoads (im : Image) (offs : List (Nat × Nat)) : List Load :=
  offs.map (fun o => ⟨im.energy, (towersOf im.towerSet).length, im.length, -(o.2 : Int)⟩)

/-- The smallest multiple of 4,096 from `t` at which one more tower fits, within 2^23 (R424). -/
def Core.offsetOf (c : Core) (im : Image) (ls : List Load) (offs : List (Nat × Nat)) (tw : Nat) : Nat → Nat → Option Nat
  | 0, _ => none
  | fuel + 1, t =>
    if c.fits (ls ++ startLoads im (offs ++ [(tw, t)])) c.eighths then some t
    else Core.offsetOf c im ls offs tw fuel (t + 4096)

/-- The start offsets of a segment's towers, in ascending order; none when it does not fit (R424). -/
def Core.startOffsets (c : Core) (im : Image) : Option (List (Nat × Nat)) :=
  (towersOf im.towerSet).foldl (fun r tw =>
    match r with
    | none => none
    | some offs =>
      let t0 := (offs.getLast?.map (fun o => o.2)).getD 0
      match c.offsetOf im c.loads offs tw (2049 - t0 / 4096) t0 with
      | some t => some (offs ++ [(tw, t)])
      | none => none) (some [])

/-- The module's phase slot (R423). -/
def Core.inSlot (c : Core) : Bool :=
  let n := max 1 (bits c.pow.envPhase 0 9)
  let k := bits c.pow.envPhase 16 8
  let x := fraction c.blf.elapsed c.blf.fracP
  decide (ceilDiv (k * 2 ^ 24) n ≤ x ∧ x < ceilDiv ((k + 1) * 2 ^ 24) n)

/-- A start raises some window of the forecast by more than the free step (R423); `v` is the plan it leaves, without the
reservations it uses. -/
def Core.bigStep (c v : Core) (im : Image) (offs : List (Nat × Nat)) : Bool :=
  let ls := startLoads im offs
  (List.range (c.horizon (c.loads ++ ls) c.eighths + 1)).any (fun k =>
    decide (v.forecast (c.loads ++ ls) c.eighths k > c.forecast c.loads c.eighths k + c.pow.freeStep * 1_000_000))

/-- The largest droop request and thermal request of the unfenced regions (R432, R433). -/
def Core.reqDroop (c : Core) : Nat := (c.prc.regions.map (fun r => if r.fenced then 0 else r.droop)).foldl max 0
def Core.reqThermal (c : Core) : Nat := (c.prc.regions.map (fun r => if r.fenced then 0 else r.thermal)).foldl max 0

/-- REQUESTED: the largest factor code outstanding (R37). -/
def Core.request (c : Core) : Nat :=
  max (max (max c.reqDroop c.reqThermal) (max c.blf.reqHoldover c.blf.reqEnvelope)) (max c.blf.reqNeighbour c.blf.reqOverdraw)

/-- Bits [12:8] of BLF_STRETCH: the requesting sources (R38). -/
def Core.sources (c : Core) : Nat :=
  b2n (c.reqDroop != 0) + 2 * b2n (c.reqThermal != 0) + 4 * b2n (c.blf.reqHoldover != 0)
    + 8 * b2n (c.blf.reqEnvelope != 0 || c.blf.reqOverdraw != 0) + 16 * b2n (c.blf.reqNeighbour != 0)

/-- A request cleared: the hold of R37 is counted from here when the request stood at or above the applied code. -/
def Core.cleared (c : Core) (before : Nat) : Core :=
  if c.request < before then { c with blf := { c.blf with lastClear := c.clk.total } } else c

end Sys2Proof.Machine
end

