-- ==== Sys2Proof/Machine/Pool.lean ====
section
/-! DEFINITION. The Dome's pool of 1,120 units (09 R251, R263, R265, R267): the unit table, who holds a unit, and how room is
made for what takes precedence over tier-0 copies. -/

namespace Sys2Proof.Machine

/-- The units of the pool (R265). -/
def poolSize : Nat := 1120

/-- The units a claimant holds, in ascending order. -/
def Core.unitsOf (c : Core) (p : UnitClaim) : List Nat := (c.gate.units.filter (fun u => u.2 = p)).map (fun u => u.1)

/-- Units that no one holds. -/
def Core.freeUnits (c : Core) : List Nat := (List.range poolSize).filter (fun u => SMap.get .free c.gate.units u = .free)

/-- Units that contexts and placed images hold (R267). -/
def Core.poolUsed (c : Core) : Nat := (c.gate.units.filter (fun u => u.2 != .copy)).length

/-- Units allocated to contexts. -/
def Core.ctxUnits (c : Core) : Nat :=
  (c.gate.units.filter (fun u => match u.2 with
    | .ctx _ => true
    | _ => false)).length

/-- Claim the lowest `n` free units (R251): a unit that another holds is never asked for. -/
def Core.claimUnits (c : Core) (p : UnitClaim) (n : Nat) : Core :=
  { c with gate := { c.gate with units := (c.freeUnits.take n).foldl (fun (m : SMap UnitClaim) u => m.set .free u p) c.gate.units } }

/-- Release every unit of a claimant. -/
def Core.releaseUnits (c : Core) (p : UnitClaim) : Core :=
  { c with gate := { c.gate with units := c.gate.units.filter (fun u => u.2 != p) } }

/-- Drop the tier-0 copies that satisfy `p`: their units return to the pool. -/
def Core.dropCopiesIf (c : Core) (p : Copy0 → Bool) : Core :=
  { c with gate := { c.gate with
      copies := c.gate.copies.filter (fun k => !p k)
      units := (c.gate.copies.filter p).foldl (fun (m : SMap UnitClaim) k => m.erase k.unit) c.gate.units } }

/-- Drop tier-0 copies, oldest first, until `n` units are free (R267). -/
def Core.makeUnits (c : Core) (n : Nat) : Core :=
  let old := c.gate.copies.take (n - c.freeUnits.length)
  c.dropCopiesIf (fun k => old.contains k)

/-- An allocation of `n` units, for which tier-0 copies give way (R267). -/
def Core.allocUnits (c : Core) (p : UnitClaim) (n : Nat) : Core := (c.makeUnits n).claimUnits p n

/-- The Dome offset of byte `a` of context `x`'s range (R265, R267): its units stand in the range in ascending order. -/
def Core.domeAt (c : Core) (x a : Nat) : Nat := 0x3A0_0000 + 65536 * (c.unitsOf (.ctx x)).getD (a / 65536) 0 + a % 65536

end Sys2Proof.Machine
end

