-- ==== Sys2Proof/Machine/SegOps.lean ====
section
/-! DEFINITION. What happens to a segment: its completion (R348), its end (R55, R56), the faults of its towers (R78), its
release (R47, R212), and the settlement of the steps it closes (R235 to R239). -/

namespace Sys2Proof.Machine

/-- The adaptations an image names, each once. -/
def Image.adapts (im : Image) : List Nat := (im.members.map (fun (m : MemberRef) => m.adapt)).dedup

/-- The member contexts, in member order. -/
def Image.ctxs (im : Image) : List Nat := im.members.map (fun (m : MemberRef) => m.ctx)

/-- The key slots named. -/
def Image.slots (im : Image) : List Nat := (im.members.map (fun (m : MemberRef) => m.slot)).dedup

/-- A segment is the context's, or names it as a member. -/
def Seg.names (s : Seg) (x : Nat) : Bool := s.ctx = x || s.img.ctxs.contains x

/-! Completion. -/

/-- Clear the low 12 bits (R328). -/
def coarse (v : Nat) : Nat := v / 4096 * 4096

/-- The 64-byte result record (R348), coarsened unless the submitter is the administration PF (R328). -/
def segRecord (tr : Trim) (s : Seg) : List Byte :=
  let k (v : Nat) := if s.req.f = tr.admin then v else coarse v
  let mj := if s.req.f = tr.admin then s.energy else s.energy / 1000 * 1000
  leBytes 8 (k s.elapsed) ++ leBytes 8 (k s.stall) ++ leBytes 8 (k s.wait) ++ leBytes 8 (k s.slip)
    ++ leBytes 8 (k s.endTime) ++ leBytes 8 (k s.endCp) ++ leBytes 4 mj ++ leBytes 2 s.committed ++ leBytes 2 s.heldCount
    ++ leBytes 8 0

/-- Release a re-support's claim (R181). -/
def Core.dropClaim (c : Core) (s : Seg) : Core :=
  if s.resupport then s.img.adapts.foldl (fun (c : Core) i => c.updDesc i (fun d =>
    if d.kind = 3 ∧ d.claimant = s.id then { d with claimant := 0, kind := 0 } else d)) c else c

/-- A swapped segment's save goes: its frames are free (R273). -/
def Core.dropSave (c : Core) (s : Seg) : Core :=
  match (c.mem.runs.find? (fun r => r.1 = 16384 + s.ctx)).map (fun r => r.2) with
  | none => c
  | some e =>
    let es := e.extents.filter (fun x => x.start != s.saveAt)
    let rs := if es = [] ∧ e.pages = 0 then c.mem.runs.erase (16384 + s.ctx)
      else c.mem.runs.insert (16384 + s.ctx) { e with extents := es }
    if s.saved = [] then c else { c with mem := { c.mem with runs := rs } }

/-- Complete a segment's command and forget the segment: its pins (R31), its pool units (R267), a re-support's claim (R181) and a
save (R273) go with it. -/
def Core.finishSeg (tr : Trim) (c : Core) (s : Seg) (status arg : Nat) : Core :=
  let c := s.pinned.foldl (fun (c : Core) i => c.updDesc i (fun d => { d with pins := d.pins - 1 })) c
  let c := ((c.releaseUnits (.image s.id)).dropClaim s).dropSave s
  let c := c.post ⟨s.req, status, s.committed % 2 ^ 16 + s.heldCount % 2 ^ 16 * 2 ^ 16 + arg % 2 ^ 16 * 2 ^ 32, segRecord tr s⟩
  c.dropSeg s.id

/-- Complete a segment without running it: a record of zeros but for END_TIME and END_CP (R348). -/
def Core.cancelSeg (tr : Trim) (c : Core) (s : Seg) (status arg : Nat) : Core :=
  let s := { s with elapsed := 0, stall := 0, wait := 0, slip := 0, energy := 0, committed := 0, heldCount := 0
                    endTime := c.clk.time, endCp := c.cp }
  c.finishSeg tr s status arg

/-- A refused segment counts as a refused command (R9). -/
def Core.refuseSeg (tr : Trim) (c : Core) (s : Seg) (code arg : Nat) : Core :=
  (c.bump (hstBase s.req.f.port + 0xA8) 1).cancelSeg tr s code arg

/-! The step (R204, R235 to R239). -/

/-- The reports of a segment that are charged to member `m`, first in order (R235): lowest tower, then issue order. -/
def SegOut.firstReport (o : SegOut) (m : Nat) : Option Report :=
  (((List.range 64).flatMap (fun t => o.reports.filter (fun r => r.1 = t))).map (fun r => r.2.2)).find? (fun x =>
    x.member = none || x.member = some m)

/-- The parts of a step in submission order. -/
def sortParts (ps : List (Nat × SegOut × Nat)) : List (Nat × SegOut × Nat) := ps.mergeSort (fun a b => decide (a.1 ≤ b.1))

/-- Pages of group `g` written in the step (R231, R236). -/
def StepRec.written (r : StepRec) (g : Nat) : Nat :=
  (r.parts.map (fun p => ((p.2.1.pages.filter (fun x => x.1 = p.2.2 ∧ x.2.1 = g)).map (fun x => x.2.2)).sum)).sum

/-- The outcome of a member's step (R236): the code, and the first short group for 0x0331. -/
def Ctx.outcome (v : Ctx) : Nat × Nat :=
  match (sortParts v.record.parts).find? (fun p => p.2.1.fault != 0) with
  | some p => (p.2.1.fault, 0)
  | none =>
    if v.record.finite then (0x0330, 0)
    else
      match findIdx? (fun (g : Nat × ParamGroup) => !bit g.2.flags 0 && decide (v.record.written g.1 ≠ g.2.pages)) (v.groups.zipIdx.map (fun x => (x.2, x.1))) with
      | some x => (0x0331, x.2.1)
      | none => (0, 0)

/-- The schedule position after a commit (R221). -/
def Ctx.nextPos (v : Ctx) : Nat :=
  if v.commit.pos + 1 < v.sched.length then v.commit.pos + 1
  else match v.endMode with
    | 1 => v.loopRow
    | 2 => v.sched.length
    | _ => v.sched.length - 1

/-- The groups written in the step that are not frozen, as a bitmap (R215, R237). -/
def Ctx.flips (v : Ctx) : Nat :=
  ((v.groups.zipIdx.filter (fun g => !bit g.1.flags 0 && decide (v.record.written g.2 > 0))).map (fun g => 2 ^ g.2)).sum

/-- Set a group's SINGULAR bit (R208, R237). -/
def markSingular (marks : List Nat) (gs : List ParamGroup) : List ParamGroup :=
  gs.zipIdx.map (fun g => if marks.contains g.2 then { g.1 with flags := g.1.flags ||| 2 } else g.1)

/-- A released segment that has not ended names context `x`: its run-table entry does not change (R279). -/
def Core.usesTransient (c : Core) (x : Nat) : Bool := c.segs.any (fun s => (s.st = .running || s.st = .swapped) && s.names x)

/-- The context's transient allocation is released (R207), unless a released segment still names it (R279; log 105). -/
def Core.freeTransient (c : Core) (x : Nat) : Core :=
  if c.usesTransient x then c
  else { c.updCtx x (fun v => { v with transient := false }) with mem := { c.mem with runs := c.mem.runs.erase (16384 + x) } }

/-- Change a context's commit line, and with it the COMMIT of the adaptation whose training claim it holds (R237, R248;
log 106). -/
def Core.updCommit (c : Core) (x : Nat) (f : CommitLine → CommitLine) : Core :=
  match c.ctx? x with
  | none => c
  | some v =>
    let c := c.setCtx x { v with commit := f v.commit }
    if v.training ∧ (c.desc v.adapt).trainCtx = x then c.updDesc v.adapt (fun d => { d with commit := f d.commit }) else c

/-- Hold a member's step with a code (R238): LAST_CODE only, the event, transient data released. -/
def Core.holdStep (c : Core) (x code a0 a1 a2 : Nat) : Core :=
  match c.ctx? x with
  | none => c
  | some _ =>
    let c := c.updCommit x (fun l => { l with last := code })
    let c := c.updCtx x Ctx.closeStep
    let c := if code = 0x0330 ∨ code = 0x0331 ∨ code = 0x0332 then c.raise (c.ctxEvent code x a0 a1 a2 0) else c
    c.freeTransient x

/-- Abandon a context's open step (R239). -/
def Core.abandon (c : Core) (x : Nat) : Core :=
  match c.ctx? x with
  | some v => if v.record.st ≠ 0 then (c.setCtx x { v with later := [] }).holdStep x 0x0332 0 0 0 else c
  | none => c

/-- Commit or hold member context `x`'s step that segment `i` closes (R236 to R238); the code it was held with, 0 if it
committed. -/
def Core.settleMember (c : Core) (i x : Nat) : Core × Nat :=
  match c.ctx? x with
  | none => (c, 0x0332)
  | some v =>
    -- STEP never wraps (R206; log 107)
    let o := if v.outcome.1 = 0 ∧ v.commit.step = 2 ^ 32 - 1 then (0x0A1B, 0) else v.outcome
    if v.record.closing ≠ some i then (c, 0x0332)
    else if o.1 = 0 then
      let c := c.updCommit x (fun _ => ⟨v.commit.step + 1, v.nextPos, 0, v.commit.bank ^^^ v.flips⟩)
      let c := c.updCtx x (fun v => { v with groups := markSingular v.record.singular v.groups }.closeStep)
      -- tier-0 copies of groups whose bank flipped are dead from this beat (R264); the pages are dirty
      let dead (k : Copy0) : Bool := k.idx = v.adapt && (v.groups.zipIdx.any (fun g =>
        bit v.flips g.2 && g.1.first ≤ k.page && k.page < g.1.first + g.1.pages))
      let c := { c with gate := { c.gate with copies := mapIf dead (fun k => { k with dead := true }) c.gate.copies } }
      let c := c.updDesc v.adapt (fun d => { d with dirty := d.dirty || decide (v.flips ≠ 0) })
      (c.freeTransient x, 0)
    else
      (c.holdStep x o.1 (if o.1 = 0x0330 then v.record.tensor else o.2) (if o.1 = 0x0330 then v.record.index / 2 ^ 16 else 0)
        (if o.1 = 0x0330 then v.record.index else 0), o.1)

/-- The steps a closing segment waits on have no segment left (R204, R237): settlement is due 9 beats on. -/
def Core.dueSettle (c : Core) : Core :=
  { c with segs := c.segs.map (fun s =>
      if s.st = .ended ∧ s.stepEnd ∧ s.left ≠ [] ∧ s.due = 0 ∧ s.left.all (fun x =>
          match c.ctx? x with
          | some v => if v.record.closing = some s.id then v.record.segs.isEmpty else !v.later.any (fun r => r.closing = some s.id)
          | none => true)
      then { s with due := c.clk.total + 9 } else s) }

/-- Settle the members a closing segment names, in member order, and complete its command (R28, R237). -/
def Core.settle (tr : Trim) (c : Core) (s : Seg) : Core :=
  let r := s.left.foldl (fun (r : Core × Nat × Nat × Nat) x =>
    let y := r.1.settleMember s.id x
    if y.2 = 0 then (y.1, r.2.1 + 1, r.2.2.1, r.2.2.2)
    else (y.1, r.2.1, r.2.2.1 + 1, if r.2.2.2 = 0 then y.2 else r.2.2.2)) (c, s.committed, s.heldCount, s.status)
  (r.1.finishSeg tr { s with committed := r.2.1, heldCount := r.2.2.1 } r.2.2.2 0).dueSettle

/-- Merge a segment's outcome into the step of member context `x` (member index `m`) (R234, R235). -/
def StepRec.add (r : StepRec) (s : Seg) (m : Nat) : StepRec :=
  let parts := sortParts (r.parts ++ [(s.id, s.out, m)])
  let first := (parts.filterMap (fun p => p.2.1.firstReport p.2.2)).head?
  let fault := ((parts.map (fun p => p.2.1.fault)).find? (· != 0)).getD 0
  { r with
    parts := parts, segs := r.segs.filter (· != s.id), finite := first.isSome, faulted := decide (fault ≠ 0), faultCode := fault
    tensor := (first.map (fun x => x.tensor)).getD 0, index := (first.map (fun x => x.index)).getD 0
    frozenSup := r.frozenSup + ((s.out.frozen.filter (fun x => x.1 = m)).map (fun x => x.2.2)).sum
    singular := (r.singular ++ (s.out.singular.filter (fun x => x.1 = m)).map (fun x => x.2.1)).dedup }

/-! The end. -/

/-- The Δ of R56: how far the CP stands past the deadline CP; 0 when it does not. -/
def overrun (cp deadline : Nat) : Nat :=
  let d := (cp + 2 ^ 64 - deadline % 2 ^ 64) % 2 ^ 64
  if d ≥ 2 ^ 63 then 0 else d

/-- The slip in nominal beats (R56): 0 when the end is not after the deadline. -/
def slipOf (cp deadline period : Nat) : Nat := overrun cp deadline * period / 2 ^ 24

/-- Ballast at the end of a segment (R425): each tower's share of its last window, at most 16 W ÷ f a tower, held until every other
ballast has tapered off, so that the tapers together fall no faster than RAMP_DOWN (log 130).  None in holdover (R413) or an orderly
stop (R426). -/
def Core.endBallast (c : Core) (s : Seg) : Core :=
  let im := s.img
  let ts := towersOf im.towerSet
  let w := (⟨im.energy, ts.length, im.length, (im.length : Int) - 1⟩ : Load).draw c.eighths 0 / 1_000_000
  let per := min w (16 * 8 / c.eighths)
  if per = 0 ∨ c.prc.state = .holdover ∨ c.prc.state = .stopping then c
  else { c with pow := { c.pow with ballast := c.pow.ballast ++ [⟨s.ctx, ts, per * ts.length, c.window, c.pow.taperEnd - c.window, c.pow.rampDown⟩] } }

/-- Free a segment's towers for releases from beat `from_` on (R55): TWR_FAULT, stores and counters stand until the next
release. -/
def Core.freeTowers (c : Core) (s : Seg) (from_ : Nat) : Core :=
  { c with towers := c.towers.map (fun t =>
      if t.seg = some s.id then
        { t with st := if t.st = .faulted then .faulted else .idle, seg := none, ctx := 0xFFFF, cause := 0, wait := 0
                 atBarrier := false, swapLeft := 0, jobs := [], landing := [], checks := [], flightIn := [], flightOut := [], freeFrom := from_
                 holds := List.replicate 8 ⟨0, 0, 0⟩ }
      else t) }

/-- Ballast energy charged to context `x` and not yet reported, in mJ (R425, R430; log 100). -/
def Core.ballastEnergy (c : Core) (x : Nat) : Nat := c.pow.charged.get 0 x / 10 ^ 13

/-- A segment ends (R55, R56): towers freed from beat `from_` on, its image leaves the Dome (R267), slip, ballast, its part of each
step; the energy reported is the
profile's scaled by what was measured, a free value, and the ballast charged (R430); the command completes now or at settlement
(R345). -/
def Core.endSeg (tr : Trim) (c : Core) (s : Seg) (from_ : Nat) : Core :=
  let im := s.img
  let ts := towersOf im.towerSet
  let lag := (ts.map (fun t => (c.tower t).lag)).foldl max 0
  let slip := slipOf c.cp im.deadline c.period
  let members := if im.training then im.ctxs.zipIdx.filter (fun x => s.steps.contains x.1) else []
  let s := { s with
    st := .ended, elapsed := im.length + lag, stall := (ts.map (fun t => (c.tower t).stalls)).sum
    wait := (ts.map (fun t => (c.tower t).waits)).sum
    slip := slip, endTime := c.clk.time, endCp := c.cp, energy := Config.freeNat c.free + c.ballastEnergy s.ctx, saved := [], pooled := 0
    left := if s.stepEnd then members.map (·.1) else [], due := 0 }
  let c := { c.fresh with pow := { c.pow with charged := c.pow.charged.erase s.ctx } }
  let c := if overrun c.cp im.deadline = 0 then c
    else c.raise (c.ctxEvent 0x0310 s.ctx s.ctx (min slip (2 ^ 32 - 1) / 2 ^ 16) (min slip (2 ^ 32 - 1)) 0)
  let c := (c.freeTowers s from_).releaseUnits (.image s.id)
  -- a segment that a fault stopped has had its ballast (R425)
  let c : Core := if (s : Seg).out.fault = 0 then c.endBallast s else c
  let c := members.foldl (fun (c : Core) m => c.updCtx m.1 (fun v =>
    v.mapRecs (fun r => if r.segs.contains s.id then r.add s m.2 else r))) c
  let c := { c with ctxs := c.ctxs.map (fun (x : Nat × Ctx) => (x.1, { x.2 with running := x.2.running.map (fun (r : ProgRun) =>
    if r.waitEnd = some s.id then { r with waitEnd := none } else r) })) }
  let c := if s.left = [] then c.dueSettle.finishSeg tr s s.out.fault 0 else (c.setSeg { s with status := 0 }).dueSettle
  -- the data of a context disabled meanwhile goes with its last segment (R279, R352)
  (s.ctx :: im.ctxs).foldl (fun (c : Core) x =>
    if ((c.ctx? x).map (fun (v : Ctx) => v.enable)).getD false then c else c.freeTransient x) c

/-! Faults (R78). -/

/-- The tower stops in this beat with a fault: it issues nothing more, its operations under way go on; its reads in flight are
discarded and unaccepted entries dropped and counted. -/
def Tower.stop (t : Tower) (f : TFault) : Tower :=
  { t with st := .faulted, fault := f, flightIn := [], flightOut := [], checks := [], wait := 0, cause := 0
           swapLeft := 0
           dropped := t.dropped + (t.queues.map (fun q => (q.entries.filter (fun e => e.st = .pushed || e.st = .writing)).length)).sum
           queues := t.queues.map (fun q => { q with entries := q.entries.map (fun e =>
             if e.st = .pushed ∨ e.st = .writing ∨ e.st = .filling then .free else e) }) }

/-- The bundle index and schedule beat at which a tower stopped by another's fault stops (log 11). -/
def Tower.nextBeat (p : Option TowerProg) (t : Tower) : Nat :=
  match p with
  | none => t.sched
  | some p => match t.last with
    | none => bWait (p.bundles.getD t.pc 0)
    | some l => l + 1 + bWait (p.bundles.getD t.pc 0)

/-- A segment meets its first fault (R78): it ends with that code once its towers have stopped, and ballast fills the drop in its draw
(R425). -/
def Core.faultSeg (c : Core) (s : Seg) (code : Nat) : Core :=
  if s.out.fault = 0 then (c.setSeg { s with out := { s.out with fault := code } }).endBallast s else c

/-- A tower faults (R78): `ev` is the first argument of its event, none for a fault that records none of its own.  The other towers of
the segment stop at their next bundle (`Core.follow`).  A tower that has stopped takes no second fault (log 11). -/
def Core.towerFault (c : Core) (tw : Nat) (f : TFault) (ev : Option Nat) : Core :=
  let t := c.tower tw
  match t.seg.bind c.seg? with
  | none => c
  | some s =>
    if t.st = .faulted then c
    else
      let c := match ev with
        | some a => c.raise { c.ctxEvent f.code s.ctx a f.bundle (f.slot % 8 + f.item % 32 * 8) tw with ctx := s.ctx }
        | none => c
      (c.setTower tw (t.stop f)).faultSeg s f.code

/-- Every tower of the region that runs a segment faults with 0x0801, its operations with it (R78, R435); no ballast fills the drop
(R426). -/
def Core.fenceTowers (c : Core) (r : Nat) : Core :=
  (List.range' (4 * r) 4).foldl (fun (c : Core) tw =>
    let t := c.tower tw
    match t.seg.bind c.seg? with
    | none => c
    | some s =>
      let c := if s.out.fault = 0 then c.setSeg { s with out := { s.out with fault := 0x0801 } } else c
      if t.st = .faulted then c else c.setTower tw ({ t with jobs := [], landing := [] }.stop ⟨0x0801, 0, 0, t.pc, t.sched⟩)) c

/-! Release (R47, R212, R213). -/

/-- What a member's context and descriptor give at release (R212, R248). -/
def Core.latch (c : Core) (m : MemberRef) : Latch :=
  match c.ctx? m.ctx with
  | none => ⟨0, 0, [], ⟨0, 0, 0, false⟩, false, []⟩
  | some v =>
    let l := if v.training then v.commit else (c.desc m.adapt).commit
    { bank := l.bank, frozen := ((v.groups.zipIdx.filter (fun g => bit g.1.flags 0)).map (fun g => 2 ^ g.2)).sum
      row := v.sched.getD l.pos (List.replicate 16 0), seeding := ⟨v.seed, v.stream, l.step, v.heritage⟩, strict := v.strict
      groups := if v.training ∧ v.adapt = m.adapt then v.groups else c.groupsOf m.adapt }

/-- The form a segment needs of an adaptation is in tier 1 (R243). -/
def Core.formOk (c : Core) (im : Image) (i : Nat) : Bool :=
  let d := c.desc i
  d.st = .resident && (!im.training || d.training)

/-- R213: no released, unended segment latched another BANK of an adaptation a TRAINING segment names. -/
def Core.banksOk (c : Core) (im : Image) : Bool :=
  !im.training || im.members.all (fun (m : MemberRef) =>
    c.segs.all (fun s => !(s.st = .running || s.st = .swapped) || (s.img.members.zip s.latches).all (fun (x : MemberRef × Latch) =>
      x.1.adapt != m.adapt || x.2.bank = (c.latch m).bank)))

/-- Every tower of the set is free to be released on (R47, R55). -/
def Core.towersFree (c : Core) (im : Image) : Bool :=
  (towersOf im.towerSet).all (fun t => (c.tower t).seg.isNone && !(c.tower t).fenced && (c.tower t).testDone
    && decide ((c.tower t).freeFrom ≤ c.clk.total))

/-- The Belfry makes releases now (R61, R407, R413, R417, R427). -/
def Core.releasing (c : Core) : Bool :=
  c.blf.run && c.clk.first && !c.blf.stopped && c.prc.state != .holdover && !c.blf.stepWait
    && !(c.keep.fwState = 2 && c.keep.fwKind = 4)

/-- OP, FLAGS and OPERAND of an operation word (R57). -/
def pOp (w : Nat) : Nat := bits w 60 4
def pFlags (w : Nat) : Nat := bits w 56 4
def pArg (w : Nat) : Nat := bits w 0 56

/-- No release program of its context is under way, or it was swapped out: the default rule releases it (R60). -/
def Core.byDefault (c : Core) (s : Seg) : Bool :=
  s.st = .swapped || (match c.ctx? s.ctx with
    | some v => v.running.isNone
    | none => true)

/-- It is its context's oldest queued segment, and the context's program stands at a RELEASE for it (R58, R60). -/
def Core.progSeg (c : Core) (s : Seg) : Bool :=
  s.st = .queued && (match c.ctx? s.ctx with
    | some v => match v.running with
      | some r => v.enable && r.waitEnd.isNone && pOp (v.prog.getD r.idx 0) = 1
          && (s.img.releaseIndex = 0xFF || s.img.releaseIndex = r.idx)
      | none => false
    | none => false)
    && c.segs.all (fun x => !(x.ctx = s.ctx && x.st = .queued && decide (x.id < s.id)))

/-- The reservations of context `x` released. -/
def Core.withoutReservations (c : Core) (x : Nat) : Core :=
  { c with pow := { c.pow with reservations := c.pow.reservations.filter (fun r => r.ctx != x) } }

/-- The plan against which a segment's fit is judged: a RELEASE uses its own context's reservations (R58). -/
def Core.planFor (c : Core) (s : Seg) : Core := if c.byDefault s then c else c.withoutReservations s.ctx

/-- The deadline CP of a queued DROP_LATE segment has passed (R48). -/
def Core.tooLate (c : Core) (s : Seg) : Bool := s.st = .queued && s.img.dropLate && decide (overrun c.cp s.img.deadline ≠ 0)

/-- The conditions of R47 on a segment but the phase slot's, its start offsets with them; a DROP_LATE segment past its deadline is
not released (R48). -/
def Core.startable (c : Core) (s : Seg) : Option (List (Nat × Nat)) :=
  let im := s.img
  if c.releasing && (s.st = .queued || s.st = .swapped) && !c.tooLate s && atOrAfter c.cp im.earliest && c.towersFree im
      && c.segs.all (fun x => !(x.ctx = s.ctx && x.st = .queued && decide (x.id < s.id)))
      && im.adapts.all (c.formOk im) && c.banksOk im then
    (c.planFor s).startOffsets im
  else none

/-- The conditions of R47 on a segment, its start offsets with them. -/
def Core.releasable (c : Core) (s : Seg) : Option (List (Nat × Nat)) :=
  match c.startable s with
  | some offs => if !c.bigStep (c.planFor s) s.img offs || c.inSlot then some offs else none
  | none => none

/-- A tower started on a segment (R66, R94, R186, R212): everything valid cleared, registers from the register table. -/
def Tower.start (t : Tower) (s : Seg) (p : TowerProg) (off : Nat) : Tower :=
  { Tower.reset t.testEnd with
    st := .running, seg := some s.id, ctx := s.ctx, startIn := off, lag := off, fault := t.fault
    aregs := p.regs.map (fun w => ⟨bits w 0 23, bits w 24 23⟩)
    testDone := t.testDone, testPass := t.testPass, fenced := t.fenced, testUnit := t.testUnit }

/-- Beats a swap's save or restore takes on a tower (R91; log 18): 256 for each full group. -/
def Tower.swapBeats (t : Tower) : Nat := 256 * (t.groups.filter (·.full)).length

/-- The holds of a swap on a tower's full groups (R75), to beat `until_`. -/
def Tower.swapHolds (t : Tower) (until_ : Nat) : List Hold := t.groups.map (fun g => if g.full then ⟨5, until_, until_⟩ else ⟨0, 0, 0⟩)

/-- A swapped tower restored in beat `now` (R91, R273): registers, loop counters and the state of every group come back, and the
beats of the restore follow its start offset; it stands past its yield point. -/
def Tower.resume (t : Tower) (s : Seg) (old : Tower) (off now : Nat) : Tower :=
  { old with st := .running, seg := some s.id, startIn := off, lag := old.lag + off, swapLeft := old.swapBeats
             holds := old.swapHolds (now + off + old.swapBeats), testDone := t.testDone
             testPass := t.testPass, fenced := t.fenced, testUnit := t.testUnit, testEnd := t.testEnd }

/-- Release a segment with its start offsets (R47, R212, R424). -/
def Core.releaseSeg (c : Core) (s : Seg) (offs : List (Nat × Nat)) : Core :=
  let im := s.img
  let ts := towersOf im.towerSet
  let v := c.ctx? s.ctx
  let s' := if s.st = .swapped then { s with st := .running } else
    { s with
      st := .running, latches := im.members.map c.latch
      chain := (v.map (fun (v : Ctx) => v.chain)).getD []
      rules := if im.training then (v.map (fun (v : Ctx) => v.rules)).getD [] else []
      own := (v.map (fun (v : Ctx) => (⟨v.seed, v.stream, v.commit.step, v.heritage⟩ : Seeding))).getD ⟨0, 0, 0, false⟩
      start := c.clk.total, startNominal := c.clk.nominal, stall := 0, wait := 0 }
  let c := ts.foldl (fun (c : Core) t =>
    let off := ((offs.find? (fun o => o.1 = t)).map (fun o => o.2)).getD 0
    match s.saved.find? (fun x => x.1 = t) with
    | some x => c.setTower t ((c.tower t).resume s' x.2 off c.clk.total)
    | none => match im.prog t with
      | some p => c.setTower t ((c.tower t).start s' p off)
      | none => c) c
  let c := im.adapts.foldl (fun (c : Core) i => c.updDesc i (fun d => { d with lastRelease := c.clk.total })) c
  let cut (b : Ballast) : Ballast :=
    let keep := b.towers.filter (fun t => !ts.contains t)
    { b with watts := if b.towers.length = 0 then b.watts else b.watts * keep.length / b.towers.length, towers := keep }
  let bs := (c.pow.ballast.map cut).filter (fun b => b.watts != 0)
  let c := { c with pow := { c.pow with ballast := bs } }
  c.setSeg { s' with saved := [] }

/-- `a` goes before `b` among ready segments (R47): earlier deadline, then lower context, then submission order. -/
def Seg.before (a b : Seg) : Bool :=
  if a.img.deadline = b.img.deadline then (a.ctx < b.ctx || (a.ctx = b.ctx && a.id < b.id))
  else !atOrAfter a.img.deadline b.img.deadline

/-- Two segments claim a tower together. -/
def Seg.shares (a b : Seg) : Bool := (towersOf a.img.towerSet).any (fun t => (towersOf b.img.towerSet).contains t)

/-- Another segment that can be released now, by the default rule or by its program, goes first on a tower of this one's (R47). -/
def Core.outranked (c : Core) (s : Seg) : Bool :=
  c.segs.any (fun x => x.id != s.id && x.shares s && x.before s && (c.byDefault x || c.progSeg x) && (c.releasable x).isSome)

/-- The first of the segments that can be released now. -/
def Core.nextRelease (c : Core) (ok : Seg → Bool) : Option (Seg × List (Nat × Nat)) :=
  c.segs.foldl (fun r s =>
    if ok s && !c.outranked s then
      match c.releasable s with
      | none => r
      | some offs => match r with
        | none => some (s, offs)
        | some x => if s.before x.1 then some (s, offs) else r
    else r) none

end Sys2Proof.Machine
end

