-- ==== Sys2Proof/Machine/MemOps.lean ====
section
/-! DEFINITION. The memory complex (10): from run pages to frames (R277 to R280), the slot and generation check (R323), the
cipher, tags and versions (R285 to R290), and the run of an adaptation (R245). -/

namespace Sys2Proof.Machine

/-! Placement. -/

/-- The frame number of run page `u` (R279). -/
def RunEnt.frame (e : RunEnt) (u : Nat) : Option Nat :=
  (e.extents.find? (fun x => decide (x.start ≤ u ∧ u < x.start + 16 * x.k))).map (fun x => 16 * (x.base + (u - x.start) / 16) + u % 16)

/-- Run-table entry `k`. -/
def Core.runEnt (c : Core) (k : Nat) : Option RunEnt := (c.mem.runs.find? (·.1 = k)).map (·.2)

def Core.setRun (c : Core) (k : Nat) (e : RunEnt) : Core := { c with mem := { c.mem with runs := c.mem.runs.insert k e } }
def Core.dropRun (c : Core) (k : Nat) : Core := { c with mem := { c.mem with runs := c.mem.runs.erase k } }

/-- Pages of one bank of masters and of momentum (R245). -/
def Desc.mPages (d : Desc) : Nat := ceilDiv (4 * d.slots) 4096
def Desc.uPages (d : Desc) : Nat := ceilDiv (2 * d.slots) 4096

/-- The whole run's pages with padding (R245). -/
def Desc.runPages (d : Desc) : Nat := 2 * (roundUp d.pages 16 + roundUp d.mPages 16 + roundUp d.uPages 16)

/-- The run offset of page `j` of tensor `k` (0 delta, 1 masters, 2 momentum) in a bank (R245). -/
def Desc.pageAt (d : Desc) (k bank j : Nat) : Nat :=
  let p := roundUp d.pages 16
  let m := roundUp d.mPages 16
  let u := roundUp d.uPages 16
  match k with
  | 0 => bank * p + j
  | 1 => 2 * p + bank * m + j
  | _ => 2 * p + 2 * m + bank * u + j

/-- The delta page whose slots line `l` (64-byte lines from the tensor's start) of tensor `k` holds (R281). -/
def ownerPage (k l : Nat) : Nat :=
  match k with
  | 0 => l / 64
  | 1 => l / 84
  | _ => l / 42

/-- The bank that a BANK bitmap gives the group of delta page `j` (R210). -/
def bankFor (gs : List ParamGroup) (bank j : Nat) : Nat :=
  match findIdx? (fun (g : ParamGroup) => decide (g.first ≤ j ∧ j < g.first + g.pages)) gs with
  | some x => b2n (bit bank x.1)
  | none => 0

/-- The run page and line that byte offset `a` of a member's state names (R280), for a read or a write (R211); none beyond
the state. -/
def Desc.stateLine (d : Desc) (gs : List ParamGroup) (bank a : Nat) (write deltaOnly : Bool) : Option (Nat × Nat) :=
  let pg := a / 4096
  let r := if pg < d.pages then some (0, pg)
    else if deltaOnly then none
    else if pg < d.pages + d.mPages then some (1, pg - d.pages)
    else if pg < d.pages + d.mPages + d.uPages then some (2, pg - d.pages - d.mPages)
    else none
  r.map (fun x =>
    let b := bankFor gs bank (ownerPage x.1 (x.2 * 64 + a % 4096 / 64))
    (d.pageAt x.1 (if write then 1 - b else b) x.2, a % 4096 / 64))

/-! Free frames (R259, R277). -/

/-- Data frame indexes of each package. -/
def dataFrames : Nat := 22_282_579

/-- Frame indexes in use by the run table. -/
def Core.usedBlocks (c : Core) : List (Nat × Nat) := c.mem.runs.flatMap (fun e => e.2.extents.map (fun x => (x.base, x.k)))

/-- The first base index from which `k` blocks are free (first fit; log 20). -/
def freeBase (used : List (Nat × Nat)) (k : Nat) : Nat → Nat → Option Nat
  | 0, _ => none
  | fuel + 1, b =>
    match used.find? (fun x => decide (x.1 < b + k ∧ b < x.1 + x.2)) with
    | some x => freeBase used k fuel (x.1 + x.2)
    | none => if b + k ≤ dataFrames then some b else none

/-- A place for `pages` run pages. -/
def Core.place (c : Core) (pages : Nat) : Option Nat :=
  freeBase c.usedBlocks (ceilDiv pages 16) (c.usedBlocks.length + 1) 0

/-- Free tier 1 in frames. -/
def Core.freeFrames (c : Core) : Nat := 16 * (dataFrames - (c.usedBlocks.map (·.2)).sum)

/-- A channel failed training: no memory service (R284). -/
def Core.noMemory (c : Core) : Bool := c.mem.ctls.any (fun m => m.trainFail != 0)

/-! Keys. -/

/-- The XTS tweak of R285. -/
def tweak (t i g : Nat) : Nat := (t * 64 + i) ^^^ (g * 2 ^ 48)

/-- The 96-bit GMAC IV of R286. -/
def tagIv (t v g : Nat) : Nat := t % 2 ^ 36 + v % 2 ^ 32 * 2 ^ 36 + g % 2 ^ 16 * 2 ^ 68

/-- What (slot, generation) gives at a controller (R323): 0 served, or the code it completes with. -/
def Core.slotCode (c : Core) (pkg slot gen : Nat) : Nat :=
  let k := c.slot slot
  if c.noMemory then 0x040A
  else if k.gen ≠ gen ∨ !(k.st = .active || k.st = .retiring) then 0x0505
  else if k.st = .retiring ∧ k.told.contains (1 + pkg) then 0x0505
  else 0

/-- System regions are plaintext (R285). -/
def systemEntry (e : Nat) : Bool := decide (e ≥ 16642)

/-- A root secret's derived keys (R302). -/
def dataKey (root : Key) : Key := Config.hkdf root (ascii "IVZ-XTS-DATA")
def tweakKey (root : Key) : Key := Config.hkdf root (ascii "IVZ-XTS-TWEAK")
def tagKey (root : Key) : Key := Config.hkdf root (ascii "IVZ-GMAC-TAG")

/-- AES-256-XTS under a root secret's data and tweak keys (R285, R302). -/
def xtsLine (root : Key) (t i g : Nat) : Equiv.Perm Line := Config.xts (dataKey root) (tweakKey root) (tweak t i g)

/-- The tag the stored lines of a page should have (R286). -/
def pageTag (root : Key) (t v g : Nat) (ls : List Line) : BitVec 128 := Config.gmac (tagKey root) (tagIv t v g) ls

/-- The stored lines of a frame. -/
def Dram.page (d : Dram) (pfn : Nat) : List Line := (List.range 64).map (fun i => d.lines.get 0 (64 * pfn + i))

/-! Channels and check bytes (R276, R277). -/

/-- The channel, group and byte offset in it of line `i` of frame `pfn`; and of its eight check bytes. -/
def lineChannel (pfn i : Nat) : Nat := 8 * (pfn % 16) + i / 8
def lineOffset (pfn i : Nat) : Nat := 576 * (pfn / 16) + 64 * (i % 8)
def checkOffset (pfn i : Nat) : Nat := 576 * (pfn / 16) + 512 + 8 * (i % 8)

/-- The bank of a frame's group in each of its channels (R276). -/
def groupBank (pfn : Nat) : Nat := pfn / 16 % 16

/-- The check bytes that stand with a stored line (R276, R282): those of the words last written, with the errors that reads meet
given by their commands (log 5). -/
def checkBytes (l : Line) : List Byte := (List.range 8).map (fun j => Config.secded (l.extractLsb' (64 * j) 64))

/-- The check line of the group that holds lines `8k` to `8k + 7` of a frame. -/
def Dram.checkLine (d : Dram) (pfn k : Nat) : List Byte := (List.range 8).flatMap (fun i => checkBytes (d.lines.get 0 (64 * pfn + 8 * k + i)))

/-! The version tree (R313 to R315). -/

/-- Nodes of a level in each package: leaves, L1, L2. -/
def treeCount : Nat → Nat
  | 0 => 1_392_662
  | 1 => 174_083
  | _ => 21_761

/-- The first line of a level in the version store. -/
def treeLine : Nat → Nat
  | 0 => 0
  | 1 => 1_392_662
  | _ => 1_566_745

/-- Eight 64-bit entries in a line. -/
def packLine (f : Nat → BitVec 64) : Line := BitVec.ofNat 512 (((List.range 8).map (fun k => (f k).toNat * 2 ^ (64 * k))).sum)

/-- The digest of node `i` of a level as the fill leaves the tree (R284; log 109): every version zero. -/
def zeroDigest (key : Key) (o : Nat) : Nat → Nat → BitVec 64
  | 0, i => Config.treeMac key o 0 i 0
  | l + 1, i => Config.treeMac key o (l + 1) i (packLine (fun k =>
      if 8 * i + k < treeCount l then zeroDigest key o l (8 * i + k) else 0))

/-- The place of the digest of node `i` of level `l` of package `o` in Dram.digests. -/
def nodeKey (o l i : Nat) : Nat := (3 * o + l) * 2 ^ 21 + i

/-- The digest of a node as its parent, or for an L2 node the Dome, holds it. -/
def Dram.digest (d : Dram) (key : Key) (o l i : Nat) : BitVec 64 := d.digests.get (zeroDigest key o l i) (nodeKey o l i)

/-- The 64 bytes of a node: versions in a leaf, the digests of its children above (R313). -/
def Dram.node (d : Dram) (key : Key) (o : Nat) : Nat → Nat → Line
  | 0, i => BitVec.ofNat 512 (((List.range 16).map (fun k => d.versions.get 0 (16 * (16 * i + k) + o) % 2 ^ 32 * 2 ^ (32 * k))).sum)
  | l + 1, i => packLine (fun k => if 8 * i + k < treeCount l then d.digest key o l (8 * i + k) else 0)

/-- The node of level `l` on the path of data frame `n`. -/
def pathNode (n l : Nat) : Nat := n / 16 / 8 ^ l

/-- The version-tree key (R301). -/
def Core.treeKey (c : Core) : Key := (c.slot 4098).root

/-- The Dome offset of a frame's version root (R313). -/
def rootAt (pfn : Nat) : Nat := 0x1A0_0000 + 0x2_A808 * (pfn % 16) + 8 * pathNode (pfn / 16) 2

/-- The path of a frame verifies (R314): every node's digest is its parent's entry or its root, and the root is not poisoned
(R463). -/
def Core.pathOk (c : Core) (d : Dram) (pfn : Nat) : Bool :=
  let o := pfn % 16
  let n := pfn / 16
  !c.mem.badRoots.contains (rootAt pfn / 64) && [0, 1, 2].all (fun l =>
    decide (Config.treeMac c.treeKey o l (pathNode n l) (d.node c.treeKey o l (pathNode n l)) = d.digest c.treeKey o l (pathNode n l)))

/-- Set a frame's version and the digests of its path up to the root (R314). -/
def Core.setVersion (c : Core) (d : Dram) (pfn v : Nat) : Dram :=
  let o := pfn % 16
  let n := pfn / 16
  [0, 1, 2].foldl (fun (d : Dram) l =>
    let i := pathNode n l
    let x := Config.treeMac c.treeKey o l i (d.node c.treeKey o l i)
    { d with digests := d.digests.insert (nodeKey o l i) x }) { d with versions := d.versions.set 0 pfn v }

/-- The place in the tree of line `i` of system page `u` of the version store: package, level, node; none past its end. -/
def treePlace (u i : Nat) : Option (Nat × Nat × Nat) :=
  let x := 64 * (u / 16) + i
  ([0, 1, 2].find? (fun l => decide (treeLine l ≤ x ∧ x < treeLine l + treeCount l))).map (fun l => (u % 16, l, x - treeLine l))

/-- Line `i` of page `u` of run-table entry `k` as it is stored: the shape store holds the descriptors' shapes, the version store
the tree. -/
def Core.storedLine (c : Core) (d : Dram) (k u pfn i : Nat) : Line :=
  if k = 16642 then BitVec.ofNat 512 (fieldLE (c.desc (u / 2)).shape (4096 * (u % 2) + 64 * i) 64)
  else if k = 16643 then
    match treePlace u i with
    | some x => d.node c.treeKey x.1 x.2.1 x.2.2
    | none => 0
  else d.lines.get 0 (64 * pfn + i)

/-- The 4 KiB or more of a shape with lines of its page `u` replaced (R181). -/
def shapeWith (s : List Byte) (u : Nat) (ls : List (Nat × Line)) : List Byte :=
  ls.foldl (fun (bs : List Byte) l =>
    bs.take (4096 * u + 64 * l.1) ++ leBytes 64 l.2.toNat ++ bs.drop (4096 * u + 64 * l.1 + 64)) (slice s 0 8192)

/-- A line of the version store is overwritten (R299, R313): the versions of a leaf, or the digests an inner node holds. -/
def Dram.setNode (d : Dram) (o l i : Nat) (v : Line) : Dram :=
  if l = 0 then
    let vs := (List.range 16).foldl (fun (m : SMap Nat) k => m.set 0 (16 * (16 * i + k) + o) (bits v.toNat (32 * k) 32)) d.versions
    { d with versions := vs }
  else
    let ds := (List.range 8).foldl (fun (m : SMap (BitVec 64)) k =>
      m.insert (nodeKey o (l - 1) (8 * i + k)) (v.extractLsb' (64 * k) 64)) d.digests
    { d with digests := ds }

/-- Lines of a page of a system region are written (R285). -/
def Core.writeSystem (c : Core) (d : Dram) (k u pfn : Nat) (ls : List (Nat × Line)) : Core × Dram :=
  if k = 16642 then
    (c.updDesc (u / 2) (fun v => if v.st = .free then v else { v with shape := shapeWith v.shape (u % 2) ls }), d)
  else if k = 16643 then
    (c, ls.foldl (fun (d : Dram) l => match treePlace u l.1 with
      | some x => d.setNode x.1 x.2.1 x.2.2 l.2
      | none => d) d)
  else (c, { d with lines := ls.foldl (fun (m : SMap Line) l => m.set 0 (64 * pfn + l.1) l.2) d.lines })

/-! Reads of a page as one whole (R287, R289). -/

/-- What a read of lines `is` of run page `u` of entry `k` takes now: of a TAGGED page all 64 lines, the tag and the version
path. -/
def Core.snapPage (c : Core) (d : Dram) (k : Nat) (e : RunEnt) (u pfn : Nat) (is : List Nat) : PageSnap :=
  let js := if e.tagged then List.range 64 else is
  { u := u, lines := js.map (fun i => (i, c.storedLine d k u pfn i)), version := d.versions.get 0 pfn, tag := d.tags.get 0 pfn
    path := c.pathOk d pfn, bad := js.filter (fun i => c.mem.bad.get 0 (64 * pfn + i) != 0) }

/-- A page's version path and tag verify (R287, R315). -/
def Core.snapOk (c : Core) (e : RunEnt) (p : PageSnap) : Bool :=
  p.path && decide (pageTag (c.slot e.slot).root (e.first + p.u) p.version e.gen (p.lines.map (fun l => l.2)) = p.tag)

/-- The same of a page as it stands. -/
def Core.tagOk (c : Core) (d : Dram) (e : RunEnt) (u pfn : Nat) : Bool :=
  c.pathOk d pfn && decide (pageTag (c.slot e.slot).root (e.first + u) (d.versions.get 0 pfn) e.gen (d.page pfn) = d.tags.get 0 pfn)

/-- Plaintext of a stored line, and ciphertext of a plaintext one. -/
def Core.plain (c : Core) (k : Nat) (e : RunEnt) (u i : Nat) (l : Line) : Line :=
  if systemEntry k then l else (xtsLine (c.slot e.slot).root (e.first + u) i e.gen).symm l
def Core.cipher (c : Core) (k : Nat) (e : RunEnt) (u i : Nat) (l : Line) : Line :=
  if systemEntry k then l else xtsLine (c.slot e.slot).root (e.first + u) i e.gen l

/-! Counters and events of a channel. -/

/-- A channel counter: controller, channel within it, register (0 reads, 1 writes, 2 late, 3 ce, 4 retry, 5 ue, 6 forced,
7 without deadline). -/
def Core.chan (c : Core) (pkg k r n : Nat) : Core := c.bump (memBase pkg + 0x100 + 0x40 * k + 8 * r) n

/-- Lines of one frame by channel, with the check-line access of every group read or written in part (R291). -/
def slotsOf (is : List Nat) (k : Nat) : Nat :=
  let n := (is.filter (fun i => i / 8 = k)).length
  if n = 0 ∨ n = 8 then n else n + 1

/-- Count the accesses of lines `is` of a frame of package `pkg` in register `r` of each channel. -/
def Core.countLines (c : Core) (pkg r : Nat) (is : List Nat) : Core :=
  (List.range 8).foldl (fun (c : Core) k => if slotsOf is k = 0 then c else c.chan pkg k r (slotsOf is k)) c

/-- The lines of the version store on the path of data frame `n` (R313). -/
def treeLines (n : Nat) : List Nat := [n / 16, 1_392_662 + n / 128, 1_566_745 + n / 1024]

/-- Lines `is` of a frame of package `pkg` moved as traffic without a deadline (R293). -/
def Core.noDeadline (c : Core) (pkg : Nat) (is : List Nat) : Core := c.countLines pkg 7 is

/-- Count the accesses of a page's tag line and its version path (R286, R313). -/
def Core.countTag (c : Core) (pkg r n : Nat) : Core :=
  (treeLines n).foldl (fun (c : Core) l => c.chan pkg (l % 64 / 8) r 1) (c.chan pkg (n / 4 % 64 / 8) r 1)

/-- The event arguments of R282: channel, then the group index, high half first. -/
def lineEvent (code pfn i : Nat) : Event :=
  sysEvent code (8 * (pfn % 16) + i / 8) (pfn / 16 / 2 ^ 16) (pfn / 16) (pfn % 16)

/-- MEM_ERR_LOG of a controller. -/
def Core.errLog (c : Core) (pkg code ch n : Nat) : Core :=
  { c with mem := { c.mem with ctls := c.mem.ctls.set pkg { c.mem.ctls.getD pkg .reset with errCode := code, errCh := ch, errGroup := n } } }

/-- An uncorrectable line (R282): event, count, log. -/
def Core.ueLine (c : Core) (pfn i : Nat) : Core :=
  ((c.raise (lineEvent 0x0403 pfn i)).chan (pfn % 16) (i / 8) 5 1).errLog (pfn % 16) 0x0403 (i / 8) (pfn / 16)

/-- The retry of a line (R282): line and check line are read again, as traffic without a deadline. -/
def Core.retryLine (c : Core) (pfn i : Nat) : Core :=
  ((c.chan (pfn % 16) (i / 8) 0 2).chan (pfn % 16) (i / 8) 4 1).chan (pfn % 16) (i / 8) 7 1

/-- A line that stays uncorrectable after its retry. -/
def Core.badLine (c : Core) (pfn i : Nat) : Core := (c.retryLine pfn i).ueLine pfn i

/-- Which of the lines `is` of a frame are uncorrectable. -/
def Core.badLines (c : Core) (pfn : Nat) (is : List Nat) : List Nat := is.filter (fun i => c.mem.bad.get 0 (64 * pfn + i) != 0)

/-- What requests that name entry `k` find at the controller of `pfn` (R284, R323): 0 served, or the code they complete with. -/
def Core.access (c : Core) (k : Nat) (e : RunEnt) (pfn : Nat) : Nat :=
  if systemEntry k then (if c.noMemory then 0x040A else 0) else c.slotCode (pfn % 16) e.slot e.gen

/-- Lines of run-table entry `k`, given as (run page, line), that are delivered or written now, but for those without a deadline,
are late if `deadline` has passed (R295). -/
def Core.lateLines (c : Core) (deadline : Int) (k : Nat) (ps free : List (Nat × Nat)) : Core :=
  if (c.clk.nominal : Int) ≤ deadline then c
  else match c.runEnt k with
    | none => c
    | some e => (ps.filter (fun p => !free.contains p)).foldl (fun (c : Core) p => match e.frame p.1 with
      | some pfn => if c.access k e pfn = 0 then c.chan (pfn % 16) (p.2 / 8) 2 1 else c
      | none => c) c

/-- Whole pages of run-table entry `k` moved as traffic without a deadline (R293). -/
def Core.freeTraffic (c : Core) (k : Nat) (us : List Nat) : Core :=
  us.foldl (fun (c : Core) u => match (c.runEnt k).bind (fun e => e.frame u) with
    | none => c
    | some pfn => c.noDeadline (pfn % 16) (List.range 64)) c

/-- Whole pages of run-table entry `k` read (`r` = 0) or written (`r` = 1) without a deadline (R293): their lines, tag lines and
version paths; a written line is no longer uncorrectable (R282). -/
def Core.pageTraffic (c : Core) (k r : Nat) (us : List Nat) : Core :=
  us.foldl (fun (c : Core) u => match (c.runEnt k).bind (fun e => e.frame u) with
    | none => c
    | some pfn =>
      let c := (c.countLines (pfn % 16) r (List.range 64)).countTag (pfn % 16) r (pfn / 16)
      let c := c.noDeadline (pfn % 16) (List.range 64)
      if r = 1 then { c with mem := { c.mem with bad := c.mem.bad.keep (fun b => b / 64 != pfn) } } else c) c

/-- A failed page tag (R287): event 0x0404 with the channel of the page's tag line (R286). -/
def Core.tagFail (c : Core) (pfn : Nat) : Core :=
  let n := pfn / 16
  let ch := n / 4 % 64 / 8
  ((c.raise (sysEvent 0x0404 (8 * (pfn % 16) + ch) (n / 2 ^ 16) n (pfn % 16))).bump (memBase (pfn % 16) + 0x28) 1).errLog
    (pfn % 16) 0x0404 ch n

/-! Reads and writes of pages. -/

/-- The lines and the tag of a page read (R282, R287, R315): 0, or the code that poisons every requested line. -/
def Core.verify (c : Core) (e : RunEnt) (pfn : Nat) (p : PageSnap) : Core × Nat :=
  match p.bad with
  | i :: is => ((i :: is).foldl (fun (c : Core) j => c.badLine pfn j) c, 0x0403)
  | [] => if e.tagged && !c.snapOk e p then (c.tagFail pfn, 0x0404) else (c, 0)

/-- Lines `is` of a page read as snapshot `p` found it complete now (R285, R287, R323): the plaintext lines, or the poison code. -/
def Core.readSnap (c : Core) (k : Nat) (e : RunEnt) (pfn : Nat) (p : PageSnap) (is : List Nat) : Core × Except Nat (List Line) :=
  match c.access k e pfn with
  | 0 =>
    let c := c.countLines (pfn % 16) 0 (p.lines.map (fun l => l.1))
    let c := if e.tagged then c.countTag (pfn % 16) 0 (pfn / 16) else c
    match c.verify e pfn p with
    | (c, 0) => (c, .ok (is.map (fun i => c.plain k e p.u i (((p.lines.find? (fun l => l.1 = i)).map (fun l => l.2)).getD 0))))
    | (c, code) => (c, .error code)
  | code => ((if code = 0x0505 then c.bump 0x20_0040 is.length else c), .error code)

/-- The entry and frame of a run page, if the run covers it. -/
def Core.frameOf (c : Core) (k u : Nat) : Option (RunEnt × Nat) := (c.runEnt k).bind (fun e => (e.frame u).map (fun pfn => (e, pfn)))

/-- Read lines `is` of run page `u` of run-table entry `k` as they stand. -/
def Core.readPage (c : Core) (d : Dram) (k u : Nat) (is : List Nat) : Core × Except Nat (List Line) :=
  match c.frameOf k u with
  | none => (c, .error 0x0505)
  | some x => c.readSnap k x.1 x.2 (c.snapPage d k x.1 u x.2 is) is

/-- Lines given as (run page, line), by page. -/
def linesOf (ps : List (Nat × Nat)) (u : Nat) : List Nat := ((ps.filter (fun p => p.1 = u)).map (fun p => p.2)).dedup

/-- The pages of lines of entry `k`, given as (run page, line), as a read that reaches their controllers now finds them (R289); each
page once (R287). -/
def Core.snapLines (c : Core) (d : Dram) (k : Nat) (ps : List (Nat × Nat)) : List PageSnap :=
  (ps.map (fun p => p.1)).dedup.map (fun u => match c.frameOf k u with
    | some x => c.snapPage d k x.1 u x.2 (linesOf ps u)
    | none => ⟨u, [], 0, 0, true, []⟩)

/-- A read of lines of entry `k`, given as (run page, line), with the pages as it found them, completes: every page is read and
verified; the lines in order, or the first poison code. -/
def Core.readSnaps (c : Core) (k : Nat) (ps : List (Nat × Nat)) (snaps : List PageSnap) : Core × Except Nat (List Line) :=
  let r := snaps.foldl (fun (r : Core × Nat × List ((Nat × Nat) × Line)) p =>
    let is := linesOf ps p.u
    match (match r.1.frameOf k p.u with
      | some x => r.1.readSnap k x.1 x.2 p is
      | none => (r.1, .error 0x0505)) with
    | (c, .ok ls) => (c, r.2.1, r.2.2 ++ (is.map (fun i => (p.u, i))).zip ls)
    | (c, .error x) => (c, if r.2.1 = 0 then x else r.2.1, r.2.2)) (c, 0, [])
  if r.2.1 ≠ 0 then (r.1, .error r.2.1)
  else (r.1, .ok (ps.map (fun p => ((r.2.2.find? (fun x => x.1 = p)).map (fun x => x.2)).getD 0)))

/-- Read lines of run-table entry `k`, given as (run page, line), as they stand. -/
def Core.readLines (c : Core) (d : Dram) (k : Nat) (ps : List (Nat × Nat)) : Core × Except Nat (List Line) :=
  c.readSnaps k ps (c.snapLines d k ps)

/-! Line slots and plans (R51, R291). -/

/-- The line slots that moving lines `is` of a page takes on its channel `k` (R291), in order; one that carries a line names it. -/
def pageSlots (tagged write : Bool) (is : List Nat) (k : Nat) : List (Option Nat) :=
  let mine := is.filter (fun i => i / 8 = k)
  let own := mine.map some ++ (if mine.length % 8 = 0 then [] else [none])
  if !tagged then own
  else if !write then (List.range 8).map (fun j => some (8 * k + j))
  else if is.length < 64 then List.replicate 8 none ++ own
  else own

/-- The line slots of lines of an entry, given as (run page, line), on channel `ch`; one that carries a line names it. -/
def RunEnt.slotsOn (e : RunEnt) (ps : List (Nat × Nat)) (write : Bool) (ch : Nat) : List (Option (Nat × Nat)) :=
  (ps.map (fun p => p.1)).dedup.flatMap (fun u => match e.frame u with
    | some pfn => if pfn % 16 = ch / 8 then (pageSlots e.tagged write (linesOf ps u) (ch % 8)).map (fun o => o.map (fun i => (u, i))) else []
    | none => [])

/-- Lines that a plan declares for channel `ch` in window `w` (R93). -/
def planLines : List (Nat × List Nat) → Nat → Nat → Nat
  | [], _, _ => 0
  | r :: rs, w, ch => if w < r.1 then r.2.getD ch 0 else planLines rs (w - r.1) ch

/-- A repeat that moves lines of entry `k`, issued at schedule beat `issue`, takes its line slots from its segment's plan (R51,
R291; log 112): those beyond the plan are traffic without a deadline and count as contention.  The lines without a deadline. -/
def Core.takeSlots (c : Core) (s : Seg) (issue k : Nat) (ps : List (Nat × Nat)) (write : Bool) : Core × List (Nat × Nat) :=
  match c.runEnt k with
  | none => (c, [])
  | some e =>
    let w := issue / 4096
    let r := (List.range 128).foldl (fun (r : Core × Seg × List (Nat × Nat)) ch =>
      let xs := e.slotsOn ps write ch
      if xs.isEmpty then r
      else
        let n := r.2.1.used.get 0 (128 * w + ch)
        let past := xs.drop (planLines s.img.plan w ch - n)
        let s := { r.2.1 with used := r.2.1.used.set 0 (128 * w + ch) (n + xs.length), contention := r.2.1.contention + past.length }
        (if past.isEmpty then r.1 else r.1.chan (ch / 8) (ch % 8) 7 past.length, s, r.2.2 ++ past.filterMap id)) (c, s, [])
    (r.1.setSeg r.2.1, r.2.2)

/-- The code a write of lines `ls` of page `u` in frame `pfn` completes with before anything is stored, 0 if none (R284, R288, R290,
R315, R323): a partial write of a TAGGED page reads the rest of it first. -/
def Core.writeCode (c : Core) (d : Dram) (k u : Nat) (e : RunEnt) (pfn : Nat) (ls : List (Nat × Line)) : Core × Nat :=
  let code := c.access k e pfn
  if code = 0x0505 then (c.bump 0x20_0040 ls.length, code)
  else if code ≠ 0 then (c, code)
  else if e.tagged ∧ d.versions.get 0 pfn = 2 ^ 32 - 1 then (c, 0x0406)
  else
    let part := e.tagged && decide (ls.length < 64)
    let others := (List.range 64).filter (fun i => !ls.any (fun l => l.1 = i))
    let c := if part then (c.countLines (pfn % 16) 0 others).countTag (pfn % 16) 0 (pfn / 16) else c
    match if part then c.badLines pfn others else [] with
    | i :: is => (((i :: is).foldl (fun (c : Core) j => c.badLine pfn j) c).errLog (pfn % 16) 0x040B (i / 8) (pfn / 16), 0x040B)
    | [] =>
      if (part && !c.tagOk d e u pfn) || (e.tagged && !c.pathOk d pfn) then
        (c.errLog (pfn % 16) 0x040B (pfn / 16 / 4 % 64 / 8) (pfn / 16), 0x040B)
      else (c, 0)

/-- The accesses of a write are counted, and the lines it replaces are good again (R282, R291). -/
def Core.countWrite (c : Core) (e : RunEnt) (pfn : Nat) (ls : List (Nat × Line)) : Core :=
  let c := c.countLines (pfn % 16) 1 (ls.map (fun l => l.1))
  let c := if e.tagged then c.countTag (pfn % 16) 1 (pfn / 16) else c
  { c with mem := { c.mem with bad := ls.foldl (fun (m : SMap Nat) l => m.erase (64 * pfn + l.1)) c.mem.bad } }

/-- Lines of a page of an entry outside the system regions are stored in frame `pfn` (R285, R314). -/
def Core.putLines (c : Core) (d : Dram) (k u : Nat) (e : RunEnt) (pfn : Nat) (ls : List (Nat × Line)) : Dram :=
  { d with lines := ls.foldl (fun (m : SMap Line) l => m.set 0 (64 * pfn + l.1) (c.cipher k e u l.1 l.2)) d.lines }

/-- A TAGGED page goes to version `v` with a tag of its own (R285, R314). -/
def Core.putTag (c : Core) (d : Dram) (u : Nat) (e : RunEnt) (pfn v : Nat) : Dram :=
  let d := c.setVersion d pfn v
  { d with tags := d.tags.set 0 pfn (pageTag (c.slot e.slot).root (e.first + u) v e.gen (d.page pfn)) }

/-- 0x0407 where a frame's version reaches the warning threshold (R290). -/
def Core.warnVersion (c : Core) (pfn v : Nat) : Core :=
  if v = bits (c.reg (memBase (pfn % 16) + 0x18)) 0 32 then c.raise (sysEvent 0x0407 0 0 0 (pfn % 16)) else c

/-- Write lines of run page `u` of run-table entry `k` (R285, R288, R290, R315): 0, or the code the write completes with; 0x0505
is a write dropped (R323), 0x040A one dropped without memory (R284). -/
def Core.writePage (c : Core) (d : Dram) (k u : Nat) (ls : List (Nat × Line)) : Core × Dram × Nat :=
  match c.runEnt k with
  | none => (c, d, 0x0505)
  | some e => match e.frame u with
    | none => (c, d, 0x0505)
    | some pfn => match c.writeCode d k u e pfn ls with
      | (c, 0) =>
        let c := c.countWrite e pfn ls
        if systemEntry k then ((c.writeSystem d k u pfn ls).1, (c.writeSystem d k u pfn ls).2, 0)
        else if !e.tagged then (c, c.putLines d k u e pfn ls, 0)
        else
          let v := d.versions.get 0 pfn + 1
          (c.warnVersion pfn v, c.putTag (c.putLines d k u e pfn ls) u e pfn v, 0)
      | (c, code) => (c, d, code)

/-- Land a page in stored form with its arriving version and tag (R244, R314); nothing is written where its path fails (R315). -/
def Core.landPage (c : Core) (d : Dram) (k : Nat) (p : StoredPage) : Dram :=
  match c.runEnt k with
  | none => d
  | some e => match e.frame p.u with
    | none => d
    | some pfn =>
      if !c.pathOk d pfn then d
      else
        let d := c.setVersion d pfn p.version
        { d with
          lines := p.lines.zipIdx.foldl (fun (m : SMap Line) (l : Line × Nat) => m.set 0 (64 * pfn + l.2) l.1) d.lines
          tags := d.tags.set 0 pfn p.tag }

/-- A run page as it is stored (R316). -/
def Core.storedPage (c : Core) (d : Dram) (k u : Nat) : StoredPage :=
  match (c.runEnt k).bind (fun e => e.frame u) with
  | some pfn => ⟨u, d.page pfn, d.versions.get 0 pfn, d.tags.get 0 pfn⟩
  | none => ⟨u, [], 0, 0⟩

/-- Read stored pages for sending (R261, R374): the accesses are counted; a line left uncorrectable, a version path that fails, or a
controller that does not serve the slot (R323) stops them with its code. -/
def Core.readStored (c : Core) (d : Dram) (k : Nat) (us : List Nat) : Core × Nat :=
  us.foldl (fun (r : Core × Nat) u =>
    if r.2 ≠ 0 then r
    else match r.1.frameOf k u with
      | none => (r.1, 0x0505)
      | some (e, pfn) =>
        match r.1.slotCode (pfn % 16) e.slot e.gen with
        | 0 =>
          let c := (r.1.countLines (pfn % 16) 0 (List.range 64)).countTag (pfn % 16) 0 (pfn / 16)
          match c.badLines pfn (List.range 64) with
          | i :: is => ((i :: is).foldl (fun (c : Core) j => c.badLine pfn j) c, 0x0403)
          | [] => if c.pathOk d pfn then (c, 0) else (c.tagFail pfn, 0x0404)
        | code => ((if code = 0x0505 then r.1.bump 0x20_0040 64 else r.1), code)) (c, 0)

/-- The run pages that carry state, in run order (R245, R316); `training` false: the active bank's delta pages only. -/
def Desc.statePages (d : Desc) (gs : List ParamGroup) (training : Bool) : List Nat :=
  if training then
    (List.range 3).flatMap (fun k => (List.range 2).flatMap (fun b =>
      (List.range (match k with | 0 => d.pages | 1 => d.mPages | _ => d.uPages)).map (d.pageAt k b)))
  else ((List.range d.pages).map (fun j => d.pageAt 0 (bankFor gs d.commit.bank j) j)).mergeSort (fun a b => decide (a ≤ b))

/-- The bytes of a tag list (R316). -/
def tagBytes (ts : List TagEntry) : List Byte := ts.flatMap (fun t => leBytes 4 t.version ++ leBytes 16 t.tag.toNat)

/-- The run's seal (R316). -/
def sealOf (tpn : Nat) (ts : List TagEntry) : Digest := Config.sha384 (leBytes 8 tpn ++ leBytes 4 ts.length ++ tagBytes ts)

/-- A line's 64 bytes, and the other way. -/
def lineBytes (l : Line) : List Byte := leBytes 64 l.toNat
def bytesLine (bs : List Byte) : Line := BitVec.ofNat 512 (leNat (bs.take 64))

/-- The run page from which a context's swap saves lie, above every transient allocation (log 18). -/
def saveBase : Nat := 16 * 64_512

/-- The run of a context's transient allocation: its size is the implementation's (log 14), its page numbers are the
context's share of the transient range (R278). -/
def Core.transientRun (c : Core) (n : Nat) (v : Ctx) : RunEnt :=
  let blocks := 1 + Config.transientBlocks n % 64_511
  let ext := match freeBase c.usedBlocks blocks (c.usedBlocks.length + 1) 0 with
    | some b => [(⟨0, b, blocks⟩ : Extent)]
    | none => []
  ⟨v.keySlot, (c.slot v.keySlot).gen, 2 ^ 35 + n * 2 ^ 20, 16 * blocks, false, ext⟩

/-- A context's transient allocation is made (R207, R278): at its enabling, and again as a step opens after a settlement; what a
swap has saved there stays. -/
def Core.allocTransient (c : Core) (n : Nat) : Core :=
  match c.ctx? n with
  | some v =>
    let e := c.transientRun n v
    let saves := ((c.runEnt (16384 + n)).map (fun x => x.extents)).getD []
    if v.transient then c else (c.setCtx n { v with transient := true }).setRun (16384 + n) { e with extents := e.extents ++ saves }
  | none => c

end Sys2Proof.Machine
end

