-- ==== Sys2Proof/Machine/LinkOps.lean ====
section
/-! DEFINITION. The links (13): sending with sequence numbers and the replay buffer (R362, R363), bundles (R358, R359), the
forwarding table (R368, R369), transfer records (R377) and requests (R372, R373, R376, R378). -/

namespace Sys2Proof.Machine

/-! Frames. -/

/-- A link-local frame: ROUTE, RETURN, HOPS, TRANSFER and INDEX zero (R361). -/
def localFrame (type : Nat) (payload : List Byte) : Frame :=
  ⟨type, false, false, 0, 0, 0, 0, 0, 0, 0, payload, true⟩

/-- A routed frame before a forwarding entry gives it its labels. -/
def routedFrame (type transfer index : Nat) (last : Bool) (payload : List Byte) : Frame :=
  ⟨type, false, last, 0, 0, 0, 0, 0, transfer, index, payload, true⟩

/-- FETCH_END's payload (R361). -/
def endPayload (code frames : Nat) : List Byte := leBytes 2 code ++ leBytes 2 0 ++ leBytes 4 frames

/-! Sending (R362, R363, R366). -/

/-- The link's NEIGHBOUR and CAD_OUT (LNK_CTL). -/
def Core.neighbour (c : Core) (k : Nat) : Nat := bits (c.reg (lnkBase k)) 8 4
def Core.cadOut (c : Core) (k : Nat) : Bool := bit (c.reg (lnkBase k)) 3

/-- The beats count at which a direction sends no further frame (R367). -/
def frameLimit : Nat := 2 ^ 63 - 2 ^ 20

/-- The 16 bytes of a frame's header (R360). -/
def frameHeader (fr : Frame) : List Byte :=
  leBytes 1 (fr.type % 64 + b2n fr.epoch * 64 + b2n fr.last * 128) ++ leBytes 3 (fr.route % 4096 + fr.ret % 4096 * 4096) ++ leBytes 2 fr.hops
    ++ leBytes 2 fr.seq ++ leBytes 2 fr.ack ++ leBytes 3 fr.transfer ++ leBytes 3 fr.index

/-- The key of the direction this module sends in (R366). -/
def LinkS.txKey (l : LinkS) : Key := Config.hkdf l.secret (ascii (if l.low then "IVZ-LINK-LH" else "IVZ-LINK-HL"))

/-- The 96-bit IV of frame `n` of a direction (R366): link numbers, key epoch count, frame counter. -/
def frameIv (txLink rxLink epochs n : Nat) : Nat :=
  txLink % 256 + rxLink % 256 * 2 ^ 8 + epochs % 2 ^ 16 * 2 ^ 16 + n % 2 ^ 64 * 2 ^ 32

/-- A frame as link `k` sends it with frame counter `n` (R20, R360): its payload padded to 256 bytes and encrypted. -/
def LinkS.encrypt (l : LinkS) (k n : Nat) (fr : Frame) : Wire :=
  let x := Config.gcm l.txKey (frameIv k l.partnerLink l.epochs n) (frameHeader fr) (slice fr.payload 0 256)
  ⟨frameHeader fr, x.1, x.2⟩

/-- Send a frame on link `k` now: its SEQ, ACK and EPOCH, one more of the frame counter, and a place in the replay buffer.  It
carries the acknowledgement of all accepted so far. -/
def Core.emit (c : Core) (k : Nat) (x : Sent) : Core :=
  let l := c.link k
  let fr := { x.fr with seq := l.seqTx % 2 ^ 16, ack := (l.seqRx + 2 ^ 16 - 1) % 2 ^ 16, epoch := l.epoch }
  (c.setLink k { l with seqTx := (l.seqTx + 1) % 2 ^ 16, txCount := l.txCount + 1, replay := l.replay ++ [⟨fr, 1, x.slot⟩]
                        acked := l.seqRx, wire := some (l.encrypt k l.txCount fr) }).bump (lnkBase k + 0x100) 1

/-- Link `k` can send something new (R363, R367). -/
def LinkS.canSend (l : LinkS) : Bool := l.st = .up && decide (l.replay.length < 1024 ∧ l.txCount < frameLimit)

/-- In holdover links send no data frames (R413). -/
def Core.maySend (c : Core) (x : Sent) : Bool := c.prc.state != .holdover || !(x.fr.type = 0x03 || x.fr.type = 0x05)

/-- Send what is queued, oldest first, as far as the replay buffer has room. -/
def Core.pump (c : Core) (k : Nat) : Nat → Core
  | 0 => c
  | n + 1 =>
    let l := c.link k
    match findIdx? c.maySend l.queue with
    | some x => if l.canSend then ((c.setLink k { l with queue := l.queue.eraseIdx x.1 }).emit k x.2).pump k n else c
    | none => c

/-- Give link `k` a frame to send; `slot` is the key slot its transfer names. -/
def Core.send (c : Core) (k : Nat) (fr : Frame) (slot : Nat) : Core :=
  let l := c.link k
  if l.canSend && c.maySend ⟨fr, 0, slot⟩ && !l.queue.any c.maySend then c.emit k ⟨fr, 0, slot⟩
  else c.setLink k { l with queue := l.queue ++ [⟨fr, 0, slot⟩] }

/-- The UP links of neighbour `n`'s bundle (R358, R359). -/
def Core.bundle (c : Core) (n : Nat) : List Nat :=
  (List.range 36).filter (fun k => (c.link k).enable && (c.link k).st = .up && c.neighbour k = n)

/-! The forwarding table (R368). -/

def fKind (e : Nat) : Nat := bits e 0 2
def fBundle (e : Nat) : Nat := bits e 2 4
def fOut (e : Nat) : Nat := bits e 6 12
def fRet (e : Nat) : Nat := bits e 18 12

def Core.fwd (c : Core) (label : Nat) : Nat := c.reg (offFwd (label % 4096))

/-- The links a label leads to: those of a KIND 1 entry's bundle that are UP. -/
def Core.route (c : Core) (label : Nat) : List Nat := if fKind (c.fwd label) = 1 then c.bundle (fBundle (c.fwd label)) else []

/-- Send a frame by a label (R369), spread over the bundle by INDEX (R359); nothing if no link is UP. -/
def Core.sendBy (c : Core) (label : Nat) (fr : Frame) (slot : Nat) : Core :=
  let ls := c.route label
  let e := c.fwd label
  match ls[fr.index % max 1 ls.length]? with
  | some k => c.send k { fr with route := fOut e, ret := fRet e } slot
  | none => c

/-- The mean one-way delay of link `k` in ps (R381): samples in 50 ps. -/
def LinkS.delay (l : LinkS) : Nat := if l.samples.length = 0 then 0 else l.samples.sum * 50 / l.samples.length

/-- What a module deducts from a budget for sending on link `k` (R372); `fwdPs` is F. -/
def Core.deduct (c : Core) (k fwdPs : Nat) : Nat := 2 * ceilDiv (fwdPs + (c.link k).delay) 100_000

/-! Transfer records (R377). -/

/-- A module's transfer table has no room. -/
def Core.tableFull (c : Core) : Bool := decide ((c.xfers.filter (fun x => !x.ended)).length ≥ 16384)

/-- The record of a frame that arrives on link `k`: its TRANSFER, on a path that uses the link. -/
def Core.record (c : Core) (k transfer : Nat) : Option Xfer :=
  c.xfers.find? (fun x => decide (x.transfer = transfer) && x.links.contains k)

/-- The key slot of this module that a transfer concerns: the descriptor's at a source, none at a relay (R322). -/
def Core.xferSlot (c : Core) (x : Xfer) : Nat :=
  match x.role with
  | .relay => 0xFFFF
  | .source d o _ _ => if o = 3 then 0xFFFF else (c.desc d).keySlot
  | _ => x.slot

def Core.dropXfer (c : Core) (x : Xfer) : Core := { c with xfers := c.xfers.filter (fun y => !decide (y = x)) }
def Core.setXfer (c : Core) (old new : Xfer) : Core := { c with xfers := c.xfers.map (fun y => if y = old then new else y) }

/-! Requests (R373, R376, R378). -/

/-- The fields of a FETCH_REQ (R373). -/
structure ReqF where
  origin : Nat
  slot : Nat
  gen : Nat
  object : Nat
  desc : Nat
  name : Nat
  budget : Nat
  nonce : Nat
  mac : Nat
  first : Nat
  count : Nat
  rowBytes : Nat
  stride : Nat
deriving DecidableEq, Repr

/-- Payload bytes 0x00–0x1F with the given BUDGET, and 0x30–0x47. -/
def ReqF.head (r : ReqF) (budget : Nat) : List Byte :=
  leBytes 8 r.origin ++ leBytes 2 r.slot ++ leBytes 2 r.gen ++ leBytes 1 r.object ++ leBytes 1 0 ++ leBytes 2 r.desc
    ++ leBytes 8 r.name ++ leBytes 4 budget ++ leBytes 4 r.nonce
def ReqF.tail (r : ReqF) : List Byte := leBytes 8 r.first ++ leBytes 4 r.count ++ leBytes 4 r.rowBytes ++ leBytes 4 r.stride ++ leBytes 4 0

def ReqF.bytes (r : ReqF) : List Byte := r.head r.budget ++ leBytes 16 r.mac ++ r.tail ++ leBytes 184 0

/-- Read a payload; the last component says whether its reserved fields are zero. -/
def parseReq (p : List Byte) : ReqF × Bool :=
  (⟨fieldLE p 0 8, fieldLE p 8 2, fieldLE p 0xA 2, fieldLE p 0xC 1, fieldLE p 0xE 2, fieldLE p 0x10 8, fieldLE p 0x18 4
    , fieldLE p 0x1C 4, fieldLE p 0x20 16, fieldLE p 0x30 8, fieldLE p 0x38 4, fieldLE p 0x3C 4, fieldLE p 0x40 4⟩,
   fieldLE p 0xD 1 = 0 && allZero (p.drop 0x44))

/-- REQ_MAC (R376): zero for OBJECT 1 and 3. -/
def ReqF.macOf (r : ReqF) (root : Key) : Nat :=
  if r.object = 1 ∨ r.object = 3 then 0
  else (Config.requestMac (tagKey root) (r.origin + r.nonce * 2 ^ 64) (r.head 0 ++ r.tail)).toNat

/-- Originate a request (R369, R372, R377, R378): by label `label`, with `budget` units of 100 ns; the code with which it
fails at once, or 0. -/
def Core.originate (c : Core) (tr : Trim) (label : Nat) (r : ReqF) (role : XferRole) : Core × Nat :=
  match c.route label with
  | [] => (c, 0x0709)
  | k :: ks =>
    if c.tableFull then (c, 0x070F)
    else if r.budget < c.deduct k 0 then (c, 0x0707)
    else
      let keyId := if r.object = 3 then 0xFFFF else r.slot
      let ks0 := c.slot keyId
      let r := { r with origin := tr.moduleId, nonce := ks0.nonce % 2 ^ 32 }
      let r := { r with mac := r.macOf ks0.root }
      let t := c.nextXfer % 2 ^ 24
      let x : Xfer := { origin := tr.moduleId, transfer := t, slot := r.slot, gen := r.gen, links := k :: ks
                        deadline := c.clk.nominal + r.budget * 125, role := role, frames := 0, data := [], out := some label, back := none
                        retired := false, ended := false, total := none }
      let c := { c.setSlot keyId { ks0 with nonce := ks0.nonce + 1 } with xfers := c.xfers ++ [x], nextXfer := c.nextXfer + 1 }
      (c.sendBy label (routedFrame 0x02 t 0 true { r with budget := r.budget - c.deduct k 0 }.bytes) r.slot, 0)

/-- End a transfer towards its origin (R371): FETCH_END by the label that leads back. -/
def Core.endBack (c : Core) (label transfer code frames slot : Nat) : Core :=
  c.sendBy label (routedFrame 0x04 transfer 0 true (endPayload code frames)) slot

/-- 256-byte payloads of a byte string, the last one padded with zero (R360). -/
def frames256 (bs : List Byte) : List (List Byte) := (List.range (ceilDiv bs.length 256)).map (fun i => slice bs (256 * i) 256)

end Sys2Proof.Machine
end

