-- ==== Sys2Proof/Machine/Fetch.lean ====
section
/-! DEFINITION. Residency (09): the claims, frames, fetches, evictions and write-backs of adaptations (R243 to R262), the
seal (R316, R317). -/

namespace Sys2Proof.Machine

/-! Shapes (R159, R160). -/

/-- A matrix of a shape record, by its 8 bytes (log 34): K, N and Q, and whether they are as R159 has them. -/
structure ShapeEnt where
  k : Nat
  n : Nat
  q : Nat
  ok : Bool
deriving DecidableEq, Repr

def shapeEnt (d : List Byte) (m : Nat) : ShapeEnt :=
  let k := fieldLE d (8 * m) 2
  let n := fieldLE d (8 * m + 2) 2
  let q := fieldLE d (8 * m + 4) 2
  ⟨512 * k, 128 * n, q, decide (1 ≤ k ∧ k ≤ 4096 ∧ 1 ≤ n ∧ n ≤ 8192 ∧ 1 ≤ q ∧ q ≤ 512) && fieldLE d (8 * m + 6) 2 = 0⟩

/-- The matrices of a shape record: those before its first entry of zeros. -/
def shapeCount (d : List Byte) : Nat :=
  ((List.range 1024).find? (fun m => allZero (slice d (8 * m) 8))).getD 1024

/-- The slots of a shape (R160), and whether the record is well formed. -/
def shapeSlots (d : List Byte) : Nat × Bool :=
  let es := (List.range (shapeCount d)).map (shapeEnt d)
  ((es.map (fun e => e.n / 128 * (e.k / 512) * e.q)).sum,
   es.all (fun e => e.ok) && !es.isEmpty && allZero (d.drop (8 * es.length)))

/-! Pages and frames of a run. -/

/-- Pages of tensor `k`. -/
def Desc.tensorPages (d : Desc) (k : Nat) : Nat := match k with | 0 => d.pages | 1 => d.mPages | _ => d.uPages

/-- The run pages of tensor `k` in the active banks, or in the inactive ones; a page of two groups goes with its first line's
(R211, R245). -/
def Desc.bankPages (d : Desc) (gs : List ParamGroup) (k : Nat) (active : Bool) : List Nat :=
  (List.range (d.tensorPages k)).map (fun j =>
    let b := bankFor gs d.commit.bank (ownerPage k (64 * j))
    d.pageAt k (if active then b else 1 - b) j)

/-- The pages a fetch moves, in the order of R257: the serving form, or the training form, less what is resident already. -/
def Desc.fetchPages (d : Desc) (gs : List ParamGroup) (training upgrade : Bool) : List Nat :=
  (if upgrade then [] else d.bankPages gs 0 true)
    ++ (if training then d.bankPages gs 1 true ++ d.bankPages gs 2 true
          ++ [0, 1, 2].flatMap (fun k => d.bankPages gs k false) else [])

/-- Consecutive pages as (first, count), at most 524,288 each (R378). -/
def spans : List Nat → List (Nat × Nat)
  | [] => []
  | p :: ps =>
    match spans ps with
    | (f, n) :: rest => if p + 1 = f ∧ n < 524_288 then (p, n + 1) :: rest else (p, 1) :: (f, n) :: rest
    | [] => [(p, 1)]

/-- The parts of a run that take frames together: delta bank 0, delta bank 1, the rest, as (start, pages) (R245). -/
def Desc.parts (d : Desc) : List (Nat × Nat) :=
  let p := roundUp d.pages 16
  [(0, p), (p, p), (2 * p, d.runPages - 2 * p)]

/-- The parts a form needs (R246): the delta banks with an active page, or all. -/
def Desc.formParts (d : Desc) (gs : List ParamGroup) (training : Bool) : List (Nat × Nat) :=
  if training then d.parts
  else d.parts.filter (fun r => (d.bankPages gs 0 true).any (fun u => decide (r.1 ≤ u ∧ u < r.1 + r.2)))

/-- Give parts of entry `k` frames. -/
def Core.allocParts (c : Core) (k : Nat) (e : RunEnt) : List (Nat × Nat) → Option Core
  | [] => some (c.setRun k e)
  | r :: rs =>
    match (c.setRun k e).place r.2 with
    | some b => c.allocParts k { e with extents := e.extents ++ [(⟨r.1, b, ceilDiv r.2 16⟩ : Extent)] } rs
    | none => none

/-- Give the run of adaptation `i` the frames of a form (R259). -/
def Core.allocRun (c : Core) (i : Nat) (training : Bool) : Option Core :=
  let d := c.desc i
  let e := (c.runEnt i).getD ⟨d.keySlot, d.gen, d.tpn, d.runPages, true, []⟩
  c.allocParts i e ((d.formParts (c.groupsOf i) training).filter (fun r => !e.extents.any (fun x => x.start = r.1)))

/-! Eviction (R260 to R262). -/

/-- Frames an entry holds. -/
def RunEnt.frames (e : RunEnt) : Nat := (e.extents.map (fun x => 16 * x.k)).sum

/-- An entry that may be evicted (R260). -/
def Desc.evictable (d : Desc) : Bool :=
  d.st = .resident && d.pins = 0 && d.claimant = 0 && d.trainCtx = 0xFFFF && bits d.tier2 0 2 != 0

/-- Candidate descriptors in the order of R260: clean first, then the oldest LAST_RELEASE, then the lower index. -/
def Core.candidates (c : Core) : List Nat :=
  ((c.dir.filter (fun x => x.2.evictable)).mergeSort (fun a b =>
    if a.2.dirty != b.2.dirty then !a.2.dirty
    else if a.2.lastRelease = b.2.lastRelease then decide (a.1 ≤ b.1) else decide (a.2.lastRelease ≤ b.2.lastRelease))).map (fun x => x.1)

/-- Drop every tier-0 copy of an adaptation (R262). -/
def Core.dropCopies (c : Core) (i : Nat) : Core := c.dropCopiesIf (fun k => k.idx = i)

/-- An entry leaves tier 1: its frames are freed and it is REMOTE. -/
def Core.toRemote (c : Core) (i : Nat) : Core :=
  ((c.dropCopies i).updDesc i (fun d => { d with st := .remote, training := false, dirty := false, claimant := 0, kind := 0, wb := none
                                                 fetch := none })).dropRun i

/-- The tag list of the run pages given (R316). -/
def Core.tagsOf (c : Core) (dr : Dram) (i : Nat) (us : List Nat) : List TagEntry :=
  us.map (fun u => (⟨(c.storedPage dr i u).version, (c.storedPage dr i u).tag⟩ : TagEntry))

/-- The pages of the resident form that carry state, in run order (R316). -/
def Core.formPages (c : Core) (i : Nat) : List Nat := (c.desc i).statePages (c.groupsOf i) (c.desc i).training

/-- The bytes of a stored page. -/
def storedBytes (p : StoredPage) : List Byte := p.lines.flatMap lineBytes

/-- The pages of the resident form in the order in which a write-back moves them (R257, R261). -/
def Core.movedPages (c : Core) (i : Nat) : List Nat := (c.desc i).fetchPages (c.groupsOf i) (c.desc i).training false

/-- The ranges of a write-back's requests, in the order of R257: (first page, pages), each consecutive among the run's state pages
(R246, R261, R378). -/
def Core.chunks (c : Core) (i : Nat) : List (Nat × Nat) :=
  let all := (c.desc i).statePages (c.groupsOf i) true
  (spans ((c.movedPages i).map (fun u => all.idxOf u))).map (fun p => (all.getD p.1 0, p.2))

/-- The range after the one that starts at page `first`. -/
def Core.chunkAfter (c : Core) (i first : Nat) : Option (Nat × Nat) := (((c.chunks i).dropWhile (fun p => p.1 != first)).drop 1).head?

/-- One request of a link write-back (R374, R378): its tag list, then its pages, as WRITE_DATA. -/
def Core.sendChunk (c : Core) (tr : Trim) (dr : Dram) (i budget : Nat) (p : Nat × Nat) : Core × Nat :=
  let d := c.desc i
  let label := bits d.tier2 2 12
  let us := ((c.formPages i).filter (fun u => decide (p.1 ≤ u))).take p.2
  match c.readStored dr i us with
  | (c, 0) => (match c.originate tr label ⟨0, d.keySlot, d.gen, 4, bits d.tier2 16 14, d.tpn, budget, 0, 0, p.1, p.2, 0, 0⟩ (.writeback i p.1) with
  | (c', 0) =>
    let t := (c'.nextXfer + 2 ^ 24 - 1) % 2 ^ 24
    let c' := c'.freeTraffic i us
    let fs := frames256 (tagBytes (c.tagsOf dr i us)) ++ us.flatMap (fun u => frames256 (storedBytes (c.storedPage dr i u)))
    (fs.zipIdx.foldl (fun (c' : Core) (p : List Byte × Nat) =>
      c'.sendBy label (routedFrame 0x05 t p.2 (p.2 + 1 = fs.length) p.1) d.keySlot) c', 0)
    | r => r)
  | r => r

/-- Unit `n` (0 the host complex) still serves the descriptor's (slot, generation): the broadcast of a retirement has not reached it
(R321, R323). -/
def Core.serves (c : Core) (d : Desc) (n : Nat) : Bool :=
  let k := c.slot d.keySlot
  k.gen = d.gen && (k.st = .active || (k.st = .retiring && !k.told.contains n))

/-- The write-back of the resident form to its source starts (R261, R317, R374): the host complex's DMA writes, which
WRITEBACK_DONE completes, or the first request of a link write-back.  The code with which it fails at once, or 0: a slot that no
longer stands is not served (R321, R323). -/
def Core.startWriteback (c : Core) (tr : Trim) (dr : Dram) (i budget : Nat) : Core × Nat :=
  let d := c.desc i
  if bits d.tier2 0 2 = 2 then (c, if c.serves d 0 then 0 else 0x0505)
  else match c.chunks i with
    | p :: _ => c.sendChunk tr dr i budget p
    | [] => (c, 0)

/-- A write-back failed (R250, R378): RESIDENT with DIRTY set, its command completed with the code. -/
def Core.writebackFail (c : Core) (i code : Nat) : Core :=
  let d := c.desc i
  match d.wb with
  | none => c
  | some r =>
    let c := c.setDesc i { d with st := .resident, dirty := true, claimant := 0, kind := 0, wb := none }
    match r with
    | some r => c.complete r code 0
    | none => c

/-- DEFAULT_PARK in 100 ns units. -/
def Core.defaultBudget (c : Core) : Nat := bits (c.reg offTier1) 32 16 * 1000

/-- Evict entry `i` (R261): a clean one at once; a DIRTY one by a write-back under an eviction claim. -/
def Core.evict (c : Core) (tr : Trim) (dr : Dram) (i : Nat) : Core :=
  let d := c.desc i
  if !d.dirty then (c.toRemote i).bump 0x450 1
  else
    let c := (c.dropCopies i).setDesc i { d with st := .evicting, claimant := 1, kind := 2, wb := some none }
    match c.startWriteback tr dr i c.defaultBudget with
    | (c, 0) => c
    | (c, code) => c.writebackFail i code

/-- Free tier 1 in frames, with what write-backs under way will free. -/
def Core.comingFrames (c : Core) : Nat :=
  c.freeFrames + ((c.dir.filter (fun x => x.2.st = .evicting)).map (fun x => ((c.runEnt x.1).map RunEnt.frames).getD 0)).sum

/-- Eviction can provide `n` frames (R260). -/
def Core.canFree (c : Core) (n : Nat) : Bool :=
  decide (c.comingFrames + (c.candidates.map (fun i => ((c.runEnt i).map RunEnt.frames).getD 0)).sum ≥ n)

/-- Candidates are evicted until `n` frames are free or coming (R260), by core 2. -/
def Core.evictFor (c : Core) (tr : Trim) (dr : Dram) (n : Nat) : Core :=
  if !c.coreUp 2 then c
  else c.candidates.foldl (fun (c : Core) i => if c.comingFrames ≥ n then c else c.evict tr dr i) c

/-- Evict clean candidates until `try_` succeeds. -/
def Core.makeRoom (try_ : Core → Option Core) : Core → List Nat → Option Core
  | c, [] => try_ c
  | c, i :: is =>
    match try_ c with
    | some c => some c
    | none => if (c.desc i).dirty then Core.makeRoom try_ c is else Core.makeRoom try_ ((c.toRemote i).bump 0x450 1) is

/-! Fetches (R250, R255 to R259). -/

/-- Requests parked on the fetch of `i`: those that name it and miss the form they need (R255). -/
def Core.parkedOn (c : Core) (i : Nat) : List Seg :=
  c.segs.filter (fun s => s.st = .parked && s.img.adapts.contains i && !c.formOk s.img i)

/-- The time from now to the latest park deadline of the requests parked on it, in 100 ns units (R378). -/
def Core.fetchBudget (c : Core) (i : Nat) : Nat :=
  match c.parkedOn i with
  | [] => c.defaultBudget
  | ss => min (2 ^ 32 - 1) (((ss.map (fun s => s.parkNominal)).foldl max 0 - c.clk.nominal) / 125)

/-- The commands of a fetch complete (R345, R347): the registration of a KEEP_LOCAL fetch, its first, with the descriptor index. -/
def Core.completeFetch (c : Core) (i : Nat) (f : Fetch) (code : Nat) : Core :=
  match f.keepLocal, f.reqs with
  | true, r :: rs => (c.complete r code i).completeAll rs code 0
  | _, rs => c.completeAll rs code 0

/-- A fetch fails (R258, R259): the entry returns to its state before, and what waits for it completes with the code. -/
def Core.fetchFail (c : Core) (tr : Trim) (i code : Nat) : Core :=
  let d := c.desc i
  match d.fetch with
  | none => c
  | some f =>
    let waiting := c.parkedOn i
    let c := if d.st = .fetching then c.dropRun i
      else match c.runEnt i with
        | some e => c.setRun i { e with extents := e.extents.filter (fun x => (d.formParts (c.groupsOf i) d.training).any (fun r => r.1 = x.start)) }
        | none => c
    let c := c.setDesc i { d with st := if d.st = .fetching then .remote else d.st, claimant := 0, kind := 0, fetch := none }
    let c := { c with xfers := c.xfers.filter (fun x => !decide (x.role = XferRole.fetch i)) }
    let c := c.completeFetch i f code
    waiting.foldl (fun (c : Core) s => c.cancelSeg tr s code 0) c

/-- Claim entry `i` for a fetch and send its requests (R255, R257, R378). -/
def Core.startFetch (c : Core) (tr : Trim) (i : Nat) (training keepLocal : Bool) (req : Option Req) : Core :=
  let d := c.desc i
  let upgrade := decide (d.st = .resident)
  let c := c.setDesc i { d with st := if upgrade then .resident else .fetching, claimant := 1, kind := 1
                                fetch := some ⟨training, keepLocal, req.toList, false, []⟩ }
  if c.noMemory then c.fetchFail tr i 0x0A0B
  else if bits d.tier2 0 2 = 1 then
    let r := (spans (d.fetchPages (c.groupsOf i) training upgrade)).foldl (fun (r : Core × Nat) (p : Nat × Nat) =>
      if r.2 ≠ 0 then r
      else r.1.originate tr (bits d.tier2 2 12)
        ⟨0, d.keySlot, d.gen, 1, bits d.tier2 16 14, d.tpn, c.fetchBudget i, 0, 0, p.1, p.2, 0, 0⟩ (.fetch i)) (c, 0)
    if r.2 ≠ 0 then r.1.fetchFail tr i 0x0A07 else r.1
  else c

/-- A request needs entry `i` fetched, and nothing holds it (R255). -/
def Core.needsFetch (c : Core) (s : Seg) (i : Nat) : Bool :=
  let d := c.desc i
  d.claimant = 0 && !c.formOk s.img i && (d.st = .remote || d.st = .resident)

/-- Start every fetch that a parked request waits for (R255, R261), by core 2. -/
def Core.kick (c : Core) (tr : Trim) : Core :=
  if !c.coreUp 2 then c
  else c.segs.foldl (fun (c : Core) s =>
    match c.seg? s.id with
    | some s => if s.st = .parked then s.img.adapts.foldl (fun (c : Core) i =>
        if c.needsFetch s i then c.startFetch tr i s.img.training false none else c) c else c
    | none => c) c

/-- What the seal check of R317 decides: proceed, adopt the computed seal, or fail with an event. -/
inductive SealAct
  | proceed
  | adopt
  | fail (code : Nat)
deriving DecidableEq, Repr

def sealAct (status : Nat) (required equal : Bool) : SealAct :=
  if status = 0 then (if required then .fail 0x050C else .adopt)
  else if equal then .proceed else .fail 0x050B

/-- Events of a Dome read by the Gatehouse, Belfry or Keep (R463). -/
def Core.domeCheck (c : Core) (dome : Check) (off : Nat) : Core :=
  match dome with
  | .clean => c
  | .single => c.raise (sysEvent 0x0201 (off / 65536) 0 0 0)
  | .uncorrectable => (c.raise (sysEvent 0x0202 (off / 65536) 0 0 0)).failN 4

/-- The fetch of `i` goes on with its tag list: frames are allocated, from clean evictions if need be (R259).  Where only
write-backs can make room, the first candidate's starts and the list is awaited again (log 26). -/
def Core.fetchGoOn (c : Core) (tr : Trim) (dr : Dram) (i : Nat) (f : Fetch) (tags : List TagEntry) : Core :=
  match Core.makeRoom (fun c => c.allocRun i f.training) c c.candidates with
  | some c => c.updDesc i (fun d => { d with fetch := some { f with sealOk := true, tags := tags } })
  | none =>
    match c.candidates with
    | k :: _ => c.evict tr dr k
    | [] => if c.dir.any (fun x => x.2.st = .evicting) then c else c.fetchFail tr i 0x0A0B

/-- Bytes read from a host source count at its port (HST_DMA_RD_BYTES). -/
def Core.hostRead (c : Core) (d : Desc) (n : Nat) : Core := if bits d.tier2 0 2 = 2 then c.bump (hstBase d.hostFn.port + 0x80) n else c

/-- TAG_LIST_RECEIVED (R317, R463). -/
def Core.tagList (tr : Trim) (i : Nat) (tags : List TagEntry) (dome : Check) (c : Core) (dr : Dram) : Core :=
  let d := c.desc i
  match d.fetch with
  | none => c
  | some f =>
    if f.sealOk then c
    else
      let bad := d.sealBad || decide (dome = .uncorrectable)
      let c := ((c.domeCheck dome (0x1D0_0000 + 64 * i)).hostRead d (20 * tags.length)).setDesc i { d with sealBad := bad }
      let v := sealOf d.tpn tags
      match if bad then .fail 0x050B else sealAct d.sealSt (bit (c.slot d.keySlot).policy 2) (v = d.sealV) with
      | .fail code => (c.raise (slotEvent code d.keySlot 0 0)).fetchFail tr i 0x0A07
      | .adopt => (c.updDesc i (fun d => { d with sealV := v, sealSt := 2 })).fetchGoOn tr dr i f tags
      | .proceed => c.fetchGoOn tr dr i f tags

/-- The run (slot, generation) of a descriptor still stands (R323). -/
def Core.stands (c : Core) (d : Desc) : Bool := (c.slot d.keySlot).st = .active && (c.slot d.keySlot).gen = d.gen

/-- A page lands with the version and tag its tag list names (R314, R317). -/
def withTag (us : List Nat) (tags : List TagEntry) (p : StoredPage) : StoredPage :=
  match (us.zip tags).find? (fun x => x.1 = p.u) with
  | some x => { p with version := x.2.version, tag := x.2.tag }
  | none => p

/-- The last page of a fetch has landed (R250, R258): the entry is RESIDENT in the form fetched.  A fetch over links is done
once every transfer of it has ended (R374). -/
def Core.fetchDone (i : Nat) (pages : List StoredPage) (c : Core) (dr : Dram) : Core × Dram :=
  let d := c.desc i
  match d.fetch with
  | none => (c, dr)
  | some f =>
    if !c.stands d then
      -- after retirement nothing lands: the pages are counted, the command completes RETIRED (R321, R323)
      let c := (c.bump 0x20_0040 pages.length).setDesc i { d with fetch := none }
      (c.completeAll f.reqs 0x0505 0, dr)
    else if !f.sealOk || c.xfers.any (fun x => decide (x.role = XferRole.fetch i) && !x.ended) then (c, dr)
    else
      let us := d.statePages (c.groupsOf i) true
      let c := (c.hostRead d (4096 * pages.length)).pageTraffic i 1 (pages.map (fun p => p.u))
      let dr := pages.foldl (fun (dr : Dram) p => c.landPage dr i (withTag us f.tags p)) dr
      let c := c.setDesc i { d with
        st := .resident, training := d.training || f.training, dirty := d.dirty && decide (d.st = .resident), claimant := 0, kind := 0
        fetch := none, tier2 := if f.keepLocal then d.tier2 / 4 * 4 else d.tier2 }
      let c := { c.bump 0x440 1 with xfers := c.xfers.filter (fun x => !decide (x.role = XferRole.fetch i)) }
      (c.completeFetch i f 0, dr)

/-- What a write-back to host memory has moved (R257, R261): DMA writes of the pages, at 4,096 bytes a run page, and of the tag list,
whose place the spec leaves open (log 14, log 25); the code with which a read of it ended, or 0.  After retirement the reads complete
RETIRED and nothing is sent (R323, R327). -/
def Core.moveOut (c : Core) (dr : Dram) (i : Nat) : Core × Nat :=
  let d := c.desc i
  if bits d.tier2 0 2 ≠ 2 then (c, 0)
  else
    let us := c.movedPages i
    if !c.serves d 0 then (c.bump 0x20_0040 us.length, 0x0505)
    else match c.readStored dr i us with
      | (c', 0) =>
        let c' := us.foldl (fun (c' : Core) u => c'.dma d.hostFn (d.tier2 / 2 ^ 16 * 2 ^ 16 + 4096 * u) (storedBytes (c.storedPage dr i u)))
          (c'.freeTraffic i us)
        ((c'.dma d.hostFn (Config.freeNat c'.free) (tagBytes (c.tagsOf dr i (c.formPages i)))).fresh, 0)
      | r => r

/-- The source acknowledged the last page of a write-back (R250, R261, R317). -/
def Core.writebackDone (i : Nat) (c : Core) (dr : Dram) : Core :=
  if (c.desc i).wb = none then c
  else
  let m := c.moveOut dr i
  let c := m.1
  let d := c.desc i
  match d.wb with
  | none => c
  | some r =>
    if m.2 = 0x0505 ∨ !c.stands d then
      -- after retirement the write-back's remaining reads complete RETIRED (R327)
      let c := c.setDesc i { d with wb := none }
      match r with
      | some r => c.complete r 0x0505 0
      | none => c
    else if m.2 ≠ 0 then c.writebackFail i m.2
    else
    -- a serving form is as it was fetched, and the tag list of its run with it
    let v := if d.training then sealOf d.tpn (c.tagsOf dr i (c.formPages i)) else d.sealV
    let c := c.setDesc i { d with dirty := false, sealV := v, sealSt := 3, sealBad := false, claimant := 0, kind := 0, wb := none }
    if d.st = .evicting then (c.toRemote i).bump 0x450 1
    else match r with
      | some r => c.complete r 0 0
      | none => c

end Sys2Proof.Machine
end

