-- ==== Sys2Proof/Machine/TowerCmd.lean ====
section
/-! DEFINITION. The commands of a tower (03, 05 to 08): each operation issues the due bundle that carries it (log 3), and the
fetch engine's commands (R79 to R89, R96). -/

namespace Sys2Proof.Machine

/-- What tower `t` sees of its running segment. -/
def Core.env (c : Core) (t : Nat) : Option (Seg × TEnv) :=
  match (c.tower t).seg.bind c.seg? with
  | some s => match s.img.prog t with
    | some p => some (s, ⟨s.img, p, c.clk.total, s.latches, s.chain, s.rules, s.own⟩)
    | none => none
  | none => none

/-- An event that a bundle raised (R156, R215): 0x0113 concerns the member's context, the others the segment's. -/
def Core.bundleEvent (c : Core) (s : Seg) (t : Nat) (ms : List (Nat × Nat × Nat)) (e : Nat × Nat × Nat × Nat) : Core :=
  let x := if e.1 = 0x0113 then
      (match ms.find? (fun m => m.2.1 = e.2.1) with
       | some m => s.img.ctxs.getD m.1 s.ctx
       | none => s.ctx)
    else s.ctx
  c.raise (c.ctxEvent e.1 x e.2.1 e.2.2.1 e.2.2.2 t)

/-- The group was already marked in the member's step, by this segment or another of the step (R233). -/
def Core.marked (c : Core) (s : Seg) (m g : Nat) : Bool :=
  let x := s.img.ctxs.getD m s.ctx
  s.out.singular.any (fun y => y.1 = m && y.2.1 = g) ||
    (match (c.ctx? x).bind (fun v => v.recOf s.id) with
     | some r => r.singular.contains g || c.segs.any (fun y => r.segs.contains y.id && y.out.singular.any (fun z =>
         y.img.ctxs.getD z.1 y.ctx = x && z.2.1 = g))
     | none => false)

/-- What an issued bundle, or a beat of a tower's operations, gives beyond its tower: events, counters and the segment's outcome. -/
def Core.issued (c : Core) (s : Seg) (t : Nat) (o : BOut) : Core :=
  let c := c.setTower t o.t
  let c := o.events.foldl (fun (c : Core) e => c.bundleEvent s t o.frozen e) c
  let r := o.singular.foldl (fun (r : Core × SegOut) (x : Nat × Nat × Nat) =>
    if r.1.marked { s with out := r.2 } x.1 x.2.1 then r
    else (r.1.raise (r.1.ctxEvent 0x0114 (s.img.ctxs.getD x.1 s.ctx) x.2.1 (x.2.2 / 2 ^ 16) x.2.2 t),
      { r.2 with singular := r.2.singular ++ [x] })) (c, s.out)
  let c := (r.1.bump (twrBase t + 0xC0) o.arrayBeats).bump (twrBase t + 0xC8) o.laneBeats
  c.setSeg { s with out := { r.2 with
    reports := r.2.reports ++ o.reports.map (fun x => (t, x.1, x.2))
    pages := r.2.pages ++ o.pages, frozen := r.2.frozen ++ o.frozen } }

/-- The oldest row check completes (R173): every row of the record maps to its member, or the lane stops with 0x010F (R174). -/
def Core.rowCheck (t : Nat) (c : Core) : Core :=
  match c.env t, (c.tower t).checks with
  | some (s, e), k :: ks =>
    let x := { c.tower t with checks := ks }
    if (List.range' k.first k.count).all (fun r => e.im.memberOf r = some k.member) then c.setTower t x
    else (c.setTower t (x.stopLanes c.clk.total)).towerFault t ⟨0x010F, 2, k.group, k.bundle, k.sched⟩ (some s.ctx)
  | _, _ => c

/-- Every outstanding row check completes: END waits for none (log 119). -/
def Core.rowChecks (t : Nat) (c : Core) : Core := (c.tower t).checks.foldl (fun (c : Core) _ => c.rowCheck t) c

/-- A tower whose segment has met a fault elsewhere stops at its next bundle with 0x0101 (R78): when that is due, whether or not it
would wait; at a barrier, which it cannot leave, at once (log 11). -/
def Core.follow (t : Nat) (c : Core) : Core :=
  match c.env t with
  | none => c
  | some (s, e) =>
    let x := c.tower t
    if s.out.fault ≠ 0 ∧ x.st = .running ∧ (e.isDue x ∨ x.atBarrier) then
      c.setTower t (x.stop ⟨0x0101, 0, 0, x.pc, x.nextBeat (some e.prog)⟩)
    else c

/-- Issue tower `t`'s due bundle if it carries the operation (R69, R70, R77): its effects, or its fault (R78); with the
bundle not due, waiting or carrying other operations, nothing happens (log 2). -/
def Core.issue (sel : Nat → Bool) (t : Nat) (c : Core) : Core :=
  match c.env t with
  | none => c
  | some (s, e) =>
    let x := c.tower t
    if !sel (e.bundle x) || c.blf.hold != 0 then c
    else if s.out.fault ≠ 0 then c.follow t
    else match tryIssue e x with
      | .notDue => c
      | .waits => c
      | .fault code slot item origin => c.towerFault t ⟨code, slot, item, x.pc, x.sched⟩ (some (origin.getD s.ctx))
      | .issued o => if o.t.done then (c.issued s t o).rowChecks t else c.issued s t o

/-- The bundle carries no operation. -/
def bEmpty (b : Nat) : Bool :=
  bCtl b = 0 && bMop b = 0 && bDop b = 0 && bVop b = 0 && bAop b = 0 && bQop b 0 = 0 && bQop b 1 = 0

/-- One of the bundle's queue sub-ops is `op`. -/
def bHasQ (op b : Nat) : Bool := bQop b 0 = op || bQop b 1 = op

def execNop (t : Nat) (s : State) := s.act (Core.issue bEmpty t)
def execLoop (t : Nat) (s : State) := s.act (Core.issue (fun b => bCtl b = 1) t)
def execBarrier (t : Nat) (s : State) := s.act (Core.issue (fun b => bCtl b = 2) t)
def execEndSeg (t : Nat) (s : State) := s.act (Core.issue (fun b => bCtl b = 3) t)
def execAregSet (t : Nat) (s : State) := s.act (Core.issue (fun b => bCtl b = 4) t)
def execAregAdd (t : Nat) (s : State) := s.act (Core.issue (fun b => bCtl b = 5) t)
def execAregStep (t : Nat) (s : State) := s.act (Core.issue (fun b => bCtl b = 6) t)
def execLoad (t : Nat) (s : State) := s.act (Core.issue (fun b => bMop b = 1) t)
def execPass (t : Nat) (s : State) := s.act (Core.issue (fun b => bMop b = 2) t)
def execForward (t : Nat) (s : State) := s.act (Core.issue (fun b => bDop b = 1) t)
def execSample (t : Nat) (s : State) := s.act (Core.issue (fun b => bDop b = 2) t)
def execMerge (t : Nat) (s : State) := s.act (Core.issue (fun b => bDop b = 3) t)
def execDrain (t : Nat) (s : State) := s.act (Core.issue (fun b => bVop b = 1) t)
def execStream (t : Nat) (s : State) := s.act (Core.issue (fun b => bVop b = 2) t)
def execReduce (t : Nat) (s : State) := s.act (Core.issue (fun b => bVop b = 3) t)
def execRule (t : Nat) (s : State) := s.act (Core.issue (fun b => bVop b = 4) t)
def execZero (t : Nat) (s : State) := s.act (Core.issue (fun b => bAop b = 1) t)
def execSave (t : Nat) (s : State) := s.act (Core.issue (fun b => bAop b = 2) t)
def execRestore (t : Nat) (s : State) := s.act (Core.issue (fun b => bAop b = 3) t)
def execCopy (t : Nat) (s : State) := s.act (Core.issue (fun b => bAop b = 4) t)
def execPop (t : Nat) (s : State) := s.act (Core.issue (bHasQ 1) t)
def execRetire (t : Nat) (s : State) := s.act (Core.issue (bHasQ 2) t)
def execOpenOut (t : Nat) (s : State) := s.act (Core.issue (bHasQ 3) t)
def execPush (t : Nat) (s : State) := s.act (Core.issue (bHasQ 4) t)

/-- DELTA_ROW_CHECK: the lane's oldest row check completes (R173). -/
def execDeltaRowCheck (t : Nat) (s : State) := s.act (Core.rowCheck t)

/-! The fetch engine. -/

/-- A descriptor's repeat (R85). -/
def dIssueAt (d i : Nat) : Nat := dIssue d + i * dBeatStep d
def dDeadlineAt (d i : Nat) : Nat := dDeadline d + i * dBeatStep d
def dAddrAt (d i : Nat) : Nat := dAddr d + i * dAddrStep d

/-- The next descriptor index of a direction at or after `k`. -/
def nextDesc (ds : List Nat) (inb : Bool) (k : Nat) : Nat :=
  match (ds.zipIdx.drop k).find? (fun d => dInbound d.1 = inb) with
  | some d => d.2
  | none => ds.length

/-- The pointer after repeat `i` of descriptor `k` (R86). -/
def advance (ds : List Nat) (inb : Bool) (k i : Nat) : Nat × Nat :=
  if i + 1 < dRepeat (ds.getD k 0) then (k, i + 1) else (nextDesc ds inb (k + 1), 0)

/-- The byte ranges at the far end of a repeat: rows at ADDR with pitch ADDR_STRIDE. -/
def dRowsAt (d i : Nat) : List (Nat × Nat) :=
  (List.range (dRows d)).map (fun r => (dAddrAt d i + r * dAddrStride d, dRowBytes d))

/-- The line addresses of a repeat, row by row. -/
def repeatLines (d i : Nat) : List Nat := (dRowsAt d i).flatMap (fun r => (List.range (r.2 / 64)).map (fun j => r.1 + 64 * j))

/-- The plain page and line of byte offset `a` of a run without banks. -/
def flatLine (a : Nat) : Nat × Nat := (a / 4096, a % 4096 / 64)

/-- The live tier-0 copy that serves byte `a` of a member's delta pages under its latched bank (R263). -/
def Core.copyFor (c : Core) (s : Seg) (m : MemberRef) (l : Latch) (a : Nat) : Option Copy0 :=
  c.gate.copies.find? (fun k => k.idx = m.adapt && k.page = a / 4096 && k.bank = bankFor l.groups l.bank (a / 4096) && !k.dead
    && decide (k.at_ < s.start))

/-- The run-table entry and the lines, as (run page, line), that repeat `i` of memory descriptor `d` reads or writes (R280). -/
def Core.memLines (c : Core) (s : Seg) (d i : Nat) : Nat × List (Nat × Nat) :=
  let m := s.img.members.getD (dMember d) ⟨0xFFFF, 0, 0⟩
  let l := s.latches.getD (dMember d) ⟨0, 0, [], ⟨0, 0, 0, false⟩, false, []⟩
  let as := repeatLines d i
  match dKind d, dSpace d with
  | 0, 0 => (16640 + s.img.baseSlot, as.map flatLine)
  | 4, _ => (m.adapt, (as.filter (fun a => (c.copyFor s m l a).isNone)).filterMap (fun a =>
      (c.desc m.adapt).stateLine l.groups l.bank a false true))
  | 0, 1 => (m.adapt, as.filterMap (fun a => (c.desc m.adapt).stateLine l.groups l.bank a false false))
  | 1, 1 => (m.adapt, as.filterMap (fun a => (c.desc m.adapt).stateLine l.groups l.bank a true false))
  | 0, 2 | 1, 2 => (16384 + m.ctx, as.map flatLine)
  | _, _ => (0, [])

/-- The fault of a repeat when it issues (R211, R267, R280): its code, or 0.  A run without the entry's extents does not cover it. -/
def Core.repeatFault (c : Core) (s : Seg) (d i : Nat) : Nat :=
  let im := s.img
  let m := im.members.getD (dMember d) ⟨0xFFFF, 0, 0⟩
  let ends := (dRowsAt d i).map (fun r => r.1 + r.2)
  let top := ends.foldl max 0
  let x := c.memLines s d i
  let covered : Nat := if x.2.all (fun p => (c.frameOf x.1 p.1).isSome) then 0 else 0x0107
  let run (k pages : Nat) : Nat :=
    match c.runEnt k with
    | some e => if top ≤ 4096 * pages ∧ top ≤ 4096 * e.pages then covered else 0x0107
    | none => 0x0107
  match dSpace d with
  | 0 => run (16640 + im.baseSlot) ((c.runEnt (16640 + im.baseSlot)).elim 0 (fun e => e.pages))
  | 1 =>
    if dKind d = 1 ∧ !im.training then 0x0112
    else
      let dd := c.desc m.adapt
      let pages := if dKind d = 4 then dd.pages else dd.pages + dd.mPages + dd.uPages
      if top > 4096 * pages then 0x0107
      else if (c.runEnt m.adapt).isNone then 0x0107
      else if dd.training ∨ top ≤ 4096 * dd.pages then covered else 0x0107
  | 2 => run (16384 + m.ctx) (2 ^ 35)
  | 3 => match c.ctx? s.ctx with
    | some v => if top ≤ v.units * 65536 then 0 else 0x0107
    | none => 0x0107
  | _ => 0

/-- A yield point at or before schedule beat `b` that the execute engine has not passed (R86). -/
def yieldAhead (im : Image) (passed b : Nat) : Bool :=
  (im.barriers.drop passed).any (fun x => x.2 && decide (x.1 ≤ b))

/-- The fetch engine may fill the entry in beat `now` (R81, R86): it is FREE, or FILLING for the same entry. -/
def QEntry.open_ (en : QEntry) (now : Nat) : Bool :=
  (en.st = .free && decide (en.freeAt ≤ now)) || (en.st = .filling && !en.sealed)

/-- The next inbound repeat is held back because its entry is not FREE (R52, R86). -/
def TEnv.held (e : TEnv) (x : Tower) : Bool :=
  let ds := e.prog.descs
  let k := nextDesc ds true x.inPtr.1
  let i := if k = x.inPtr.1 then x.inPtr.2 else 0
  let d := ds.getD k 0
  let q := x.queue (dQueue d)
  decide (k < ds.length) && decide (dIssueAt d i ≤ x.sched) && !yieldAhead e.im x.barriers (dIssueAt d i)
    && !(q.entry q.head).open_ e.now

/-- The cause that a descriptor brings to its entry (R52): 1 link, 2 Dome, 0 memory; a tier-0 copy serves a DELTA_READ
(R263). -/
def Core.descCause (c : Core) (s : Seg) (d i : Nat) : Nat :=
  match dKind d with
  | 5 => 1
  | 2 => 2
  | 3 => 2
  | 4 =>
    let m := s.img.members.getD (dMember d) ⟨0xFFFF, 0, 0⟩
    let bank := bankFor ((s.latches.getD (dMember d) ⟨0, 0, [], ⟨0, 0, 0, false⟩, false, []⟩).groups)
      (s.latches.getD (dMember d) ⟨0, 0, [], ⟨0, 0, 0, false⟩, false, []⟩).bank (dAddrAt d i / 4096)
    if c.gate.copies.any (fun k => k.idx = m.adapt && k.page = dAddrAt d i / 4096 && k.bank = bank && !k.dead
        && decide (k.at_ < s.start)) then 2 else 0
  | _ => 0

/-- The descriptors of the next `n` entries of a queue, from a list of (descriptor, first repeat left) (R85). -/
def takeEntries : Nat → List (Nat × Nat) → List (Nat × Nat)
  | _, [] => []
  | n, d :: ds => if n = 0 then [] else d :: takeEntries (if dLast d.1 then n - (dRepeat d.1 - d.2) else n) ds

/-- The descriptors, not issued yet, that fill or empty the next `n` entries of queue `q` that no LAST repeat has closed. -/
def TEnv.fillers (e : TEnv) (x : Tower) (q n : Nat) (inb : Bool) : List (Nat × Nat) :=
  let p := if inb then x.inPtr else x.outPtr
  takeEntries n (((e.prog.descs.zipIdx.drop p.1).filter (fun d => dInbound d.1 = inb && dQueue d.1 = q)).map (fun d =>
    (d.1, if d.2 = p.1 then p.2 else 0)))

/-- The causes, as a bit mask, that apply to the waits of a queue's entries `ens`, `n` of which still await a LAST repeat (R52,
R72): those of the descriptors that fill or empty them. -/
def Core.causesOf (c : Core) (s : Seg) (e : TEnv) (x : Tower) (q : Nat) (inb : Bool) (n : Nat) (ens : List QEntry) : Nat :=
  let m := ens.foldl (fun m en => m ||| en.causes) 0
  (e.fillers x q n inb).foldl (fun m d => m ||| 2 ^ c.descCause s d.1 d.2) m

/-- The stall cause of causes `m` (R52): the first of 4, 1, 3, 2 and 0. -/
def causeOf (m : Nat) : Nat := if bit m 4 then 4 else if bit m 1 then 1 else if bit m 3 then 3 else if bit m 2 then 2 else 0

/-- The stall cause of a waiting bundle (R52, R72): of the entry it stalls at, or of the outbound entries its END awaits. -/
def Core.stallCause (c : Core) (s : Seg) (e : TEnv) (x : Tower) : Nat :=
  match e.waitsOn x with
  | some (_, q, k, inb) =>
    let en := (x.queue q).entry k
    let m := c.causesOf s e x q inb (if en.sealed then 0 else 1) [en]
    let d := e.prog.descs.getD (nextDesc e.prog.descs true x.inPtr.1) 0
    causeOf (if inb && x.inBlocked && !en.sealed && dQueue d = q then m ||| 16 else m)
  | none =>
    causeOf ((List.range 16).foldl (fun m q =>
      if qOut (e.prog.queues.getD q 0) then
        let ens := (x.queue q).entries.filter (fun y => y.st ≠ .free)
        m ||| c.causesOf s e x q false (ens.filter (fun y => !y.sealed)).length ens
      else m) 0)

/-- Beats `n` counted under stall cause `a` are counted under cause `b`. -/
def Core.recount (c : Core) (t a b n : Nat) : Core :=
  let o := twrBase t + 0x80 + 8 * a
  let x := c.ctr.get .zero o
  let n := if x.ovf then 0 else min n x.count
  ({ c with ctr := c.ctr.set .zero o { x with count := x.count - n, part := min x.part (x.count - n) } }).bump
    (twrBase t + 0x80 + 8 * b) n

/-- A read of entry `k` of queue `q` took a correction retry: the beats waited for it are of cause 3, unless cause 4 or 1 applies
(R52, R89, R282). -/
def Core.retryCause (c : Core) (e : TEnv) (t q k : Nat) : Core :=
  let x := c.tower t
  match e.waitsOn x with
  | some (_, q', k', true) =>
    if q' = q ∧ k' % 16 = k ∧ x.wait ≠ 0 ∧ (x.cause = 0 ∨ x.cause = 2) then
      (c.recount t x.cause 3 x.wait).setTower t { x with cause := 3 }
    else c
  | _ => c

/-- A LINK_READ repeat issues its request (R84, R378): the code that poisons its entry at once, or 0.  The source check comes
before the budget check. -/
def Core.linkRead (c : Core) (tr : Trim) (im : Image) (d t i entry k : Nat) : Core × Nat :=
  let dd := c.desc (im.members.getD (dMember d) ⟨0xFFFF, 0, 0⟩).adapt
  if bits dd.tier2 0 2 ≠ 1 then (c, 0x070A)
  else if dBudget d = 0 then (c, 0x0707)
  else c.originate tr (if dFwd d = 0 then bits dd.tier2 2 12 else dFwd d)
    ⟨0, dd.keySlot, dd.gen, 2, bits dd.tier2 16 14, dd.tpn, dBudget d, 0, 0, dAddrAt d i, dRows d, dRowBytes d, dAddrStride d⟩
    (.tower t (dQueue d) entry k i)

/-- Eight repeats are in flight of those not landed (R86). -/
def fullFlight (fls : List Flight) : Bool := decide ((fls.filter (fun f => !f.landed)).length ≥ 8)

/-- The place in a list of the oldest repeat whose entry still awaits a LAST one: it can have landed, or been accepted, before its
entry is complete, and no command says when (R85, R86; log 113).  A LINK_READ has landed once its transfer has ended. -/
def Core.earlyAt (c : Core) (ds : List Nat) (t : Nat) (fls : List Flight) : Option Nat :=
  fls.findIdx? (fun f => !f.landed && !dLast (ds.getD f.desc 0) && !c.xfers.any (fun x =>
    decide (x.role = .tower t f.queue f.entry f.desc f.rep) && !x.ended))

/-- With eight in flight a repeat can issue only once one has landed (R86): the oldest that may have is taken to have (log 113). -/
def Core.makeFlight (c : Core) (ds : List Nat) (t : Nat) (fls : List Flight) : List Flight :=
  if fullFlight fls then
    match c.earlyAt ds t fls with
    | some j => fls.modify j (fun f => { f with landed := true })
    | none => fls
  else fls

/-- The converted deadline of a repeat (R87): it may lie in the past. -/
def Core.mcDeadline (c : Core) (d i sched : Nat) : Int := (c.clk.nominal : Int) + ((dDeadlineAt d i : Int) - (sched : Int))

/-- Beats in which the tiles of a TURN repeat enter the turning unit, and the latency added after the last of them (R88). -/
def turnIn (d : Nat) : Nat := let w := 4 * 2 ^ dTurnW d
  dRows d / 128 * (8 * dRowBytes d / (128 * w)) * (16 * w)
def turnLatency (d : Nat) : Nat := 16 * (4 * 2 ^ dTurnW d) + 8

/-- What an inbound repeat reads reaches its controllers as it issues (R289): the lines of memory, with the pages as they stand,
the lines that tier-0 copies serve (R263), and the part beyond the plan (R51). -/
def Core.flightOf (c : Core) (dr : Dram) (s : Seg) (x : Tower) (k i entry : Nat) (d : Nat) : Core × Flight :=
  let m := s.img.members.getD (dMember d) ⟨0xFFFF, 0, 0⟩
  let l := s.latches.getD (dMember d) ⟨0, 0, [], ⟨0, 0, 0, false⟩, false, []⟩
  let src := c.memLines s d i
  let cs := if dKind d = 4 then (repeatLines d i).filterMap (fun a => (c.copyFor s m l a).map (fun k => (a, k))) else []
  let r := c.takeSlots s (dIssueAt d i) src.1 src.2 false
  (r.1, { desc := k, rep := i, queue := dQueue d, entry := entry, deadline := c.mcDeadline d i x.sched, sched := x.sched, landed := false
          src := src, snaps := c.snapLines dr src.1 src.2
          copied := cs.map (fun y => (y.1, y.2.data.getD (y.1 % 4096 / 64) 0)), unit := (cs.map (fun y => y.2.unit)).headD 0
          free := r.2, turnedAt := if dTurn d then max c.clk.total x.turnUntil + turnIn d + turnLatency d else 0 })

/-- An inbound repeat issues (R86, R87): never after END (R82). -/
def Core.inbound (tr : Trim) (t : Nat) (c : Core) (dr : Dram) : Core :=
  match c.env t with
  | none => c
  | some (s, e) =>
    let x := c.tower t
    let ds := e.prog.descs
    let k := nextDesc ds true x.inPtr.1
    let i := if k = x.inPtr.1 then x.inPtr.2 else 0
    let d := ds.getD k 0
    let q := x.queue (dQueue d)
    let en := q.entry q.head
    let fls := c.makeFlight ds t x.flightIn
    if k ≥ ds.length ∨ x.st ≠ .running ∨ x.done ∨ x.startIn + x.swapLeft ≠ 0 ∨ x.sched < dIssueAt d i then c
    else if !en.open_ c.clk.total ∨ fullFlight fls ∨ yieldAhead e.im x.barriers (dIssueAt d i) then c
    else match c.repeatFault s d i with
      | 0 =>
        let blocked := x.inBlocked
        let r := if dKind d = 5 then c.linkRead tr e.im d t i q.head k else (c, 0)
        let c := r.1
        let en' : QEntry := { en with
          st := .filling, flight := en.flight + 1, sealed := dLast d, poison := if en.poison = 0 then r.2 else en.poison
          causes := en.causes ||| 2 ^ c.descCause s d i ||| (if blocked then 16 else 0) }
        let q' := q.setEntry q.head en'
        let q' := if dLast d then { q' with head := (q.head + 1) % 16 } else q'
        let f := c.flightOf dr s x k i q.head d
        f.1.setTower t { x.setQueue (dQueue d) q' with
          flightIn := fls ++ [f.2], inPtr := advance ds true k i, inBlocked := false
          turnUntil := if dTurn d then max c.clk.total x.turnUntil + turnIn d else x.turnUntil }
      | code => c.towerFault t ⟨code, 7, dQueue d, k, x.sched⟩ (some s.ctx)

def execInboundIssue (t : Nat) (s : State) := s.actM (fun c d => (Core.inbound s.trim t c d, d))

/-- An outbound repeat issues when its ISSUE has passed, the oldest PUSHED entry waits (R86) and no row check of the tower is
outstanding (R173). -/
def Core.outbound (t : Nat) (c : Core) : Core :=
  match c.env t with
  | none => c
  | some (s, e) =>
    let x := c.tower t
    let ds := e.prog.descs
    let k := nextDesc ds false x.outPtr.1
    let i := if k = x.outPtr.1 then x.outPtr.2 else 0
    let d := ds.getD k 0
    let q := x.queue (dQueue d)
    let en := q.entry q.tail
    let fls := c.makeFlight ds t x.flightOut
    if k ≥ ds.length ∨ x.st ≠ .running ∨ x.startIn + x.swapLeft ≠ 0 ∨ x.sched < dIssueAt d i ∨ fullFlight fls
        ∨ !(en.st = .pushed || (en.st = .writing && !en.sealed)) ∨ x.checks ≠ [] then c
    else match c.repeatFault s d i with
      | 0 =>
        let en' : QEntry := { en with
          st := .writing, flight := en.flight + 1, sealed := dLast d, causes := en.causes ||| 2 ^ c.descCause s d i }
        let q' := q.setEntry q.tail en'
        let q' := if dLast d then { q' with tail := (q.tail + 1) % 16 } else q'
        let src := c.memLines s d i
        let r := c.takeSlots s (dIssueAt d i) src.1 src.2 true
        let f : Flight := { desc := k, rep := i, queue := dQueue d, entry := q.tail, deadline := c.mcDeadline d i x.sched, sched := x.sched
                            landed := false, src := src, snaps := [], copied := [], unit := 0, free := r.2, turnedAt := 0 }
        r.1.setTower t { x.setQueue (dQueue d) q' with flightOut := fls ++ [f], outPtr := advance ds false k i }
      | code => c.towerFault t ⟨code, 7, dQueue d, k, x.sched⟩ (some s.ctx)

def execOutboundIssue (t : Nat) (s : State) := s.act (Core.outbound t)

/-- A read of the Dome (R463): what its check gave. -/
def Core.domeRead (c : Core) (dome : Check) (off : Nat) (ls : List Line) : Core × Except Nat (List Line) :=
  match dome with
  | .clean => (c, .ok ls)
  | .single => (c.raise (sysEvent 0x0201 (off / 65536) 0 0 0), .ok ls)
  | .uncorrectable => (c.raise (sysEvent 0x0202 (off / 65536) 0 0 0), .error 0x0202)

/-- The lines that a repeat read from memory: of a TAGGED page the controller reads its version root in the Dome as well, whose check
`dome` gives (R313, R463); a poisoned root stays so, and the paths through it fail (R315). -/
def Core.memRead (c : Core) (fl : Flight) (dome : Check) : Core × Except Nat (List Line) :=
  match fl.snaps.head?.bind (fun p => c.frameOf fl.src.1 p.u) with
  | some (e, pfn) =>
    if e.tagged then
      match dome with
      | .clean => c.readSnaps fl.src.1 fl.src.2 fl.snaps
      | .single => (c.raise (sysEvent 0x0201 (rootAt pfn / 65536) 0 0 0)).readSnaps fl.src.1 fl.src.2 fl.snaps
      | .uncorrectable =>
        let c := c.raise (sysEvent 0x0202 (rootAt pfn / 65536) 0 0 0)
        let c := { c with mem := { c.mem with badRoots := c.mem.badRoots ++ [rootAt pfn / 64] } }
        c.readSnaps fl.src.1 fl.src.2 (fl.snaps.map (fun p => { p with path := p.path && (match c.frameOf fl.src.1 p.u with
          | some x => rootAt x.2 / 64 != rootAt pfn / 64
          | none => true) }))
    else c.readSnaps fl.src.1 fl.src.2 fl.snaps
  | none => c.readSnaps fl.src.1 fl.src.2 fl.snaps

/-- The lines of a DELTA_READ (R263): those of pages with a live tier-0 copy of the latched bank came from the Dome, the
others from tier 1. -/
def Core.deltaLines (c : Core) (fl : Flight) (as : List Nat) (dome : Check) : Core × Except Nat (List Line) :=
  if fl.copied = [] then c.memRead fl dome
  else
    match c.memRead fl .clean with
    | (c, .error p) => (c, .error p)
    | (c, .ok ls) =>
      let mem := as.filter (fun a => !fl.copied.any (fun y => y.1 = a))
      let pick (a : Nat) : Line := (((fl.copied ++ mem.zip ls).find? (fun x => x.1 = a)).map (fun x => x.2)).getD 0
      c.domeRead dome (0x3A0_0000 + 65536 * fl.unit) (as.map pick)

/-- The lines of a repeat at its source (R84, R280, R378). -/
def Core.fetchLines (c : Core) (s : Seg) (t : Nat) (fl : Flight) (d : Nat) (dome : Check) : Core × Except Nat (List Line) :=
  let as := repeatLines d fl.rep
  match dKind d with
  | 0 => c.memRead fl dome
  | 2 =>
    let v := (c.ctx? s.ctx).elim [] (fun v => v.dome)
    c.domeRead dome (c.domeAt s.ctx (dAddrAt d fl.rep)) (as.map (fun a => BitVec.ofNat 512 (SMap.get 0 v (a / 64))))
  | 4 => c.deltaLines fl as dome
  | _ =>
    match c.xfers.find? (fun x => decide (x.role = .tower t fl.queue fl.entry fl.desc fl.rep)) with
    | some x =>
      let all := (List.range (ceilDiv as.length 4)).flatMap (fun j => (((x.data.find? (fun y => y.1 = j)).map (fun y => y.2)).getD []))
      (c, .ok ((List.range as.length).map (fun j => bytesLine (slice all (64 * j) 64))))
    | none => (c, .error 0x070A)

/-- The member tag of the lines a repeat lands (R166): member + 1 for DELTA_READ, none for any other. -/
def landTag (d : Nat) : Nat := if dKind d = 4 then dMember d + 1 else 0

/-- Land a repeat's rows in its slot (R85), turned tile by tile with TURN (R88).  DESIGN CHOICE (log 128): an address that BUF_OFFSET or
BUF_STRIDE takes past the slot is taken as it comes, modulo 2^23. -/
def Tower.landRows (t : Tower) (base d : Nat) (rows : List (List Line)) : Tower :=
  let val (ls : List Line) : Nat := (ls.zipIdx.map (fun (l : Line × Nat) => l.1.toNat * 2 ^ (512 * l.2))).sum
  if dTurn d then
    let w := 4 * 2 ^ dTurnW d
    let cols := 8 * dRowBytes d / w
    let vs := rows.map val
    (List.range cols).foldl (fun (t : Tower) j =>
      let v := (vs.zipIdx.map (fun (x : Nat × Nat) => bits x.1 (w * j) w * 2 ^ (w * x.2))).sum
      t.writeTagged (adr (base + dBufOff d + j * dBufStride d)) (rows.length * w / 8) v (landTag d)) t
  else rows.zipIdx.foldl (fun (t : Tower) (r : List Line × Nat) =>
    t.writeTagged (adr (base + dBufOff d + r.2 * dBufStride d)) (dRowBytes d) (val r.1) (landTag d)) t

/-- One repeat of an entry lands: its rows, or a poison (R89). -/
def Core.landRepeat (c : Core) (s : Seg) (e : TEnv) (t : Nat) (fl : Flight) (dome : Check) : Core × Nat :=
  let d := e.prog.descs.getD fl.desc 0
  let n := dRowBytes d / 64
  let c := c.lateLines fl.deadline fl.src.1 fl.src.2 fl.free
  match c.fetchLines s t fl d dome with
  | (c, .error p) => (c, p)
  | (c, .ok ls) =>
    let rows := (List.range (dRows d)).map (fun r => (ls.drop (n * r)).take n)
    (c.setTower t ((c.tower t).landRows (slotOf e.prog fl.queue fl.entry) d rows), 0)

/-- The turning unit serves TURN repeats in issue order (R88): those of entry (`q`, `k`) have left it, and every one issued before
them has landed. -/
def Tower.turned (x : Tower) (ds : List Nat) (q k now : Nat) : Bool :=
  let turn (f : Flight) : Bool := dTurn (ds.getD f.desc 0)
  let mine (f : Flight) : Bool := f.queue = q && f.entry = k
  x.flightIn.all (fun f => !(mine f) || decide (f.turnedAt ≤ now))
    && (match (x.flightIn.reverse.dropWhile (fun f => !(mine f && turn f))) with
      | [] => true
      | fs => fs.all (fun f => mine f || f.landed || !turn f))

/-- A read of the repeat looks at the Dome: its data, its tier-0 copies, or the version root of a TAGGED page. -/
def usesDome (d : Nat) : Bool := dKind d = 2 || dKind d = 4 || (dKind d = 0 && dSpace d != 2)

/-- A correction retry was delivered (R282) for an entry's reads: event 0x0402 and its counts, at the first line of memory that they
read (log 110). -/
def Core.retriedLine (c : Core) (fls : List Flight) : Core :=
  match (fls.flatMap (fun f => f.src.2.map (fun p => (f.src.1, p)))).head? with
  | some (k, u, i) => match c.frameOf k u with
    | some (_, pfn) => (c.raise (lineEvent 0x0402 pfn i)).retryLine pfn i
    | none => c
  | none => c

/-- The last bytes of an entry land (R85, R89): the oldest sealed FILLING entry of queue `q` becomes PRESENT, poisoned or
not; every repeat of it is read whatever the others gave (R287).  `retried` says a read of it took a correction retry (R52), `dome`
what the first read of the Dome for it gave. -/
def Core.present (t q : Nat) (retried : Bool) (dome : Check) (c : Core) : Core :=
  match c.env t with
  | none => c
  | some (s, e) =>
    let x := c.tower t
    let qu := x.queue q
    let order := (List.range 16).map (fun j => (qu.mid + j) % 16)
    match order.find? (fun k => decide ((qu.entry k).st = .filling)) with
    | none => c
    | some k =>
      let en := qu.entry k
      let c := if retried then c.retryCause e t q k else c
      let mine (z : Xfer) : Bool := match z.role with
        | .tower t' q' k' _ _ => t' = t && q' = q && k' = k
        | _ => false
      if !en.sealed || (en.poison = 0 && c.xfers.any (fun z => mine z && !z.ended)) || !x.turned e.prog.descs q k c.clk.total then c
      else
        let fls := x.flightIn.filter (fun f => f.queue = q && f.entry = k)
        let c := if retried then c.retriedLine fls else c
        let first := fls.findIdx (fun f => usesDome (e.prog.descs.getD f.desc 0))
        let r := fls.zipIdx.foldl (fun (r : Core × Nat) f =>
          let y := r.1.landRepeat s e t f.1 (if f.2 = first then dome else .clean)
          (y.1, if r.2 = 0 then y.2 else r.2)) (c, en.poison)
        let y := r.1.tower t
        let en' : QEntry := { en with
          st := .present, poison := r.2, flight := 0, sealed := false, causes := en.causes ||| (if retried then 8 else 0) }
        let c := r.1.setTower t { y.setQueue q ((y.queue q).setEntry k en') with
          flightIn := y.flightIn.filter (fun f => !(f.queue = q && f.entry = k)) }
        { c with xfers := c.xfers.filter (fun z => !mine z) }

def execEntryPresent (t q : Nat) (retried : Bool) (dome : Check) (s : State) :=
  s.act (Core.present t q retried dome)

/-- The lines of one row of an outbound slot. -/
def outRow (t : Tower) (base d row : Nat) : List Line :=
  (List.range (dRowBytes d / 64)).map (fun j =>
    BitVec.ofNat 512 (storeRead t.store (adr (base + dBufOff d + row * dBufStride d + 64 * j)) 64))

/-- Gather a repeat's lines by run page (R288: one partial write a page). -/
def byPage (ls : List (Nat × Nat × Line)) : List (Nat × List (Nat × Line)) :=
  (ls.map (·.1)).dedup.map (fun u => (u, (ls.filter (fun l => l.1 = u)).map (·.2)))

/-- Write one outbound repeat to its destination (R84, R211, R288): the code a memory write completes with, or 0. -/
def Core.writeRepeat (c : Core) (dr : Dram) (s : Seg) (e : TEnv) (t : Nat) (fl : Flight) : Core × Dram × Nat :=
  let d := e.prog.descs.getD fl.desc 0
  let x := c.tower t
  let m := e.im.members.getD (dMember d) ⟨0xFFFF, 0, 0⟩
  let l := s.latches.getD (dMember d) ⟨0, 0, [], ⟨0, 0, 0, false⟩, false, []⟩
  let base := slotOf e.prog fl.queue fl.entry
  let rows := (dRowsAt d fl.rep).zipIdx
  if dKind d = 3 then
    (c.updCtx s.ctx (fun v => { v with dome := rows.foldl (fun (m : SMap Nat) (r : (Nat × Nat) × Nat) =>
      (outRow x base d r.2).zipIdx.foldl (fun (m : SMap Nat) (y : Line × Nat) => m.set 0 (r.1.1 / 64 + y.2) y.1.toNat) m) v.dome }),
      dr, 0)
  else
    let k := if dSpace d = 1 then m.adapt else 16384 + m.ctx
    let place (a : Nat) : Option (Nat × Nat) :=
      if dSpace d = 1 then (c.desc m.adapt).stateLine l.groups l.bank a true false else some (flatLine a)
    let ls := rows.flatMap (fun (r : (Nat × Nat) × Nat) => (outRow x base d r.2).zipIdx.filterMap (fun (y : Line × Nat) =>
      (place (r.1.1 + 64 * y.2)).map (fun p => (p.1, p.2, y.1))))
    (byPage ls).foldl (fun (r : Core × Dram × Nat) p =>
      if r.2.2 = 0x0406 ∨ r.2.2 = 0x040B then r
      else r.1.writePage r.2.1 k p.1 p.2) (c, dr, 0)

/-- An outbound entry's write is accepted (R79, R288, R290): the oldest sealed WRITING entry becomes FREE; a write that
completes with 0x0406 or 0x040B faults the tower, not precisely. -/
def Core.accepted (t q : Nat) (c : Core) (dr : Dram) : Core × Dram :=
  match c.env t with
  | none => (c, dr)
  | some (s, e) =>
    let x := c.tower t
    let qu := x.queue q
    let order := (List.range 16).map (fun j => (qu.tail + 1 + j) % 16)
    match order.find? (fun k => (qu.entry k).st = .writing && (qu.entry k).sealed) with
    | none => (c, dr)
    | some k =>
      let fls := x.flightOut.filter (fun f => f.queue = q && f.entry = k)
      let r := fls.foldl (fun (r : Core × Dram × Nat × Nat × Nat) f =>
        if r.2.2.1 = 0x0406 ∨ r.2.2.1 = 0x040B then r
        else
          let y := (r.1.lateLines f.deadline f.src.1 f.src.2 f.free).writeRepeat r.2.1 s e t f
          (y.1, y.2.1, y.2.2, f.desc, f.sched)) (c, dr, 0, 0, 0)
      let y := r.1.tower t
      let c := r.1.setTower t { y.setQueue q ((y.queue q).setEntry k .free) with
        flightOut := y.flightOut.filter (fun f => !(f.queue = q && f.entry = k)) }
      if r.2.2.1 = 0x0406 ∨ r.2.2.1 = 0x040B then
        (c.towerFault t ⟨r.2.2.1, 7, q, r.2.2.2.1, r.2.2.2.2⟩ (some s.ctx), r.2.1)
      else (c, r.2.1)

def execWriteAccepted (t q : Nat) (s : State) := s.actM (Core.accepted t q)

/-- The slot code and ITEM of what a waiting bundle waits on: queue A, queue B, or the control slot's END (R78). -/
def waitSlot (e : TEnv) (x : Tower) : Nat × Nat :=
  match e.waitsOn x with
  | some (i, q, _, _) => (5 + i, q)
  | none => (0, 0)

/-- A bundle that has waited longer than LIMIT beats faults with 0x010A (R96). -/
def Core.stallLimit (t : Nat) (c : Core) : Core :=
  match c.env t with
  | none => c
  | some (s, e) =>
    let x := c.tower t
    if e.isDue x && e.waits x && decide (x.wait > bits (c.reg (twrBase t + 0x30)) 0 32) then
      c.towerFault t ⟨0x010A, (waitSlot e x).1, (waitSlot e x).2, x.pc, x.sched⟩ (some s.ctx)
    else c

def execStallLimitExceeded (t : Nat) (s : State) := s.act (Core.stallLimit t)

end Sys2Proof.Machine
end

