-- ==== Sys2Proof/Machine/Tick.lean ====
section
/-! DEFINITION. One beat (log 1): what passes when no command waits.  Clocks (R34, R35, R43, R44, R448), stalls, barrier waits
and the re-alignment at barriers (R38, R52 to R54), the operations under way and their faults (R65, R174). -/

namespace Sys2Proof.Machine

/-- The clocks after one beat at `e` eighths of a nominal beat. -/
def Clock.tick (k : Clock) (e : Nat) : Clock :=
  let inc := (k.eighths + e) / 8
  { k with total := k.total + 1, nominal := k.nominal + inc, eighths := (k.eighths + e) % 8, cal := k.cal + 8 * inc
           slewE := min k.slewN (k.slewE + inc), first := decide ((k.nominal + inc) / 4096 ≠ k.nominal / 4096) }

/-- Every tower of a segment's set satisfies `p`. -/
def Core.allTowers (c : Core) (im : Image) (p : Tower → Bool) : Bool := (towersOf im.towerSet).all (fun t => p (c.tower t))

/-- One beat of a swap's save or restore on tower `t` (R52, R91): cause 5. -/
def Core.swapTick (c : Core) (t : Nat) (x : Tower) : Core :=
  (c.bump (twrBase t + 0xA8) 1).setTower t (if x.st = .running then { x with swapLeft := x.swapLeft - 1, lag := x.lag + 1, stalls := x.stalls + 1 }
    else { x with swapLeft := x.swapLeft - 1 })

/-- One beat of tower `t` of a running segment (R38, R52 to R54, R86), judged on the state before the beat. -/
def Core.towerTick (c0 : Core) (c : Core) (t : Nat) : Core :=
  if (c0.tower t).swapLeft > 0 ∧ (c0.tower t).startIn = 0 then c.swapTick t (c0.tower t)
  else match c0.env t with
  | none => c
  | some (s, e) =>
    let x := c0.tower t
    let im := e.im
    let b := twrBase t
    if x.st ≠ .running then c
    else if x.startIn > 0 then c.setTower t { x with startIn := x.startIn - 1 }
    else
      let x := if e.held x then { x with inBlocked := true } else x
      let c := c.setTower t x
      if x.atBarrier then
        if c0.allTowers im (·.atBarrier) then
          let lag := ((towersOf im.towerSet).map (fun k => (c0.tower k).lag)).foldl max 0
          c.setTower t { x with atBarrier := false, sched := x.sched + 1, lag := lag }
        else (c.bump (b + 0xB8) 1).setTower t { x with waits := x.waits + 1 }
      else if x.done then
        (if c0.allTowers im (·.done) then c else (c.bump (b + 0xB8) 1).setTower t { x with waits := x.waits + 1 })
      else if e.isDue x && e.waits x then
        let k := c0.stallCause s e x
        (c.bump (b + 0x80 + 8 * k) 1).setTower t { x with
          lag := x.lag + 1, wait := x.wait + 1, cause := k, stalls := x.stalls + 1 }
      else if c0.blf.hold > 0 then
        (c.bump (b + 0xB0) 1).setTower t { x with lag := x.lag + 1, stalls := x.stalls + 1 }
      else if e.isDue x then c
      else c.setTower t { x with sched := x.sched + 1 }

/-- A storage error appears in a group that is not empty, as the free value of the beat has it (R156; log 120). -/
def Core.upset (c : Core) : Core :=
  match Config.upset c.clk.total with
  | none => c
  | some (t, g, i, bad) =>
    let x := c.tower t
    let gr := x.group g
    if gr.full ∧ i < 16384 then c.setTower t (x.setGroup g { gr with err := gr.err.set 0 i (if bad then 2 else 1) }) else c

/-- The beat's part of tower `t`'s operations: what they give, and the first fault they meet (R65, R174). -/
def Core.workTick (c : Core) (t : Nat) : Core :=
  match c.env t with
  | none => c
  | some (s, e) =>
    let x := c.tower t
    if x.jobs = [] ∧ x.landing = [] then c
    else
      let o := x.workBeat e
      let c := c.issued s t o
      match o.faults with
      | [] => c
      | f :: _ => c.towerFault t f (some s.ctx)

/-- Row checks whose latest beat is reached (R173). -/
def Core.dueChecks (c : Core) : Core :=
  (List.range 64).foldl (fun (c : Core) t =>
    ((c.tower t).checks.filter (fun k => decide (k.due ≤ c.clk.total))).foldl (fun (c : Core) _ => c.rowCheck t) c) c

/-- A park deadline is reached (R256): the CP only counts while BLF_RUN is 1. -/
def Core.parkDue (c : Core) (s : Seg) : Bool :=
  decide (c.clk.nominal ≥ s.parkNominal) || (c.blf.run && (match s.parkCp with
    | some x => atOrAfter c.cp x
    | none => false))

/-- The first beat that finds a parked request's deadline reached (R30). -/
def Core.markParked (c : Core) : Core :=
  { c with segs := c.segs.map (fun s =>
      if s.st = .parked ∧ s.overAt = none ∧ c.parkDue s then { s with overAt := some c.clk.total } else s) }

/-- A program starts (R60): index 0, the anchor at the present CP. -/
def Core.startProg (c : Core) (x : Nat) : Core :=
  c.updCtx x (fun v => { v with starts := false, running := if v.prog = [] then none else some ⟨0, c.cp, [], none⟩ })

/-- The programs loaded in the beat before for enabled contexts start (R60). -/
def Core.startProgs (c : Core) : Core :=
  c.ctxs.foldl (fun (c : Core) x => if x.2.starts then c.startProg x.1 else c) c

/-- The ballast of the window that ends is charged (R425, R430; log 100): 4,096 nominal beats of 0.8 ns at so many µW, in units of
10^-13 mJ; BLF_BALLAST_ENERGY counts the whole mJ.  No ballast runs in holdover (R413).  Reservations and ballast that are over
go. -/
def Core.windowOver (c : Core) : Core :=
  let w := c.window - 1
  let bs := if c.prc.state = .holdover then [] else c.pow.ballast
  let all := c.pow.ballastPart + (bs.map (fun b => b.draw w * 32_768)).sum
  { c with pow := { c.pow with
      charged := bs.foldl (fun (m : SMap Nat) (b : Ballast) => m.upd 0 b.ctx (· + b.draw w * 32_768)) c.pow.charged
      ballastPart := all % 10 ^ 13
      reservations := c.pow.reservations.filter (fun r => decide (c.window < r.first + r.count))
      ballast := c.pow.ballast.filter (fun b => b.draw c.window != 0 || decide (c.window < b.first)) } }.bump 0x10_0138 (all / 10 ^ 13)

/-- One beat.  The towers' operations have their part of it; what the towers count falls in the beat that passes (R441); then the clocks stand at the next one. -/
def Core.tick (c : Core) : Core :=
  let k := c.clk.tick c.eighths
  let inc := k.nominal - c.clk.nominal
  let c := (List.range 64).foldl (fun c t => (c.follow t).workTick t) c.upset
  let c1 := (List.range 64).foldl (fun c1 t => c.towerTick c1 t) c
  let c1 := { c1 with
    clk := k
    blf := { c.blf with elapsed := if c.blf.run then c.blf.elapsed + inc else c.blf.elapsed, hold := c.blf.hold - 1 } }
  let c1 := if k.first then (c1.bump 0x10_0130 (Config.freeNat c1.free)).fresh.windowOver else c1
  c1.markParked.startProgs.dueChecks

end Sys2Proof.Machine
end

