-- ==== Sys2Proof/Machine/SegCmd.lean ====
section
/-! DEFINITION. The commands on segments and release programs (02, 08, 09): admission, placement, release, end, settlement,
swaps, and the operations of R58. -/

namespace Sys2Proof.Machine

/-! Admission (R46, R267). -/

/-- Bytes of the 25 MiB image region in use (R265): each placed image less what lies in pool units. -/
def Core.imageUsed (c : Core) : Nat :=
  ((c.segs.filter (fun s => s.st = .handed || s.st = .queued || s.st = .running || s.st = .swapped)).map (fun s =>
    s.raw.length - s.pooled * 65536)).sum

/-- Pool units an image needs now, when the region's free space cannot take it (R267). -/
def Core.unitsFor (c : Core) (bytes : Nat) : Nat := ceilDiv (bytes - (25 * 2 ^ 20 - c.imageUsed)) 65536

/-- An image can never be placed under the allocations in force (R267). -/
def Core.unplaceable (c : Core) (bytes : Nat) : Bool := decide (bytes > 25 * 2 ^ 20 + (poolSize - c.ctxUnits) * 65536)

/-- Every adaptation a segment names is ready to be handed over (R255). -/
def Core.ready (c : Core) (s : Seg) : Bool :=
  s.img.adapts.all (fun i =>
    let d := c.desc i
    c.formOk s.img i && (d.claimant = 0 || d.kind = 1 || (s.resupport && d.kind = 3 && d.claimant = s.id)))

/-- A re-support may claim adaptation `i` (R181): no other claims it, and no pin on it is another's. -/
def Core.mayResupport (c : Core) (s : Seg) (i : Nat) : Bool :=
  let d := c.desc i
  (d.claimant = 0 || (d.kind = 3 && d.claimant = s.id)) && decide (d.pins ≤ b2n (s.pinned.contains i))

/-- A re-support's claims on its adaptations, as it is handed over (R181, R262). -/
def Core.claimResupport (c : Core) (s : Seg) : Core :=
  if !s.resupport then c
  else s.img.adapts.foldl (fun (c : Core) i => (c.updDesc i (fun d => { d with claimant := s.id, kind := 3 })).dropCopies i) c

/-- The code with which a request is refused at hand-over, 0 if none: STEP at its limit (R206), an adaptation that a re-support
cannot claim (R181), an image that can never be placed (R267). -/
def Core.handCode (c : Core) (s : Seg) : Nat :=
  if s.img.training ∧ s.img.ctxs.any (fun x => (c.ctx? x).any (fun v => v.commit.step = 2 ^ 32 - 1)) then 0x0A1B
  else if s.resupport ∧ !s.img.adapts.all (c.mayResupport s) then 0x0A02
  else if c.unplaceable s.raw.length then 0x0A0F
  else 0

/-- Core 3 places a segment's image in the Dome and hands it over, or leaves it waiting (R21, R267). -/
def Core.placeImage (tr : Trim) (c : Core) (s : Seg) : Core :=
  match c.handCode s with
  | 0 =>
    let c := c.claimResupport s
    let u := c.unitsFor s.raw.length
    if c.coreUp 3 ∧ c.poolUsed + u ≤ poolSize then (c.setSeg { s with st := .handed, pooled := u }).allocUnits (.image s.id) u
    else c.setSeg { s with st := .waiting }
  | code => c.refuseSeg tr s code 0

/-- The adaptations a request pins besides those it holds: all it names, but for those a claim holds against it (R31, R253). -/
def Core.toPin (c : Core) (s : Seg) : List Nat := s.img.adapts.filter (fun i => !s.pinned.contains i && decide ((c.desc i).kind ≤ 1))

/-- Pin adaptations once more. -/
def Core.pinAll (c : Core) (is : List Nat) : Core := is.foldl (fun (c : Core) i => c.updDesc i (fun d => { d with pins := d.pins + 1 })) c

/-- Parked requests pin what a claim held before (R253). -/
def Core.pinParked (c : Core) : Core := (c.segs.filter (fun s => s.st = .parked)).foldl (fun (c : Core) s0 =>
  match c.seg? s0.id with
  | some s => (c.setSeg { s with pinned := s.pinned ++ c.toPin s }).pinAll (c.toPin s)
  | none => c) c

/-- A parked request whose adaptations are ready at or before its park deadline runs, however long an earlier request of its
context holds it back (R30). -/
def Core.grant (c : Core) : Core :=
  { c with segs := c.segs.map (fun s =>
      if s.st = .parked ∧ c.ready s ∧ s.overAt.getD c.clk.total = c.clk.total then { s with granted := true } else s) }

/-- No earlier request of its context is parked or waits for its image's place (R255). -/
def Core.firstOfCtx (c : Core) (s : Seg) : Bool :=
  c.segs.all (fun x => !(x.ctx = s.ctx && (x.st = .parked || x.st = .waiting) && decide (x.id < s.id)))

/-- Unpark every request that can go on, in the order in which they parked (R29, R30, R255): a context's earlier parked request
holds its later ones back.  Core 2's duty (R21). -/
def Core.unpark (c : Core) (tr : Trim) : Core :=
  if !c.coreUp 2 then c
  else c.grant.segs.foldl (fun (c : Core) s =>
    match c.seg? s.id with
    | some s => if s.st = .parked ∧ s.granted ∧ c.ready s ∧ c.firstOfCtx s then c.placeImage tr s else c
    | none => c) c.grant

/-- A waiting image fits now, and no earlier request of its context holds it back (R255, R267). -/
def Core.fitsNow (c : Core) (s : Seg) : Bool :=
  s.st = .waiting && decide (c.poolUsed + c.unitsFor s.raw.length ≤ poolSize) && c.firstOfCtx s

/-- When room is made, the first waiting image that fits is placed and handed over (R267). -/
def Core.imagePlacement (tr : Trim) (c : Core) : Core :=
  if !c.coreUp 3 then c
  else match c.segs.find? c.fitsNow with
  | some s => (c.placeImage tr s).unpark tr
  | none => c

/-- A claim was released: fetches that waited start, what could not be pinned is, and requests that can go on do (R253 to R255). -/
def Core.wake (c : Core) (tr : Trim) : Core := ((c.kick tr).pinParked).unpark tr

def execImagePlacement (s : State) := s.actT Core.imagePlacement

/-- The plan is admissible (R49): no channel above ⌊827 n / 64⌋ lines in any window. -/
def planOk (im : Image) : Bool :=
  im.plan.all (fun r => r.2.all (fun n => decide (n ≤ 827 * (towersOf im.towerSet).length / 64)))

/-- No single window of the profile, with the idle draw, is above MAX_POWER (R46 check 7). -/
def Core.profileOk (c : Core) (im : Image) : Bool :=
  im.energy.all (fun r => decide (r.2 * 80_000_000_000_000 / (2 ^ 31 * 8) + bits (c.reg offPowerCfg) 0 16 * 1_000_000
    ≤ c.pow.maxPower * 1_000_000))

/-- `a` lies within 2^62 of `b` (R46 check 5). -/
def near (a b : Nat) : Bool :=
  let d := (a + 2 ^ 64 - b % 2 ^ 64) % 2 ^ 64
  decide (d ≤ 2 ^ 62 ∨ d ≥ 2 ^ 64 - 2 ^ 62)

/-- The admission checks of R46 in order: a code and its first argument, 0 when admitted. -/
def Core.admitCode (c : Core) (s : Seg) : Nat × Nat :=
  let im := s.img
  let v := c.ctx? s.ctx
  let test := checkImage s.raw s.raw.length ((v.map (fun v => v.heritage)).getD false) ((v.map (fun v => v.chain)).getD [])
  if !c.blf.segAdmit then (0x0309, 0)
  else if test ≠ 0 then (0x0301, test)
  else if !((v.map (fun v => v.hashes)).getD []).any (fun h => h.2 = Config.sha384 s.raw) then (0x0302, 0)
  else if (towersOf im.towerSet).any (fun t => (c.tower t).fenced || (c.prc.regions.getD (t / 4) .reset).fenced) then (0x0308, 0)
  else if !(atOrAfter im.deadline im.earliest && near im.deadline c.cp && near im.earliest c.cp) then (0x0307, 0)
  else if !planOk im then (0x0303, 0)
  else if !c.profileOk im then (0x0304, 0)
  else if (c.segs.filter (fun x => x.st = .queued || x.st = .running || x.st = .swapped)).length ≥ 1024 then (0x0306, 0)
  else (0, 0)

/-- A TRAINING segment joins the open step of each member context, opening it if none is open (R204); the record is cleared
when a step opens (R241). -/
def Core.joinSteps (c : Core) (s : Seg) : Core :=
  if !s.img.training then c
  else
    let c := s.img.ctxs.dedup.foldl (fun (c : Core) x => (c.updCtx x (fun v => v.joinStep s.id s.stepEnd)).allocTransient x) c
    c.setSeg { s with steps := s.img.ctxs }

/-- SEGMENT_ADMISSION: the oldest segment handed over, port 0 first (R354), is admitted or refused (R46). -/
def Core.admission (tr : Trim) (c : Core) : Core :=
  match c.segs.find? (fun s => s.st = .handed) with
  | none => c
  | some s =>
    if c.blf.stopped ∨ (c.keep.fwState = 2 ∧ c.keep.fwKind = 4) then c
    else match c.admitCode s with
      | (0, _) =>
        let s := { s with st := .queued }
        (c.setSeg s).joinSteps s
      | (code, arg) =>
        let c := { c with blf := { c.blf with refCode := code, refCtx := s.ctx } }
        ((c.raise (c.ctxEvent code s.ctx arg 0 0 0)).refuseSeg tr s code arg).unpark tr

def execSegmentAdmission (s : State) := s.actT Core.admission

/-! Release. -/

/-- The run page that holds the `p`-th part of group `g` of a save's `j`-th tower: 1 MiB a tower (R272). -/
def Seg.savePage (s : Seg) (j g p : Nat) : Nat := s.saveAt + 256 * j + 32 * g + p

/-- The full groups of a tower. -/
def Tower.fullGroups (t : Tower) : List Nat := (List.range 8).filter (fun g => (t.groups.getD g .empty).full)

/-- The `p`-th 4 KiB of a group's words (R148): eight words of 64 bits a line. -/
def Group.saveLines (g : Group) (p : Nat) : List (Nat × Line) :=
  (List.range 64).map (fun l => (l, BitVec.ofNat 512 (((List.range 8).map (fun k => g.words.get 0 (512 * p + 8 * l + k) % 2 ^ 64 * 2 ^ (64 * k))).sum)))

/-- The words of one part put back (R132, R148); an unreadable part comes back as NaN (log 108). -/
def Group.loadLines (g : Group) (p : Nat) (ls : Except Nat (List Line)) : Group :=
  let word (l k : Nat) : Nat := match ls with
    | .ok ls => entryClean (bits (ls.getD l 0).toNat (64 * k) 64)
    | .error _ => entryWord .nan false 0 false
  { g with words := (List.range 512).foldl (fun (m : SMap Nat) i => m.set 0 (512 * p + i) (word (i / 8) (i % 8))) g.words }

/-- The groups of a segment's save, as (place among its towers, tower, group, part). -/
def Seg.saveParts (ts : List (Nat × Tower)) : List (Nat × Nat × Nat × Nat) :=
  ts.zipIdx.flatMap (fun (x : (Nat × Tower) × Nat) => x.1.2.fullGroups.flatMap (fun g => (List.range 32).map (fun p => (x.2, x.1.1, g, p))))

/-- A swapped segment's groups come back from its save (R148, R273), as traffic without a deadline (R293); the save's frames are
free. -/
def Core.restoreSeg (c : Core) (dr : Dram) (s : Seg) : Core :=
  ((Seg.saveParts s.saved).foldl (fun (c : Core) x =>
    let u := s.savePage x.1 x.2.2.1 x.2.2.2
    let r := c.readPage dr (16384 + s.ctx) u (List.range 64)
    let t := r.1.tower x.2.1
    let g := (t.groups.getD x.2.2.1 .empty).loadLines x.2.2.2 r.2
    (r.1.noDeadline (u % 16) (List.range 64)).setTower x.2.1 { t with groups := t.groups.set x.2.2.1 g }) c).dropSave s

/-- SEGMENT_RELEASE: the first segment that R47 releases now. -/
def Core.release (c : Core) (dr : Dram) : Core :=
  match c.nextRelease c.byDefault with
  | some x => (c.releaseSeg x.1 x.2).restoreSeg dr x.1
  | none => c

def execSegmentRelease (s : State) := s.actM (fun c d => (c.release d, d))

/-- A segment that never runs leaves the steps it joined, and reopens those it closed (log 21). -/
def Core.leaveSteps (c : Core) (s : Seg) : Core :=
  (s.steps.foldl (fun (c : Core) x => c.updCtx x (fun v => v.mapRecs (fun r =>
    { r with segs := r.segs.filter (· != s.id), closing := if r.closing = some s.id then none else r.closing }))) c).dueSettle

/-- DROP_LATE (R48): the first queued segment whose deadline CP has passed completes without running. -/
def Core.dropLate (tr : Trim) (c : Core) : Core :=
  match c.segs.find? c.tooLate with
  | none => c
  | some s =>
    let c := c.leaveSteps s
    c.cancelSeg tr s 0x0305 0
def execDropLateExpiry (s : State) := s.actT Core.dropLate

/-- A re-support whose segment ended well leaves a new shape in the descriptor (R158, R180, R181): the model's is a free value,
taken if it is a shape whose run the adaptation's pages can hold (log 101). -/
def Desc.reshape (d : Desc) (shape : List Byte) : Desc :=
  let s := (shapeSlots shape).1
  let e := { d with shape := shape, matrices := shapeCount shape, slots := s, pages := ceilDiv s 1344 }
  if (shapeSlots shape).2 && d.training && decide (e.runPages ≤ d.runPages) then { e with dirty := true } else d

/-- The adaptations of a re-support take their new shapes. -/
def Core.resupported (c : Core) (s : Seg) : Core :=
  if s.resupport ∧ s.out.fault = 0 then
    s.img.adapts.foldl (fun (c : Core) i => (c.updDesc i (fun d => d.reshape (Config.freeShape c.free))).fresh) c
  else c

/-- The tower holds its segment back no more: it issued its last bundle in an earlier beat; or the segment has met a fault, and the
tower has stopped or is done, with its operations at their end (R78), or is under reset. -/
def Seg.over (s : Seg) (now : Nat) (t : Tower) : Bool :=
  if s.out.fault = 0 then decide (t.seg = some s.id) && t.done && decide (t.doneAt < now)
  else t.seg != some s.id || ((t.done || t.st = .faulted) && t.jobs = [] && t.landing = [])

/-- SEGMENT_END (R55, R78): the first running segment whose towers have all issued their last bundle, in an earlier beat, ends with
that beat, and its towers are free from the next; one that a fault has stopped ends with this one. -/
def Core.segmentEnd (tr : Trim) (c : Core) : Core :=
  match c.segs.find? (fun s => s.st = .running && c.allTowers s.img (s.over c.clk.total)) with
  | none => c
  | some s => (((c.resupported s).dropClaim s).endSeg tr s (if s.out.fault = 0 then c.clk.total else c.clk.total + 1)).wake tr

def execSegmentEnd (s : State) := s.actT Core.segmentEnd

/-- STEP_SETTLE (R237): the first closing segment whose 9 beats have passed is settled. -/
def Core.stepSettle (tr : Trim) (c : Core) : Core :=
  if c.keep.fwState = 2 ∧ c.keep.fwKind = 4 then c
  else match c.segs.find? (fun s => s.st = .ended && decide (s.due ≠ 0 ∧ s.due ≤ c.clk.total)) with
  | some s => c.settle tr s
  | none => c

def execStepSettle (s : State) := s.actT Core.stepSettle

/-! Swaps (R91, R272, R273). -/

/-- Towers in use by released segments of a port's functions (R353). -/
def Core.usedTowers (c : Core) (p : Nat) : Nat :=
  ((c.segs.filter (fun s => s.st = .running && s.req.f.port = p)).map (fun s => (towersOf s.img.towerSet).length)).sum

/-- SHARE of a port (R353). -/
def Core.share (c : Core) (p : Nat) : Nat :=
  let w (k : Nat) := bits (c.reg (hstBase k + 0x18)) 0 8
  let t := (c.towers.filter (fun x => !x.fenced)).length
  t * w p / max 1 (w 0 + w 1)

/-- A running segment stands at a yield point: every tower at the same barrier (R90, R91). -/
def Core.atYield (c : Core) (s : Seg) : Bool :=
  c.allTowers s.img (·.atBarrier) && (match towersOf s.img.towerSet with
    | t :: _ => (s.img.barriers.getD ((c.tower t).barriers - 1) (0, false)).2
    | [] => false)

/-- Some queued segment of another context, swapped ones among them (R273), needs a tower and its host is below its share
(R272). -/
def Core.wanted (c : Core) (s : Seg) : Bool :=
  c.segs.any (fun x => (x.st = .queued || x.st = .swapped) && x.ctx != s.ctx
    && decide (c.usedTowers x.req.f.port < c.share x.req.f.port) && x.shares s)

/-- Frames of a segment's save: 1 MiB a tower (R272). -/
def Seg.saveFrames (s : Seg) : Nat := 256 * (towersOf s.img.towerSet).length

/-- Frames in the segment's context's transient space for its save, and the run page they start at (R272, R273; log 18). -/
def Core.saveSpace (c : Core) (s : Seg) : Option (Core × Nat) :=
  let k := 16384 + s.ctx
  let slot := ((c.ctx? s.ctx).map (fun v => v.keySlot)).getD 0xFFFF
  let e := (c.runEnt k).getD ⟨slot, (c.slot slot).gen, 2 ^ 35 + s.ctx * 2 ^ 20, 0, false, []⟩
  let at_ := (e.extents.map (fun x => x.start + 16 * x.k)).foldl max saveBase
  (c.place s.saveFrames).map (fun b => (c.setRun k { e with extents := e.extents ++ [(⟨at_, b, s.saveFrames / 16⟩ : Extent)] }, at_))

/-- The words of a segment's full groups are written out under its context's key slot (R91, R148, R273), as traffic without a
deadline (R293). -/
def Core.saveSeg (c : Core) (dr : Dram) (s : Seg) (ts : List (Nat × Tower)) : Core × Dram :=
  (Seg.saveParts ts).foldl (fun (r : Core × Dram) x =>
    let u := s.savePage x.1 x.2.2.1 x.2.2.2
    let y := r.1.writePage r.2 (16384 + s.ctx) u (((r.1.tower x.2.1).groups.getD x.2.2.1 .empty).saveLines x.2.2.2)
    (y.1.noDeadline (u % 16) (List.range 64), y.2.1)) (c, dr)

/-- What of a tower is kept at its yield point (R91): registers, loop counters and the state of its groups, whose words lie in the
save. -/
def Tower.saved (t : Tower) : Tower :=
  { t with atBarrier := false, sched := t.sched + 1, lag := t.lag + t.swapBeats, stalls := t.stalls + t.swapBeats
           groups := t.groups.map (fun g => { g with words := [] }) }

/-- Swap a segment out (R91, R273): its save is written, its towers hold their groups for the save's beats and are free after
them; GTH_SWAPS. -/
def Core.swapSeg (c : Core) (dr : Dram) (s : Seg) : Core × Dram :=
  let ts := (towersOf s.img.towerSet).map (fun t => (t, c.tower t))
  let r := c.saveSeg dr s ts
  let now := c.clk.total
  let free (t : Tower) : Tower := { Tower.reset t.testEnd with
      st := .swapped, fault := t.fault, testDone := t.testDone, testPass := t.testPass, fenced := t.fenced, testUnit := t.testUnit
      swapLeft := t.swapBeats, holds := t.swapHolds (now + t.swapBeats), freeFrom := now + t.swapBeats }
  let c := { r.1 with towers := r.1.towers.map (fun (t : Tower) => if t.seg = some s.id then free t else t) }
  ((c.setSeg { s with st := .swapped, saved := ts.map (fun x => (x.1, x.2.saved)) }).bump 0x458 1, r.2)

/-- The conditions of R272 but the other host's need: one tenant, every group released by the operations that held it (R148), and
save space that tier 1 can provide. -/
def Core.swappable (c : Core) (s : Seg) : Bool :=
  c.atYield s && decide (s.img.slots.length ≤ 1) && c.allTowers s.img (fun t => t.holds.all (fun h => decide (h.until_ ≤ c.clk.total)))
    && c.allTowers s.img (fun t => t.jobs = [] && t.landing = [] && t.checks = []) && c.canFree s.saveFrames

/-- SWAP_OUT of the segment on tower `t` by core 3 (R21, R272; in an orderly stop R417 step 2): where frames are short, clean
entries give way at once, and write-backs that start let a later SWAP_OUT find room (R260). -/
def Core.swapOut (tr : Trim) (t : Nat) (c : Core) (dr : Dram) : Core × Dram :=
  match (c.tower t).seg.bind c.seg? with
  | some s =>
    if s.st = .running ∧ c.coreUp 3 ∧ c.swappable s ∧ (c.wanted s ∨ c.prc.state = .stopping) then
      let c := c.evictFor tr dr s.saveFrames
      match c.saveSpace s with
      | some x => x.1.swapSeg dr { s with saveAt := x.2 }
      | none => (c, dr)
    else (c, dr)
  | none => (c, dr)

def execSwapOut (t : Nat) (s : State) := s.actM (Core.swapOut s.trim t)

/-- SELF_TEST_DONE (R153, R154): tower `t`'s self-test ends; `unit` is the first failing unit, 0 when it passed. -/
def Core.selfTest (t unit : Nat) (c : Core) : Core :=
  let x := c.tower t
  if x.testDone ∨ c.clk.nominal < x.testEnd then c
  else
    let c := c.setTower t { x with testDone := true, testPass := unit = 0, testUnit := unit, fenced := decide (unit ≠ 0) || (c.prc.regions.getD (t / 4) .reset).fenced }
    if unit = 0 then c else c.raise (sysEvent 0x010B unit 0 0 t)

def execSelfTestDone (t unit : Nat) (s : State) := s.act (Core.selfTest t unit)

/-! Release programs (R57 to R60). -/

/-- The opcode, flags and operand are those of R58.  DESIGN CHOICE (log 99): an operand outside its range in R58's table (a
WAIT_PULSE of 0, a FORECAST of 0 windows) and bits [23:0] of a BALLAST, which the table does not name, are held to be bad. -/
def progWordOk (w : Nat) (i : Nat) : Bool :=
  match pOp w with
  | 0 => pFlags w = 0 && pArg w = 0
  | 1 => decide (pFlags w < 2) && pArg w = 0
  | 2 => pFlags w = 0
  | 3 => pFlags w = 0 && decide (1 ≤ pArg w ∧ pArg w < 2 ^ 16)
  | 4 => pFlags w = 0 && bits w 0 24 = 0 && decide (bits w 24 16 ≥ 1)
  | 5 => pFlags w = 0 && bits w 0 24 = 0
  | 6 => pFlags w = 0 && bits w 6 42 = 0 && decide (bits w 0 6 < i)
  | 7 => pFlags w = 0 && pArg w = 0
  | _ => false

/-- How deep the LOOP at index `i` nests (R57): the LOOPs whose bodies hold its whole body, itself among them.  DESIGN CHOICE
(log 99): bodies that overlap without one holding the other do not nest. -/
def loopDepth (ws : List Nat) (i : Nat) : Nat :=
  ((ws.zipIdx.filter (fun x => pOp x.1 = 6 && decide (bits x.1 0 6 ≤ bits (ws.getD i 0) 0 6 ∧ i ≤ x.2)))).length

/-- The index of a release program's first bad operation (R57). -/
def progBad (ws : List Nat) : Option Nat :=
  match ws.zipIdx.find? (fun x => !progWordOk x.1 x.2 || (pOp x.1 = 6 && decide (loopDepth ws x.2 > 2))) with
  | some x => some x.2
  | none => match ws.getLast? with
    | some w => if pOp w = 0 ∨ (pOp w = 6 ∧ bits w 48 8 = 0) then none else some (ws.length - 1)
    | none => some 0

/-- A program reaches END (R58): its reservations stand until their windows are over. -/
def Core.finishProg (c : Core) (x : Nat) : Core := c.updCtx x (fun v => { v with running := none })

/-- A program is ended from outside, by a load or a disable: its reservations are released (R60). -/
def Core.endProg (c : Core) (x : Nat) : Core :=
  (c.updCtx x (fun v => { v with running := none, starts := false })).withoutReservations x

/-- Run the operation the program of context `x` stands at, if it has opcode `op` and nothing holds it (R60). -/
def Core.progOp (x op : Nat) (f : Core → Ctx → ProgRun → Nat → Core) (c : Core) : Core :=
  match c.ctx? x with
  | none => c
  | some v => match v.running with
    | none => c
    | some r =>
      let w := v.prog.getD r.idx 0
      if !v.enable || r.waitEnd.isSome || pOp w != op then c else f c v r w

/-- The program of context `x` goes on with `r`. -/
def Core.goto (c : Core) (x : Nat) (r : ProgRun) : Core := c.updCtx x (fun v => { v with running := some r })

/-- RELEASE (R58, R60): mismatched segments complete with 0x030B until one matches; it is released under R47. -/
def Core.progRelease (tr : Trim) (x : Nat) (c : Core) : Core :=
  c.progOp x 1 (fun c _ r w =>
    match c.segs.find? (fun s => s.ctx = x && s.st = .queued) with
    | none => c
    | some s =>
      if s.img.releaseIndex ≠ 0xFF ∧ s.img.releaseIndex ≠ r.idx then
        (c.leaveSteps s).cancelSeg tr s 0x030B 0
      else match c.nextRelease (fun y => y.id = s.id) with
        | none => c
        | some y =>
          let c := c.releaseSeg y.1 y.2
          let c := c.withoutReservations x
          c.goto x { r with idx := r.idx + 1, anchor := c.cp, waitEnd := if pFlags w = 1 then some s.id else none })

def execRelease (x : Nat) (s : State) := s.actT (fun tr => Core.progRelease tr x)

def execWaitRel (x : Nat) (s : State) := s.act (Core.progOp x 2 (fun c _ r w =>
  if atOrAfter c.cp ((r.anchor + pArg w) % 2 ^ 64) then c.goto x { r with idx := r.idx + 1 } else c))

/-- WAIT_PULSE (R58): the pulses after the anchor, then the phase slot (R423). -/
def execWaitPulse (x : Nat) (s : State) := s.act (Core.progOp x 3 (fun c _ r w =>
  if atOrAfter c.cp ((r.anchor / 2 ^ 24 + pArg w) % 2 ^ 40 * 2 ^ 24) && c.inSlot then c.goto x { r with idx := r.idx + 1 } else c))

/-- FORECAST (R58, R59): reserve, once it fits. -/
def execForecast (x : Nat) (s : State) := s.act (Core.progOp x 4 (fun c _ r w =>
  let c' := { c with pow := { c.pow with reservations := c.pow.reservations ++ [(⟨x, bits w 40 16, c.window, bits w 24 16⟩ : Reservation)] } }
  if c.prc.state != .holdover && c'.fits c'.loads c'.eighths then c'.goto x { r with idx := r.idx + 1 } else c))

/-- BALLAST (R58, R59, R425): at most MAX_POWER and the joint capacity of the towers without a segment. -/
def execBallast (x : Nat) (s : State) := s.act (Core.progOp x 5 (fun c _ r w =>
  let free := (List.range 64).filter (fun t => (c.tower t).seg.isNone && !(c.tower t).fenced)
  let watts := min (min (bits w 40 16) c.pow.maxPower) (free.length * 16 * 8 / c.eighths)
  let c := if c.prc.state = .holdover then c
    else { c with pow := { c.pow with ballast := c.pow.ballast ++ [(⟨x, free, watts, c.window, bits w 24 16, c.pow.rampDown⟩ : Ballast)] } }
  c.goto x { r with idx := r.idx + 1 }))

/-- LOOP (R58): branch to the target the given number of times; count 0 is without end. -/
def execReleaseLoop (x : Nat) (s : State) := s.act (Core.progOp x 6 (fun c _ r w =>
  let n := bits w 48 8
  let k := r.loops.get 0 r.idx
  if n = 0 then c.goto x { r with idx := bits w 0 6 }
  else if k < n then c.goto x { r with idx := bits w 0 6, loops := r.loops.set 0 r.idx (k + 1) }
  else c.goto x { r with idx := r.idx + 1, loops := r.loops.erase r.idx }))

def execSetAnchor (x : Nat) (s : State) := s.act (Core.progOp x 7 (fun c _ r _ =>
  c.goto x { r with idx := r.idx + 1, anchor := c.cp }))

def execReleaseEnd (x : Nat) (s : State) := s.act (Core.progOp x 0 (fun c _ _ _ => c.finishProg x))

end Sys2Proof.Machine
end

