-- ==== Sys2Proof/Machine/TimeCmd.lean ====
section
/-! DEFINITION. The commands of time (02): the cadence reference (R39 to R42), wraps (R34, R45, R448), the factor (R36 to R38,
R426, R427), BLF_CTL (R61), and the Gatehouse's health and park deadlines (01 R24, R30). -/

namespace Sys2Proof.Machine

/-! The reference. -/

/-- The configured sources in order (R41, BLF_TREF_CTL). -/
def Core.sourceOrder (c : Core) : List Nat := [bits (c.reg offTref) 0 2, bits (c.reg offTref) 2 2, bits (c.reg offTref) 4 2]

/-- The edge of a pin that a source takes (R39): ETR's leading edge, LSYNC's selected edge. -/
def Core.edgeOk (c : Core) (src : Nat) (rising : Bool) : Bool :=
  if src = 0 then rising else if src = 1 then rising != bit (c.reg offTref) 6 else true

/-- The mean of the last 16 periods (R44). -/
def meanOf (ps : List Nat) : Nat := if ps.length = 0 then 0 else ps.sum / ps.length

/-- A pulse is counted while BLF_RUN is 1 (R43); `late` nominal beats have passed since its edge. -/
def Core.countPulse (c : Core) (late : Nat) : Core :=
  if c.blf.run then { c with blf := { c.blf with pulses := c.blf.pulses + 1, elapsed := late, fracP := c.period } } else c

/-- Calendar discipline at a pulse that ended a period of `took` nominal beats (R448). -/
def Clock.discipline (k : Clock) (nominal took : Nat) : Clock :=
  let k := { k with cal := k.calNow, slewD := 0, slewN := 1, slewE := 0 }
  let d : Int := ((nominal : Int) - took) * 8
  if d.natAbs * 10_000 ≤ took * 8 then { k with slewD := d, slewN := max 1 took, slewE := 0 } else k

/-- The calendar is disciplined by the source in use (R448). -/
def Core.disciplined (c : Core) : Bool :=
  c.tref.st = .locked && (c.tref.active = 0 || (c.tref.active = 2 && c.tref.origin = 0))

/-- The period of the synthetic train now (R41, R42). -/
def Core.trainPeriod (c : Core) : Nat :=
  match c.tref.st with
  | .search => c.nominalPeriod
  | .locking => if c.tref.trainP = 0 then c.period else c.tref.trainP
  | _ => c.period

/-- The phase error of an edge against the nearest pulse of the synthetic train, in nominal beats (R41). -/
def Core.trainPhase (c : Core) (edge : Nat) : Int :=
  let p : Int := ((max 1 c.trainPeriod : Nat) : Int)
  let off := ((edge : Int) - (c.tref.train : Int)) % p
  if off * 2 > p then off - p else off

/-- An accepted pulse of the source being tried (R41, R42, log 92): within ±8 ns it is one more good pulse, and the 16th of a
run ends in LOCKED; the pulse is counted there if the train's pulse beside it has not come yet. -/
def Core.tryPulse (c : Core) (edge late : Nat) : Core :=
  let r := c.tref
  let phase := c.trainPhase edge
  let good := if phase.natAbs * 8 ≤ 80 then r.good + 1 else 0
  let r := { r with phase := phase * 8 / 10, good := good }
  if good ≥ 16 then
    let c' : Core := { c with tref := { r with st := .locked, train := edge } }
    (if (edge : Int) - phase > (c.tref.train : Int) then c'.countPulse late else c').raise (sysEvent 0x0313 0 0 0 0)
  else { c with tref := r }

/-- A configured source's pulse starts LOCKING (R41); the train goes on with its period. -/
def Core.startLocking (c : Core) (src edge late : Nat) : Core :=
  ({ c with tref := { c.tref with
      st := .locking, active := src, lastPulse := edge, good := 0, entered := edge
      wasFree := if c.tref.st = .locking then c.tref.wasFree else c.tref.st = .freeRun, trainP := c.trainPeriod } } : Core).tryPulse edge late

/-- An accepted pulse whose edge was `late` nominal beats ago, from the source in use (R40 to R44). -/
def Core.acceptPulse (c : Core) (edge late : Nat) : Core :=
  let r := c.tref
  let took := edge - r.lastPulse
  let ps := (r.periods ++ [took]).drop (r.periods.length + 1 - 16)
  let r := { r with periods := ps, period := meanOf ps, lastPulse := edge }
  match c.tref.st with
  | .locked =>
    let phase : Int := (took : Int) - c.period
    let c := if c.disciplined then { c with clk := c.clk.discipline c.nominalPeriod took } else c
    { c with tref := { r with phase := phase * 8 / 10, train := edge } }.countPulse late
  | _ => ({ c with tref := r } : Core).tryPulse edge late

/-- Source `a` stands before source `b` in the configured order. -/
def Core.before (c : Core) (a b : Nat) : Bool :=
  decide (c.sourceOrder.findIdx (· = a) < c.sourceOrder.findIdx (· = b))

/-- A pulse of a source, its edge `late` nominal beats ago (R40, R41).  The range of R40, 1 µs to 20 ms, is held by
NOMINAL_PERIOD's own; a measured period is judged against the tracked one only (log 98). -/
def Core.pulse (c : Core) (src late : Nat) : Core :=
  let edge := c.clk.nominal - late
  match c.tref.st with
  | .search | .freeRun => if c.sourceOrder.contains src then c.startLocking src edge late else c
  | _ =>
    if src ≠ c.tref.active then
      -- two sources in one nominal beat: the earlier in the configured order is taken (R41)
      if c.tref.st = .locking && c.tref.entered = edge && c.sourceOrder.contains src && c.before src c.tref.active then
        c.startLocking src edge late
      else c
    else
      let p := c.period
      let took := edge - c.tref.lastPulse
      if p * 99 ≤ took * 100 ∧ took * 100 ≤ p * 101 then c.acceptPulse edge late
      else { c with tref := { c.tref with dropped := c.tref.dropped + 1, good := 0 } }.raise (sysEvent 0x0314 0 0 0 0)

/-- CADENCE_PULSE: an edge on the pins of source 0 or 1 (R39 to R41). -/
def Core.cadencePulse (src : Nat) (rising : Bool) (c : Core) : Core :=
  if src < 2 ∧ c.edgeOk src rising then c.pulse src 0 else c

def execCadencePulse (src : Nat) (rising : Bool) (s : State) := s.act (Core.cadencePulse src rising)

/-- The train's next period in LOCKING (R42): towards the source's predicted edges, changed by at most 1/1,000. -/
def Core.slewed (c : Core) (due : Nat) : Nat :=
  let cur := c.trainPeriod
  let p := max 1 c.period
  let n := max 1 ((due + cur - c.tref.lastPulse + p / 2) / p)
  max (cur - cur / 1000) (min (cur + cur / 1000) (c.tref.lastPulse + n * p - due))

/-- SYNTHETIC_PULSE: the train's next pulse is due while no source is LOCKED (R41, R42). -/
def Core.syntheticPulse (c : Core) : Core :=
  let due := c.tref.train + c.trainPeriod
  if c.tref.st = .locked ∨ c.clk.nominal < due then c
  else
    let r := { c.tref with train := due, trainP := if c.tref.st = .locking then c.slewed due else c.tref.trainP }
    { c with tref := r }.countPulse (c.clk.nominal - due)

def execSyntheticPulse (s : State) := s.act Core.syntheticPulse

/-- A source other than `src` is configured (R41). -/
def Core.nextSource (c : Core) (src : Nat) : Bool := c.sourceOrder.any (fun k => decide (k < 3) && k != src)

/-- SOURCE_LOST: no accepted pulse within 1.5 tracked periods (R41): a LOCKED reference goes to FREE_RUN from the due edge; one
that was LOCKING goes to SEARCH where no next source is configured, and else on watching from where it came (log 22). -/
def Core.sourceLost (c : Core) : Core :=
  let p := c.period
  if (c.clk.nominal - c.tref.lastPulse) * 2 ≤ 3 * p then c
  else match c.tref.st with
  | .locked =>
    let edge := c.tref.lastPulse + p
    let c := { c with tref := { c.tref with st := .freeRun, active := 3, train := edge, trainP := p, good := 0 } }
    (c.countPulse (c.clk.nominal - edge)).raise (sysEvent 0x0312 0 0 0 0)
  | .locking => { c with tref := { c.tref with
      st := if c.tref.wasFree && c.nextSource c.tref.active then .freeRun else .search, active := 3, good := 0 } }
  | _ => c

def execSourceLost (s : State) := s.act Core.sourceLost

/-! Wraps. -/

/-- BLF_BEAT passed 2^64 (R34). -/
def execBeatCounterWrap (s : State) := s.act (fun c =>
  if c.clk.total / 2 ^ 64 > c.blf.wraps then { c with blf := { c.blf with wraps := c.blf.wraps + 1 } }.raise (sysEvent 0x0315 0 0 0 0) else c)

/-- PULSES passed 2^40 (R45). -/
def execCpWrap (s : State) := s.act (fun c =>
  if c.blf.pulses ≥ 2 ^ 40 then { c with blf := { c.blf with pulses := c.blf.pulses % 2 ^ 40 } }.raise (sysEvent 0x0315 0 0 0 0) else c)

/-- Calendar time wraps with no event (R448). -/
def execCalendarWrap (s : State) := s.act (fun c =>
  if c.clk.calNow ≥ 10 * 2 ^ 64 ∧ c.clk.cal ≥ 10 * 2 ^ 64 then { c with clk := { c.clk with cal := c.clk.cal % (10 * 2 ^ 64) } } else c)

/-! The factor. -/

/-- A protective drop of the first bin's mean draw beyond RAMP_DOWN (R426): event 0x080B with the drop in W, PRC_WAIVED. -/
def Core.unfilled (c : Core) (before after : Nat) : Core :=
  let drop := (before - after) / 125
  if drop * 10 > c.pow.rampDown * 4_096_000 then (c.raise (sysEvent 0x080B (drop / 1_000_000) 0 0 0)).bump 0x30_0098 1 else c

/-- The first bin's draw as it stands. -/
def Core.binNow (c : Core) : Nat := c.binSum c.loads c.eighths 0

/-- Put factor code `k` in force (R38): the 4-beat hold, event 0x0311. -/
def Core.setFactor (c : Core) (k : Nat) : Core :=
  let old := c.blf.applied
  { c with blf := { c.blf with applied := k, hold := 4, lastStep := c.clk.total, stepWait := false } }.raise
    (sysEvent 0x0311 old k c.sources 0)

/-- The beat allows a change (R38): a multiple of 32 with no change under way. -/
def Core.changeBeat (c : Core) : Bool := c.clk.total % 32 = 0 && c.blf.hold = 0

/-- FACTOR_CHANGE: a larger request takes effect (R37, R38, R426). -/
def Core.factorChange (c : Core) : Core :=
  if c.changeBeat && decide (c.request > c.blf.applied) then
    let c' := c.setFactor (min 5 c.request)
    c'.unfilled c.binNow c'.binNow
  else c

def execFactorChange (s : State) := s.act Core.factorChange

/-- FACTOR_STEP_DOWN: one code down, 65,536 beats after the last request cleared, at a beat at which the forecast fits
(R37, R427). -/
def Core.factorStepDown (c : Core) : Core :=
  if c.changeBeat && decide (c.request < c.blf.applied) && decide (c.clk.total ≥ max c.blf.lastClear c.blf.lastStep + 65536) then
    if c.fits c.loads (factorEighths (c.blf.applied - 1)) then c.setFactor (c.blf.applied - 1)
    else { c with blf := { c.blf with stepWait := true } }
  else c

def execFactorStepDown (s : State) := s.act Core.factorStepDown

/-! BLF_CTL (R61). -/

/-- A host write of the administration PF (R334): nothing happens for any other function. -/
def adminAct (f : FnId) (g : Core → Core) (s : State) := s.actT (fun tr c => if f = tr.admin then g c else c)

/-- A Belfry enable check's refusal: context 0xFFFF (R61). -/
def Core.blfRefuse (c : Core) (code : Nat) : Core := { c with blf := { c.blf with refCode := code, refCtx := 0xFFFF } }

def Core.runSet (c : Core) : Core :=
  if c.blf.run then c
  else if !(c.tref.st = .locked || bit (c.reg offTref) 7) then c.blfRefuse 0x0320
  else if !c.pow.apply then c.blfRefuse 0x0321
  else { c with blf := { c.blf with run := true, everRun := true, fracP := if c.blf.elapsed = 0 then c.period else c.blf.fracP } }

def execBlfRunSet (f : FnId) (s : State) := adminAct f Core.runSet s

def execBlfRunClear (f : FnId) (s : State) := adminAct f (fun c => { c with blf := { c.blf with run := false } }) s

def Core.admitSet (c : Core) : Core :=
  if c.blf.segAdmit then c
  else if !c.blf.run then c.blfRefuse 0x0323
  else if c.towers.all (fun t => t.fenced) then c.blfRefuse 0x0324
  else { c with blf := { c.blf with segAdmit := true } }

def execSegAdmitSet (f : FnId) (s : State) := adminAct f Core.admitSet s

def execSegAdmitClear (f : FnId) (s : State) := adminAct f (fun c => { c with blf := { c.blf with segAdmit := false } }) s

/-- A 64-bit read of BLF_CP latches the beat counter (BLF_CP's header). -/
def execBlfCpRead (f : FnId) (s : State) :=
  adminAct f (fun c => { c with blf := { c.blf with beatLatch := c.clk.total % 2 ^ 64 } }) s

/-! The Gatehouse. -/

/-- A core halts (R24). -/
def Core.coreHalt (k : Nat) (c : Core) : Core :=
  if c.gate.halted.getD k true then c
  else ({ c with gate := { c.gate with halted := c.gate.halted.set k true, run := c.gate.run.set k false } }.raise
    (sysEvent 0x0A0E k 0 0 k)).failN 2

def execCoreHalt (k : Nat) (s : State) := s.act (Core.coreHalt k)

/-- A parked request's deadline was reached in an earlier beat, and its adaptations were not ready by then (R30). -/
def Core.parkOver (c : Core) (s : Seg) : Bool :=
  s.st = .parked && !s.granted && (match s.overAt with
    | some b => decide (b < c.clk.total)
    | none => false)

/-- PARK_DEADLINE_EXPIRED: the first such request completes with 0x0A06 (R30); the fetch is not cancelled. -/
def Core.parkExpired (tr : Trim) (c : Core) : Core :=
  if !c.coreUp 2 then c
  else match c.segs.find? c.parkOver with
  | some s => ((c.bump 0x448 1).cancelSeg tr s 0x0A06 0).wake tr
  | none => c

def execParkDeadlineExpired (s : State) := s.actT Core.parkExpired

end Sys2Proof.Machine
end

