-- ==== Sys2Proof/Machine/MemCmd.lean ====
section
/-! DEFINITION. The commands of the memory controllers (10) and of residency (09): line reads and writes, retries, scrubbing,
refresh, initialisation; fetches, evictions, write-backs and tier-0 copies. -/

namespace Sys2Proof.Machine

/-! Lines (R282, R285 to R288, R323). -/

/-- Deliver a line, or a poison code. -/
def Core.lineOut (c : Core) (r : LineReq) (poison : Nat) (data : Line) : Core :=
  { c with mem := { c.mem with last := some ⟨r.entry, r.u, r.line, poison, data⟩ } }

/-- The other lines of a page that stay uncorrectable. -/
def PageSnap.others (p : PageSnap) (line : Nat) : PageSnap := { p with bad := p.bad.filter (fun i => i != line) }

/-- The stored line of a page as a read found it. -/
def PageSnap.line (p : PageSnap) (i : Nat) : Line := ((p.lines.find? (fun l => l.1 = i)).map (fun l => l.2)).getD 0

/-- A line whose own words are good: the other lines and the tag of a TAGGED page, then the plaintext (R285, R287). -/
def Core.lineGood (c : Core) (r : LineReq) (e : RunEnt) (pfn : Nat) (p : PageSnap) : Core :=
  match c.verify e pfn (p.others r.line) with
  | (c, 0) => c.lineOut r 0 (c.plain r.entry e r.u r.line (p.line r.line))
  | (c, code) => c.lineOut r code 0

/-- The frame of a line request, or the code it completes with (R284, R323). -/
def Core.lineAt (c : Core) (r : LineReq) : Except Nat (RunEnt × Nat) :=
  if c.noMemory then .error 0x040A
  else match c.runEnt r.entry with
    | none => .error 0x0505
    | some e => match e.frame r.u with
      | none => .error 0x0505
      | some pfn => if systemEntry r.entry ∨ c.slotCode (pfn % 16) r.slot r.gen = 0 then .ok (e, pfn) else .error 0x0505

/-- MEM_LINE_READ: `chk` is what the check bytes of the line gave; a line left uncorrectable stays so (R282). -/
def Core.lineRead (r : LineReq) (chk : Check) (c : Core) (dr : Dram) : Core :=
  match c.lineAt r with
  | .error p => (if p = 0x0505 then c.bump 0x20_0040 1 else c).lineOut r p 0
  | .ok (e, pfn) =>
    let p := c.snapPage dr r.entry e r.u pfn [r.line]
    let touched := if e.tagged then List.range 64 else [r.line]
    let c := c.countLines (pfn % 16) 0 touched
    let c := if e.tagged then c.countTag (pfn % 16) 0 (pfn / 16) else c
    if chk = .uncorrectable ∨ c.mem.bad.get 0 (64 * pfn + r.line) ≠ 0 then
      { c with mem := { c.mem with retries := c.mem.retries ++ [⟨r, p⟩] } }
    else
      let c := if chk = .single then (c.raise (lineEvent 0x0401 pfn r.line)).chan (pfn % 16) (r.line / 8) 3 1 else c
      c.lineGood r e pfn p

def execMemLineRead (entry u line slot gen : Nat) (chk : Check) (s : State) :=
  s.actM (fun c d => (Core.lineRead ⟨entry, u, line, slot, gen⟩ chk c d, d))

/-- CHECK_BYTE_RETRY (R282): the line and its check line are read again, for the oldest read that waits for it.  A line that a write
has replaced meanwhile is no longer uncorrectable. -/
def Core.checkRetry (chk : Check) (c : Core) (dr : Dram) : Core :=
  match c.mem.retries with
  | [] => c
  | ⟨r, p⟩ :: rs =>
    let c := { c with mem := { c.mem with retries := rs } }
    match c.lineAt r with
    | .error p => (if p = 0x0505 then c.bump 0x20_0040 1 else c).lineOut r p 0
    | .ok (e, pfn) =>
      let k := r.line / 8
      let c := c.retryLine pfn r.line
      if chk = .uncorrectable ∨ c.mem.bad.get 0 (64 * pfn + r.line) ≠ 0 then
        let c := (p.others r.line).bad.foldl (fun (c : Core) j => c.badLine pfn j) (c.ueLine pfn r.line)
        let bad := if c.storedLine dr r.entry r.u pfn r.line = p.line r.line then c.mem.bad.set 0 (64 * pfn + r.line) 1 else c.mem.bad
        { c with mem := { c.mem with bad := bad } }.lineOut r 0x0403 0
      else
        let c := c.raise (lineEvent 0x0402 pfn r.line)
        (if chk = .single then c.chan (pfn % 16) k 3 1 else c).lineGood r e pfn p

def execCheckByteRetry (chk : Check) (s : State) := s.actM (fun c d => (Core.checkRetry chk c d, d))

/-- MEM_LINE_WRITE (R285, R288, R290, R323); `last` holds the code the write completes with. -/
def Core.lineWrite (r : LineReq) (data : Line) (c : Core) (dr : Dram) : Core × Dram :=
  match c.lineAt r with
  | .error p => ((if p = 0x0505 then c.bump 0x20_0040 1 else c).lineOut r p 0, dr)
  | .ok _ =>
    let x := c.writePage dr r.entry r.u [(r.line, data)]
    (x.1.lineOut r x.2.2 0, x.2.1)

def execMemLineWrite (entry u line slot gen : Nat) (data : Line) (s : State) :=
  s.actM (Core.lineWrite ⟨entry, u, line, slot, gen⟩ data)

/-! Scrubbing, refresh, temperature, initialisation. -/

/-- A line of group `n` of channel `ch` is known to be uncorrectable (R276, R282). -/
def Core.badGroup (c : Core) (ch n : Nat) : Bool :=
  (List.range 8).any (fun i => c.mem.bad.get 0 (64 * (16 * n + ch / 8) + 8 * (ch % 8) + i) != 0)

/-- The scrub of group `n` of channel `ch` (R283, log 27); a group with a line known to be uncorrectable is found so. -/
def Core.scrub (ch n : Nat) (chk : Check) (c : Core) : Core :=
  let p := ch / 8
  let k := ch % 8
  if !bit (c.reg (memBase p)) 2 || c.noMemory || c.prc.state = .holdover || c.prc.state = .pfSafe then c
  else
    let c := (c.chan p k 0 8).chan p k 7 8
    match if c.badGroup ch n then .uncorrectable else chk with
    | .clean => c
    | .single => (c.chan p k 1 8).chan p k 3 1
    | .uncorrectable => (c.raise (sysEvent 0x0405 ch (n / 2 ^ 16) n p)).errLog p 0x0405 k n

def execScrub (ch n : Nat) (chk : Check) (s : State) := s.act (Core.scrub ch n chk)

/-- REFRESH (R296): the channel's next bank, in bank order. -/
def Core.refresh (ch : Nat) (c : Core) : Core :=
  { c with mem := { c.mem with banks := c.mem.banks.upd 0 ch (fun b => (b + 1) % 16) } }

def execRefresh (ch : Nat) (s : State) := s.act (Core.refresh ch)

/-- REFRESH_FORCED (R297). -/
def Core.refreshForced (ch bank : Nat) (c : Core) : Core :=
  let c := { c with mem := { c.mem with banks := c.mem.banks.set 0 ch ((bank + 1) % 16) } }
  (c.raise (sysEvent 0x0408 ch bank 0 (ch / 8))).chan (ch / 8) (ch % 8) 6 1

def execRefreshForced (ch bank : Nat) (s : State) := s.act (Core.refreshForced ch bank)

/-- PKG_TEMP_CHANGE (R296): the package of controller `k` reports a temperature in °C. -/
def Core.pkgTemp (k temp : Nat) (c : Core) : Core :=
  let m := c.mem.ctls.getD k .reset
  let hot := decide (temp ≥ 85)
  let c := { c with mem := { c.mem with ctls := c.mem.ctls.set k { m with temp := min 255 temp, hot := hot } } }
  if hot = m.hot then c else c.raise (sysEvent 0x0409 0 0 0 k)

def execPkgTempChange (k temp : Nat) (s : State) := s.act (Core.pkgTemp k temp)

/-- MEMORY_INIT_DONE (R284): controller `k` has filled its channels, or the channels of bitmap `fail` failed training. -/
def Core.memoryInit (k fail : Nat) (c : Core) : Core :=
  let m := c.mem.ctls.getD k .reset
  if !c.prc.powered || m.init || m.trainFail != 0 || decide (k ≥ 16) then c
  else
    let c := { c with mem := { c.mem with ctls := c.mem.ctls.set k { m with init := fail % 256 = 0, trainFail := fail % 256 } } }
    let c := (setBits 8 fail).foldl (fun (c : Core) _ => (c.raise (sysEvent 0x040A 0 0 0 k)).failN 3) c
    c.readyCheck

def execMemoryInitDone (k fail : Nat) (s : State) := s.act (Core.memoryInit k fail)

/-! Residency (09). -/

/-- A duty of Gatehouse core 2: nothing while it is halted (R21, R24). -/
def State.actCore2 (s : State) (f : Core → Dram → Core × Dram) : Host.Outcome State Fault Refusal :=
  s.actM (fun c d => if c.coreUp 2 then f c d else (c, d))

def execTier2FetchDone (i : Nat) (pages : List StoredPage) (s : State) :=
  s.actCore2 (fun c d => (((Core.fetchDone i pages c d).1).wake s.trim, (Core.fetchDone i pages c d).2))

/-- TIER2_FETCH_FAILED (R258, R259): 0x0A0B where frames are short, else 0x0A07. -/
def execTier2FetchFailed (i code : Nat) (s : State) := s.actCore2 (fun c d =>
  ((c.fetchFail s.trim i (if code = 0x0A0B then 0x0A0B else 0x0A07)).wake s.trim, d))

def execTagListReceived (i : Nat) (tags : List TagEntry) (dome : Check) (s : State) :=
  s.actCore2 (fun c d => ((Core.tagList s.trim i tags dome c d).wake s.trim, d))

/-- EVICTION (R260): below LOW_WATER, candidates in order until free memory reaches HIGH_WATER; frames in GiB of 2^18. -/
def Core.eviction (tr : Trim) (c : Core) (dr : Dram) : Core :=
  if c.freeFrames ≥ bits (c.reg offTier1) 0 16 * 2 ^ 18 then c
  else c.candidates.foldl (fun (c : Core) i =>
    if c.comingFrames ≥ bits (c.reg offTier1) 16 16 * 2 ^ 18 then c else c.evict tr dr i) c

def execEviction (s : State) := s.actCore2 (fun c d => (Core.eviction s.trim c d, d))

def execWritebackDone (i : Nat) (s : State) :=
  s.actCore2 (fun c d => ((Core.writebackDone i c d).wake s.trim, d))

/-- How favoured an adaptation's pages are (R263; log 104): the place, in the order of release, of the first queued segment that
names it; below every such one where none does. -/
def Core.favour (c : Core) (i : Nat) : Nat :=
  let q := (c.segs.filter (fun s => s.st = .queued || s.st = .swapped)).mergeSort (fun a b => a.before b || decide (a.id = b.id))
  q.findIdx (fun s => s.img.adapts.contains i)

/-- With the pool full, the copy least favoured gives way to one of an adaptation more favoured (R263; log 104). -/
def Core.favoured (c : Core) (i : Nat) : Core :=
  if c.freeUnits ≠ [] then c
  else match c.gate.copies.foldl (fun (r : Option Copy0) k => match r with
      | none => some k
      | some x => if c.favour k.idx > c.favour x.idx then some k else r) none with
    | some k => if c.favour i < c.favour k.idx then c.dropCopiesIf (fun x => x.unit = k.unit) else c
    | none => c

/-- TIER0_COPY (R263): a page of the active bank of an entry no one holds for eviction, re-support or removal, while the pool
has a unit (log 28). -/
def Core.tier0Copy (i bank page : Nat) (c : Core) (dr : Dram) : Core :=
  let d := c.desc i
  if d.st ≠ .resident ∨ d.kind > 1 ∨ page ≥ d.pages ∨ bankFor (c.groupsOf i) d.commit.bank page ≠ bank
      ∨ c.gate.copies.any (fun k => k.idx = i && k.bank = bank && k.page = page && !k.dead) ∨ (c.favoured i).freeUnits = [] then c
  else match (c.favoured i).readPage dr i (d.pageAt 0 bank page) (List.range 64) with
    | (c, .ok ls) =>
      let u := c.freeUnits.headD 0
      let c := c.claimUnits .copy 1
      { c with gate := { c.gate with copies := c.gate.copies ++ [(⟨u, i, bank, page, c.clk.total, false, ls⟩ : Copy0)] } }
    | (c, .error _) => c

def execTier0Copy (i bank page : Nat) (s : State) := s.actCore2 (fun c d => (Core.tier0Copy i bank page c d, d))

/-- TIER0_RECLAIM (R264). -/
def Core.tier0Reclaim (c : Core) : Core := c.dropCopiesIf (fun k => k.dead)

def execTier0Reclaim (s : State) := s.actCore2 (fun c d => (c.tier0Reclaim, d))

end Sys2Proof.Machine
end

