-- ==== Sys2Proof/Machine/CtxOps.lean ====
section
/-! DEFINITION. What the Gatehouse does to contexts as a whole: disabling (R352), deleting, the context digest (R394), the
step state block as it is read (R241), a descriptor as it is read (R247), and the removal of a descriptor (R250). -/

namespace Sys2Proof.Machine

/-! Bytes as hosts read them. -/

/-- A 64-byte commit line (R241). -/
def CommitLine.bytes (l : CommitLine) : List Byte :=
  leBytes 4 l.step ++ leBytes 2 l.pos ++ leBytes 2 l.last ++ leBytes 32 l.bank ++ leBytes 24 0

/-- The 64-byte step record (R241); `settling` says that the settlement of the step has begun. -/
def StepRec.bytes (r : StepRec) (settling : Bool) : List Byte :=
  leBytes 1 (if settling then 2 else r.st) ++ leBytes 1 (b2n r.finite + 2 * b2n r.faulted) ++ leBytes 2 r.tensor
    ++ leBytes 4 r.index ++ leBytes 4 r.frozenSup ++ leBytes 2 r.faultCode ++ leBytes 2 r.singular.length
    ++ leBytes 32 ((r.singular.map (fun g => 2 ^ g)).sum) ++ leBytes 16 0

/-- The settlement of a context's step has begun: the segment that closes it waits its 9 beats (R237). -/
def Core.settling (c : Core) (v : Ctx) : Bool :=
  c.segs.any (fun s => decide (v.record.closing = some s.id ∧ s.due ≠ 0))

/-- The step state block (R241). -/
def Core.stepBlock (c : Core) (v : Ctx) : List Byte := v.commit.bytes ++ v.record.bytes (c.settling v)

/-- A context descriptor as it is read (R268): CTX_ENABLE and SWAPPED are the module's. -/
def Core.ctxBytes (c : Core) (x : Nat) (v : Ctx) : List Byte :=
  let fl := fieldLE v.raw 0 2
  let swapped := c.segs.any (fun s => s.ctx = x && s.st = .swapped)
  leBytes 2 (b2n v.enable + bits fl 1 4 * 2 + 32 * b2n swapped + bits fl 6 10 * 64) ++ v.raw.drop 2

/-- CLAIMANT as it is read: 0, or the identifier the Gatehouse gives its claim, which the spec leaves open (log 31). -/
def claimantCode (n : Nat) : Nat := if n = 0 then 0 else 1 + Config.freeNat n % 65535

/-- A directory descriptor as it is read (R247). -/
def Core.descBytes (c : Core) (i : Nat) (d : Desc) : List Byte :=
  let st := match d.st with | .free => 0 | .remote => 1 | .fetching => 2 | .resident => 3 | .evicting => 4
  leBytes 1 st ++ leBytes 1 (b2n d.training + 2 * b2n d.dirty + 4 * b2n (c.gate.copies.any (fun k => k.idx = i)))
    ++ leBytes 2 d.keySlot ++ leBytes 2 d.gen ++ leBytes 2 d.matrices ++ leBytes 8 d.baseTag
    ++ leBytes 8 (d.pins % 2 ^ 16 + claimantCode d.claimant * 2 ^ 16 + d.kind * 2 ^ 32) ++ leBytes 2 d.trainCtx
    ++ leBytes 2 (fnCode d.hostFn) ++ leBytes 4 d.pages ++ leBytes 4 d.slots ++ leBytes 4 0 ++ leBytes 8 d.tpn
    ++ leBytes 8 d.lastRelease ++ leBytes 8 d.tier2 ++ d.commit.bytes

/-! The context digest (R394). -/

/-- The bytes of a chain table (R187) and of a rule table (R222); a table never loaded is zero. -/
def chainBytes (ws : List Nat) : List Byte := (List.range 32).flatMap (fun i => leBytes 32 (ws.getD i 0))
def ruleBytes (ws : List Nat) : List Byte := (List.range 1024).flatMap (fun i => leBytes 4 (ws.getD i 0))

/-- The context digest (R394). -/
def Core.ctxDigest (c : Core) (x : Nat) (v : Ctx) : Digest :=
  Config.sha384 (leBytes 2 x ++ leBytes 2 v.keySlot ++ leBytes 1 (bits (fieldLE v.raw 0 2) 1 4)
    ++ leBytes 8 (c.base v.baseSlot).tag ++ leBytes 48 (Config.sha384 (chainBytes v.chain)).toNat
    ++ leBytes 48 (Config.sha384 (ruleBytes v.rules)).toNat
    ++ (List.range 64).flatMap (fun i => leBytes 48 (SMap.get 0 v.hashes i).toNat))

/-- Change context `x`; a change of its digest is logged (R394, R397). -/
def Core.updCtxD (c : Core) (x : Nat) (f : Ctx → Ctx) : Core :=
  match c.ctx? x with
  | none => c
  | some v =>
    let c' := c.setCtx x (f v)
    if c'.ctxDigest x (f v) = c.ctxDigest x v then c' else c'.note 7 x 0 (c'.ctxDigest x (f v))

/-! Disabling (R239, R273, R352, R459). -/

/-- A segment stands before its release, and was not swapped out. -/
def SegSt.before : SegSt → Bool
  | .parked | .waiting | .handed | .queued => true
  | .running | .swapped | .ended => false

/-- Complete the segments that satisfy `p` with a code, without running them further. -/
def Core.withdraw (c : Core) (tr : Trim) (p : Seg → Bool) (code : Nat) : Core :=
  c.segs.foldl (fun (c : Core) s0 =>
    match c.seg? s0.id with
    | some s => if p s then (c.leaveSteps s).cancelSeg tr s code 0 else c
    | none => c) c

/-- Clear CTX_ENABLE of context `x`. -/
def Core.disableCtx (c : Core) (tr : Trim) (x : Nat) : Core :=
  match c.ctx? x with
  | none => c
  | some v =>
    if !v.enable then c
    else
      let busy := v.record.st != 0 || c.segs.any (fun s => s.ctx = x && (s.st = .queued || s.st = .running || s.st = .swapped))
      let c := ((c.updCtx x (fun v => { v with enable := false })).releaseUnits (.ctx x)).endProg x
      let c := c.withdraw tr (fun s => s.names x && s.st.before) 0x0A21
      let c := c.withdraw tr (fun s => s.ctx = x && s.st = .swapped) 0x0A0D
      let c := ((c.abandon x).freeTransient x).updCtx x (fun v => { v with dome := [] })
      let c := if busy then c.dueSettle.noteReset 5 0 else c.dueSettle
      c.wake tr

/-- A context's training claim on an adaptation is released (R205, log 32). -/
def Core.dropTraining (c : Core) (x i : Nat) : Core :=
  if (c.desc i).trainCtx = x then c.updDesc i (fun d => { d with trainCtx := 0xFFFF }) else c

/-- Delete a context: its number is free to be claimed. -/
def Core.deleteCtx (c : Core) (x : Nat) : Core :=
  match c.ctx? x with
  | none => c
  | some v =>
    let c := (if v.training then c.dropTraining x v.adapt else c).freeTransient x
    { c with ctxs := c.ctxs.erase x }

/-! Descriptors. -/

/-- An entry becomes FREE (R250): its frames, its tier-0 copies, its seal record and what is under way go; commands that wait
for it complete with `code`. -/
def Core.freeDesc (c : Core) (i code : Nat) : Core :=
  let d := c.desc i
  let c := (c.dropCopies i).dropRun i
  let c := { c with xfers := c.xfers.filter (fun x => !decide (x.role = XferRole.fetch i ∨ x.role.wbOf = some i)) }
  let c := c.setDesc i .free
  let c := c.completeAll ((d.fetch.map (fun f => f.reqs)).getD []) code 0
  match d.wb with
  | some (some r) => c.complete r code 0
  | _ => c

end Sys2Proof.Machine
end

