-- ==== Sys2Proof/Machine/EvrCmd.lean ====
section
/-! DEFINITION. The commands of the event recorder (16): RECORD_WRITE, TOKEN_ADD, EVR_CLEAR, EVR_TIME, EVR_ENABLE, FAIL_CLEAR. -/

namespace Sys2Proof.Machine

/-- A command of the administration PF on the recorder (R334). -/
def adminEvr (f : FnId) (g : Trim → Core → Evr → Core × Evr) (s : State) :=
  s.actE (fun tr c e => if f = tr.admin then g tr c e else (c, e))

/-- RECORD_WRITE (R446, R451): one queued event is written; the vector fires as EVR_FULL becomes set, while EN is in force. -/
def recordWrite (tr : Trim) (c : Core) (e : Evr) : Core × Evr :=
  let r := e.write c.clk.nominal
  let c := if r.2 then c.raise (satEvent 9 0x18 0) else c
  let c := if r.1.full && !e.full && e.enable && bit e.liveIrq 8 then c.fire tr.admin (bits e.liveIrq 0 6) else c
  (c, r.1)

def execRecordWrite (s : State) := s.actE recordWrite

/-- TOKEN_ADD (R449). -/
def execTokenAdd (code : Nat) (s : State) := s.actE (fun _ c e => (c, e.token code c.clk.nominal))

/-- EVR_CLEAR (R447). -/
def execEvrClear (f : FnId) (s : State) := adminEvr f (fun _ c e => (c, e.clear c.stamp)) s

/-- The step of a calendar write in µs, as the three arguments of event 0x0904 (R448): saturated to 48 bits, high part
first. -/
def timeStep (old new : Nat) : Nat :=
  unsigned 48 (satSigned 48 (((new : Int) - (old : Int)).tdiv 1000))

/-- EVR_TIME (R448): calendar time takes the written value in this beat; the event is stamped with it. -/
def Core.setTime (c : Core) (v : Nat) : Core :=
  let d := timeStep c.clk.time (v % 2 ^ 64)
  { c with clk := { c.clk with cal := 10 * (v % 2 ^ 64), slewD := 0, slewN := 1, slewE := 0 } }.raise
    (sysEvent 0x0904 (bits d 32 16) (bits d 16 16) (bits d 0 16) 0)

/-- EVR_TIME as written: a 32-bit write changes only its half (R13). -/
def execEvrTime (f : FnId) (v : RegWrite) (s : State) : Host.Outcome State Fault Refusal :=
  if f = s.trim.admin ∧ accessOk v.off v.size then
    let c := s.core.setTime (mergeBits (lanes v.off v.size) s.core.clk.time (placed v.off v.size v.value))
    .next ({ s with core := c, evr := { s.evr with timeSet := true } }.deliver c.stamp)
  else s.act (fun c => c)

/-- The buckets when the rates in force change at nominal beat `now` (log 23): a full bucket stays full, another keeps its
tokens up to the new BURST, and its next token is counted from this beat. -/
def Evr.rebucket (old new : Evr) (now : Nat) : Evr :=
  { new with buckets := SMap.mapV .full (fun code (b : Bucket) =>
      let r := old.rate code
      let r' := new.rate code
      if r = r' ∨ b.missing = 0 then b
      else
        let left := min (r / 2 ^ 16 - b.missing) (r' / 2 ^ 16)
        ⟨r' / 2 ^ 16 - left, b.pending, if left = r' / 2 ^ 16 then 0 else now, 0⟩) new.buckets }

/-- The first failed check of R452 on setting EVR_ENABLE, 0 when all pass. -/
def Evr.enableCode (e : Evr) (vectors : Nat) : Nat :=
  if !e.timeSet then 0x0901
  else if e.filters.any (fun w => w.2 / 2 ^ 50 != 0) then 0x0902
  else if bit e.irq 8 && decide (bits e.irq 0 6 ≥ vectors) then 0x0903
  else 0

/-- EVR_ENABLE set (R452). -/
def evrEnable (tr : Trim) (c : Core) (e : Evr) : Core × Evr :=
  if e.enable then (c, e)
  else
    let k := e.enableCode (c.fn tr.admin).vectors
    if k ≠ 0 then (c, { e with refCode := k })
    else (c, e.rebucket { e with enable := true, live := e.rates, liveIrq := e.irq, liveFilters := e.filters } c.clk.nominal)

def execEvrEnableSet (f : FnId) (s : State) := adminEvr f evrEnable s

/-- EVR_ENABLE cleared (R452): boot mode with the rates of R450. -/
def evrDisable (_ : Trim) (c : Core) (e : Evr) : Core × Evr :=
  if e.enable then (c, e.rebucket { e with enable := false, live := [], liveIrq := 0, liveFilters := [] } c.clk.nominal)
  else (c, e)

def execEvrEnableClear (f : FnId) (s : State) := adminEvr f evrDisable s

/-- FAIL_CLEAR (R451). -/
def execFailClear (f : FnId) (s : State) := adminEvr f (fun _ c e => (c.okN 1, e)) s

end Sys2Proof.Machine
end

