-- ==== Sys2Proof/Machine/Registers.lean ====
section
/-! DEFINITION. Host writes of registers (00 R12 to R16, R468; 12 R335, R338): which bits of a register a write sets, which
writes are dropped as a whole, LOCK and CNT_CLEAR, and the counters' saturation (R440, R441). -/

namespace Sys2Proof.Machine

/-- The base offset whose LOCK bit covers a BAR0 offset (R15): the link complex's own for the forwarding table. -/
def lockBase (off : Nat) : Nat :=
  if 0x124_0000 ≤ off ∧ off < 0x200_0000 then 0x124_0000 else (blockAt off).2.1

/-- A register whose fields are kept in `regs`: its RW and RWL bits. -/
structure RegRow where
  rw : Nat
  rwl : Nat
deriving DecidableEq, Repr

/-- The writable fields of the register at an 8-byte aligned BAR0 offset that have no row of their own, by the register
headers; none where there is no such register. -/
def regRow (off : Nat) : Option RegRow :=
  let b := blockAt off
  let r := off - b.2.1
  if off = 0x410 then some ⟨0, fieldMask 0 48⟩
  else if b.1 = 6 then
    (match r with
    | 0x00 => some ⟨0, fieldMask 2 1⟩
    | 0x18 => some ⟨0, fieldMask 0 8⟩
    | 0x20 => some ⟨fieldMask 0 6, 0⟩
    | _ => none)
  else if off = offTref then some ⟨0, fieldMask 0 14 + fieldMask 16 15⟩
  else if off = offPowerCfg then some ⟨0, fieldMask 0 32⟩
  else if off = 0x20_0010 then some ⟨fieldMask 0 13, 0⟩
  else if off = offGenThreshold then some ⟨0, fieldMask 0 16⟩
  else if off = 0x20_0100 then some ⟨fieldMask 0 3, 0⟩
  else if off = 0x20_0108 then some ⟨fieldMask 12 52, 0⟩
  else if off = 0x30_0010 then some ⟨fieldMask 0 56, 0⟩
  else if off = 0x30_0018 then some ⟨fieldMask 0 9 + fieldMask 16 8, 0⟩
  else if off = 0x30_0058 then some ⟨fieldMask 0 4, 0⟩
  else if off = 0x30_0070 then some ⟨fieldMask 8 4, 0⟩
  else if b.1 = 4 then
    (match r with
    | 0x00 => some ⟨0, fieldMask 2 1⟩
    | 0x10 => some ⟨0, fieldMask 0 8⟩
    | 0x18 => some ⟨0, fieldMask 0 32⟩
    | _ => none)
  else if 0x125_0000 ≤ off ∧ off < 0x125_8000 then some ⟨0, fieldMask 0 64⟩
  else if b.1 = 7 ∧ off < 0x124_0000 then
    (match r with
    | 0x00 => some ⟨fieldMask 3 1 + fieldMask 8 4, 0⟩
    | 0x08 => some ⟨0, fieldMask 0 64⟩
    | 0x38 => some ⟨0, fieldMask 0 64⟩
    | _ => none)
  else if b.1 = 1 ∧ r = 0x30 then some ⟨0, fieldMask 0 32⟩
  else none

/-- A value lies in lo–hi. -/
def within (lo hi v : Nat) : Bool := decide (lo ≤ v ∧ v ≤ hi)

/-- The write `v` that would leave a register at `new` instead of `old` is not dropped as a whole (the register headers and
R96, R353, R368, R462). -/
def Core.regOk (c : Core) (off old v new : Nat) : Bool :=
  let b := blockAt off
  let r := off - b.2.1
  if off = 0x410 then decide (bits new 0 16 < bits new 16 16) && within 1 65534 (bits new 32 16)
  else if off = offTref then within 1 20000 (bits new 16 15) && decide (bits new 8 6 ≤ 35)
  else if off = 0x20_0010 then decide (bits new 0 13 ≤ 4159)
  else if off = offGenThreshold then within 0x0100 0xFFFE new
  else if off = 0x20_0100 then within 1 4 (bits new 0 3) && decide (popcount 4 (bits v 3 4) ≤ 1)
  else if off = 0x30_0070 then decide (popcount 3 (bits v 0 3) ≤ 1) && c.prc.state != .stopping && c.prc.state != .pfSafe
  else if b.1 = 6 then
    r != 0x18 || decide (bits new 0 8 + bits (c.reg (hstBase (1 - b.2.2) + 0x18)) 0 8 ≠ 0)
  else if b.1 = 4 then
    (if r = 0x10 then within 1 168 new else if r = 0x18 then within (2 ^ 16) (2 ^ 32 - 2) new else true)
  else if 0x125_0000 ≤ off ∧ off < 0x125_8000 then
    bits new 0 2 != 3 && decide (bits new 2 4 ≤ 11) && decide (new < 2 ^ 30)
  else if b.1 = 7 ∧ off < 0x124_0000 then
    (if r = 0x00 then !(c.link b.2.2).enable || bits new 8 4 = bits old 8 4
     else if r = 0x38 then within (2 ^ 32) (2 ^ 62) new else true)
  else if b.1 = 1 then decide (4096 ≤ new)
  else true

/-- A write of a register kept in `regs` (R13, R15). -/
def Core.writeReg (c : Core) (off size v : Nat) : Core :=
  let base := off / 8 * 8
  match regRow base with
  | none => c
  | some row =>
    let m := (row.rw ||| (if c.locked (lockBase base) then 0 else row.rwl)) &&& lanes off size
    let new := mergeBits m (c.reg base) (placed off size v)
    if m ≠ 0 ∧ c.regOk base (c.reg base) (placed off size v) new then c.setReg base new else c

/-- SLOT_ENABLE reads 1 (KEP_SLOT_CTL's header). -/
def SlotSt.reads : SlotSt → Bool
  | .enabled | .active | .retiring => true
  | .free | .zeroizing | .dead => false

/-- The slot KEP_SLOT_SEL selects. -/
def Core.selSlot (c : Core) : Nat := bits (c.reg 0x20_0010) 0 13

/-- A write of KEP_SLOT_CTL.BOUND_FN, for the selected slot. -/
def Core.writeBound (c : Core) (off size v : Nat) : Core :=
  let k := c.slot c.selSlot
  let m := (fieldMask 8 6 + fieldMask 23 1) &&& lanes off size
  let new := mergeBits m (fnCode k.fn * 2 ^ 8) (placed off size v)
  if k.st.reads then c else c.setSlot c.selSlot { k with fn := fnOf (new / 2 ^ 8) }

/-- The function HST_VF_SEL selects on a port. -/
def Core.selFn (c : Core) (p : Nat) : FnId := ⟨p, bits (c.reg (hstBase p + 0x20)) 0 6⟩

/-- A write of HST_VF_CTL.VECTORS, for the selected function. -/
def Core.writeVectors (c : Core) (p off size v : Nat) : Core :=
  let f := c.selFn p
  let x := c.fn f
  let m := fieldMask 8 7 &&& lanes off size
  let new := bits (mergeBits m (x.vectors * 2 ^ 8) (placed off size v)) 8 7
  if x.enable || !within 1 64 new then c else c.setFn f { x with vectors := new }

/-- A write of a recorder register that has no row of its own (16). -/
def Evr.writeReg (e : Evr) (off size v : Nat) : Evr :=
  let base := off / 8 * 8
  let put (m old : Nat) : Nat := mergeBits (m &&& lanes off size) old (placed off size v)
  if base = 0x40_0028 then
    let new := put (fieldMask 0 16) e.rateSel
    if within 1 0xA (new / 256) && new % 256 != 0 then { e with rateSel := new } else e
  else if e.enable then e
  else if base = 0x40_0030 then
    let new := put (fieldMask 0 32) (e.rates.get (defaultRate e.rateSel) e.rateSel)
    if new / 2 ^ 16 = 0 then e else { e with rates := e.rates.set (defaultRate e.rateSel) e.rateSel new }
  else if base = 0x40_0038 then { e with irq := put (fieldMask 0 6 + fieldMask 8 1) e.irq }
  else if 0x40_0100 ≤ base ∧ base < 0x40_0200 then
    { e with filters := e.filters.upd 0 ((base - 0x40_0100) / 8) (put (fieldMask 0 64)) }
  else e

/-! BAR2 (R335, R338). -/

/-- A write to a function's BAR2 is served: READY (R456), HST_VF_ENABLE, and its TDI not in ERROR (R335, R350). -/
def Core.bar2 (c : Core) (f : FnId) : Bool := c.gate.ready && (c.fn f).enable && (c.fn f).tdi != .error

/-- A request that came on stream `via` is one of the function's own: with its TDI CONFIG_LOCKED or RUN, on its stream only (R337). -/
def Core.ownStream (c : Core) (f : FnId) (via : Option Nat) : Bool :=
  !((c.fn f).tdi = .locked || (c.fn f).tdi = .run) || (via.isSome && decide ((c.fn f).stream = via))

/-- A request to BAR2 that is served acts by `g`; one off the function's stream completes with Unsupported Request and is counted
(R337). -/
def Core.onBar2 (f : FnId) (via : Option Nat) (g : Core → Core) (c : Core) : Core :=
  if !c.bar2 f then c else if c.ownStream f via then g c else c.bump (hstBase f.port + 0x98) 1

/-- HST_Q_CFG's fields are in range (R338). -/
def cfgOk (cfg vectors : Nat) : Bool :=
  within 1 12 (bits cfg 1 4) && within (bits cfg 1 4) 12 (bits cfg 5 4) && decide (bits cfg 9 6 < vectors)

/-- A write of a queue pair's registers. -/
def Pair.writeReg (p : Pair) (vectors r off size v : Nat) : Pair :=
  let put (m old : Nat) : Nat := mergeBits (m &&& lanes off size) old (placed off size v)
  let stands := !bit p.cfg 0 && p.st = .disabled
  if r = 0x00 then (if stands then { p with sqBase := put (fieldMask 12 52) p.sqBase } else p)
  else if r = 0x08 then (if stands then { p with cqBase := put (fieldMask 12 52) p.cqBase } else p)
  else if r = 0x10 then
    let new := put (fieldMask 1 14 + fieldMask 16 16) p.cfg
    if !stands then p
    else if bit (placed off size v) 0 && !cfgOk new vectors then p
    else { p with cfg := new }
  else p

/-- A write of an MSI-X table entry; unmasking a pending vector is MSIX_UNMASK's. -/
def Msix.writeReg (m : Msix) (r off size v : Nat) : Msix :=
  let put (b old : Nat) : Nat := mergeBits (b &&& lanes off size) old (placed off size v)
  if r = 0 then { m with addr := put (fieldMask 0 64) m.addr }
  else
    let new := put (fieldMask 0 33) (m.data + b2n m.mask * 2 ^ 32)
    { m with data := new % 2 ^ 32, mask := bit new 32 || (m.mask && m.pend) }

def Core.writeBar2 (c : Core) (f : FnId) (off size v : Nat) : Core :=
  let base := off / 8 * 8
  if base < 0x1000 then
    let q := base / 0x40
    c.setPair f q ((c.pair f q).writeReg (c.fn f).vectors (base % 0x40) off size v)
  else if 0x2_0000 ≤ base ∧ base < 0x2_0400 ∧ (base - 0x2_0000) / 16 < (c.fn f).vectors then
    let k := (base - 0x2_0000) / 16
    c.setFn f { c.fn f with msix := (c.fn f).msix.upd .reset k (fun m => m.writeReg (base % 16) off size v) }
  else c

/-- REGISTER_WRITE (R13 to R15): BAR0 from the administration PF, BAR2 from the function itself. -/
def registerWrite (f : FnId) (bar off size v : Nat) (via : Option Nat) (tr : Trim) (c : Core) (e : Evr) : Core × Evr :=
  if !accessOk off size then (c, e)
  else if bar = 2 then (Core.onBar2 f via (fun c => c.writeBar2 f off size v) c, e)
  else if bar = 0 ∧ f = tr.admin then
    let base := off / 8 * 8
    if base = 0x20_0018 then (c.writeBound off size v, e)
    else if base = 0x30_0020 then
      -- PRC_ENVELOPE_APPLY written 0 (R420)
      (if bit (lanes off size) 0 && !bit (placed off size v) 0 then { c with pow := { c.pow with apply := false } } else c, e)
    else if base = hstBase 0 + 0x28 then (c.writeVectors 0 off size v, e)
    else if base = hstBase 1 + 0x28 then (c.writeVectors 1 off size v, e)
    else if 0x40_0000 ≤ base ∧ base < 0x80_0000 then (c, e.writeReg off size v)
    else (c.writeReg off size v, e)
  else (c, e)

def execRegisterWrite (f : HostReq) (bar off size v : Nat) (s : State) := s.actE (registerWrite f.fn bar off size v f.via)

/-- UNSUPPORTED_BAR_ACCESS (R13): the port, and the offset's two halves. -/
def Core.badAccess (f : FnId) (off size : Nat) (c : Core) : Core :=
  if accessOk off size then c else c.raise (sysEvent 0x060A f.port (off / 2 ^ 16) off f.port)

def execUnsupportedBarAccess (f : HostReq) (bar off size : Nat) (_write : Bool) (s : State) := s.act (fun c =>
  if bar = 2 ∧ !c.ownStream f.fn f.via then Core.onBar2 f.fn f.via id c else Core.badAccess f.fn off size c)

/-! LOCK, CNT_CLEAR, saturation. -/

/-- The CTL registers that have a LOCK bit, as block bases. -/
def lockable (off : Nat) : Bool :=
  off = 0x124_0000 || ((blockAt off).2.1 = off && (blockAt off).1 != 2 && (blockAt off).1 != 0xA) || off = 0

/-- LOCK (R468). -/
def execLock (f : FnId) (off : Nat) (s : State) := s.actE (fun tr c e =>
  if f = tr.admin ∧ lockable off ∧ !c.locks.any (fun x => x.1 = off) then
    ({ c with locks := c.locks ++ [(off, c.clk.nominal)] }, e) else (c, e))

/-- The CTL registers that have a CNT_CLEAR bit: every lockable block's but the Belfry's and the link complex's own. -/
def clearable (off : Nat) : Bool := lockable off && off != 0x10_0000 && off != 0x124_0000

/-- CNT_CLEAR (R441): the counters of the block whose CTL register stands at `off`; the recorder's is EVR_FILTERED. -/
def execCntClear (f : FnId) (off : Nat) (s : State) := s.actE (fun tr c e =>
  if f = tr.admin ∧ clearable off then
    (c.cntClear (fun o => (blockAt o).2.1 = off && (blockAt o).1 = (blockAt off).1),
     if off = 0x40_0000 then { e with filtered := e.filtered.cleared c.clk.nominal } else e)
  else (c, e))

/-- The performance counters kept in `ctr`, by BAR0 offset (R439). -/
def isCounter (off : Nat) : Bool :=
  let b := blockAt off
  let r := off - b.2.1
  off % 8 = 0 && (match b.1 with
    | 0xA => within 0x440 0x458 off
    | 3 => r = 0x130 || r = 0x138
    | 5 => r = 0x38 || r = 0x40
    | 8 => within 0x80 0xA0 r
    | 4 => r = 0x28 || within 0x100 0x2F8 r
    | 7 => decide (off < 0x124_0000) && within 0x100 0x138 r
    | 1 => within 0x80 0xC8 r
    | 6 => within 0x80 0xB0 r
    | _ => false)

/-- A counter of the recorder counts `n` more (R440). -/
def evrBump (off n : Nat) (c : Core) (e : Evr) : Core × Evr :=
  let r := (if off = 0x40_0018 then e.lost else e.filtered).bump c.clk.nominal n
  (if r.2 then c.raise (satEvent 9 (off % 2 ^ 16) 0) else c,
   if off = 0x40_0018 then { e with lost := r.1 } else { e with filtered := r.1 })

/-- COUNTER_SATURATED (R440): the counter at `off` counts `n` more. -/
def execCounterSaturated (off n : Nat) (s : State) := s.actE (fun _ c e =>
  if off = 0x40_0018 ∨ off = 0x40_0040 then evrBump off n c e
  else if isCounter off then (c.bump off n, e) else (c, e))

end Sys2Proof.Machine
end

