-- ==== Sys2Proof/Machine/Keys.lean ====
section
/-! DEFINITION. The commands on key slots (11): SLOT_ENABLE (R306), retirement (R320, R321), its broadcast, INFLIGHT (R322),
the drain deadline (R324, R326), zeroization (R325) and freedom (R304, R321 step 6). -/

namespace Sys2Proof.Machine

/-! Enabling. -/

def Core.keepRefuse (c : Core) (code slot : Nat) : Core := { c with keep := { c.keep with refCode := code, refSlot := slot } }

/-- SLOT_ENABLE set for the selected slot (R306). -/
def Core.slotEnable (c : Core) : Core :=
  let i := c.selSlot
  let k := c.slot i
  if k.st.reads ∧ i < 4096 then c
  else if i ≥ 4096 ∨ k.st ≠ .free then c.keepRefuse 0x0501 i
  else if !(c.fn k.fn).enable then c.keepRefuse 0x0502 i
  else if k.floor ≥ 0xFFFF then c.keepRefuse 0x0503 i
  else c.setSlot i { k with st := .enabled }

def execSlotEnableSet (f : FnId) (s : State) := adminAct f Core.slotEnable s

/-! Retiring (R320, R321). -/

/-- The drain deadline, in nominal beats (R324). -/
def drainBeats : Nat := 62_500_000

/-- The Keep accepts the retirement of slot `i`: an ENABLED slot is FREE at once, an ACTIVE one RETIRING (R303). -/
def Core.retireNow (c : Core) (i : Nat) : Core :=
  let k := c.slot i
  match k.st with
  | .enabled => c.setSlot i { k with st := .free }
  | .active => c.setSlot i { k with st := .retiring, deadline := c.clk.nominal + drainBeats, told := [] }
  | _ => c

/-- A retirement reaches the Keep; in the Keep's activation window it waits (R407). -/
def Core.retire (c : Core) (i : Nat) : Core :=
  if c.keep.fwState = 2 ∧ c.keep.fwKind = 1 then
    if c.keep.waiting.contains i then c else { c with keep := { c.keep with waiting := c.keep.waiting ++ [i] } }
  else c.retireNow i

/-- The selected slot is retired, if it is a tenant slot (R306, R320). -/
def Core.retireSel (c : Core) : Core := if c.selSlot < 4096 then c.retire c.selSlot else c

def execSlotEnableClear (f : FnId) (s : State) := adminAct f Core.retireSel s
def execSlotRetire (f : FnId) (s : State) := adminAct f Core.retireSel s

/-! INFLIGHT (R322). -/

/-- Line requests of a repeat in flight at controller `p` that name slot `k`. -/
def Core.repeatLoad (c : Core) (fl : Flight) (k p : Nat) : Nat :=
  match c.runEnt fl.src.1 with
  | some r => if r.slot ≠ k ∨ fl.landed then 0
    else (fl.src.2.filter (fun l => (r.frame l.1).map (fun f => f % 16) = some p)).length
  | none => 0

/-- Line requests at controller `p` naming slot `k`; none after the broadcast reached it: they completed RETIRED (R321). -/
def Core.ctlLoad (c : Core) (k p : Nat) : Nat :=
  if (c.slot k).told.contains (1 + p) then 0
  else ((List.range 64).map (fun t => (((c.tower t).flightIn ++ (c.tower t).flightOut).map (fun fl => c.repeatLoad fl k p)).sum)).sum
    + (c.mem.retries.filter (fun r => r.req.slot = k && ((c.frameOf r.req.entry r.req.u).map (fun x => x.2 % 16)) = some p)).length

/-- DMA reads and writes of the slot's tier-2 copies in host memory under way (R322): a page each (R327's example), by the model for
the whole of a fetch or write-back (log 65); none after the broadcast reached the host complex, where they complete RETIRED. -/
def Core.hostLoad (c : Core) (k : Nat) : Nat :=
  if (c.slot k).told.contains 0 then 0
  else ((c.dir.filter (fun x => decide (x.2.keySlot = k ∧ bits x.2.tier2 0 2 = 2))).map (fun x =>
    (match x.2.fetch with
     | some f => (x.2.fetchPages (c.groupsOf x.1) f.training (x.2.st = .resident)).length
     | none => 0) + (if x.2.wb.isSome then (c.movedPages x.1).length else 0))).sum

/-- The links' count: frames queued, sent and not acknowledged, and open transfers, each at the first link of its path; zero
at the acknowledgement of the retire marker (R321, R380). -/
def Core.linkLoad (c : Core) (k l : Nat) : Nat :=
  let x := c.link l
  if (c.slot k).told.contains (17 + l) && !x.marks.contains k then 0
  else ((x.queue ++ x.replay).filter (fun y => y.slot = k)).length
    + (c.xfers.filter (fun y => c.xferSlot y = k && !y.ended && y.links.head? = some l)).length

/-- INFLIGHT of a slot (R322). -/
def Core.inflight (c : Core) (k : Nat) : Nat :=
  c.hostLoad k + ((List.range 16).map (c.ctlLoad k)).sum + ((List.range 36).map (c.linkLoad k)).sum

/-! The broadcast (R321, R380). -/

/-- A unit's number in KeySlot.told. -/
def unitNum : RetireUnit → Nat
  | .host => 0
  | .memory c => 1 + c % 16
  | .link k => 17 + k % 36
  | .gatehouse => 53
  | .belfry => 54

/-- A segment names slot `k`: a member's, or its context's. -/
def Core.segSlot (c : Core) (k : Nat) (s : Seg) : Bool :=
  s.img.slots.contains k || (match c.ctx? s.ctx with
    | some v => v.keySlot = k
    | none => false)

/-- Contexts of slot `k`. -/
def Core.slotCtxs (c : Core) (k : Nat) : List Nat := (c.ctxs.filter (fun x => x.2.keySlot = k)).map (fun x => x.1)

/-- The Gatehouse completes the slot's parked requests (R32). -/
def Core.tellGate (c : Core) (tr : Trim) (k : Nat) : Core :=
  (c.withdraw tr (fun s => c.segSlot k s && (s.st = .parked || s.st = .waiting)) 0x0504).wake tr

/-- The Belfry completes the slot's queued and swapped segments, ends its programs, and abandons its open steps but those whose
settlement has begun (R60, R239, R273, R321 step 2). -/
def Core.tellBelfry (c : Core) (tr : Trim) (k : Nat) : Core :=
  let c := c.withdraw tr (fun s => c.segSlot k s && (s.st = .handed || s.st = .queued || s.st = .swapped)) 0x0504
  (((c.slotCtxs k).foldl (fun (c : Core) x =>
    let c := c.endProg x
    match c.ctx? x with
    | some v => if c.settling v then c else c.abandon x
    | none => c) c).dueSettle).wake tr

/-- RETIRE's payload (R361). -/
def retirePayload (id slot gen : Nat) : List Byte := leBytes 8 id ++ leBytes 2 slot ++ leBytes 2 gen

/-- The labels by which a transfer's frames leave this module. -/
def Xfer.labels (x : Xfer) : List Nat := x.out.toList ++ x.back.toList

/-- Mark a transfer as retired: a read of a tower's is poisoned with 0x0505, a source answers FETCH_END with it (R321, R375). -/
def Core.retireXfer (c : Core) (x : Xfer) : Core :=
  let y := { x with retired := true, ended := true, data := [] }
  match x.role with
  | .tower t q e _ _ =>
    let w := c.tower t
    let en := (w.queue q).entry e
    (c.setTower t (w.setQueue q ((w.queue q).setEntry e { en with poison := if en.poison = 0 then 0x0505 else en.poison }))).setXfer x y
  | .source _ _ _ _ => match x.back with
    | some l => (c.endBack l x.transfer 0x0505 x.frames 0xFFFF).setXfer x y
    | none => c.setXfer x y
  | _ => c.setXfer x y

/-- Link `l` is told: its queued frames of the slot are dropped, and RETIRE goes out on each path of its transfers (R380). -/
def Core.tellLink (c : Core) (tr : Trim) (k l : Nat) : Core :=
  let x := c.link l
  let c := (c.setLink l { x with queue := x.queue.filter (fun y => y.slot != k) }).bump (lnkBase l + 0x120)
    (x.queue.filter (fun y => y.slot = k)).length
  let ys := c.xfers.filter (fun y => c.xferSlot y = k && y.links.contains l)
  if ys = [] then c
  else
    let c := (ys.filter (fun y => !y.retired)).foldl Core.retireXfer c
    let labels := ((ys.flatMap Xfer.labels).filter (fun e => (c.route e).contains l)).dedup
    let c := labels.foldl (fun (c : Core) e =>
      c.send l { routedFrame 0x0D 0 0 true (retirePayload tr.moduleId k (c.slot k).gen) with route := fOut (c.fwd e), ret := fRet (c.fwd e) }
        0xFFFF) c
    c.setLink l { c.link l with marks := (c.link l).marks ++ [k] }

/-- RETIRE_BROADCAST: the broadcast of slot `k`'s retirement reaches a unit. -/
def Core.broadcast (k : Nat) (u : RetireUnit) (tr : Trim) (c : Core) : Core :=
  let s := c.slot k
  if s.st ≠ .retiring ∨ s.told.contains (unitNum u) then c
  else
    let c := match u with
      | .gatehouse => c.tellGate tr k
      | .belfry => c.tellBelfry tr k
      | .link l => c.tellLink tr k (l % 36)
      | .host | .memory _ => c
    c.setSlot k { c.slot k with told := s.told ++ [unitNum u] }

def execRetireBroadcast (k : Nat) (u : RetireUnit) (s : State) := s.actT (Core.broadcast k u)

/-! Zeroization (R325, R326). -/

/-- The Keep and the Gatehouse erase slot `k`. -/
def Core.zeroize (c : Core) (tr : Trim) (k : Nat) : Core :=
  let s := c.slot k
  let c := c.setSlot k { s with st := .zeroizing, root := 0, told := [] }
  let ds := (c.dir.filter (fun x => x.2.keySlot = k && x.2.st != .free)).map (fun x => x.1)
  let c := ds.foldl (fun (c : Core) i => c.freeDesc i 0x0505) c
  let c := { c with mem := { c.mem with runs := c.mem.runs.filter (fun e => !(e.2.slot = k && decide (e.1 < 16640))) } }
  (c.slotCtxs k).foldl (fun (c : Core) x => (c.disableCtx tr x).deleteCtx x) c

/-- ZEROIZATION: INFLIGHT has reached zero, every unit having reported. -/
def Core.zeroization (k : Nat) (tr : Trim) (c : Core) : Core :=
  if (c.slot k).st = .retiring ∧ (c.slot k).told.length = 55 ∧ c.inflight k = 0 then c.zeroize tr k else c

def execZeroization (k : Nat) (s : State) := s.actT (Core.zeroization k)

/-- DRAIN_TIMEOUT (R326). -/
def Core.drainTimeout (k : Nat) (tr : Trim) (c : Core) : Core :=
  let s := c.slot k
  let n := c.inflight k
  if s.st = .retiring ∧ c.clk.nominal ≥ s.deadline ∧ n ≠ 0 then
    ((c.raise (slotEvent 0x0506 k k (min n 0xFFFF))).bump 0x20_0038 1).zeroize tr k
  else c

def execDrainTimeout (k : Nat) (s : State) := s.actT (Core.drainTimeout k)

/-- SLOT_FREED (R304, R321 step 6): the floor passes the generation. -/
def Core.slotFreed (k : Nat) (c : Core) : Core :=
  let s := c.slot k
  if s.st ≠ .zeroizing then c
  else
    let f := s.gen + 1
    let thr := bits (c.reg offGenThreshold) 0 16
    let c := c.setSlot k { s with st := if f = 0xFFFF then .dead else .free, floor := f, gen := 0, policy := 0, deadline := 0
                                  nonce := 0, activeAt := 0 }
    let c := c.raise (slotEvent 0x050A k k s.gen)
    if s.floor < thr ∧ thr ≤ f then c.raise (slotEvent 0x0507 k k 0) else c

def execSlotFreed (k : Nat) (s : State) := s.act (Core.slotFreed k)

end Sys2Proof.Machine
end

