-- ==== Sys2Proof/Machine/HostQ.lean ====
section
/-! DEFINITION. The commands on queue pairs (12 R338 to R343). -/

namespace Sys2Proof.Machine

/-- The number of entries of the pair's SQ and CQ. -/
def Pair.sqSize (p : Pair) : Nat := 2 ^ bits p.cfg 1 4
def Pair.cqSize (p : Pair) : Nat := 2 ^ bits p.cfg 5 4

/-- A pair that stops but keeps its configuration; commands taken before complete no more (R340), and what is written already fires its
vector as R343 has it. -/
def Pair.stop (p : Pair) (st : PairSt) : Pair := { p with st := st, epoch := p.epoch + 1, taken := 0, unread := 0 }

/-- Q_ENABLE set (R338): heads and tails 0, PHASE 1. -/
def Pair.start (p : Pair) (vectors : Nat) : Pair :=
  if bit p.cfg 0 || p.st != .disabled || !cfgOk p.cfg vectors then p
  else
    { p with cfg := p.cfg + 1, st := .running, sqHead := 0, sqTail := 0, cqHead := 0, cqTail := 0, phase := true, error := 0
             taken := 0, unread := 0, pend := 0, pendAt := 0, epoch := p.epoch + 1 }

/-- Act on a queue pair through BAR2, while BAR2 is served. -/
def Core.onPair (f : HostReq) (q : Nat) (g : Core → Pair → Core) (c : Core) : Core :=
  Core.onBar2 f.fn f.via (fun c => if q < 64 then g c (c.pair f.fn q) else c) c

def execQEnableSet (f : HostReq) (q : Nat) (s : State) := s.act (Core.onPair f q (fun c p => c.setPair f.fn q (p.start (c.fn f.fn).vectors)))

/-- Q_ENABLE cleared (R340, R341): DRAINING until the last completion is written; a STOPPED pair is DISABLED. -/
def Pair.drain (p : Pair) : Pair :=
  if !bit p.cfg 0 then p
  else
    let p := { p with cfg := p.cfg - 1 }
    if p.st = .running ∧ p.taken ≠ 0 then { p with st := .draining } else { p with st := .disabled }

def execQEnableClear (f : HostReq) (q : Nat) (s : State) := s.act (Core.onPair f q (fun c p => c.setPair f.fn q p.drain))

/-- A doorbell out of range stops the pair (R340). -/
def Core.stopPair (c : Core) (f : FnId) (q : Nat) : Core :=
  (c.setPair f q { (c.pair f q).stop .stopped with error := 0x0605 }).raise (sysEvent 0x0605 0 0 0 f.port)

/-- SQ tail doorbell. -/
def execHstSqTail (f : HostReq) (q index : Nat) (s : State) := s.act (Core.onPair f q (fun c p =>
  if p.st ≠ .running then c
  else if index % 4096 ≥ p.sqSize then c.stopPair f.fn q
  else c.setPair f.fn q { p with sqTail := index % 4096 }))

/-- CQ head doorbell: it may not pass an entry that is not written. -/
def execHstCqHead (f : HostReq) (q index : Nat) (s : State) := s.act (Core.onPair f q (fun c p =>
  let n := p.cqSize
  let freed := (index % 4096 + n - p.cqHead) % n
  if p.st ≠ .running then c
  else if index % 4096 ≥ n ∨ freed > p.unread then c.stopPair f.fn q
  else c.setPair f.fn q { p with cqHead := index % 4096, unread := p.unread - freed }))

/-- COALESCE_TIMER (R343): COAL_TIME µs after the first pending completion the vector fires. -/
def Core.coalesce (f : FnId) (q : Nat) (c : Core) : Core :=
  let p := c.pair f q
  let t := bits p.cfg 24 8
  if p.pend ≠ 0 ∧ t ≠ 0 ∧ c.clk.nominal ≥ p.pendAt + 1250 * t then
    (c.setPair f q { p with pend := 0 }).fire f (bits p.cfg 9 6)
  else c

def execCoalesceTimer (f : FnId) (q : Nat) (s : State) := s.act (Core.coalesce f q)

/-- MSIX_UNMASK (R343): the held message goes out. -/
def Core.unmask (f : FnId) (v : Nat) (c : Core) : Core :=
  if v ≥ (c.fn f).vectors then c
  else
    let m := (c.fn f).msix.get .reset v
    let c' := c.setFn f { c.fn f with msix := (c.fn f).msix.set .reset v { m with mask := false, pend := false } }
    if m.pend then { c' with out := { c'.out with msi := c'.out.msi ++ [(f, v)] } } else c'

def execMsixUnmask (f : HostReq) (v : Nat) (s : State) := s.act (Core.onBar2 f.fn f.via (Core.unmask f.fn v))

end Sys2Proof.Machine
end

