-- ==== Sys2Proof/Machine/SessionCmd.lean ====
section
/-! DEFINITION. The session operations of a tenant and of the operator (11 R307 to R311; 16 R453, R454). -/

namespace Sys2Proof.Machine

/-- The answer to a relayed message goes back as ATTEST frames (R385). -/
def Core.relayBack (c : Core) (code error : Nat) (body : List Byte) : Core :=
  match c.keep.relayTo with
  | none => c
  | some x =>
    let fs := frames256 (leBytes 1 code ++ leBytes 1 error ++ body)
    fs.zipIdx.foldl (fun (c : Core) (p : List Byte × Nat) =>
      c.sendBy x.1 (routedFrame 0x0C x.2 p.2 (p.2 + 1 = fs.length) p.1) 0xFFFF) { c with keep := { c.keep with relayTo := none } }

/-- A response of the Keep (R308, R385, R402): for a session operation `code` is OP and `error` CODE. -/
def Core.reply (c : Core) (via : Via) (code error : Nat) (body : List Byte) : Core :=
  let c := { c with keep := { c.keep with out := c.keep.out ++ [(⟨via, code, error, body⟩ : SpdmOut)] } }
  if via = .relay then c.relayBack code error body else c

/-- SPDM's error codes, by the standard (log 33). -/
def errInvalid : Nat := 0x01
def errBusy : Nat := 0x03
def errUnexpected : Nat := 0x04
def errUnsupported : Nat := 0x07
def errSessions : Nat := 0x0A

/-- The responder has been opened (R391 stage 4). -/
def Core.spdmOpen (c : Core) : Bool := c.keep.open_

/-- A transport that reaches the Keep: MCTP is relayed by Gatehouse core 3 (R21, R24). -/
def Core.viaUp (c : Core) (via : Via) : Bool := via != .mctp || c.coreUp 3

/-- An activation window is open: the responder answers Busy (R409). -/
def Core.busy (c : Core) : Bool := c.keep.fwState = 2

def Core.session? (c : Core) (i : Nat) : Option Session := (c.keep.sessions.find? (fun x => x.1 = i)).map (fun x => x.2)

def Core.setSession (c : Core) (i : Nat) (x : Session) : Core :=
  { c with keep := { c.keep with sessions := c.keep.sessions.insert i x } }

/-- A message of a session restarts its heartbeat (R403). -/
def Core.touch (c : Core) (i : Nat) : Core :=
  match c.session? i with
  | some x => c.setSession i { x with last := c.clk.nominal }
  | none => c

/-- A session operation (R308): the header is checked, then `f` acts on the slot it names and gives the code and the response
body.  A message of no open session of its transport, or before the responder is open, has no effect. -/
def Core.sessOp (op len : Nat) (o : SessOp) (f : Core → Session → Nat → List Byte → Core × Nat × List Byte) (c : Core) : Core :=
  match c.session? o.session with
  | none => c
  | some s =>
    if !c.spdmOpen || !c.viaUp o.via || !s.open_ || s.via != o.via then c
    else if c.busy then c.reply o.via op errBusy []
    else
      let c := c.touch o.session
      let p := o.payload
      if p.length ≠ 8 + len ∨ fieldLE p 0 1 ≠ op ∨ fieldLE p 1 1 ≠ 0 ∨ fieldLE p 4 4 ≠ len then c.reply o.via (fieldLE p 0 1) 0x050F []
      else
        let r := f c s (fieldLE p 2 2) (p.drop 8)
        r.1.reply o.via op r.2.1 r.2.2

/-- The operation comes over the DOE of the slot's BOUND_FN, in a session keyed on the alias key (R307, R403). -/
def Core.tenantOk (c : Core) (s : Session) (slot : Nat) : Bool :=
  decide (slot < 4096 ∧ s.via = .doe (c.slot slot).fn ∧ (s.cert = 1 ∨ s.cert = 3))

/-- A tenant operation that needs its slot ACTIVE (R309). -/
def Core.tenantOp (op len : Nat) (o : SessOp) (f : Core → Nat → List Byte → Core × Nat × List Byte) (c : Core) : Core :=
  Core.sessOp op len o (fun c s slot b =>
    if c.tenantOk s slot && decide ((c.slot slot).st = .active) then f c slot b else (c, 0x0508, [])) c

/-! The operations of R309. -/

/-- KEY_INSTALL: the slot runs under GEN from this beat. -/
def keyInstall (c : Core) (s : Session) (slot : Nat) (b : List Byte) : Core × Nat × List Byte :=
  let k := c.slot slot
  let g := fieldLE b 0 2
  let policy := fieldLE b 2 2
  if policy ≥ 8 ∨ fieldLE b 4 4 ≠ 0 then (c, 0x050F, [])
  else if !c.tenantOk s slot ∨ k.st ≠ .enabled then (c, 0x0508, [])
  else if !(k.floor ≤ g && g ≤ 0xFFFE) then (c, 0x0509, [])
  else (c.setSlot slot { k with st := .active, root := BitVec.ofNat 256 (fieldLE b 8 32), gen := g, policy := policy, nonce := 0
                                activeAt := c.clk.nominal, told := [] }, 0, [])

def execKeyInstall (o : SessOp) (s : State) := s.act (Core.sessOp 0x01 40 o keyInstall)

/-- KEY_RETIRE: accepted in every state (R327). -/
def execKeyRetire (o : SessOp) (s : State) := s.act (Core.sessOp 0x02 0 o (fun c s slot _ =>
  if c.tenantOk s slot then (c.retire slot, 0, []) else (c, 0x0508, [])))

/-- The descriptor of a slot with a TPN_BASE. -/
def Core.descOf (c : Core) (slot tpn : Nat) : Option Nat :=
  (c.dir.find? (fun x => decide (x.2.st ≠ .free ∧ x.2.keySlot = slot ∧ x.2.tpn = tpn))).map (fun x => x.1)

/-- SEAL_SET (R316, R318, R463). -/
def sealSet (c : Core) (slot : Nat) (b : List Byte) : Core × Nat × List Byte :=
  match c.descOf slot (fieldLE b 0 8) with
  | none => (c, 0x050F, [])
  | some i => (c.updDesc i (fun d => { d with sealV := BitVec.ofNat 384 (fieldLE b 8 48), sealSt := 1, sealBad := false }), 0, [])

def execSealSet (o : SessOp) (s : State) := s.act (Core.tenantOp 0x03 56 o sealSet)

/-- SEAL_GET. -/
def sealGet (c : Core) (slot : Nat) (b : List Byte) : Core × Nat × List Byte :=
  match c.descOf slot (fieldLE b 0 8) with
  | none => (c, 0x050F, [])
  | some i =>
    let d := c.desc i
    (c, 0, leBytes 48 d.sealV.toNat ++ leBytes 1 d.sealSt ++ leBytes 3 0 ++ leBytes 4 d.commit.step)

def execSealGet (o : SessOp) (s : State) := s.act (Core.tenantOp 0x04 8 o sealGet)

/-- The lowest empty entry of a context's hash list. -/
def Ctx.emptyHash (v : Ctx) : Option Nat := (List.range 64).find? (fun i => SMap.get 0 v.hashes i = 0)

/-- ALLOW_HASH (R309, R310): an image hash enters the context's list; a table's hash is the one last allowed for its kind. -/
def allowHash (c : Core) (slot : Nat) (b : List Byte) : Core × Nat × List Byte :=
  let kind := fieldLE b 0 1
  let x := fieldLE b 2 2
  let h : Digest := BitVec.ofNat 384 (fieldLE b 8 48)
  if !(1 ≤ kind && kind ≤ 3) ∨ fieldLE b 1 1 ≠ 0 ∨ fieldLE b 4 4 ≠ 0 then (c, 0x050F, [])
  else match c.ctx? x with
    | none => (c, 0x0508, [])
    | some v =>
      if v.owner ≠ (c.slot slot).fn ∨ v.keySlot ≠ slot then (c, 0x0508, [])
      else if kind = 1 then
        match v.emptyHash with
        | some i => (c.updCtxD x (fun v => { v with hashes := v.hashes.set 0 i h }), 0, [])
        | none => (c, 0x050F, [])
      else (c.setCtx x { v with allowed := v.allowed.set 0 kind h }, 0, [])

def execAllowHash (o : SessOp) (s : State) := s.act (Core.tenantOp 0x05 56 o allowHash)

/-- STATE as KEP_SLOT_STATUS shows it (R303), and GEN. -/
def SlotSt.code : SlotSt → Nat
  | .free => 0 | .enabled => 1 | .active => 2 | .retiring => 3 | .zeroizing => 4 | .dead => 5

def KeySlot.genShown (k : KeySlot) : Nat :=
  match k.st with
  | .active | .retiring | .zeroizing => k.gen
  | .free | .enabled | .dead => k.floor

/-- STATUS. -/
def slotStatus (c : Core) (slot : Nat) : List Byte :=
  let k := c.slot slot
  leBytes 1 k.st.code ++ leBytes 2 k.policy ++ leBytes 1 0 ++ leBytes 2 k.genShown
    ++ leBytes 2 (c.dir.filter (fun x => decide (x.2.st ≠ .free ∧ x.2.keySlot = slot))).length
    ++ leBytes 2 (c.slotCtxs slot).length ++ leBytes 6 0

def execStatus (o : SessOp) (s : State) := s.act (Core.sessOp 0x06 0 o (fun c s slot _ =>
  if c.tenantOk s slot then (c, 0, slotStatus c slot) else (c, 0x0508, [])))

/-! EXTRACT (R453, R454). -/

/-- The records of slot `slot` from a list whose first has index `i`, at most `n`, and the index after the last examined. -/
def extractScan (slot since : Nat) : Nat → Nat → List EvRecord → List EvRecord × Nat
  | i, 0, _ => ([], i)
  | i, _ + 1, [] => ([], i)
  | i, n + 1, r :: rs =>
    if r.ev.slot = slot ∧ r.beat ≥ since then
      let x := extractScan slot since (i + 1) n rs
      (r :: x.1, x.2)
    else extractScan slot since (i + 1) (n + 1) rs

/-- A record's 32 bytes as they are stored (R443). -/
def EvRecord.bytes (r : EvRecord) : List Byte :=
  leBytes 8 r.time ++ leBytes 8 r.cp ++ leBytes 2 r.ev.code ++ leBytes 2 r.ev.slot ++ leBytes 2 r.ev.a0 ++ leBytes 2 r.ev.a1
    ++ leBytes 2 r.ev.a2 ++ leBytes 2 r.suppressed ++ leBytes 2 r.ev.ctx ++ leBytes 1 r.ev.inst ++ leBytes 1 0

/-- A record as a tenant receives it (R454). -/
def EvRecord.forTenant (r : EvRecord) : EvRecord :=
  { r with time := coarse r.time, cp := coarse r.cp, suppressed := min 1 r.suppressed, ev := { r.ev with inst := 0 } }

/-- EXTRACT's response body. -/
def extract (e : Evr) (c : Core) (slot : Nat) (b : List Byte) : Core × Nat × List Byte :=
  let want := fieldLE b 8 2
  if !(1 ≤ want && want ≤ 64) ∨ !allZero (slice b 0xA 6) then (c, 0x050F, [])
  else
    let k := c.slot slot
    let same := decide (fieldLE b 4 4 = e.epoch)
    let first := if same then fieldLE b 0 4 else 0
    let x := extractScan slot k.activeAt first want (e.records.drop first)
    let body := leBytes 4 e.epoch ++ leBytes 4 x.2 ++ leBytes 2 x.1.length ++ leBytes 1 (b2n e.full + 2 * b2n (!same)) ++ leBytes 5 0
      ++ x.1.flatMap (fun r => r.forTenant.bytes)
    let h := Config.sha384 (leBytes 2 slot ++ leBytes 2 k.gen ++ slice b 0x10 32 ++ body)
    (c.fresh, 0, body ++ leBytes 96 (Config.ecdsaSign 1 h c.free).toNat)

def execExtract (o : SessOp) (s : State) := s.actE (fun _ c e => (Core.tenantOp 0x07 48 o (extract e) c, e))

/-! The operator's session (R311). -/

/-- The transport is the administration PF's DOE, or MCTP. -/
def operatorVia (tr : Trim) (via : Via) : Bool := decide (via = .doe tr.admin ∨ via = .mctp)

/-- BASE_KEY_INSTALL (R311): an installed base key is overwritten by nothing but its zeroization (R302; log 114). -/
def baseKeyInstall (tr : Trim) (c : Core) (s : Session) (slot : Nat) (b : List Byte) : Core × Nat × List Byte :=
  let bs := fieldLE b 0 1
  let g := fieldLE b 2 2
  let k := c.slot (4096 + bs)
  if fieldLE b 1 1 ≠ 0 ∨ fieldLE b 4 4 ≠ 0 then (c, 0x050F, [])
  else if !operatorVia tr s.via ∨ bs > 1 ∨ slot ≠ 4096 + bs ∨ (c.base bs).st ≠ .empty ∨ k.st ≠ .free then
    (c, 0x0508, [])
  else if !(k.floor ≤ g && g ≤ 0xFFFE) then (c, 0x0509, [])
  else (c.setSlot (4096 + bs) { k with st := .active, root := BitVec.ofNat 256 (fieldLE b 8 32), gen := g, nonce := 0
                                       activeAt := c.clk.nominal, told := [] }, 0, [])

def execBaseKeyInstall (o : SessOp) (s : State) := s.actT (fun tr => Core.sessOp 0x10 40 o (baseKeyInstall tr))

end Sys2Proof.Machine
end

