-- ==== Sys2Proof/Machine/HostCmd.lean ====
section
/-! DEFINITION. The commands of the host queues (12 R339, R344 to R347): taking an entry, the checks of R346, segments and
contexts with their tables (R26, R179, R187, R208, R220, R222, R240, R251, R269, R352). -/

namespace Sys2Proof.Machine

/-! The entry (R344). -/

def hOp (e : List Byte) : Nat := fieldLE e 0 1
def hFlags (e : List Byte) : Nat := fieldLE e 1 1
def hCtx (e : List Byte) : Nat := fieldLE e 4 2
def hPark (e : List Byte) : Nat := fieldLE e 6 2
def hAddr (e : List Byte) : Nat := fieldLE e 8 8
def hBytes (e : List Byte) : Nat := fieldLE e 0x10 4
def hResult (e : List Byte) : Nat := fieldLE e 0x18 8
/-- `n` bytes of ARGS at entry offset `o`. -/
def hArg (e : List Byte) (o n : Nat) : Nat := fieldLE e o n

/-- A command's form (R345): opcode, FLAGS bits, whether it names a context, whether its data is read from the host, whether
DATA_BYTES is as required, the ARGS bits it names (bit 0 is bit 0 of offset 0x20), and whether they are in range. -/
structure Form where
  op : Nat
  flags : Nat
  ctx : Bool
  reads : Bool
  bytes : Nat → Bool
  args : Nat
  ok : Bool

/-- Check 1 of R346. -/
def malformed (e : List Byte) (k : Form) : Bool :=
  let submit := decide (k.op = 1)
  !(hFlags e &&& k.flags = hFlags e && fieldLE e 0x14 4 = 0 && (submit || (hPark e = 0 && hResult e = 0))
    && k.bytes (hBytes e) && hAddr e % 64 = 0 && hResult e % 64 = 0 && (k.op = 0x30 || hBytes e != 0 || hAddr e = 0)
    && (if k.ctx then decide (hCtx e < 256) else hCtx e = 0xFFFF) && fieldLE e 0x20 32 &&& k.args = fieldLE e 0x20 32 && k.ok)

/-- The opcodes of R345. -/
def knownOps : List Nat :=
  [0x01, 0x02, 0x10, 0x11, 0x12, 0x13, 0x14, 0x15, 0x16, 0x17, 0x18, 0x19, 0x1A, 0x20, 0x21, 0x22, 0x23, 0x24, 0x25, 0x30, 0x31]

/-! Taking an entry (R24, R335, R339, R350, R407, R417). -/

/-- The Gatehouse core of the port takes the next entry of the pair now. -/
def Core.takes (c : Core) (f : FnId) (q : Nat) : Bool :=
  let p := c.pair f q
  c.bar2 f && !(c.fn f).flr && !c.gate.halted.getD f.port true && !c.gateWindow && !c.gate.stopping
    && p.st = .running && p.sqHead != p.sqTail && decide (p.taken < p.cqSize)

/-- The entry is taken: SQ head, the count of commands, the bytes read; what its completion needs. -/
def Core.take (c : Core) (x : HostCmd) : Core × Req :=
  let p := c.pair x.f x.q
  let h := (p.sqHead + 1) % p.sqSize
  (((c.setPair x.f x.q { p with sqHead := h, taken := p.taken + 1 }).bump (hstBase x.f.port + 0xA0) 1).bump (hstBase x.f.port + 0x80) 64,
   ⟨x.f, x.q, p.epoch, fieldLE x.entry 2 2, h, hResult x.entry⟩)

/-- The key slot is RETIRING or ZEROIZING (check 3 of R346). -/
def Core.leaving (c : Core) (k : Nat) : Bool := (c.slot k).st = .retiring || (c.slot k).st = .zeroizing

/-- A tenant slot is in its active state for a function (R305). -/
def Core.activeFor (c : Core) (k : Nat) (f : FnId) : Bool := decide (k < 4096) && (c.slot k).st = .active && (c.slot k).fn = f

/-- A DMA read of host memory failed (R356): the count and the event. -/
def Core.dmaFailed (c : Core) (f : FnId) : Core := (c.bump (hstBase f.port + 0x90) 1).raise (sysEvent 0x0601 0 0 0 f.port)

/-- `n` bytes of what a read returned. -/
def pad (n : Nat) (d : List Byte) : List Byte := d.take n ++ List.replicate (n - d.length) 0

/-- A refused command whose completion goes with a record (R9, R346, R348). -/
def Core.refuseWith (c : Core) (r : Req) (code : Nat) (record : List Byte) : Core :=
  (c.bump (hstBase r.f.port + 0xA8) 1).post ⟨r, code, 0, record⟩

/-- The Gatehouse cores whose duty a command is (R21), once its port's core has checked it: the directory, residency and parking
are core 2's, contexts and hand-over core 3's. -/
def opCores (op : Nat) : List Nat := if op = 1 then [2, 3] else if op < 0x20 then [3] else [2]

/-- A command of a form is taken and checked by R346: what its completion needs and its data, none when a check refused it or
its turn has not come.  A number already held refuses CONTEXT_CREATE in the place of check 4; `record` is the record of a
command that ends at a check (R348). -/
def Core.acceptWith (record : Core → Req → List Byte) (x : HostCmd) (k : Form) (admin : Option FnId) (slots : Core → List Nat)
    (owned : Core → Bool) (c : Core) : Core × Option (Req × List Byte) :=
  if !c.takes x.f x.q then (c, none)
  else
    let known := knownOps.contains (hOp x.entry)
    if known ∧ hOp x.entry ≠ k.op then (c, none)
    else
      let r := c.take x
      let fails (code : Nat) : Core × Option (Req × List Byte) := (r.1.refuseWith r.2 code (record c r.2), none)
      if !known then (r.1.refuse r.2 0x0A1D 0, none)
      else if malformed x.entry k then fails 0x0A1D
      else if (admin.map (fun a => a != x.f)).getD false then fails 0x0A20
      else if (slots c).any c.leaving then fails 0x0504
      else if !owned c then fails (if k.op = 0x10 then 0x0A02 else 0x0A1E)
      else if k.op = 1 ∧ !((c.ctx? (hCtx x.entry)).map (fun v => v.enable)).getD false then fails 0x0A1F
      -- a halted core carries out nothing (R24; log 103)
      else if !(opCores k.op).all c.coreUp then (r.1, none)
      else if k.reads ∧ hBytes x.entry ≠ 0 then
        match x.data with
        | none => ((r.1.dmaFailed x.f).post ⟨r.2, 0x0601, 0, record c r.2⟩, none)
        | some d => (r.1.bump (hstBase x.f.port + 0x80) (hBytes x.entry), some (r.2, pad (hBytes x.entry) d))
      else (r.1, some (r.2, []))

/-- A command without a record. -/
def Core.accept (x : HostCmd) (k : Form) (admin : Option FnId) (slots : Core → List Nat) (owned : Core → Bool) (c : Core) :
    Core × Option (Req × List Byte) := c.acceptWith (fun _ _ => []) x k admin slots owned

/-- A command that passes the checks of R346 is carried out by `g`. -/
def Core.checkedWith (record : Core → Req → List Byte) (x : HostCmd) (k : Form) (admin : Option FnId) (slots : Core → List Nat)
    (owned : Core → Bool) (g : Core → Req → List Byte → Core) (c : Core) : Core :=
  match c.acceptWith record x k admin slots owned with
  | (c, some r) => g c r.1 r.2
  | (c, none) => c

def Core.checked (x : HostCmd) (k : Form) (admin : Option FnId) (slots : Core → List Nat) (owned : Core → Bool)
    (g : Core → Req → List Byte → Core) (c : Core) : Core := c.checkedWith (fun _ _ => []) x k admin slots owned g

/-- The Gatehouse's read of a context area or a descriptor found a Dome line bad (R463). -/
def Core.ctxRead (c : Core) (x : Nat) (d : Check) : Core :=
  let c := c.domeCheck d (0x20_0000 + 0x1_8000 * x)
  if d = .uncorrectable then c.updCtx x (fun v => { v with poisoned := true }) else c
def Core.descRead (c : Core) (i : Nat) (d : Check) : Core :=
  let c := c.domeCheck d (128 * i)
  if d = .uncorrectable then c.updDesc i (fun v => { v with poisoned := true }) else c

/-- A command on a context by its OWNER. -/
def Core.ctxCmdWith (record : Core → Req → List Byte) (x : HostCmd) (k : Form) (g : Core → Req → Nat → Ctx → List Byte → Core)
    (c : Core) : Core :=
  let n := hCtx x.entry
  Core.checkedWith record x k none (fun c => ((c.ctx? n).map (fun v => v.keySlot)).toList)
    (fun c => ((c.ctx? n).map (fun v => decide (v.owner = x.f))).getD false)
    (fun c r d =>
      let c := c.ctxRead n x.dome
      match c.ctx? n with
      | some v => g c r n v d
      | none => c) c

def Core.ctxCmd (x : HostCmd) (k : Form) (g : Core → Req → Nat → Ctx → List Byte → Core) (c : Core) : Core :=
  c.ctxCmdWith (fun _ _ => []) x k g

/-- The bits of `n` bytes at entry offset `o` in Form.args. -/
def argBits (o n : Nat) : Nat := fieldMask (8 * (o - 0x20)) (8 * n)

/-! SUBMIT_SEGMENT (R26, R179, R181, R206, R221, R255, R256, R267, R270). -/

/-- The row map gives a row to two adaptations (R179). -/
def rowsClash (im : Image) : Bool :=
  let a (r : RowRun) : Option Nat := (im.members[r.member]?).map (fun m => m.adapt)
  !allPairs (fun x y => rowRunsApart x y || a x = a y) im.rows

/-- The conditions on the members of a segment of context `n` submitted by `f`: the code of the first that fails, 0 if none. -/
def Core.memberCode (c : Core) (f : FnId) (n : Nat) (im : Image) (resupport : Bool) : Nat :=
  let vs := im.ctxs.dedup.map c.ctx?
  let got := vs.filterMap (fun v => v)
  let tag := (c.base im.baseSlot).tag
  let owns (m : MemberRef) : Bool := (c.desc m.adapt).st != .free && (c.slot (c.desc m.adapt).keySlot).fn = f
  if !im.ctxs.contains n then 0x0A1D
  else if im.slots.any c.leaving then 0x0504
  else if vs.any (fun v => v.isNone) ∨ got.any (fun v => v.owner != f) ∨ !im.members.all owns then 0x0A1E
  else if got.any (fun v => !v.enable) then 0x0A1F
  else if decide (im.slots.length > 1) && got.any (fun v => !v.cobatch || !bit (c.slot v.keySlot).policy 0) then 0x0A10
  else if got.any (fun v => v.heritage) ∧ got.any (fun v => !v.heritage) then 0x0A13
  else if im.adapts.any (fun i => (c.desc i).baseTag != tag) ∨ got.any (fun v => (c.base v.baseSlot).tag != tag) then 0x0A05
  else if im.adapts.length > 256 then 0x0A11
  else if rowsClash im then 0x0A12
  else if !im.slots.all (fun k => c.activeFor k f) then 0x0A1C
  else if im.training ∧ got.any (fun v => v.commit.step = 2 ^ 32 - 1) then 0x0A1B
  else if im.training ∧ got.any (fun v => v.endMode = 2 && decide (v.commit.pos ≥ v.sched.length)) then 0x0A1A
  else if resupport ∧ im.adapts.any (fun i => (c.desc i).claimant ≠ 0 ∨ (c.desc i).pins ≠ 0) then 0x0A02
  else 0

/-- The segment that a command describes, before it parks or is handed over. -/
def newSeg (id n : Nat) (r : Req) (raw : List Byte) (stepEnd resupport : Bool) : Seg :=
  { id := id, ctx := n, req := r, raw := raw, stepEnd := stepEnd, resupport := resupport, st := .parked, parkCp := none
    parkNominal := 0, overAt := none, granted := false, steps := [], pooled := 0, pinned := [], latches := [], chain := [], rules := [], own := ⟨0, 0, 0, false⟩, start := 0
    startNominal := 0, saved := [], saveAt := 0, used := [], contention := 0, out := .none_, elapsed := 0, stall := 0, wait := 0, slip := 0, endTime := 0, endCp := 0
    energy := 0, due := 0, left := [], committed := 0, heldCount := 0, status := 0 }

/-- The park deadlines of R256 for a park time in 100 µs units. -/
def Core.parkAt (c : Core) (s : Seg) (units : Nat) : Seg :=
  let n := units * 125_000
  { s with parkNominal := c.clk.nominal + n, parkCp := some ((c.cp + n * 2 ^ 24 / max 1 c.period) % 2 ^ 64) }

/-- Requests parked. -/
def Core.parked (c : Core) : Nat := (c.segs.filter (fun s => s.st = .parked)).length

/-- A segment whose conditions hold goes to the Belfry, waits behind an earlier one of its context, or parks (R255). -/
def Core.queueSeg (c : Core) (tr : Trim) (s : Seg) (park : Nat) : Core :=
  let ready := c.ready s
  let s := { s with pinned := c.toPin s }
  let add (c : Core) (s : Seg) : Core := { c with segs := c.segs ++ [s], nextSeg := c.nextSeg + 1 }.pinAll s.pinned
  if !ready ∧ park = 0xFFFF then
    (c.bump 0x448 1).post ⟨s.req, 0x0A06, 0, segRecord tr { s with endTime := c.clk.time, endCp := c.cp }⟩
  else if !ready ∧ c.parked ≥ 4096 then c.post ⟨s.req, 0x0A08, 0, segRecord tr { s with endTime := c.clk.time, endCp := c.cp }⟩
  else if !ready then (add c (c.parkAt s (if park = 0 then bits (c.reg offTier1) 32 16 else park))).kick tr
  else if c.segs.any (fun x => x.ctx = s.ctx && (x.st = .parked || x.st = .waiting)) then add c { s with st := .waiting }
  else (add c s).placeImage tr s

/-- The record of a segment that never ran: zeros but for END_TIME and END_CP (R348). -/
def emptyRecord (tr : Trim) (c : Core) (r : Req) : List Byte :=
  segRecord tr { newSeg 0 0 r [] false false with endTime := c.clk.time, endCp := c.cp }

/-- SUBMIT_SEGMENT. -/
def Core.submit (tr : Trim) (x : HostCmd) : Core → Core :=
  Core.ctxCmdWith (emptyRecord tr) x ⟨1, 3, true, true, fun n => decide (1 ≤ n ∧ n ≤ 2 ^ 25), 0, true⟩ (fun c r n _ d =>
    let s := newSeg c.nextSeg n r d (bit (hFlags x.entry) 0) (bit (hFlags x.entry) 1)
    match c.memberCode x.f n s.img s.resupport with
    | 0 => if c.unplaceable d.length then c.refuseWith r 0x0A0F (emptyRecord tr c r) else c.queueSeg tr s (hPark x.entry)
    | code => c.refuseWith r code (emptyRecord tr c r))

def execSubmitSegment (x : HostCmd) (s : State) := s.actT (fun tr => Core.submit tr x)

/-! The hash list (R310, R394). -/

/-- HOST_IMAGES of a context's slot (R310). -/
def Core.hostImages (c : Core) (v : Ctx) : Bool := bit (c.slot v.keySlot).policy 1

/-- IMAGE_HASH, not clearing. -/
def execImageHash (x : HostCmd) (s : State) :=
  s.act (fun c => if bit (hFlags x.entry) 0 then c
    else Core.ctxCmd x ⟨2, 0, true, true, fun n => n = 48, argBits 0x20 2, decide (hArg x.entry 0x20 2 < 64)⟩ (fun c r n v d =>
      if !c.hostImages v then c.refuse r 0x050D 0
      else (c.updCtxD n (fun v => { v with hashes := v.hashes.set 0 (hArg x.entry 0x20 2) (BitVec.ofNat 384 (leNat d)) })).complete r 0 0) c)

/-- IMAGE_HASH with CLEAR: always accepted (R310). -/
def execImageHashClear (x : HostCmd) (s : State) :=
  s.act (fun c => if !bit (hFlags x.entry) 0 then c
    else Core.ctxCmd x ⟨2, 1, true, false, fun n => n = 0, argBits 0x20 2, decide (hArg x.entry 0x20 2 < 64)⟩ (fun c r n _ _ =>
      (c.updCtxD n (fun v => { v with hashes := v.hashes.set 0 (hArg x.entry 0x20 2) 0 })).complete r 0 0) c)

/-! Contexts (R251, R268, R269, R352). -/

/-- A descriptor as a host writes it: CTX_ENABLE and SWAPPED are the module's. -/
def rawCtx (d : List Byte) : List Byte :=
  let fl := fieldLE d 0 2
  leBytes 2 (bits fl 1 4 * 2 + bits fl 6 10 * 64) ++ d.drop 2

/-- A context just created. -/
def Ctx.fresh (raw : List Byte) : Ctx :=
  { enable := false, raw := raw, commit := .zero, record := .idle, later := [], prog := [], running := none, chain := [], rules := []
    groups := [], sched := [], endMode := 0, loopRow := 0, hashes := [], allowed := [], dome := [], transient := false
    poisoned := false, starts := false }

/-- CONTEXT_CREATE. -/
def Core.createCtx (x : HostCmd) : Core → Core :=
  let n := hCtx x.entry
  Core.checked x ⟨0x10, 0, true, true, fun n => n = 128, 0, true⟩ none (fun _ => []) (fun c => (c.ctx? n).isNone) (fun c r d =>
    let c := c.ctxRead n x.dome
    let v := Ctx.fresh (rawCtx d)
    if c.leaving v.keySlot then c.refuse r 0x0504 0
    else if v.owner ≠ x.f ∨ bit (fieldLE d 0 2) 0 then c.refuse r 0x0A04 0
    else
      let c := c.setCtx n v
      (c.note 7 n 0 (c.ctxDigest n v)).complete r 0 0)

def execContextCreate (x : HostCmd) (s : State) := s.act (Core.createCtx x)

/-- CONTEXT_WRITE: a training claim on an adaptation the descriptor no longer names is released, and the group table of
another adaptation is the one before a load (R208; log 32). -/
def Core.writeCtx (x : HostCmd) : Core → Core :=
  Core.ctxCmd x ⟨0x11, 0, true, true, fun n => n = 128, 0, true⟩ (fun c r n v d =>
    let w := { v with raw := rawCtx d }
    if v.enable then c.refuse r 0x0A0C 0
    else if c.leaving w.keySlot then c.refuse r 0x0504 0
    else
      let moved := w.training != v.training || w.adapt != v.adapt
      let c := if v.training && moved then c.dropTraining n v.adapt else c
      (c.updCtxD n (fun _ => if moved then { w with groups := [] } else w)).complete r 0 0)

def execContextWrite (x : HostCmd) (s : State) := s.act (Core.writeCtx x)

/-- Reserved fields, BASE_SLOT, ADAPTATION and DOME_UNITS are as R268 has them (R269 check 1). -/
def Core.ctxFieldsOk (c : Core) (v : Ctx) : Bool :=
  bits (fieldLE v.raw 0 2) 6 10 = 0 && decide (v.baseSlot ≤ 1) && fieldLE v.raw 3 1 = 0 && bits (fieldLE v.raw 6 2) 6 9 = 0
    && fieldLE v.raw 0xC 4 = 0 && allZero (v.raw.drop 0x1A) && decide (v.units ≤ 512)
    && (v.adapt = 0xFFFF) == !v.training
    && (!v.training || (decide (v.adapt < 16384) && (c.desc v.adapt).st != .free))

/-- The first failing check of R269, 0 if none. -/
def Core.enableCode (c : Core) (n : Nat) (v : Ctx) : Nat :=
  let d := c.desc v.adapt
  if !c.ctxFieldsOk v then 0x0A04
  else if !c.activeFor v.keySlot v.owner then 0x0A1C
  else if (c.base v.baseSlot).st ≠ .ready then 0x0A0A
  else if v.training ∧ d.trainCtx ≠ 0xFFFF ∧ d.trainCtx ≠ n then 0x0A02
  else if v.training ∧ d.baseTag ≠ (c.base v.baseSlot).tag then 0x0A05
  else if c.poolUsed + v.units > poolSize then 0x0A0F
  else 0

/-- Waiting images that the allocations now make unplaceable complete (R267). -/
def Core.dropUnplaceable (c : Core) (tr : Trim) : Core :=
  c.withdraw tr (fun s => s.st = .waiting && c.unplaceable s.raw.length) 0x0A0F

/-- CTX_ENABLE is set: the training claim with the commit line that comes with it (R205, R248), the Dome allocation, the
transient allocation, one group where no table was loaded (R208), and the release program (R60). -/
def Core.enableCtx (c : Core) (tr : Trim) (n : Nat) (v : Ctx) : Core :=
  let d := c.desc v.adapt
  let w := if v.training ∧ d.trainCtx = 0xFFFF then { v with commit := d.commit } else v
  let c := if v.training then c.updDesc v.adapt (fun d => { d with trainCtx := n }) else c
  let w := if v.training ∧ v.groups = [] then { w with groups := [⟨0, d.pages, 0, [0, 0, 0, 0]⟩] } else w
  let c := (((c.setCtx n { w with enable := true }).allocTransient n).allocUnits (.ctx n) v.units).dropUnplaceable tr
  c.startProg n

/-- CONTEXT_ENABLE with ENABLE set. -/
def Core.ctxEnable (tr : Trim) (x : HostCmd) (c : Core) : Core :=
  if !bit (hArg x.entry 0x20 1) 0 then c
  else Core.ctxCmd x ⟨0x12, 0, true, false, fun n => n = 0, 1, true⟩ (fun c r n v _ =>
    if v.enable then c.complete r 0 0
    else match c.enableCode n v with
      | 0 => (c.enableCtx tr n v).complete r 0 0
      | code => { c with gate := { c.gate with refCode := code, refCtx := n, refFn := x.f } }.refuse r code 0) c

def execContextEnable (x : HostCmd) (s : State) := s.actT (fun tr => Core.ctxEnable tr x)

/-- CONTEXT_ENABLE with ENABLE clear (R352). -/
def execContextDisable (x : HostCmd) (s : State) := s.actT (fun tr c =>
  if bit (hArg x.entry 0x20 1) 0 then c
  else Core.ctxCmd x ⟨0x12, 0, true, false, fun n => n = 0, 1, true⟩ (fun c r n _ _ => (c.disableCtx tr n).complete r 0 0) c)

def execContextDelete (x : HostCmd) (s : State) := s.act (Core.ctxCmd x ⟨0x13, 0, true, false, fun n => n = 0, 0, true⟩
  (fun c r n v _ => if v.enable then c.refuse r 0x0A0C 0 else (c.deleteCtx n).complete r 0 0))

/-- CONTEXT_READ: the descriptor, then the step state block. -/
def execContextRead (x : HostCmd) (s : State) := s.act (Core.ctxCmd x ⟨0x14, 0, true, false, fun n => n = 256, 0, true⟩
  (fun c r n v _ => (c.dma x.f (hAddr x.entry) (c.ctxBytes n v ++ c.stepBlock v)).complete r 0 0))

/-! Tables. -/

/-- A segment of the context is admitted and not ended (R187, R222). -/
def Core.inFlight (c : Core) (n : Nat) : Bool :=
  c.segs.any (fun s => s.ctx = n && (s.st = .queued || s.st = .running || s.st = .swapped))

/-- The tenant allows a table's bytes (R310). -/
def Core.tableAllowed (c : Core) (v : Ctx) (kind : Nat) (d : List Byte) : Bool :=
  c.hostImages v || Config.sha384 d = SMap.get 0 v.allowed kind

/-- LOAD_CHAIN (R187). -/
def execLoadChain (x : HostCmd) (s : State) := s.act (Core.ctxCmd x ⟨0x15, 0, true, true, fun n => n = 1024, 0, true⟩
  (fun c r n v d =>
    let ws := words d 0 32 32
    if !c.tableAllowed v 2 d then c.refuse r 0x050D 0
    else match findIdx? (fun w => !chainWordOk w) ws with
      | some y => c.refuse r 0x0A14 y.1
      | none => if c.inFlight n then c.refuse r 0x0A15 0 else (c.updCtxD n (fun v => { v with chain := ws })).complete r 0 0))

/-- LOAD_RULES (R222). -/
def execLoadRules (x : HostCmd) (s : State) := s.act (Core.ctxCmd x ⟨0x16, 0, true, true, fun n => n = 4096, 0, true⟩
  (fun c r n v d =>
    let ws := words d 0 4 1024
    let bad (k : Nat) : Option (Nat × Nat) := (ruleBad 0 0 0 [] ((ws.drop (32 * k)).take 32)).map (fun w => (k, w))
    if !c.tableAllowed v 3 d then c.refuse r 0x050D 0
    else match (List.range 32).findSome? bad with
      | some x => { c with gate := { c.gate with refArgs := x } }.refuse r 0x0A16 x.1
      | none => if c.inFlight n then c.refuse r 0x0A17 0 else (c.updCtxD n (fun v => { v with rules := ws })).complete r 0 0))

/-- A step of the context is open. -/
def Ctx.stepOpen (v : Ctx) : Bool := v.record.st != 0

/-- A group table's entries (R208). -/
def parseGroups (d : List Byte) (n : Nat) : List (ParamGroup × Bool) :=
  (List.range n).map (fun i =>
    let o := 32 * i
    (⟨fieldLE d o 4, fieldLE d (o + 4) 4, fieldLE d (o + 8) 4, (List.range 4).map (fun k => fieldLE d (o + 0x10 + 4 * k) 4)⟩,
     fieldLE d (o + 8) 4 < 4 && fieldLE d (o + 12) 4 = 0))

/-- The index of the first entry that breaks R208 for an adaptation of `pages` pages; a table that stops short breaks it with its
last entry. -/
def groupsBad (pages : Nat) : Nat → Nat → List (ParamGroup × Bool) → Option Nat
  | i, at_, [] => if at_ = pages then none else some (i - 1)
  | i, at_, (g, ok) :: gs => if ok && g.first = at_ && decide (1 ≤ g.pages ∧ at_ + g.pages ≤ pages) then groupsBad pages (i + 1) (at_ + g.pages) gs else some i

/-- The table a load leaves: SINGULAR can only be cleared by it (R208). -/
def mergeGroups (old : List ParamGroup) (gs : List (ParamGroup × Bool)) : List ParamGroup :=
  gs.zipIdx.map (fun g =>
    let was := match old[g.2]? with
      | some o => bit o.flags 1
      | none => false
    { g.1.1 with flags := bits g.1.1.flags 0 1 + 2 * b2n (bit g.1.1.flags 1 && was) })

/-- LOAD_GROUPS (R208, R209). -/
def execLoadGroups (x : HostCmd) (s : State) :=
  let k := hArg x.entry 0x20 2
  s.act (Core.ctxCmd x ⟨0x17, 0, true, true, fun n => n = 32 * k, argBits 0x20 2, decide (1 ≤ k ∧ k ≤ 256)⟩ (fun c r n v d =>
    let gs := parseGroups d k
    let pages := if v.training then (c.desc v.adapt).pages else 0
    match groupsBad pages 0 0 gs with
    | some i => c.refuse r 0x0A19 i
    | none =>
      if v.stepOpen || c.segs.any (fun s => (s.st = .queued || s.st = .running || s.st = .swapped) && s.img.adapts.contains v.adapt) then
        c.refuse r 0x0A17 0
      else (c.updCtx n (fun v => { v with groups := mergeGroups v.groups gs })).complete r 0 0))

/-- A schedule table's header is as R220 has it. -/
def schedOk (d : List Byte) (pos : Nat) : Bool :=
  let rows := fieldLE d 2 2
  fieldLE d 0 2 = 0x5354 && decide (1 ≤ rows ∧ rows ≤ 1023 ∧ d.length = 64 + 64 * rows ∧ fieldLE d 4 1 ≤ 2 ∧ pos < rows)
    && fieldLE d 5 1 = 0 && allZero ((d.drop 8).take 56) && (fieldLE d 4 1 != 1 || decide (fieldLE d 6 2 < rows))

/-- LOAD_SCHEDULE (R220). -/
def execLoadSchedule (x : HostCmd) (s : State) :=
  let pos := hArg x.entry 0x20 2
  s.act (Core.ctxCmd x ⟨0x18, 0, true, true, fun n => decide (1 ≤ n ∧ n ≤ 65536), argBits 0x20 2, true⟩ (fun c r n v d =>
    if !schedOk d pos then c.refuse r 0x0A18 0
    else if v.stepOpen then c.refuse r 0x0A17 0
    else
      let rows := (List.range (fieldLE d 2 2)).map (fun i => words d (64 + 64 * i) 4 16)
      let c := c.updCtx n (fun v => { v with sched := rows, endMode := fieldLE d 4 1, loopRow := fieldLE d 6 2 })
      (c.updCommit n (fun l => { l with pos := pos })).complete r 0 0))

/-- ADVANCE_STEP (R240). -/
def execAdvanceStep (x : HostCmd) (s : State) := s.act (Core.ctxCmd x ⟨0x19, 0, true, false, fun n => n = 0, 0, true⟩
  (fun c r n v _ =>
    if v.stepOpen then c.refuse r 0x0A17 0
    else if v.commit.step = 2 ^ 32 - 1 then c.refuse r 0x0A1B 0
    else (c.updCommit n (fun l => { l with step := l.step + 1 })).complete r 0 0))

/-- LOAD_RELEASE (R57, R60). -/
def execLoadRelease (x : HostCmd) (s : State) :=
  let k := hArg x.entry 0x20 2
  s.act (Core.ctxCmd x ⟨0x1A, 0, true, true, fun n => n = 8 * k, argBits 0x20 2, decide (1 ≤ k ∧ k ≤ 64)⟩ (fun c r n _ d =>
    let ws := words d 0 8 k
    match progBad ws with
    | some i =>
      { c with blf := { c.blf with refCode := 0x030A, refCtx := n } }.refuse r 0x030A i
    | none =>
      ((c.endProg n).updCtx n (fun v => { v with prog := ws, starts := v.enable })).complete r 0 0))

end Sys2Proof.Machine
end

