-- ==== Sys2Proof/Machine/AdaptCmd.lean ====
section
/-! DEFINITION. The commands on adaptations and base slots (12 R345; 09 R247 to R262, R271; 11 R311, R316, R319; 14 R398). -/

namespace Sys2Proof.Machine

/-! Adaptations. -/

/-- The adaptation an entry names. -/
def hIndex (e : List Byte) : Nat := hArg e 0x20 2

/-- The submitting function is the adaptation's owner: BOUND_FN of its key slot (R345, R346 check 4). -/
def Core.ownsDesc (c : Core) (f : FnId) (i : Nat) : Bool := (c.desc i).st != .free && (c.slot (c.desc i).keySlot).fn = f

/-- The key slot of an adaptation, for check 3 of R346. -/
def Core.descSlots (c : Core) (i : Nat) : List Nat := if (c.desc i).st = .free then [] else [(c.desc i).keySlot]

/-- A command on an adaptation by its owner. -/
def Core.adaptCmd (x : HostCmd) (k : Form) (g : Core → Req → Nat → Desc → Core) (c : Core) : Core :=
  let i := hIndex x.entry
  Core.checked x k none (fun c => c.descSlots i) (fun c => c.ownsDesc x.f i)
    (fun c r _ => let c := c.descRead i x.dome
                  g c r i (c.desc i)) c

/-! Registration (R249). -/

/-- The descriptor that a registration would write. -/
def Core.newDesc (c : Core) (x : HostCmd) (d : List Byte) : Desc :=
  let s := (shapeSlots d).1
  { Desc.free with
    st := .remote, keySlot := hIndex x.entry, gen := (c.slot (hIndex x.entry)).gen, matrices := shapeCount d
    baseTag := hArg x.entry 0x28 8, hostFn := x.f, pages := ceilDiv s 1344, slots := s, tpn := hArg x.entry 0x30 8
    tier2 := hArg x.entry 0x38 8, shape := d }

/-- The run overlaps that of another descriptor of its key slot (R249). -/
def Core.overlaps (c : Core) (d : Desc) : Bool :=
  c.dir.any (fun x => x.2.st != .free && x.2.keySlot = d.keySlot
    && decide (d.tpn < x.2.tpn + x.2.runPages ∧ x.2.tpn < d.tpn + d.runPages))

/-- TIER2 is in range and names a source (R247, R249). -/
def tier2Ok (v : Nat) : Bool :=
  bits v 14 2 = 0 && (bits v 0 2 = 2 && bits v 2 12 = 0 || (bits v 0 2 = 1 && bits v 30 34 = 0))

/-- The fields of a registration are in range (R159, R160, R249, R278). -/
def Core.descOk (c : Core) (d : Desc) : Bool :=
  (shapeSlots d.shape).2 && decide (d.slots ≤ 2 ^ 28 - 1) && d.tpn % 16 = 0 && decide (d.tpn + d.runPages ≤ 2 ^ 35)
    && tier2Ok d.tier2 && !c.overlaps d

/-- The lowest FREE index of the directory. -/
def Core.freeIndex (c : Core) : Option Nat := (List.range 16384).find? (fun i => (c.desc i).st = .free)

/-- ADAPT_REGISTER. -/
def Core.register (tr : Trim) (x : HostCmd) : Core → Core :=
  let k := hIndex x.entry
  Core.checked x ⟨0x20, 1, false, true, fun n => n = 8192, argBits 0x20 2 + argBits 0x28 24, true⟩ none (fun _ => [k]) (fun _ => true)
    (fun c r d =>
      if !c.activeFor k x.f then c.refuse r 0x0A1C 0
      else match c.freeIndex with
        | none => c.refuse r 0x0A03 0
        | some i =>
          let c := c.descRead i x.dome
          let v := c.newDesc x d
          if !c.descOk v then c.refuse r 0x0A04 0
          else
            let c := c.setDesc i v
            if bit (hFlags x.entry) 0 then c.startFetch tr i true true (some r) else c.complete r 0 i)

def execAdaptRegister (x : HostCmd) (s : State) := s.actT (fun tr => Core.register tr x)

def execAdaptRead (x : HostCmd) (s : State) := s.act (Core.adaptCmd x ⟨0x21, 0, false, false, fun n => n = 128, argBits 0x20 2, true⟩
  (fun c r i d => (c.dma x.f (hAddr x.entry) (c.descBytes i d)).complete r 0 0))

/-- ADAPT_REMOVE (R253, R262): a claim for removal needs an entry that no one holds. -/
def Core.removeAdapt (x : HostCmd) : Core → Core :=
  Core.adaptCmd x ⟨0x22, 0, false, false, fun n => n = 0, argBits 0x20 2, true⟩ (fun c r i d =>
    if d.claimant ≠ 0 ∨ d.pins ≠ 0 ∨ d.trainCtx ≠ 0xFFFF then c.refuse r 0x0A02 0 else (c.freeDesc i 0).complete r 0 0)

def execAdaptRemove (x : HostCmd) (s : State) := s.act (Core.removeAdapt x)

/-- ADAPT_PREFETCH (R259): a fetch that parks nothing; one under way for the form completes it as well. -/
def Core.prefetch (tr : Trim) (x : HostCmd) : Core → Core :=
  let training := bit (hArg x.entry 0x22 1) 0
  Core.adaptCmd x ⟨0x23, 0, false, false, fun n => n = 0, argBits 0x20 2 + 2 ^ 16, true⟩ (fun c r i d =>
    match d.fetch with
    | some f =>
      if d.st = .resident ∧ (!training ∨ d.training) then c.complete r 0 0
      else if training && !f.training then c.refuse r 0x0A02 0
      else c.setDesc i { d with fetch := some { f with reqs := f.reqs ++ [r] } }
    | none =>
      if d.st = .resident && (!training || d.training) then c.complete r 0 0
      else if d.claimant ≠ 0 then c.refuse r 0x0A02 0
      else c.startFetch tr i training false (some r))

def execAdaptPrefetch (x : HostCmd) (s : State) := s.actT (fun tr => Core.prefetch tr x)

/-- ADAPT_WRITEBACK (R261, R317, R345): under an eviction claim, the entry left RESIDENT. -/
def Core.writeback (tr : Trim) (x : HostCmd) (c : Core) (dr : Dram) : Core :=
  Core.adaptCmd x ⟨0x24, 0, false, false, fun n => n = 0, argBits 0x20 2, true⟩ (fun c r i d =>
    if bits d.tier2 0 2 = 0 then c.refuse r 0x0A04 0
    else if d.claimant ≠ 0 ∨ d.pins ≠ 0 ∨ d.st ≠ .resident then c.refuse r 0x0A02 0
    else
      let c := (c.dropCopies i).updDesc i (fun d => { d with claimant := 1, kind := 2, wb := some (some r) })
      match c.startWriteback tr dr i c.defaultBudget with
      | (c, 0) => c
      | (c, code) => c.writebackFail i code) c

def execAdaptWriteback (x : HostCmd) (s : State) := s.actM (fun c d => (Core.writeback s.trim x c d, d))

/-- Every page of a list reads well: the plaintext lines by page, or the first code (R287). -/
def Core.readAll (dr : Dram) (k : Nat) (us : List Nat) (c : Core) : Core × Except Nat (List (Nat × List Line)) :=
  us.foldl (fun (r : Core × Except Nat (List (Nat × List Line))) u =>
    match r.2 with
    | .error p => (r.1, .error p)
    | .ok ps => match (r.1.freeTraffic k [u]).readPage dr k u (List.range 64) with
      | (c, .ok ls) => (c, .ok (ps ++ [(u, ls)]))
      | (c, .error p) => (c, .error p)) (c, .ok [])

/-- Write plaintext pages under the slot and generation of the run-table entry, with version 0 (R319). -/
def Core.rewrite (k : Nat) (ps : List (Nat × List Line)) (c : Core) (dr : Dram) : Core × Dram :=
  ps.foldl (fun (r : Core × Dram) p =>
    match r.1.runEnt k with
    | none => r
    | some e => match e.frame p.1 with
      | none => r
      | some pfn =>
        let ls := p.2.zipIdx.map (fun (l : Line × Nat) => r.1.cipher k e p.1 l.2 l.1)
        let d := r.1.landPage r.2 k ⟨p.1, ls, 0, pageTag (r.1.slot e.slot).root (e.first + p.1) 0 e.gen ls⟩
        (((r.1.countLines (pfn % 16) 1 (List.range 64)).countTag (pfn % 16) 1 (pfn / 16)).freeTraffic k [p.1], d)) (c, dr)

/-- The first check that ADAPT_REWRAP of adaptation `i` into slot `k` fails, 0 if none (R253, R305, R319). -/
def Core.rewrapCode (c : Core) (f : FnId) (i k : Nat) : Nat :=
  let d := c.desc i
  if !c.activeFor k f then 0x0A1C
  else if d.claimant ≠ 0 ∨ d.pins ≠ 0 ∨ d.st ≠ .resident ∨ !d.training then 0x0A02 else 0

/-- The pages read well: the run goes over to slot `k` (R319). -/
def Core.rewrapInto (c : Core) (dr : Dram) (r : Req) (i k : Nat) (ps : List (Nat × List Line)) : Core × Dram :=
  let g := (c.slot k).gen
  let c := match c.runEnt i with
    | some e => c.setRun i { e with slot := k, gen := g }
    | none => c
  let y := c.rewrite i ps dr
  ((y.1.updDesc i (fun d => { d with keySlot := k, gen := g, sealSt := 0, dirty := true })).complete r 0 0, y.2)

/-- ADAPT_REWRAP (R319): a page that does not verify under the old slot ends it with the descriptor unchanged. -/
def Core.rewrap (x : HostCmd) (c : Core) (dr : Dram) : Core × Dram :=
  let i := hIndex x.entry
  let k := hArg x.entry 0x22 2
  match Core.accept x ⟨0x25, 0, false, false, fun n => n = 0, argBits 0x20 4, true⟩ none (fun c => c.descSlots i ++ [k])
      (fun c => c.ownsDesc x.f i) c with
  | (c, none) => (c, dr)
  | (c, some r) =>
    let c := c.descRead i x.dome
    match c.rewrapCode x.f i k with
    | 0 => match (c.dropCopies i).readAll dr i ((c.desc i).statePages (c.groupsOf i) true) with
      | (c, .error p) => (c.complete r.1 p 0, dr)
      | (c, .ok ps) => c.rewrapInto dr r.1 i k ps
    | code => (c.refuse r.1 code 0, dr)

def execAdaptRewrap (x : HostCmd) (s : State) := s.actM (Core.rewrap x)

/-! Base slots (R271, R398). -/

/-- Context digests that name base slot `b` change with its tag (R394, R397). -/
def Core.noteTag (c : Core) (b : Nat) : Core :=
  c.ctxs.foldl (fun (c : Core) x => if x.2.baseSlot = b then c.note 7 x.1 0 (c.ctxDigest x.1 x.2) else c) c

/-- A base load fails: the slot is EMPTY, its frames free, the command completes with the code. -/
def Core.baseFail (c : Core) (b code : Nat) : Core :=
  let x := c.base b
  let c := (c.setBase b .empty).dropRun (16640 + b)
  let c := ({ c with xfers := c.xfers.filter (fun y => !decide (y.role = XferRole.base b)) }).noteTag b
  match x.req with
  | some r => c.complete r code 0
  | none => c

/-- Give a base's run its frames, if they are free. -/
def Core.placeBase (c : Core) (b bytes : Nat) : Option Core :=
  let n := ceilDiv bytes 4096
  (c.place n).map (fun at_ =>
    c.setRun (16640 + b) ⟨4096 + b, (c.slot (4096 + b)).gen, 0, n, true, [⟨0, at_, ceilDiv n 16⟩]⟩)

/-- The ranges of a base read over a link: at most 524,288 pages each (R378). -/
def baseRanges (pages : Nat) : List (Nat × Nat) :=
  (List.range (ceilDiv pages 524_288)).map (fun k => (524_288 * k, min 524_288 (pages - 524_288 * k)))

/-- BASE_LOAD (R271, R345). -/
def Core.loadBase (tr : Trim) (x : HostCmd) (c : Core) (dr : Dram) : Core :=
  let b := hIndex x.entry
  let tag := hArg x.entry 0x28 8
  let bytes := hArg x.entry 0x30 8
  let v := hArg x.entry 0x38 2
  let pages := ceilDiv bytes 4096
  Core.checked x ⟨0x30, 0, false, false, fun n => n = 0, argBits 0x20 2 + argBits 0x28 16 + (2 ^ 12 - 1) * 2 ^ 192 + 2 ^ 207, true⟩
    (some tr.admin) (fun _ => if b < 2 then [4096 + b] else []) (fun _ => true) (fun c r _ =>
      if b > 1 ∨ bytes = 0 then c.refuse r 0x0A04 0
      else if (c.base b).st ≠ .empty then c.refuse r 0x0A02 0
      else if tag = 0 ∨ tag = (c.base (1 - b)).tag then c.refuse r 0x0A04 0
      else if (c.slot (4096 + b)).st ≠ .active then c.refuse r 0x0A04 0
      else if c.noMemory ∨ !c.canFree (roundUp pages 16) then c.refuse r 0x0A0B 0
      else
        let c := c.evictFor tr dr (roundUp pages 16)
        let c := (c.setBase b ⟨.loading, tag, bytes, 0, some r, bit v 15⟩).noteTag b
        let c := (c.placeBase b bytes).getD c
        if !bit v 15 then c
        else
          let k := c.slot (4096 + b)
          let y := (baseRanges pages).foldl (fun (y : Core × Nat) (p : Nat × Nat) =>
            if y.2 ≠ 0 then y
            else y.1.originate tr (bits v 0 12) ⟨0, 0xFFFF, k.gen, 3, 0, tag, c.defaultBudget, 0, 0, p.1, p.2, 0, 0⟩ (.base b)) (c, 0)
          if y.2 ≠ 0 then y.1.baseFail b y.2 else y.1) c

def execBaseLoad (x : HostCmd) (s : State) := s.actM (fun c d => (Core.loadBase s.trim x c d, d))

/-- The bytes a transfer has brought from INDEX `i` on, `n` frames (R374). -/
def Xfer.bytesAt (x : Xfer) (i n : Nat) : List Byte :=
  (List.range n).flatMap (fun j => slice (((x.data.find? (fun y => y.1 = i + j)).map (fun y => y.2)).getD []) 0 256)

/-- Page `u`, the `j`-th of a transfer of `n` pages, in stored form with its version and tag (R316, R374). -/
def Xfer.page (x : Xfer) (u j n : Nat) : StoredPage :=
  let t := ceilDiv (20 * n) 256
  let bs := x.bytesAt (t + 16 * j) 16
  let tg := slice (x.bytesAt (20 * j / 256) 2) (20 * j % 256) 20
  ⟨u, (List.range 64).map (fun k => bytesLine (slice bs (64 * k) 64)), fieldLE tg 0 4, BitVec.ofNat 128 (fieldLE tg 4 16)⟩

/-- The pages of a base land: from host memory under the base key, or as its transfers brought them. -/
def Core.landBase (b : Nat) (src : List Byte) (c : Core) (dr : Dram) : Core × Dram :=
  let x := c.base b
  let n := ceilDiv x.bytes 4096
  if x.link then
    let ys := c.xfers.filter (fun y => decide (y.role = XferRole.base b))
    let ps := ((baseRanges n).zip ys).flatMap (fun (p : (Nat × Nat) × Xfer) =>
      (List.range p.1.2).map (fun j => p.2.page (p.1.1 + j) j p.1.2))
    (c.pageTraffic (16640 + b) 1 (ps.map (fun p => p.u)), ps.foldl (fun (dr : Dram) p => c.landPage dr (16640 + b) p) dr)
  else
    let c := match x.req with
      | some r => c.bump (hstBase r.f.port + 0x80) x.bytes
      | none => c
    (List.range n).foldl (fun (r : Core × Dram) u =>
      let bs := slice src (4096 * u) 4096
      let y := r.1.writePage r.2 (16640 + b) u ((List.range 64).map (fun i => (i, bytesLine (slice bs (64 * i) 64))))
      (y.1.freeTraffic (16640 + b) [u], y.2.1)) (c, dr)

/-- The hash of a base is measured (R398); a page that fails its check fails the load. -/
def Core.measureBase (b : Nat) (c : Core) (dr : Dram) : Core :=
  let x := c.base b
  match c.readAll dr (16640 + b) (List.range (ceilDiv x.bytes 4096)) with
  | (c, .error p) => c.baseFail b p
  | (c, .ok ps) =>
    let h := Config.sha384 (((ps.flatMap (fun p => p.2)).flatMap lineBytes).take x.bytes)
    let c := c.setBase b { x with st := .ready, hash := h, req := none }
    let c := { c with xfers := c.xfers.filter (fun y => !decide (y.role = XferRole.base b)) }.note 5 0xFFFF b h
    match x.req with
    | some r => c.complete r 0 0
    | none => c

/-- BASE_LOAD_DONE: the last page of slot `b`'s load has come; `src` is what the DMA reads of its source returned. -/
def Core.baseDone (b : Nat) (src : Option (List Byte)) (c : Core) (dr : Dram) : Core × Dram :=
  let x := c.base b
  if x.st ≠ .loading ∨ b > 1 then (c, dr)
  else if x.link ∧ c.xfers.any (fun y => decide (y.role = XferRole.base b) && !y.ended) then (c, dr)
  else if !x.link ∧ src.isNone then
    (match x.req with
      | some r => (c.dmaFailed r.f).baseFail b 0x0601
      | none => c.baseFail b 0x0601, dr)
  else
    match if (c.runEnt (16640 + b)).isSome then some c else c.placeBase b x.bytes with
    | none => if c.dir.any (fun y => y.2.st = .evicting) then (c, dr) else (c.baseFail b 0x0A0B, dr)
    | some c =>
      let y := c.landBase b (src.getD []) dr
      (y.1.measureBase b y.2, y.2)

def execBaseLoadDone (b : Nat) (src : Option (List Byte)) (s : State) := s.actM (Core.baseDone b src)

/-- BASE_FREE (R271, R311): its key slot retires with it. -/
def Core.freeBaseSlot (tr : Trim) (x : HostCmd) : Core → Core :=
  let b := hIndex x.entry
  Core.checked x ⟨0x31, 0, false, false, fun n => n = 0, argBits 0x20 2, true⟩ (some tr.admin)
    (fun _ => if b < 2 then [4096 + b] else []) (fun _ => true) (fun c r _ =>
      let y := c.base b
      if b > 1 ∨ y.st ≠ .ready then c.refuse r 0x0A0A 0
      else if c.ctxs.any (fun v => v.2.enable && v.2.baseSlot = b) ∨ c.dir.any (fun d => d.2.st != .free && d.2.baseTag = y.tag) then
        c.refuse r 0x0A09 0
      else
        ((((c.dropRun (16640 + b)).setBase b .empty).retire (4096 + b)).noteTag b |>.note 6 0xFFFF b 0).complete r 0 0)

def execBaseFree (x : HostCmd) (s : State) := s.actT (fun tr => Core.freeBaseSlot tr x)

end Sys2Proof.Machine
end

