-- ==== Sys2Proof/Machine/Func.lean ====
section
/-! DEFINITION. The functions of the ports (12 R333 to R337, R349 to R351): function-level reset, TDISP, IDE, the PCIe link,
HST_VF_ENABLE, and PERST# (17 R458). -/

namespace Sys2Proof.Machine

/-! Function-level reset (R349). -/

/-- Steps 1 to 5 of R349 on the pairs and parked requests of `f`: what its commands complete with from here on is dropped. -/
def Core.dropFn (c : Core) (tr : Trim) (f : FnId) : Core :=
  let x := c.fn f
  let c := c.setFn f { x with
    pairs := x.pairs.map (fun (p : Nat × Pair) => (p.1, { Pair.reset with epoch := p.2.epoch + 1 })), msix := [] }
  (c.withdraw tr (fun s => s.req.f = f && s.st = .parked) 0x0A21).wake tr

/-- FUNCTION_LEVEL_RESET. -/
def Core.flr (c : Core) (tr : Trim) (f : FnId) : Core :=
  let c := c.dropFn tr f
  c.setFn f { c.fn f with tdi := .unlocked, flr := true }

def execFunctionLevelReset (f : FnId) (s : State) := s.actT (fun tr c => c.flr tr f)

/-- FLR_COMPLETE: HST_FLR, event 0x0608, the reset record (R410). -/
def Core.flrDone (f : FnId) (c : Core) : Core :=
  if !(c.fn f).flr then c
  else ((((c.setFn f { c.fn f with flr := false }).bump (hstBase f.port + 0xB0) 1).raise (sysEvent 0x0608 0 0 0 f.port)).noteReset 4 0)

def execFlrComplete (f : FnId) (s : State) := s.act (Core.flrDone f)

/-! TDISP (R336, R350).  Its codes are the standard's (log 33). -/

/-- A TDI enters ERROR (R350). -/
def Core.tdiError (c : Core) (tr : Trim) (f : FnId) : Core :=
  if (c.fn f).tdi = .error then c
  else
    let c := c.dropFn tr f
    (c.setFn f { c.fn f with tdi := .error }).raise (sysEvent 0x0607 f.fn 0 0 f.port)

/-- A TDISP request `code` over the function's DOE, answered as SPDM requests are (R402, R409): the function as `g` leaves it,
an error code or 0, and the response's bytes. -/
def Core.tdisp (f : FnId) (code : Nat) (g : HostFn → HostFn × Nat × List Byte) (c : Core) : Core :=
  if !c.spdmOpen then c
  else if c.busy then c.reply (.doe f) (0x100 + code) errBusy []
  else
    let r := g (c.fn f)
    (c.setFn f r.1).reply (.doe f) (0x100 + code) r.2.1 r.2.2

/-- TDISP's INVALID_INTERFACE_STATE. -/
def errState : Nat := 0x04

/-- TDI_STATE as HST_VF_STATUS shows it. -/
def TdiSt.code : TdiSt → Nat
  | .unlocked => 0 | .locked => 1 | .run => 2 | .error => 3

def execGetTdispVersion (f : FnId) (s : State) := s.act (Core.tdisp f 0x81 (fun x => (x, 0, leBytes 1 1 ++ leBytes 1 0x10)))

/-- The requests supported are those of R336, codes 0x81 to 0x87. -/
def execGetTdispCapabilities (f : FnId) (s : State) := s.act (Core.tdisp f 0x82 (fun x =>
  (x, 0, leBytes 4 0 ++ leBytes 16 (fieldMask 1 7) ++ leBytes 2 0 ++ leBytes 4 0)))

/-- The function is bound to a selective stream of its port that is Secure (R336). -/
def Core.streamSecure (c : Core) (f : FnId) : Bool :=
  match (c.fn f).stream with
  | some i => (c.port f.port).secure.contains i
  | none => false

/-- LOCK_INTERFACE. -/
def Core.lockTdi (f : FnId) (c : Core) : Core :=
  Core.tdisp f 0x83 (fun x =>
    if !c.streamSecure f then (x, errInvalid, [])
    else if x.tdi ≠ .unlocked then (x, errState, [])
    else ({ x with tdi := .locked }, 0, [])) c

def execLockInterface (f : FnId) (s : State) := s.act (Core.lockTdi f)

/-- The interface report (R336): BAR2's pages, the MSI-X table's place, no ATS and no PASID, in the standard's layout. -/
def tdiReport : List Byte :=
  leBytes 2 0 ++ leBytes 2 0 ++ leBytes 2 0 ++ leBytes 2 0 ++ leBytes 4 0 ++ leBytes 4 1 ++ leBytes 8 0 ++ leBytes 4 256 ++ leBytes 4 2
    ++ leBytes 4 0x2_0000

def execGetDeviceInterfaceReport (f : FnId) (s : State) := s.act (Core.tdisp f 0x84 (fun x =>
  if x.tdi = .locked ∨ x.tdi = .run then (x, 0, tdiReport) else (x, errState, [])))

def execGetDeviceInterfaceState (f : FnId) (s : State) := s.act (Core.tdisp f 0x85 (fun x => (x, 0, leBytes 1 x.tdi.code)))

def execStartInterface (f : FnId) (s : State) := s.act (Core.tdisp f 0x86 (fun x =>
  if x.tdi = .locked then ({ x with tdi := .run }, 0, []) else (x, errState, [])))

def execStopInterface (f : FnId) (s : State) := s.act (Core.tdisp f 0x87 (fun x => ({ x with tdi := .unlocked }, 0, [])))

/-! IDE (R333, R337). -/

/-- Functions of a port that satisfy `p`. -/
def Core.fnsOf (c : Core) (port : Nat) (p : HostFn → Bool) : List FnId :=
  ((List.range 64).filter (fun k => p (c.fn ⟨port, k⟩))).map (fun k => ⟨port, k⟩)

/-- Unbind the functions of a port that satisfy `p` from their streams. -/
def Core.unbind (c : Core) (port : Nat) (p : HostFn → Bool) : Core :=
  (c.fnsOf port p).foldl (fun (c : Core) f => c.setFn f { c.fn f with stream := none }) c

/-- A selective stream beyond the 64 that a port has (R337). -/
def Port.full (p : Port) (stream : Nat) : Bool := !p.secure.contains stream && decide (p.secure.length ≥ 64)

/-- IDE_KM over the PF's DOE: link IDE goes Secure, or a selective stream does and binds one function. -/
def Core.ideKm (f : FnId) (stream bound : Nat) (link : Bool) (c : Core) : Core :=
  if f.fn ≠ 0 ∨ !c.spdmOpen then c
  else if c.busy then c.reply (.doe f) 0x200 errBusy []
  else if !link && (decide (stream ≥ 256 ∨ bound ≥ 64) || (c.port f.port).full stream) then c.reply (.doe f) 0x200 errInvalid []
  else
    let p := c.port f.port
    let c := if link then c.setPort f.port { p with linkIde := true }
      else
        let c := (c.setPort f.port { p with secure := if p.secure.contains stream then p.secure else p.secure ++ [stream] }).unbind f.port
          (fun x => x.stream = some stream)
        c.setFn ⟨f.port, bound⟩ { c.fn ⟨f.port, bound⟩ with stream := some stream }
    c.reply (.doe f) 0x200 0 []

def execIdeKm (f : FnId) (stream bound : Nat) (link : Bool) (s : State) := s.act (Core.ideKm f stream bound link)

/-- IDE_INTEGRITY_FAILURE of a selective stream, or of link IDE, to which no TDI is bound. -/
def Core.ideFailure (port : Nat) (s : IdeStream) (tr : Trim) (c : Core) : Core :=
  let p := c.port port
  match s with
  | .link i => if p.linkIde then (c.setPort port { p with linkIde := false }).raise (sysEvent 0x0606 i 0 0 port) else c
  | .selective stream =>
  if !p.secure.contains stream then c
  else
    let c := (c.setPort port { p with secure := p.secure.filter (· != stream) }).raise (sysEvent 0x0606 stream 0 0 port)
    (c.fnsOf port (fun x => x.stream = some stream)).foldl (fun (c : Core) f => c.tdiError tr f) c

def execIdeIntegrityFailure (port : Nat) (stream : IdeStream) (s : State) := s.actT (Core.ideFailure port stream)

/-- CONFIG_WRITE_LOCKED (R350). -/
def execConfigWriteLocked (f : FnId) (s : State) := s.actT (fun tr c =>
  if (c.fn f).tdi = .locked ∨ (c.fn f).tdi = .run then c.tdiError tr f else c)

/-- PCIE_LINK_TRAINED (R333): rate codes 1 to 5, 1 to 16 lanes. -/
def Core.pcieTrained (port rate width : Nat) (c : Core) : Core :=
  if !(within 1 5 rate && within 1 16 width && decide (port < 2)) then c
  else
    let c := c.setPort port { c.port port with up := true, rate := rate, width := width }
    if rate < 5 ∨ width < 16 then c.raise (sysEvent 0x0609 rate width 0 port) else c

def execPcieLinkTrained (port rate width : Nat) (s : State) := s.act (Core.pcieTrained port rate width)

/-! HST_VF_ENABLE (R351). -/

/-- A refusal shown in HST_LAST_REFUSAL. -/
def Core.vfRefuse (c : Core) (f : FnId) (code : Nat) : Core := c.setReg (hstBase f.port + 8) (code + f.fn * 2 ^ 16)

/-- MSI-X entries granted on a port: the PF's 64 and those of every enabled VF. -/
def Core.vectorsOf (c : Core) (port : Nat) : Nat :=
  64 + (((List.range' 1 63).filter (fun k => (c.fn ⟨port, k⟩).enable)).map (fun k => (c.fn ⟨port, k⟩).vectors)).sum

def Core.vfEnable (port : Nat) (c : Core) : Core :=
  let f := c.selFn port
  let x := c.fn f
  if x.enable ∨ port ≥ 2 then c
  else if f.fn = 0 ∨ (c.port port).numVfs < f.fn then c.vfRefuse f 0x0602
  else if c.vectorsOf port + x.vectors > 2048 then c.vfRefuse f 0x0603
  else c.setFn f { x with enable := true }

def execHstVfEnableSet (f : FnId) (port : Nat) (s : State) := adminAct f (Core.vfEnable port) s

/-- HST_VF_ENABLE of VF `f` is cleared (R320, R350, R351). -/
def Core.vfDisable (c : Core) (tr : Trim) (f : FnId) : Core :=
  if f.fn = 0 ∨ !(c.fn f).enable then c
  else
    let c := (c.setFn f { c.fn f with enable := false }).tdiError tr f
    let ks := (c.keep.slots.filter (fun k => decide (k.1 < 4096) && k.2.fn = f && (k.2.st = .enabled || k.2.st = .active))).map (fun k => k.1)
    let c := ks.foldl Core.retire c
    let xs := (c.ctxs.filter (fun x => x.2.owner = f)).map (fun x => x.1)
    xs.foldl (fun (c : Core) x => c.disableCtx tr x) c

def execHstVfEnableClear (f : FnId) (port : Nat) (s : State) := s.actT (fun tr c =>
  if f = tr.admin then c.vfDisable tr (c.selFn port) else c)

/-- VF_ENABLE_CHANGE: the port's host sets NumVFs, 0 with VF Enable clear. -/
def Core.vfChange (port n : Nat) (tr : Trim) (c : Core) : Core :=
  if port ≥ 2 ∨ n > 63 then c
  else
    let c := c.setPort port { c.port port with numVfs := n }
    (List.range' 1 63).foldl (fun (c : Core) k => if k > n then c.vfDisable tr ⟨port, k⟩ else c) c

def execVfEnableChange (port n : Nat) (s : State) := s.actT (Core.vfChange port n)

/-- PERST# (R458): configuration space, IDE with it, goes back to reset; every VF is unserved; the PF is reset; the link
retrains. -/
def Core.perst (port : Nat) (tr : Trim) (c : Core) : Core :=
  if port ≥ 2 then c
  else
    let c := (Core.vfChange port 0 tr c).flr tr ⟨port, 0⟩
    (c.setPort port { c.port port with up := false, rate := 0, width := 0, secure := [], linkIde := false }).unbind port (fun x => x.stream.isSome)

def execPerst (port : Nat) (s : State) := s.actT (Core.perst port)

end Sys2Proof.Machine
end

