-- ==== Sys2Proof/Machine/LinkRx.lean ====
section
/-! DEFINITION. What a link does with what it receives (13): delivery, acknowledgement and retry (R362, R363), a link going
DOWN (R364), forwarding (R369 to R372), transfers at their origin and at their source (R374 to R378), retirement (R380). -/

namespace Sys2Proof.Machine

/-! Transfers that end badly. -/

/-- A source's claim on the entry of a write-back ends (R375). -/
def Core.dropSource (c : Core) (x : Xfer) : Core :=
  match x.role with
  | .source d 4 _ _ => c.updDesc d (fun v => { v with claimant := 0, kind := 0 })
  | _ => c

/-- A transfer fails at this module with a code (R364, R371, R377, R378). -/
def Core.failXfer (c : Core) (tr : Trim) (x : Xfer) (code : Nat) : Core :=
  match x.role with
  | .fetch i => (c.dropXfer x).fetchFail tr i 0x0A07
  | .writeback i _ => (c.dropXfer x).writebackFail i code
  | .tower t q e _ _ =>
    let w := c.tower t
    let en := (w.queue q).entry e
    (c.setTower t (w.setQueue q ((w.queue q).setEntry e { en with poison := if en.poison = 0 then code else en.poison }))).setXfer x
      { x with ended := true, data := [] }
  | .base b => c.baseFail b code
  | .relay | .source _ _ _ _ =>
    let c := (c.dropSource x).dropXfer x
    match x.back with
    | some l => c.endBack l x.transfer code 0 0xFFFF
    | none => c

/-! A link going DOWN (R363, R364). -/

/-- A frame that another link of the bundle can carry on: one of a routed type. -/
def routedType (t : Nat) : Bool := [0x02, 0x03, 0x04, 0x05, 0x0C, 0x0D, 0x0E].contains t

/-- Link `k` goes DOWN into state `st`: keys, SEQ, counters, buffers and samples are lost; its unacknowledged frames go to the
other UP links of its bundle, or their transfers fail. -/
def Core.linkFall (c : Core) (tr : Trim) (k : Nat) (st : LinkSt) : Core :=
  let l := c.link k
  let fs := (l.replay ++ l.queue).filter (fun x => routedType x.fr.type)
  let c := { c.setLink k { LinkS.reset with enable := l.enable, st := st, since := c.clk.nominal, refCode := l.refCode, dropped := l.dropped } with
    locks := c.locks.filter (fun x => x.1 != lnkBase k) }
  let c := c.noteReset 3 k
  match (c.bundle (c.neighbour k)).filter (· != k) with
  | [] =>
    let ts := (fs.filter (fun x => x.fr.type != 0x0C && x.fr.type != 0x0D && x.fr.type != 0x0E)).map (fun x => x.fr.transfer)
    (c.xfers.filter (fun x => ts.contains x.transfer && x.links.contains k && !x.ended)).foldl (fun (c : Core) x =>
      c.failXfer tr x 0x0709) c
  | ls => fs.foldl (fun (c : Core) x =>
      match ls[x.fr.index % max 1 ls.length]? with
      | some j => c.send j x.fr x.slot
      | none => c) c

/-- An UP link goes DOWN, with event 0x0705; it retrains while it is enabled. -/
def Core.linkDown (c : Core) (tr : Trim) (k : Nat) : Core :=
  if (c.link k).st ≠ .up then c
  else (c.raise (sysEvent 0x0705 0 0 0 k)).linkFall tr k (if (c.link k).enable then .training else .down)

/-! Delivery (R362, R363). -/

/-- LINK_CTL's payload. -/
def ctlPayload (nak : Bool) (seq : Nat) : List Byte := leBytes 4 (b2n nak + seq % 2 ^ 16 * 2 ^ 16)

/-- A frame fails its tag: the receiver asks for the SEQ it expects. -/
def Core.nakNow (c : Core) (k : Nat) : Core :=
  let l := c.link k
  (c.setLink k { l with nak := true }).send k (localFrame 0x01 (ctlPayload true l.seqRx)) 0xFFFF

/-- A frame comes out of sequence: the receiver asks once for the SEQ it expects, and drops every later frame until that arrives
(R363; log 69). -/
def Core.nakOnce (c : Core) (k : Nat) : Core := if (c.link k).nak then c else c.nakNow k

/-- `seq` is at or before `ack` in delivery order. -/
def ackedBy (ack seq : Nat) : Bool := decide ((ack + 2 ^ 16 - seq % 2 ^ 16) % 2 ^ 16 < 2 ^ 15)

/-- An acknowledgement frees the replay buffer. -/
def LinkS.takeAck (l : LinkS) (ack : Nat) : LinkS := { l with replay := l.replay.filter (fun x => !ackedBy ack x.fr.seq) }

/-- Acknowledge now, with a frame of its own. -/
def Core.ackNow (c : Core) (k : Nat) : Core := c.send k (localFrame 0x01 (ctlPayload false 0)) 0xFFFF

/-- Frames accepted and not yet acknowledged. -/
def LinkS.unacked (l : LinkS) : Nat := (l.seqRx + 2 ^ 16 - l.acked) % 2 ^ 16

def frameTypes : List Nat := [0x01, 0x02, 0x03, 0x04, 0x05, 0x08, 0x09, 0x0A, 0x0C, 0x0D, 0x0E, 0x10]

/-- A frame arrives on UP link `k`: it is counted, dropped unless its tag verifies and its SEQ is the next, and else accepted,
its ACK taken. -/
def Core.rxIn (k : Nat) (type : Nat) (fr : Frame) (c : Core) : Core × Bool :=
  let l := c.link k
  if l.st ≠ .up ∨ (fr.type ≠ type ∧ frameTypes.contains fr.type) then (c, false)
  else if fr.type ≠ type ∨ !fr.tagOk then
    (((c.setLink k { l with rxCount := l.rxCount + 1 }).bump (lnkBase k + 0x118) 1).nakNow k, false)
  else
    let flip := fr.epoch != l.rxEpoch
    let l := { l with rxCount := if flip then 1 else l.rxCount + 1, rxEpoch := fr.epoch }
    if fr.seq ≠ l.seqRx then ((c.setLink k { l with dropped := l.dropped + 1 }).nakOnce k, false)
    else
      let l := { l with seqRx := (l.seqRx + 1) % 2 ^ 16, nak := false, ackAt := if l.unacked = 0 then c.clk.nominal else l.ackAt }
      ((c.setLink k (l.takeAck fr.ack)).bump (lnkBase k + 0x108) 1, true)

/-- After an accepted frame has acted: what waited is sent, and an acknowledgement that is due. -/
def Core.rxOut (k : Nat) (c : Core) : Core :=
  let c := c.pump k 1024
  if (c.link k).st = .up ∧ (c.link k).unacked ≥ 128 then c.ackNow k else c

/-- A frame that acts by `g` once it is accepted. -/
def Core.rx (k : Nat) (type : Nat) (fr : Frame) (g : Core → Core) (c : Core) : Core :=
  let r := c.rxIn k type fr
  if r.2 then (g r.1).rxOut k else r.1

/-- A frame that acts on external memory as well. -/
def Core.rxM (k : Nat) (type : Nat) (fr : Frame) (g : Core → Dram → Core × Dram) (c : Core) (dr : Dram) : Core × Dram :=
  let r := c.rxIn k type fr
  if r.2 then ((g r.1 dr).1.rxOut k, (g r.1 dr).2) else (r.1, dr)

/-- A NAK (R363): everything from NAK_SEQ on is sent again; a SEQ sent 8 times already takes the link DOWN. -/
def Core.takeNak (c : Core) (tr : Trim) (k seq : Nat) : Core :=
  let l := c.link k
  let again (x : Sent) : Bool := ackedBy x.fr.seq seq
  let n := (l.replay.filter again).length
  if l.replay.any (fun x => again x && decide (x.times ≥ 8)) then c.linkDown tr k
  else if l.txCount + n > frameLimit then c
  else
    let send (x : Sent) : Sent :=
      { x with times := x.times + 1, fr := { x.fr with ack := (l.seqRx + 2 ^ 16 - 1) % 2 ^ 16, epoch := l.epoch } }
    let last := ((l.replay.filter again).getLast?.map (fun x => l.encrypt k (l.txCount + n - 1) (send x).fr)).or l.wire
    let c := c.setLink k { l with
      replay := mapIf again send l.replay, txCount := l.txCount + n, acked := if n = 0 then l.acked else l.seqRx, wire := last }
    (c.bump (lnkBase k + 0x110) n).bump (lnkBase k + 0x100) n

/-! Forwarding (R369 to R372). -/

/-- A routed frame finds no way on. -/
def Core.unroutable (c : Core) (k : Nat) (fr : Frame) : Core :=
  let c := (c.raise (sysEvent 0x070E fr.route 0 0 k)).bump (lnkBase k + 0x128) 1
  if fr.type = 0x02 then c.endBack fr.ret fr.transfer 0x0709 0 0xFFFF else c

/-- A routed frame that arrived on link `k`: sent on by `fwd`, or arrived here and taken by `here`. -/
def Core.routed (k : Nat) (fr : Frame) (fwd here : Core → Frame → Core) (c : Core) : Core :=
  let fr := { fr with hops := min 0xFFFF (fr.hops + 1) }
  match fKind (c.fwd fr.route) with
  | 1 => if c.route fr.route = [] then c.unroutable k fr else fwd c fr
  | 2 => here c fr
  | _ => c.unroutable k fr

/-- Send a frame on as it is. -/
def Core.passOn (c : Core) (fr : Frame) : Core := c.sendBy fr.route fr 0xFFFF

/-- F of R372, in ps. -/
def forwardPs : Nat := 450_000

/-- A FETCH_REQ is sent on (R372, R377): budget, record, or FETCH_END from RETURN. -/
def Core.forwardReq (k : Nat) (c : Core) (fr : Frame) : Core :=
  let r := (parseReq fr.payload).1
  match c.route fr.route with
  | [] => c.unroutable k fr
  | j :: js =>
    let cost := c.deduct j forwardPs
    if r.budget < cost then c.endBack fr.ret fr.transfer 0x0707 0 0xFFFF
    else if c.tableFull then c.endBack fr.ret fr.transfer 0x070F 0 0xFFFF
    else
      let left := r.budget - cost
      let x : Xfer := { origin := r.origin, transfer := fr.transfer, slot := r.slot, gen := r.gen, links := [k] ++ (j :: js)
                        deadline := c.clk.nominal + left * 125, role := .relay, frames := 0, data := [], out := some fr.route
                        back := some fr.ret, retired := false, ended := false, total := none }
      { c with xfers := c.xfers ++ [x] }.passOn
        { fr with payload := slice fr.payload 0 0x18 ++ leBytes 4 left ++ (fr.payload.drop 0x1C) }

/-! The source (R374, R375). -/

/-- The frames an object needs, FETCH_END included. -/
def ReqF.frames (r : ReqF) : Nat :=
  if r.object = 2 then ceilDiv (r.count * r.rowBytes) 256 + 1 else ceilDiv (20 * r.count) 256 + 16 * r.count + 1

/-- The fields lie inside R373. -/
def ReqF.inside (r : ReqF) : Bool :=
  decide (r.desc < 16384) &&
  (match r.object with
  | 1 | 4 => within 1 524_288 r.count
  | 2 => within 1 65_536 r.count && r.rowBytes % 64 = 0 && within 64 (2 ^ 20) r.rowBytes && r.first % 64 = 0
  | 3 => within 1 524_288 r.count && r.desc = 0
  | _ => false)

/-- The base slot that carries a tag, READY. -/
def Core.baseOf (c : Core) (tag : Nat) : Option Nat :=
  (List.range 2).find? (fun b => (c.base b).st = .ready && (c.base b).tag = tag)

/-- The run-table entry of an object and the pages a request names: those with state from FIRST on (R246). -/
def Core.objectPages (c : Core) (r : ReqF) : Nat × List Nat :=
  if r.object = 3 then
    match c.baseOf r.name with
    | some b => (16640 + b, (List.range' r.first r.count).filter (fun u => decide (u < ceilDiv (c.base b).bytes 4096)))
    | none => (16640, [])
  else (r.desc, (((c.desc r.desc).statePages (c.groupsOf r.desc) true).filter (fun u => decide (r.first ≤ u))).take r.count)

/-- The rows of OBJECT 2 as (page, line). -/
def ReqF.rows (r : ReqF) : List (Nat × Nat) :=
  (List.range r.count).flatMap (fun i => (List.range (r.rowBytes / 64)).map (fun j => flatLine (r.first + i * r.stride + 64 * j)))

/-- Every page of an object is in tier 1. -/
def Core.present? (c : Core) (k : Nat) (us : List Nat) : Bool :=
  match c.runEnt k with
  | some e => us.all (fun u => (e.frame u).isSome)
  | none => false

/-- The first case of R375 that applies, 0 if none. -/
def Core.refusal (c : Core) (r : ReqF) (zero : Bool) : Nat :=
  let d := c.desc r.desc
  let o := c.objectPages r
  if !zero ∨ !r.inside then 0x070A
  else if r.budget * 100 < 8 * r.frames then 0x0707
  else if r.object = 3 ∧ (c.baseOf r.name).isNone then 0x070A
  else if r.object ≠ 3 ∧ (d.st ≠ .resident ∨ d.tpn ≠ r.name ∨ d.gen ≠ r.gen) then 0x070A
  else if r.object ≠ 2 ∧ (o.2.length ≠ r.count ∨ !c.present? o.1 o.2) then 0x070A
  else if r.object = 2 ∧ !c.present? r.desc (r.rows.map (fun p => p.1)).dedup then 0x070A
  else if (r.object = 2 ∨ r.object = 4) ∧ r.mac ≠ r.macOf (c.slot d.keySlot).root then 0x070A
  else if r.object = 4 ∧ (d.pins ≠ 0 ∨ d.trainCtx ≠ 0xFFFF ∨ d.claimant ≠ 0) then 0x0A02
  else if c.tableFull then 0x070F
  else if r.object ≠ 3 ∧ c.leaving d.keySlot then 0x0504
  else 0

/-- Data frames from the source by a label, then FETCH_END. -/
def Core.sendObject (c : Core) (label transfer slot : Nat) (fs : List (List Byte)) : Core :=
  (fs.zipIdx.foldl (fun (c : Core) (p : List Byte × Nat) =>
    c.sendBy label (routedFrame 0x03 transfer p.2 (p.2 + 1 = fs.length) p.1) slot) c).endBack label transfer 0 fs.length slot

/-- A request that arrived at its source is refused, or served. -/
def Core.serve (k : Nat) (dr : Dram) (c : Core) (fr : Frame) : Core :=
  let p := parseReq fr.payload
  let r := p.1
  match c.refusal r p.2 with
  | 0 =>
    let d := c.desc r.desc
    let slot := if r.object = 3 then 0xFFFF else d.keySlot
    let x : Xfer := { origin := r.origin, transfer := fr.transfer, slot := r.slot, gen := r.gen, links := [k] ++ c.route fr.ret
                      deadline := c.clk.nominal + r.budget * 125, role := .source r.desc r.object r.first r.count, frames := 0, data := []
                      out := none, back := some fr.ret, retired := false, ended := false, total := none }
    let o := c.objectPages r
    match r.object with
    | 4 => { c.updDesc r.desc (fun d => { d with claimant := 1, kind := 1 }) with xfers := c.xfers ++ [x] }
    | 2 => match c.readLines dr r.desc r.rows with
      | (c, .error code) => c.endBack fr.ret fr.transfer code 0 slot
      | (c, .ok ls) => c.sendObject fr.ret fr.transfer slot (frames256 (ls.flatMap lineBytes))
    | _ => match c.readStored dr o.1 o.2 with
      | (c, 0) => c.sendObject fr.ret fr.transfer slot
          (frames256 (tagBytes (c.tagsOf dr o.1 o.2)) ++ o.2.flatMap (fun u => frames256 (storedBytes (c.storedPage dr o.1 u))))
      | (c, code) => c.endBack fr.ret fr.transfer code 0 slot
  | code => c.endBack fr.ret fr.transfer code 0 0xFFFF

/-- The frames of a write-back that a source awaits. -/
def writeFrames (count : Nat) : Nat := ceilDiv (20 * count) 256 + 16 * count

/-- The last page of a write-back has come: the pages land, the seal is set, the claim ends (R374). -/
def Core.landWrite (tr : Trim) (c : Core) (dr : Dram) (x : Xfer) (d first count : Nat) : Core × Dram :=
  let us := (((c.desc d).statePages (c.groupsOf d) true).filter (fun u => decide (first ≤ u))).take count
  let ps := us.zipIdx.map (fun (u : Nat × Nat) => x.page u.1 u.2 count)
  let dr := ps.foldl (fun (dr : Dram) p => c.landPage dr d p) dr
  let c := c.pageTraffic d 1 us
  let v := sealOf (c.desc d).tpn (c.tagsOf dr d (c.formPages d))
  let c := (((c.dropCopies d).dropSource x).updDesc d (fun y => { y with sealV := v, sealSt := 3, sealBad := false })).dropXfer x
  ((match x.back with
    | some l => c.endBack l x.transfer 0 0 (c.desc d).keySlot
    | none => c).wake tr, dr)

/-! The origin. -/

/-- All frames that FETCH_END counts are in: a write-back goes on or is done, the others wait to land (R374, R378). -/
def Core.endOk (tr : Trim) (c : Core) (dr : Dram) (x : Xfer) : Core :=
  match x.role with
  | .writeback i first =>
    let c := c.dropXfer x
    match c.chunkAfter i first with
    | some p => match c.sendChunk tr dr i c.defaultBudget p with
      | (c, 0) => c
      | (c, code) => c.writebackFail i code
    | none => (c.writebackDone i dr).wake tr
  | .fetch _ | .tower _ _ _ _ _ | .base _ => c.setXfer x { x with ended := true }
  | .relay | .source _ _ _ _ => c.dropXfer x

/-- The transfer is complete, if FETCH_END has come and every frame it counts. -/
def Core.maybeEnd (tr : Trim) (c : Core) (dr : Dram) (x : Xfer) : Core :=
  match x.total with
  | some n => if x.frames ≥ n ∧ !x.ended then c.endOk tr dr x else c
  | none => c

/-- A frame of a transfer with a record here: `g` acts on it, unless the transfer is retired (R377, R380). -/
def Core.onXfer (k : Nat) (g : Core → Xfer → Core) (c : Core) (fr : Frame) : Core :=
  match c.record k fr.transfer with
  | none => c.bump (lnkBase k + 0x130) 1
  | some x => if x.retired then c.bump (lnkBase k + 0x120) 1 else g c x

/-- A data frame arrived at its origin: it is counted, and kept by INDEX where the module places it itself. -/
def Core.placeFrame (tr : Trim) (dr : Dram) (fr : Frame) (c : Core) (x : Xfer) : Core :=
  let keep := match x.role with
    | .tower _ _ _ _ _ | .base _ => true
    | .relay | .source _ _ _ _ | .fetch _ | .writeback _ _ => false
  let y := { x with frames := x.frames + 1, data := if keep && !x.ended then x.data ++ [(fr.index, fr.payload)] else x.data }
  (c.setXfer x y).maybeEnd tr dr y

/-- FETCH_END arrived at its origin. -/
def Core.placeEnd (tr : Trim) (dr : Dram) (fr : Frame) (c : Core) (x : Xfer) : Core :=
  let code := fieldLE fr.payload 0 2
  if x.ended then c
  else if code ≠ 0 then (c.failXfer tr x code).wake tr
  else
    let y := { x with total := some (fieldLE fr.payload 4 4) }
    (c.setXfer x y).maybeEnd tr dr y

end Sys2Proof.Machine
end

