-- ==== Sys2Proof/Machine/LinkCmd.lean ====
section
/-! DEFINITION. The commands of the links (13): enabling and bring-up (R365), frames received, acknowledgement, rekeying and the
frame counter's limit (R367), the delay and the cadence relay (R381 to R383), relayed messages (R385), deadlines (R377). -/

namespace Sys2Proof.Machine

/-- A link number. -/
def linkNo (k : Nat) : Bool := decide (k < 36)

/-- The link image's activation window is open: keying, delay measurement and rekeying wait (R407). -/
def Core.linkWindow (c : Core) : Bool := c.keep.fwState = 2 && c.keep.fwKind = 3

/-! LNK_ENABLE and bring-up (R365). -/

/-- Other enabled links with the same NEIGHBOUR. -/
def Core.mates (c : Core) (k : Nat) : Nat :=
  ((List.range 36).filter (fun j => j != k && (c.link j).enable && c.neighbour j = c.neighbour k)).length

def Core.linkEnable (k : Nat) (c : Core) : Core :=
  let l := c.link k
  if l.enable ∨ !linkNo k then c
  else if c.neighbour k > 11 then c.setLink k { l with refCode := 0x0701 }
  else if c.mates k ≥ 6 then c.setLink k { l with refCode := 0x0702 }
  else c.setLink k { l with enable := true, st := .training, since := c.clk.nominal }

def execLnkEnableSet (f : FnId) (k : Nat) (s : State) := adminAct f (Core.linkEnable k) s

/-- LNK_ENABLE is cleared (R364, R459). -/
def Core.linkDisable (k : Nat) (tr : Trim) (c : Core) : Core :=
  let l := c.link k
  if !l.enable then c
  else
    let c := c.setLink k { l with enable := false }
    match l.st with
    | .up => c.linkDown tr k
    | .down => c
    | _ => c.linkFall tr k .down

def execLnkEnableClear (f : FnId) (k : Nat) (s : State) := s.actT (fun tr c => if f = tr.admin then Core.linkDisable k tr c else c)

/-- Lane training completes in each direction. -/
def Core.linkTrained (k lanes : Nat) (c : Core) : Core :=
  let l := c.link k
  if l.st ≠ .training ∨ lanes > 2 then c
  else if lanes < 2 then c.setLink k { l with lanes := lanes }
  else c.setLink k { l with lanes := 2, st := .keying, since := c.clk.nominal }

def execLinkTrained (k lanes : Nat) (s : State) := s.act (Core.linkTrained k lanes)

/-- A failed step of bring-up. -/
def Core.linkFailed (c : Core) (k step : Nat) : Core :=
  (c.setLink k { c.link k with st := .failed }).raise (sysEvent 0x0703 step 0 0 k)

/-- Keying ends: the partner's chain and ID, then the bundle's partner (R358, R365); both directions count frames from 0. -/
def Core.linkKeyed (k partner plink : Nat) (chainOk : Bool) (tr : Trim) (c : Core) : Core :=
  let l := c.link k
  if l.st ≠ .keying ∨ c.linkWindow then c
  else if !chainOk ∨ (c.reg (lnkBase k + 8) ≠ 0 ∧ c.reg (lnkBase k + 8) ≠ partner) then c.linkFailed k 2
  else if (c.bundle (c.neighbour k)).any (fun j => (c.link j).partner != partner) then c.linkFailed k 3
  else
    (c.fresh.setLink k { LinkS.reset with
      enable := true, st := .up, since := c.clk.nominal, lanes := l.lanes, epochs := l.epochs, partner := partner, partnerLink := plink
      delayAt := c.clk.nominal, refCode := l.refCode, dropped := l.dropped, secret := Config.freeKey c.free, low := decide (tr.moduleId < partner)
      }).raise (sysEvent 0x0704 0 0 0 k)

def execLinkKeyed (k partner plink : Nat) (chainOk : Bool) (s : State) := s.actT (Core.linkKeyed k partner plink chainOk)

/-- 20 ms of training or 10 ms of keying have passed. -/
def Core.bringupLate (k : Nat) (c : Core) : Core :=
  let l := c.link k
  if l.st = .training ∧ c.clk.nominal ≥ l.since + 25_000_000 then c.linkFailed k 1
  else if l.st = .keying ∧ c.clk.nominal ≥ l.since + 12_500_000 ∧ !c.linkWindow then c.linkFailed k 2
  else c

def execLinkBringupTimeout (k : Nat) (s : State) := s.act (Core.bringupLate k)

/-- LINK_DOWN: one SEQ has been sent 8 times without acknowledgement (R363). -/
def execLinkDown (k : Nat) (s : State) := s.actT (fun tr c =>
  if (c.link k).replay.any (fun x => decide (x.times ≥ 8)) then (c.linkDown tr k).wake tr else c)

/-! Link-local frames. -/

/-- LINK_CTL: the ACK is taken with every frame; a NAK resends. -/
def Core.linkCtl (k : Nat) (fr : Frame) (tr : Trim) : Core → Core :=
  Core.rx k 0x01 fr (fun c => if bit (fieldLE fr.payload 0 1) 0 then (c.takeNak tr k (fieldLE fr.payload 2 2)).wake tr else c)

def execLinkCtl (k : Nat) (fr : Frame) (s : State) := s.actT (Core.linkCtl k fr)

/-- ACK_TIMER (R362): 1 µs after the first unacknowledged frame, or at 128 of them. -/
def Core.ackTimer (k : Nat) (c : Core) : Core :=
  let l := c.link k
  if l.st = .up ∧ l.unacked ≠ 0 ∧ (c.clk.nominal ≥ l.ackAt + 1250 ∨ l.unacked ≥ 128) then c.ackNow k else c

def execAckTimer (k : Nat) (s : State) := s.act (Core.ackTimer k)

/-- SPDM between the Keeps: accepted on an UP link; while it keys, its exchange is LINK_KEYED's. -/
def execSpdmFrame (k : Nat) (fr : Frame) (s : State) := s.act (Core.rx k 0x10 fr (fun c => c))

/-! Transfers. -/

def execFetchReq (k : Nat) (fr : Frame) (s : State) :=
  s.actM (fun c d => (Core.rx k 0x02 fr (Core.routed k fr (Core.forwardReq k) (Core.serve k d)) c, d))

/-- Data frames of a fetch are sent on, or placed at the origin. -/
def Core.fetchData (k : Nat) (fr : Frame) (tr : Trim) (dr : Dram) : Core → Core :=
  Core.rx k 0x03 fr (Core.routed k fr
    (fun c fr => Core.onXfer k (fun c _ => c.passOn fr) c fr)
    (fun c fr => Core.onXfer k (Core.placeFrame tr dr fr) c fr))

def execFetchData (k : Nat) (fr : Frame) (s : State) := s.actM (fun c d => (Core.fetchData k fr s.trim d c, d))

/-- FETCH_END is sent on and its record removed, or ends the transfer at its origin. -/
def Core.fetchEnd (k : Nat) (fr : Frame) (tr : Trim) (dr : Dram) : Core → Core :=
  Core.rx k 0x04 fr (Core.routed k fr
    (fun c fr => Core.onXfer k (fun c x => (c.passOn fr).dropXfer x) c fr)
    (fun c fr => Core.onXfer k (Core.placeEnd tr dr fr) c fr))

def execFetchEnd (k : Nat) (fr : Frame) (s : State) := s.actM (fun c d => (Core.fetchEnd k fr s.trim d c, d))

/-- A frame of a write-back at its source: kept by INDEX, and with the last of them the pages land. -/
def Core.takeWrite (k : Nat) (fr : Frame) (tr : Trim) (c : Core) (dr : Dram) : Core × Dram :=
  match c.record k fr.transfer with
  | none => (c.bump (lnkBase k + 0x130) 1, dr)
  | some x =>
    if x.retired then (c.bump (lnkBase k + 0x120) 1, dr)
    else
      let y := { x with frames := x.frames + 1, data := x.data ++ [(fr.index, fr.payload)] }
      match x.role with
      | .source d 4 first count =>
        if y.frames ≥ writeFrames count then Core.landWrite tr (c.setXfer x y) dr y d first count else (c.setXfer x y, dr)
      | _ => (c, dr)

/-- WRITE_DATA. -/
def Core.writeData (k : Nat) (fr : Frame) (tr : Trim) : Core → Dram → Core × Dram :=
  Core.rxM k 0x05 fr (fun c dr =>
    if fKind (c.fwd fr.route) = 2 then Core.takeWrite k fr tr c dr
    else (Core.routed k fr (fun c fr => Core.onXfer k (fun c _ => c.passOn fr) c fr) (fun c _ => c) c, dr))

def execWriteData (k : Nat) (fr : Frame) (s : State) := s.actM (Core.writeData k fr s.trim)

/-- TRANSFER_DEADLINE (R377): the first transfer past its origin deadline fails there; records 1 ms past it are removed. -/
def Core.deadline (tr : Trim) (c : Core) : Core :=
  let origin (x : Xfer) : Bool := match x.role with
    | .relay | .source _ _ _ _ => false
    | _ => true
  let waits (x : Xfer) : Bool := match x.role with
    | .tower t q e _ _ => x.ended && (c.tower t).flightIn.any (fun f => f.queue = q && f.entry = e)
    | .fetch _ | .base _ => x.ended && !x.retired
    | _ => false
  match c.xfers.find? (fun x => origin x && !x.ended && decide (x.deadline ≤ c.clk.nominal)) with
  | some x => (c.failXfer tr x 0x0707).wake tr
  | none => match c.xfers.find? (fun x => !waits x && decide (x.deadline + 1_250_000 ≤ c.clk.nominal)) with
    | some x => (c.dropSource x).dropXfer x
    | none => c

def execTransferDeadline (s : State) := s.actT Core.deadline

/-! Retirement (R380). -/

/-- RETIRE: matching records are marked, their frames dropped and counted, the marker passed on and answered. -/
def Core.retireMarker (k : Nat) (fr : Frame) (c : Core) : Core :=
  let id := fieldLE fr.payload 0 8
  let slot := fieldLE fr.payload 8 2
  let gen := fieldLE fr.payload 0xA 2
  let xs := c.xfers.filter (fun x => x.origin = id && x.slot = slot && x.gen = gen && !x.retired)
  let ts := xs.map (fun x => x.transfer)
  let mine (y : Sent) : Bool := ts.contains y.fr.transfer && [0x02, 0x03, 0x04, 0x05].contains y.fr.type
  let n := (c.links.map (fun l => (l.queue.filter mine).length)).sum
  let c := (List.range 36).foldl (fun (c : Core) j =>
    let l := c.link j
    let m := (l.queue.filter mine).length
    if m = 0 then c else (c.setLink j { l with queue := l.queue.filter (fun y => !mine y) }).bump (lnkBase j + 0x120) m) c
  let c := xs.foldl (fun (c : Core) x => (c.dropSource x).setXfer x { x with retired := true, ended := true, data := [] }) c
  let c := c.raise (sysEvent 0x070B n 0 0 k)
  let labels := ((xs.flatMap Xfer.labels).filter (fun e => !(c.route e).contains k)).dedup
  let c := labels.foldl (fun (c : Core) e => c.sendBy e (routedFrame 0x0D 0 0 true (fr.payload.take 12)) 0xFFFF) c
  c.send k { routedFrame 0x0E 0 0 true (fr.payload.take 12) with route := fr.ret, ret := fr.route } 0xFFFF

def execRetireMarker (k : Nat) (fr : Frame) (s : State) := s.act (Core.rx k 0x0D fr (Core.retireMarker k fr))

/-- RETIRE_ACK: the link's count for the slot becomes zero. -/
def Core.retireAck (k : Nat) (fr : Frame) (tr : Trim) : Core → Core :=
  Core.rx k 0x0E fr (fun c =>
    if fieldLE fr.payload 0 8 = tr.moduleId then
      c.setLink k { c.link k with marks := (c.link k).marks.filter (· != fieldLE fr.payload 8 2) }
    else c)

def execRetireAck (k : Nat) (fr : Frame) (s : State) := s.actT (Core.retireAck k fr)

/-! Keys (R366, R367). -/

/-- Link `k`, if UP, keys a new session and moves to the next EPOCH (R367, R407). -/
def Core.newEpoch (c : Core) (k : Nat) : Core :=
  let l := c.link k
  if l.st ≠ .up then c
  else (c.fresh.setLink k { l with
      rekeyWait := false, epoch := !l.epoch, epochs := (l.epochs + 1) % 2 ^ 16, txCount := 0, secret := Config.freeKey c.free }).bump
    (lnkBase k + 0x138) 1

/-- REKEY_THRESHOLD: event 0x0706 as the threshold is reached; new keys, the EPOCH flipped, the counter from 0, once no window
holds them back. -/
def Core.rekey (k : Nat) (c : Core) : Core :=
  let l := c.link k
  if l.st ≠ .up ∨ l.txCount < c.reg (lnkBase k + 0x38) then c
  else
    let c := if l.rekeyWait then c else c.raise (sysEvent 0x0706 0 0 0 k)
    if c.linkWindow then c.setLink k { l with rekeyWait := true } else c.newEpoch k

def execRekeyThreshold (k : Nat) (s : State) := s.act (Core.rekey k)

/-- FRAME_COUNTER_LIMIT: the direction stops, and the link goes DOWN. -/
def execFrameCounterLimit (k : Nat) (s : State) := s.actT (fun tr c =>
  if (c.link k).st = .up ∧ (c.link k).txCount ≥ frameLimit then ((c.raise (sysEvent 0x0708 0 0 0 k)).linkDown tr k).wake tr else c)

/-! Delay (R381): times in 50 ps, 16 to a nominal beat. -/

def Core.time50 (c : Core) : Nat := 16 * c.clk.nominal % 2 ^ 64

/-- DELAY_MEASURE: every 65,536 nominal beats. -/
def Core.delayMeasure (k : Nat) (c : Core) : Core :=
  let l := c.link k
  if l.st ≠ .up ∨ c.linkWindow ∨ c.clk.nominal < l.delayAt + 65_536 then c
  else (c.setLink k { l with delayAt := c.clk.nominal, delayT1 := c.time50 }).send k (localFrame 0x09 (leBytes 8 c.time50)) 0xFFFF

def execDelayMeasure (k : Nat) (s : State) := s.act (Core.delayMeasure k)

def execDelayReq (k : Nat) (fr : Frame) (s : State) := s.act (Core.rx k 0x09 fr (fun c =>
  c.send k (localFrame 0x0A (slice fr.payload 0 8 ++ leBytes 8 c.time50 ++ leBytes 8 c.time50)) 0xFFFF))

/-- A new sample: the mean of the last 16; event 0x070D where it moves by more than 20 ns. -/
def Core.sample (k d : Nat) (c : Core) : Core :=
  let l := c.link k
  let l' := { l with samples := (l.samples ++ [d]).drop (l.samples.length + 1 - 16) }
  let c := c.setLink k l'
  if l.samples ≠ [] ∧ (l'.delay > l.delay + 20_000 ∨ l.delay > l'.delay + 20_000) then c.raise (sysEvent 0x070D 0 0 0 k) else c

def Core.delayResp (k : Nat) (fr : Frame) : Core → Core :=
  Core.rx k 0x0A fr (fun c =>
    let t1 := fieldLE fr.payload 0 8
    let t2 := fieldLE fr.payload 8 8
    let t3 := fieldLE fr.payload 16 8
    if t1 ≠ (c.link k).delayT1 then c else c.sample k (((c.time50 - t1) - (t3 - t2)) / 2))

def execDelayResp (k : Nat) (fr : Frame) (s : State) := s.act (Core.delayResp k fr)

/-! The cadence relay (R382, R383). -/

/-- A CADENCE frame on RELAY_LINK: a pulse at its compensated edge time; ORIGIN, DEPTH and SPREAD are carried over. -/
def Core.cadenceIn (k : Nat) (fr : Frame) : Core → Core :=
  Core.rx k 0x08 fr (fun c =>
    let l := c.link k
    if bits (c.reg offTref) 8 6 ≠ k ∨ l.samples.length < 16 then c
    else
      let late := (l.delay + fieldLE fr.payload 0 4) / 800
      let c := { c with cadence := (fieldLE fr.payload 9 1, fieldLE fr.payload 0xA 2, fieldLE fr.payload 0xC 2)
                        tref := { c.tref with origin := fieldLE fr.payload 9 1 } }
      c.pulse 2 late)

def execCadence (k : Nat) (fr : Frame) (s : State) := s.act (Core.cadenceIn k fr)

/-- BLF_TREF_STATUS.STATE's code (R41). -/
def TrefSt.code : TrefSt → Nat
  | .search => 0 | .locking => 1 | .locked => 2 | .freeRun => 3

/-- A CADENCE frame's payload (R382). -/
def Core.cadencePayload (c : Core) (edge : Nat) : List Byte :=
  let relayed := decide (c.tref.active = 2)
  let origin := if relayed then c.cadence.1 else if c.tref.st = .locked then c.tref.active else 3
  leBytes 4 edge ++ leBytes 4 c.period ++ leBytes 1 c.tref.st.code ++ leBytes 1 origin
    ++ leBytes 2 (if relayed then c.cadence.2.1 + 1 else 0) ++ leBytes 2 (if relayed then c.cadence.2.2 + 20 else 0)

/-- CADENCE_SEND: for a pulse the Belfry counts, ahead of queued data. -/
def Core.cadenceSend (k edge : Nat) (c : Core) : Core :=
  let x : Sent := ⟨localFrame 0x08 (c.cadencePayload edge), 0, 0xFFFF⟩
  let l := c.link k
  if !c.cadOut k ∨ l.st ≠ .up ∨ !c.blf.run ∨ !(c.tref.st = .locked || c.tref.st = .freeRun) then c
  else if l.canSend then c.emit k x
  else c.setLink k { l with queue := x :: l.queue }

def execCadenceSend (k edge : Nat) (s : State) := s.act (Core.cadenceSend k edge)

/-! Relayed messages (R385). -/

/-- A frame of a relayed message arrived at this module: the message is complete when LAST and every INDEX before it are
there, and then waits for its answer. -/
def Core.attestIn (c : Core) (fr : Frame) : Core :=
  let ps := (c.keep.relayParts.filter (fun p => !(p.1 = fr.transfer && p.2.1 = fr.index))) ++ [(fr.transfer, fr.index, fr.payload)]
  let all := (List.range (fr.index + 1)).all (fun i => ps.any (fun p => p.1 = fr.transfer && p.2.1 = i))
  if fr.index ≥ 256 then c
  else if fr.last ∧ all then
    { c with keep := { c.keep with relayParts := ps.filter (fun p => p.1 != fr.transfer), relayTo := some (fr.ret, fr.transfer) } }
  else { c with keep := { c.keep with relayParts := ps } }

def execAttest (k : Nat) (fr : Frame) (s : State) := s.act (Core.rx k 0x0C fr (Core.routed k fr Core.passOn Core.attestIn))

end Sys2Proof.Machine
end

