-- ==== Sys2Proof/Machine/SpdmCmd.lean ====
section
/-! DEFINITION. The SPDM responder (14 R393 to R404, R409): the requests it answers, its measurements, its sessions.  The bytes
of SPDM messages are the standard's; a response holds the request's code, an error code or 0, and what the spec gives (log 33). -/

namespace Sys2Proof.Machine

/-! Measurements (R393 to R395). -/

/-- The image of a kind that runs, and the one staged (R390). -/
def FwKind.active (k : FwKind) : Option FwImage := if k.activeB then k.b else k.a
def FwKind.other (k : FwKind) : Option FwImage := if k.activeB then k.a else k.b

def FwKind.none_ : FwKind := ⟨none, none, false, false, false, 0⟩

/-- Image kind `k`, 1 to 4. -/
def Core.fw (c : Core) (k : Nat) : FwKind := c.keep.fws.getD (k - 1) .none_
def Core.setFw (c : Core) (k : Nat) (x : FwKind) : Core := { c with keep := { c.keep with fws := c.keep.fws.set (k - 1) x } }

def imageDigest (x : Option FwImage) : List Byte := leBytes 48 ((x.map (fun i : FwImage => i.measure)).getD 0).toNat

/-- The reset record's 48 bytes (R395). -/
def ResetRecord.bytes (r : ResetRecord) : List Byte :=
  leBytes 4 r.warm ++ r.regions.flatMap (leBytes 2) ++ leBytes 4 r.links ++ leBytes 4 r.flr ++ leBytes 4 r.contexts

/-- The contexts a requester sees (R394). -/
def ctxVisible (tr : Trim) (via : Via) (v : Ctx) : Bool :=
  match via with
  | .relay => false
  | .mctp => true
  | .doe f => decide (f = tr.admin ∨ v.owner = f)

/-- The measurement blocks present for a requester, by index (R393). -/
def Core.measure (c : Core) (tr : Trim) (via : Via) : List (Nat × List Byte) :=
  [(0x01, leBytes 48 Config.romDigest.toNat)]
    ++ (List.range 4).map (fun k => (2 + k, imageDigest (c.fw (k + 1)).active))
    ++ [(0x06, leBytes 48 (Config.fusePolicy tr.adminPort tr.opSigRequired (c.keep.fws.map (fun k => k.svnMin))).toNat)]
    ++ ((List.range 2).filter (fun b => (c.base b).st = .ready)).map (fun b =>
        (8 + b, leBytes 8 (c.base b).tag ++ leBytes 48 (c.base b).hash.toNat))
    ++ [(0x0A, c.keep.resets.bytes)]
    ++ ((List.range 4).filter (fun k => (c.fw (k + 1)).staged)).map (fun k => (0x11 + k, imageDigest (c.fw (k + 1)).other))
    ++ [(0x30, (c.ctxs.filter (fun x => ctxVisible tr via x.2)).flatMap (fun x =>
        leBytes 2 x.1 ++ leBytes 2 x.2.keySlot ++ leBytes 4 0 ++ leBytes 48 (c.ctxDigest x.1 x.2).toNat))]

/-- MeasurementSummaryHash (R404): type 1 is TCB, 0xFF is All, 0 none. -/
def Core.summary (c : Core) (tr : Trim) (via : Via) (type : Nat) : List Byte :=
  let bs := c.measure tr via
  if type = 0 then []
  else leBytes 48 (Config.sha384 ((if type = 1 then bs.filter (fun b => decide (b.1 ≤ 6)) else bs).flatMap (fun b => b.2))).toNat

/-! Certificates (R401). -/

/-- The chain in a certificate slot; none where it is empty. -/
def Core.chain (c : Core) (slot : Nat) : Option (List Byte) :=
  match slot with
  | 0 => some (Config.certChain 0 0)
  | 1 => some (Config.certChain 1 (((c.fw 1).active.map (fun i : FwImage => i.measure)).getD 0))
  | 2 => if c.keep.cert2.isEmpty then none else some c.keep.cert2
  | 3 => if c.keep.cert3.isEmpty then none else some c.keep.cert3
  | _ => none

/-- The key of a certificate slot: 0 device, 1 alias. -/
def certKey (slot : Nat) : Nat := slot % 2

/-- A signature of the responder over bytes (R396), and the state that makes the next one fresh. -/
def Core.sign (c : Core) (slot : Nat) (bs : List Byte) : Core × List Byte :=
  (c.fresh, leBytes 96 (Config.ecdsaSign (certKey slot) (Config.sha384 bs) c.free).toNat)

/-! Requests (R402, R409). -/

/-- Requests that a relay carries (R385), and that a Keep without a bootable image answers (R391). -/
def relayed (code : Nat) : Bool := [0x81, 0x82, 0x83, 0x84, 0xE0, 0xE1, 0xE3].contains code
def basicReq (code : Nat) : Bool := [0x81, 0x82, 0x84, 0xE1, 0xE3].contains code

/-- Answer request `code`: Busy in an activation window, UnsupportedRequest where it is not answered, else by `f`. -/
def Core.request_ (via : Via) (code : Nat) (f : Core → Core × Nat × List Byte) (c : Core) : Core :=
  if !c.spdmOpen || !c.viaUp via then c
  else if c.busy then c.reply via code errBusy []
  else if (c.keep.basic && !basicReq code) || (via = .relay && !relayed code) then c.reply via code errUnsupported []
  else
    let r := f c
    r.1.reply via code r.2.1 r.2.2

def execGetVersion (via : Via) (s : State) := s.act (Core.request_ via 0x84 (fun c => (c, 0, leBytes 2 0x1300)))

/-- The capabilities of R399, at the standard's places (log 33). -/
def capFlags : Nat :=
  2 ^ 1 + 2 ^ 2 + 2 * 2 ^ 3 + 2 ^ 5 + 2 ^ 6 + 2 ^ 7 + 2 ^ 8 + 2 ^ 9 + 2 ^ 13 + 2 ^ 14 + 2 ^ 17 + 2 ^ 19 + 2 ^ 20

def execGetCapabilities (via : Via) (s : State) := s.act (Core.request_ via 0xE1 (fun c =>
  (c, 0, leBytes 1 14 ++ leBytes 4 capFlags ++ leBytes 4 4096 ++ leBytes 4 65_536)))

/-- The algorithms of R400, at the standard's places (log 33). -/
def algoBytes : List Byte :=
  leBytes 1 1 ++ leBytes 4 2 ++ leBytes 4 0x80 ++ leBytes 4 2 ++ leBytes 2 0x10 ++ leBytes 2 2 ++ leBytes 2 0x80 ++ leBytes 2 1

def execNegotiateAlgorithms (via : Via) (offersAll : Bool) (s : State) := s.act (Core.request_ via 0xE3 (fun c =>
  if offersAll then (c, 0, algoBytes) else (c, errInvalid, [])))

def execGetDigests (via : Via) (s : State) := s.act (Core.request_ via 0x81 (fun c =>
  (c, 0, (List.range 4).flatMap (fun k => match c.chain k with
    | some ch => leBytes 1 k ++ leBytes 48 (Config.sha384 ch).toNat
    | none => []))))

def execGetCertificate (via : Via) (slot : Nat) (s : State) := s.act (Core.request_ via 0x82 (fun c =>
  match c.chain slot with
  | some ch => (c, 0, ch)
  | none => (c, errInvalid, [])))

def execChallenge (via : Via) (slot : Nat) (nonce : Key) (summary : Nat) (s : State) := s.actT (fun tr =>
  Core.request_ via 0x83 (fun c => match c.chain slot with
    | none => (c, errInvalid, [])
    | some ch =>
      let b := leBytes 48 (Config.sha384 ch).toNat ++ c.summary tr via summary
      let r := c.sign slot (leBytes 32 nonce.toNat ++ b)
      (r.1, 0, b ++ r.2)))

/-- Blocks as the response carries them: index, length, content. -/
def blockBytes (bs : List (Nat × List Byte)) : List Byte := bs.flatMap (fun b => leBytes 1 b.1 ++ leBytes 2 b.2.length ++ b.2)

/-- GET_MEASUREMENTS (R393, R404): index 0 asks for their number, 0xFF for all. -/
def execGetMeasurements (via : Via) (index slot : Nat) (nonce : Key) (sign : Bool) (s : State) := s.actT (fun tr =>
  Core.request_ via 0xE0 (fun c =>
    let bs := c.measure tr via
    let want := if index = 0xFF then bs else bs.filter (fun b => b.1 = index)
    let body := if index = 0 then leBytes 1 bs.length else blockBytes want
    if (index ≠ 0 ∧ want = []) ∨ (sign ∧ (c.chain slot).isNone) then (c, errInvalid, [])
    else if sign then
      let r := c.sign slot (leBytes 32 nonce.toNat ++ body)
      (r.1, 0, body ++ r.2)
    else (c, 0, body)))

/-! Sessions (R403). -/

/-- Sessions of a transport. -/
def Core.sessions (c : Core) (via : Via) : Nat := (c.keep.sessions.filter (fun x => x.2.via = via)).length

def sessionLimit (via : Via) : Nat := match via with | .doe _ => 16 | .mctp => 4 | .relay => 0

def execKeyExchange (via : Via) (slot summary : Nat) (s : State) := s.actT (fun tr =>
  Core.request_ via 0xE4 (fun c =>
    if (c.chain slot).isNone then (c, errInvalid, [])
    else if c.sessions via ≥ sessionLimit via then (c, errSessions, [])
    else
      let i := c.keep.nextSession
      let c := { c with keep := { c.keep with nextSession := i + 1 } }.setSession i ⟨via, slot, false, c.clk.nominal, 0⟩
      let b := leBytes 4 i ++ c.summary tr via summary
      let r := c.sign slot b
      (r.1, 0, b ++ r.2)))

def Core.dropSession (c : Core) (i : Nat) : Core := { c with keep := { c.keep with sessions := c.keep.sessions.erase i } }

/-- A request in session `i` of its transport; ERROR InvalidSession where there is none. -/
def Core.inSession (via : Via) (code i : Nat) (f : Core → Session → Core × Nat × List Byte) (c : Core) : Core :=
  Core.request_ via code (fun c => match c.session? i with
    | some x => if x.via = via then f (c.touch i) x else (c, 0x02, [])
    | none => (c, 0x02, [])) c

/-- FINISH: the handshake is complete; one that does not verify ends the session with ERROR DecryptError. -/
def execFinish (via : Via) (i : Nat) (verified : Bool) (s : State) := s.act (Core.inSession via 0xE5 i (fun c x =>
  if x.open_ then (c, errUnexpected, [])
  else if verified then (c.setSession i { x with open_ := true, last := c.clk.nominal }, 0, [])
  else (c.dropSession i, 0x06, [])))

def execEndSession (via : Via) (i : Nat) (s : State) := s.act (Core.inSession via 0xEC i (fun c _ => (c.dropSession i, 0, [])))

def execHeartbeat (via : Via) (i : Nat) (s : State) := s.act (Core.inSession via 0xE8 i (fun c _ => (c, 0, [])))

def execKeyUpdate (via : Via) (i : Nat) (s : State) := s.act (Core.inSession via 0xE9 i (fun c x =>
  (c.setSession i { x with updates := x.updates + 1, last := c.clk.nominal }, 0, [])))

/-- A request of the operator session (R402): an open session on the administration PF's DOE or on MCTP. -/
def Core.operatorReq (tr : Trim) (via : Via) (code i : Nat) (f : Core → Core × Nat × List Byte) (c : Core) : Core :=
  Core.request_ via code (fun c => match c.session? i with
    | some x => if x.via = via ∧ x.open_ ∧ operatorVia tr via then f (c.touch i) else (c, errUnsupported, [])
    | none => (c, errUnsupported, [])) c

/-- GET_CSR (R401): a request for the key of slot 2 or 3. -/
def execGetCsr (via : Via) (i slot : Nat) (s : State) := s.actT (fun tr => Core.operatorReq tr via 0xED i (fun c =>
  if slot = 2 ∨ slot = 3 then
    let r := c.sign slot (leBytes 1 (certKey slot))
    (r.1, 0, leBytes 1 (certKey slot) ++ r.2)
  else (c, errInvalid, [])))

/-- SET_CERTIFICATE (R401). -/
def execSetCertificate (via : Via) (i slot : Nat) (chain : List Byte) (s : State) := s.actT (fun tr =>
  Core.operatorReq tr via 0xEE i (fun c =>
    if slot = 2 then ({ c with keep := { c.keep with cert2 := chain } }, 0, [])
    else if slot = 3 then ({ c with keep := { c.keep with cert3 := chain } }, 0, [])
    else (c, errInvalid, [])))

/-- Any other request (R402). -/
def execUnsupportedSpdmRequest (via : Via) (code : Nat) (s : State) :=
  s.act (Core.request_ via code (fun c => (c, errUnsupported, [])))

/-- SESSION_TIMEOUT (R403): two heartbeat periods of 60 s without a message. -/
def execSessionTimeout (i : Nat) (s : State) := s.act (fun c => match c.session? i with
  | some x => if c.clk.nominal ≥ x.last + 150_000_000_000 then c.dropSession i else c
  | none => c)

end Sys2Proof.Machine
end

