-- ==== Sys2Proof/Machine/Firmware.lean ====
section
/-! DEFINITION. Firmware images and boot (14 R387 to R392, R405 to R410, R397). -/

namespace Sys2Proof.Machine

/-! Checking an image (R387 to R389). -/

/-- The largest body of a kind. -/
def maxBody (kind : Nat) : Nat := match kind with | 1 => 2 ^ 19 | 2 => 2 ^ 21 | 3 => 2 ^ 18 | _ => 2 ^ 17

def imgBody (d : List Byte) : Nat := fieldLE d 0x10 4
def imgSigned (d : List Byte) : Bool := bit (fieldLE d 0x110 1) 0

/-- The image's total length. -/
def imgLength (d : List Byte) : Nat := 512 + imgBody d + (if imgSigned d then 96 else 0)

/-- The bytes both signatures cover. -/
def imgCovered (d : List Byte) : List Byte := slice d 0 0x50

/-- The header lies within R387, for the kind asked for, BODY_HASH matches, and Knaot's signature verifies. -/
def imageOk (kind : Nat) (d : List Byte) : Bool :=
  let n := imgBody d
  fieldLE d 0 4 = 0x5746_5A49 && fieldLE d 4 1 = kind && fieldLE d 5 1 = 0 && allZero (slice d 0x14 12) && decide (n ≤ maxBody kind)
    && decide (fieldLE d 0x110 1 < 2) && allZero (slice d 0x111 239) && (imgSigned d || allZero (slice d 0xB0 96))
    && decide (imgLength d ≤ d.length)
    && Config.sha384 (slice d 512 n) = BitVec.ofNat 384 (fieldLE d 0x20 48)
    && Config.ecdsaOk 0 (imgCovered d) (slice d 0x50 96)

/-- The operator's signature verifies under the key that follows the body. -/
def operatorOk (d : List Byte) : Bool :=
  imgSigned d && Config.ecdsaOk 1 (imgCovered d ++ slice d (512 + imgBody d) 96) (slice d 0xB0 96)

/-- The code with which an image of a kind is refused, 0 when R389 accepts it. -/
def imageCode (tr : Trim) (svnMin kind : Nat) (d : List Byte) : Nat :=
  if !imageOk kind d then 0x0510
  else if fieldLE d 6 2 < svnMin then 0x0511
  else if tr.opSigRequired && !operatorOk d then 0x0510
  else 0

/-- What the Keep keeps of an image; its measurement (R388). -/
def imageOf (d : List Byte) : FwImage := ⟨fieldLE d 4 1, fieldLE d 6 2, fieldLE d 8 8, Config.sha384 (imgCovered d)⟩

/-! Staging (R405). -/

/-- Kind `k`'s inactive slot holds `x`, staged or not. -/
def FwKind.putOther (k : FwKind) (x : Option FwImage) (staged : Bool) : FwKind :=
  if k.activeB then { k with a := x, staged := staged } else { k with b := x, staged := staged }

/-- KIND of KEP_FW_CTL. -/
def Core.fwSel (c : Core) : Nat := bits (c.reg 0x20_0100) 0 3

/-- A write of one of KEP_FW_CTL's actions, with a KIND of 1 to 4, by the administration PF. -/
def Core.fwAct (f : FnId) (g : Nat → Core → Core) (tr : Trim) (c : Core) : Core :=
  if f = tr.admin ∧ 1 ≤ c.fwSel ∧ c.fwSel ≤ 4 then g c.fwSel c else c

/-- STAGE: the image at KEP_FW_ADDR is read and verified, and its writing to the inactive slot begins. -/
def Core.stage (img : Option (List Byte)) (tr : Trim) (k : Nat) (c : Core) : Core :=
  if c.keep.fwState ≠ 0 then c.keepRefuse 0x0512 0
  else match img with
    | none => (c.dmaFailed tr.admin).keepRefuse 0x0510 0
    | some d =>
      let c := c.bump (hstBase tr.adminPort + 0x80) d.length
      match imageCode tr (c.fw k).svnMin k d with
      | 0 =>
        { c.setFw k ((c.fw k).putOther none false) with
          keep := { (c.setFw k ((c.fw k).putOther none false)).keep with fwState := 1, fwKind := k, fwNew := some (imageOf d) } }
      | code => c.keepRefuse code 0

def execStage (f : FnId) (img : Option (List Byte)) (s : State) := s.actT (fun tr => Core.fwAct f (Core.stage img tr) tr)

/-- Staging or the window is over. -/
def Core.fwIdle (c : Core) : Core := { c with keep := { c.keep with fwState := 0, fwKind := 0, fwNew := none } }

/-- The measurement of an image as a log entry's digest. -/
def measureOf (x : Option FwImage) : Digest := (x.map (fun i : FwImage => i.measure)).getD 0

/-- STAGING_DONE: the flash has been written and verified again, or not. -/
def Core.stagingDone (ok : Bool) (c : Core) : Core :=
  let k := c.keep.fwKind
  if c.keep.fwState ≠ 1 then c
  else if !ok then c.fwIdle.keepRefuse 0x0510 0
  else
    let x := c.keep.fwNew
    (((c.setFw k ((c.fw k).putOther x true)).fwIdle).raise (sysEvent 0x0515 0 0 0 0)).note 1 0xFFFF k (measureOf x)

def execStagingDone (flashOk : Bool) (s : State) := s.act (Core.stagingDone flashOk)

/-- DISCARD. -/
def Core.discard (k : Nat) (c : Core) : Core :=
  if c.keep.fwState ≠ 0 then c.keepRefuse 0x0512 0
  else if !(c.fw k).staged then c.keepRefuse 0x0513 0
  else (c.setFw k ((c.fw k).putOther none false)).note 2 0xFFFF k (measureOf (c.fw k).other)

def execDiscard (f : FnId) (s : State) := s.actT (Core.fwAct f Core.discard)

/-! Activation (R406, R407). -/

/-- ACTIVATE opens the window; the sessions of hosts and MCTP end with the Keep's. -/
def Core.activate (k : Nat) (c : Core) : Core :=
  if c.keep.fwState ≠ 0 then c.keepRefuse 0x0512 0
  else if !(c.fw k).staged then c.keepRefuse 0x0513 0
  else { c with keep := { c.keep with fwState := 2, fwKind := k, sessions := if k = 1 then [] else c.keep.sessions } }

def execActivate (f : FnId) (s : State) := s.actT (Core.fwAct f Core.activate)

/-- What follows the window of a kind (R407). -/
def Core.afterWindow (k : Nat) (c : Core) : Core :=
  match k with
  | 1 =>
    let ws := c.keep.waiting
    let c := ws.foldl Core.retireNow { c with keep := { c.keep with waiting := [], cert3 := [] } }
    (List.range 36).foldl Core.newEpoch c
  | 2 => c.gate.posts.foldl Core.post { c with gate := { c.gate with posts := [] } }
  | 3 => (List.range 36).foldl (fun (c : Core) j => if (c.link j).rekeyWait then c.newEpoch j else c) c
  | _ => c

/-- A window ends: the self-check passed, and the pointer is written; or the old image runs again. -/
def Core.activationDone (ok : Bool) (c : Core) : Core :=
  let k := c.keep.fwKind
  let x := c.fw k
  if c.keep.fwState ≠ 2 then c
  else
    let c := c.fwIdle
    let c := if ok then
        ((c.setFw k { x with activeB := !x.activeB, staged := false, failed := false }).raise (sysEvent 0x0516 0 0 0 0)).note 3 0xFFFF k
          (measureOf x.other)
      else ((c.setFw k { x with failed := true }).raise (sysEvent 0x0514 0 0 0 0)).note 4 0xFFFF k (measureOf x.other)
    c.afterWindow k

/-- COMMIT_SVN (R408): a fused minimum never falls. -/
def Core.commitSvn (k : Nat) (c : Core) : Core :=
  let x := c.fw k
  c.setFw k { x with svnMin := max x.svnMin ((x.active.map (fun i : FwImage => i.svn)).getD 0) }

def execCommitSvn (f : FnId) (s : State) := s.actT (Core.fwAct f Core.commitSvn)

/-! The log (R397). -/

/-- KEP_LOG_SEL: the entry counted back from the newest is frozen in KEP_LOG_DATA. -/
def Core.logSelect (entry : Nat) (c : Core) : Core :=
  let i := entry % 4096
  { c with keep := { c.keep with logSel := i, logShown := c.keep.log.reverse[i]? } }

def execKepLogSel (f : FnId) (entry : Nat) (s : State) := adminAct f (Core.logSelect entry) s

/-! Boot (R391, R410, R456). -/

/-- An image in flash passes R389: it was verified when it was written, so what can fail is its SVN. -/
def FwKind.passes (k : FwKind) (x : Option FwImage) : Bool :=
  match x with
  | some i => decide (k.svnMin ≤ i.svn)
  | none => false

/-- The slot a kind boots from: the active one, or the other with event 0x0517; none where neither passes. -/
def Core.bootKind (c : Core) (k : Nat) : Option Core :=
  let x := c.fw k
  if x.passes x.active then some c
  else if x.passes x.other then some ((c.setFw k { x with activeB := !x.activeB, staged := false }).raise (sysEvent 0x0517 k 0 0 0))
  else none

/-- No image of a kind boots: FAIL_N, and a responder that answers little. -/
def Core.bootFail (c : Core) : Core := { c with keep := { c.keep with basic := true, open_ := true } }.failN 7

/-- Boot every kind of a list. -/
def Core.bootKinds (c : Core) : List Nat → Option Core
  | [] => some c
  | k :: ks => match c.bootKind k with
    | some c => c.bootKinds ks
    | none => none

/-- Stage 4: the Gatehouse, link complex and Belfry run, the responder is open; a reset that cut an activation window short is
recorded. -/
def Core.bootLast (c : Core) : Core :=
  let k := c.keep.windowReset
  let c := { c with keep := { c.keep with open_ := true, windowReset := 0 }
                    gate := { c.gate with run := c.gate.halted.map (fun h => !h) } }
  let c := if k = 0 then c else (c.setFw k { c.fw k with failed := true }).raise (sysEvent 0x0514 0 0 0 0)
  c.readyCheck

/-- BOOT_STAGE: stage `n` completes after the one before it. -/
def Core.boot (n : Nat) (c : Core) : Core :=
  if !c.prc.powered ∨ c.keep.basic ∨ n ≠ c.keep.bootStage + 1 ∨ n > 4 then c
  else
    let done (c : Core) : Core := { c with keep := { c.keep with bootStage := n } }
    match n with
    | 1 => (match c.bootKind 1 with
      | some c => done c
      | none => c.bootFail)
    | 3 => (match c.bootKinds [2, 3, 4] with
      | some c => done c
      | none => c.bootFail)
    | 4 => (done c).bootLast
    | _ => done c

def execBootStage (n : Nat) (s : State) := s.act (Core.boot n)

end Sys2Proof.Machine
end

