-- ==== Sys2Proof/Machine/Supply.lean ====
section
/-! DEFINITION. The supply, the envelope and the regions (15), power-up and the loss of power (17 R456, R457). -/

namespace Sys2Proof.Machine

/-! Power on and off (R456, R457, R459). -/

/-- A power loss or cold reset in an activation window is recorded at the next boot (R410). -/
def Core.windowMark (c : Core) : Nat := if c.keep.fwState = 2 then c.keep.fwKind else c.keep.windowReset

/-- The die after everything on it is lost; the PRC goes on measuring its input. -/
def Core.dark (c : Core) (trip : Option (Nat × Nat)) : Core :=
  let p : Prc := { Prc.reset with vin := c.prc.vin, pwrgd := c.prc.pwrgd, band := c.prc.band }
  let k := Core.coldReset p trip c.keep.fws c.keep.cert2 c.free
  { k with keep := { k.keep with windowReset := c.windowMark } }

/-- Everything but flash and fuses is lost: the die stands at `core`, memory and the recorder are empty. -/
def State.lose (s : State) (core : Core) : State := { s with core := core, dram := .zero, evr := .reset }

/-- Nominal beats a tower's self-test takes (R153). -/
def selfTestBeats : Nat := 1_048_576

/-- The die at power-up (R456): the store is charged, the towers' self-test begins, a thermal trip is reported (R436). -/
def Core.wakeUp (c : Core) : Core :=
  let k := c.dark none
  let vin := if within 4600 6000 c.prc.vin then c.prc.vin else 4600 + Config.freeNat k.free % 1401
  let k := { k.fresh with
    prc := { k.prc with vin := vin, band := 2, pwrgd := true, powered := true, energy := 3100 }
    towers := List.replicate 64 (.reset selfTestBeats) }
  match c.tripWord with
  | some t => k.raise (sysEvent 0x0810 t.1 t.2 0 0)
  | none => k

/-- POWER_UP: the input is in the operating band and PWRGD_IN asserted; a module that is on already sees only that. -/
def execPowerUp (s : State) : Host.Outcome State Fault Refusal :=
  if s.core.prc.powered then
    s.act (fun c =>
      let vin := if within 4600 6000 c.prc.vin then c.prc.vin else 4600 + Config.freeNat c.free % 1401
      { c.fresh with prc := { c.prc with vin := vin, band := 2, pwrgd := true } })
  else .next ((s.lose s.core.wakeUp).deliver s.core.wakeUp.stamp)

/-! The input (R412). -/

/-- The band of an input in 10 mV. -/
def bandOf (vin : Nat) : Nat :=
  if vin > 6400 then 4 else if vin > 6000 then 3 else if vin ≥ 4600 then 2 else if vin ≥ 4400 then 1 else 0

/-- The event of a band, 0 if it has none. -/
def bandCode (b : Nat) : Nat := match b with | 4 => 0x080E | 3 => 0x0805 | 1 => 0x0804 | _ => 0

/-- 100 ms and 10 ms in nominal beats. -/
def bandQuiet : Nat := 125_000_000
def switchBeats : Nat := 12_500_000

/-- The input switch is open (R412). -/
def Core.switchIsOpen (c : Core) : Bool :=
  match c.prc.switchOpen with
  | some b => c.prc.band = 4 || decide (c.clk.nominal < b + switchBeats)
  | none => false

/-- The input is measured: its band's event on entry, unless it was in that band within 100 ms. -/
def Core.enterBand (c : Core) (vin : Nat) : Core :=
  let p := c.prc
  let b := bandOf vin
  let left := p.bandLeft.getD b 0
  if b = p.band then { c with prc := { p with vin := vin } }
  else
    let c := { c with prc := { p with
      vin := vin, band := b, bandLeft := p.bandLeft.set p.band (c.clk.nominal + 1)
      state := match p.state with
        | .normal | .low => if b = 1 then .low else if b = 2 ∨ b = 3 then .normal else p.state
        | x => x
      switchOpen := if b = 4 then some c.clk.nominal else p.switchOpen } }
    if bandCode b ≠ 0 ∧ (left = 0 ∨ c.clk.nominal + 1 ≥ left + bandQuiet) then c.raise (sysEvent (bandCode b) 0 0 0 0) else c

/-- A change of the input that the die does not survive: out of the operating band before READY (R457), or lost in
PF_SAFE (R418). -/
def Core.inputLost (c : Core) (vin : Nat) : Bool :=
  c.prc.powered && ((!c.gate.ready && bandOf vin != 2) || (c.prc.state = .pfSafe && bandOf vin = 0))

/-- The input goes to `vin`. -/
def State.input (s : State) (vin : Nat) : Host.Outcome State Fault Refusal :=
  if s.core.inputLost vin then
    .next (s.lose (Core.dark { s.core with prc := { s.core.prc with vin := vin, band := bandOf vin } } s.core.tripWord))
  else if s.core.prc.powered then s.act (fun c => c.enterBand vin)
  else s.act (fun c => { c with prc := { c.prc with vin := vin, band := bandOf vin } })

def execInputBandChange (vin : Nat) (s : State) := s.input vin

/-- OVER_VOLTAGE: above 64.0 V. -/
def execOverVoltage (vin : Nat) (s : State) : Host.Outcome State Fault Refusal := if vin > 6400 then s.input vin else s.act (fun c => c)

/-- PWRGD_IN_DEASSERTED (R416, R457). -/
def execPwrgdInDeasserted (s : State) : Host.Outcome State Fault Refusal :=
  let p := { s.core.prc with pwrgd := false }
  if s.core.prc.powered && !s.core.gate.ready then .next (s.lose (Core.dark { s.core with prc := p } s.core.tripWord))
  else s.act (fun c => { c with prc := { c.prc with pwrgd := false } })

/-! Holdover (R413, R415). -/

/-- The module is powered and READY: R412 to R418 govern (R457). -/
def Core.governed (c : Core) : Bool := c.prc.powered && c.gate.ready

/-- NORMAL or LOW. -/
def Core.running (c : Core) : Bool := c.prc.state = .normal || c.prc.state = .low

/-- HOLDOVER_ENTRY: the input has stayed below 44.0 V, or its switch open, for more than 2 µs. -/
def Core.holdoverEntry (vin : Nat) (c : Core) : Core :=
  if !c.governed then c
  else
    let c := c.enterBand vin
    if !(decide (vin < 4400) || c.switchIsOpen) then c
    else
      let before := c.binNow
      let c := c.bump 0x30_0080 1
      if c.running then
        let c := { c with
          prc := { c.prc with state := .holdover, holdSince := c.clk.nominal }, blf := { c.blf with reqHoldover := 5 } }
        (c.raise (sysEvent 0x0802 (vin / 10) 0 0 0)).unfilled before c.binNow
      else c

def execHoldoverEntry (vin : Nat) (s : State) := s.act (Core.holdoverEntry vin)

/-- The input has been at or above 46.0 V for 1 ms. -/
def Core.inputGood (c : Core) : Bool :=
  c.prc.band ≥ 2 && !c.switchIsOpen
    && [0, 1].all (fun b => c.prc.bandLeft.getD b 0 = 0 || decide (c.clk.nominal + 1 ≥ c.prc.bandLeft.getD b 0 + 1_250_000))

/-- HOLDOVER_EXIT: the request is withdrawn; the links send what they held back. -/
def Core.holdoverExit (energy : Nat) (c : Core) : Core :=
  if c.blf.reqHoldover = 0 ∨ !c.governed ∨ !c.inputGood ∨ energy < 3100 then c
  else
    let req := c.request
    let us := min 0xFFFF ((c.clk.nominal - c.prc.holdSince) / 1250)
    let c := { c with
      prc := { c.prc with energy := energy, state := if c.prc.state = SupplySt.holdover then .normal else c.prc.state }
      blf := { c.blf with reqHoldover := 0 } }.cleared req
    let c := (c.raise (sysEvent 0x0803 us 0 0 0)).bump 0x30_0088 1
    (List.range 36).foldl (fun (c : Core) k => c.pump k (c.link k).queue.length) c

def execHoldoverExit (energy : Nat) (s : State) := s.act (Core.holdoverExit energy)

/-! The orderly stop (R416, R417). -/

/-- The stop reserve in mJ (R414). -/
def stopReserve : Nat := 800

/-- The condition of a cause: 0 below 40.0 V, 1 the store at its reserve, 2 PWRGD_IN. -/
def Core.stopCause (c : Core) (cause : Nat) : Bool :=
  match cause with
  | 0 => decide (c.prc.vin < 4000)
  | 1 => decide (c.prc.state = SupplySt.holdover)
  | 2 => !c.prc.pwrgd
  | _ => false

/-- ORDERLY_STOP: submission queues are read no more, admission closes, nothing is released. -/
def Core.orderlyStop (cause : Nat) (c : Core) : Core :=
  if !c.governed ∨ c.prc.state = .stopping ∨ c.prc.state = .pfSafe ∨ !c.stopCause cause then c
  else
    { c with
      prc := { c.prc with state := .stopping, stopAt := c.clk.nominal, energy := if cause = 1 then stopReserve else c.prc.energy }
      blf := { c.blf with stopped := true }, gate := { c.gate with stopping := true } }

def execOrderlyStop (cause : Nat) (s : State) := s.act (Core.orderlyStop cause)

/-- A context held for resume (R417 step 4). -/
def Core.heldForResume (c : Core) (x : Nat) : Bool :=
  c.segs.any (fun s => s.ctx = x && s.st = .swapped) && !c.segs.any (fun s => s.ctx = x && s.st = .running)

/-- A running segment stops at its next bundle with 0x0806: each of its towers, no event (R417 step 3). -/
def Core.stopSeg (tr : Trim) (c : Core) (i : Nat) : Core :=
  match c.seg? i with
  | none => c
  | some s =>
    let c := (towersOf s.img.towerSet).foldl (fun (c : Core) k =>
      let x := c.tower k
      if x.seg = some i ∧ x.st ≠ .faulted then c.setTower k (x.stop ⟨0x0806, 0, 0, x.pc, x.nextBeat (s.img.prog k)⟩) else c) c
    c.endSeg tr { s with out := { s.out with fault := if s.out.fault = 0 then 0x0806 else s.out.fault } } (c.clk.total + 1)

/-- Hold a context's open step, and those after it, with a code. -/
def Core.holdOpen (c : Core) (x code : Nat) : Core :=
  match c.ctx? x with
  | some v => if v.record.st ≠ 0 then (c.setCtx x { v with later := [] }).holdStep x code 0 0 0 else c
  | none => c

/-- Context numbers in ascending order. -/
def Core.ctxIds (c : Core) : List Nat := (c.ctxs.map (fun x => x.1)).mergeSort (fun a b => decide (a ≤ b))

/-- What waits for the Gatehouse's activation window completes with 0x0806 (R437). -/
def Core.flushPosts (c : Core) : Core :=
  c.gate.posts.foldl (fun (c : Core) x =>
    if (c.pair x.req.f x.req.q).epoch = x.req.epoch ∧ c.coreUp x.req.f.port then c.writePost { x with status := 0x0806 } else c)
    { c with gate := { c.gate with posts := [] } }

/-- Steps 3 to 5 of R417. -/
def Core.stopEnd (tr : Trim) (c : Core) : Core :=
  -- settlements that have begun complete
  let c := (c.segs.filter (fun s => s.st = .ended && s.due != 0)).foldl (fun (c : Core) s0 =>
    match c.seg? s0.id with
    | some s => c.settle tr s
    | none => c) c
  let before := c.binNow
  let run := (c.segs.filter (fun s => s.st = .running)).map (fun s => s.id)
  let held := c.ctxIds.filter c.heldForResume
  let kept := (c.segs.filter (fun s => held.contains s.ctx && (s.st = .swapped || s.st = .queued || s.st = .ended))).map (fun s => s.id)
  let stays (v : Ctx) : Bool :=
    (v.record :: v.later).any (fun r => r.segs.any kept.contains || (r.closing.map kept.contains).getD false)
      && !(v.record :: v.later).any (fun r => r.segs.any run.contains)
  let steps := c.ctxIds.filter (fun x => ((c.ctx? x).map (fun v => !stays v)).getD false)
  let c := run.foldl (Core.stopSeg tr) c
  let c := steps.foldl (fun (c : Core) x => c.holdOpen x 0x0806) c
  let c := (c.segs.filter (fun s => s.st = .ended && !kept.contains s.id)).foldl (fun (c : Core) s =>
    c.finishSeg tr { s with heldCount := s.left.length } 0x0806 0) c
  let c := c.withdraw tr (fun s => s.st != .ended && !kept.contains s.id) 0x0806
  let c := (c.dir.map (fun x => x.1)).foldl (fun (c : Core) i => (c.fetchFail tr i 0x0806).writebackFail i 0x0806) c
  let c := [0, 1].foldl (fun (c : Core) b => if (c.base b).st = .loading then c.baseFail b 0x0806 else c) c
  c.flushPosts.unfilled before c.binNow

/-- ORDERLY_STOP_YIELD_END: 1 ms of the stop has passed. -/
def Core.yieldEnd (tr : Trim) (c : Core) : Core :=
  if c.prc.state = .stopping ∧ c.clk.nominal ≥ c.prc.stopAt + 1_250_000 then c.stopEnd tr else c

def execOrderlyStopYieldEnd (s : State) := s.actT Core.yieldEnd

/-- A link goes DOWN and stays DOWN. -/
def Core.linkOff (tr : Trim) (c : Core) (k : Nat) : Core :=
  let l := c.link k
  if l.st = .down then c
  else (if l.st = .up then c.raise (sysEvent 0x0705 0 0 0 k) else c).linkFall tr k .down

/-- PF_SAFE (R417 steps 6 and 7): what step 5 completes is complete, the links are DOWN. -/
def Core.pfSafe (tr : Trim) (c : Core) : Core :=
  if c.prc.state = .stopping ∧ c.clk.nominal ≥ c.prc.stopAt + 1_250_000 then
    let c := (List.range 36).foldl (Core.linkOff tr) (c.stopEnd tr)
    ({ c with prc := { c.prc with state := .pfSafe } }.raise (sysEvent 0x0807 0 0 0 0)).failN 5
  else c

def execPfSafe (s : State) := s.actT Core.pfSafe

/-- RESUME (R418): the enabled links come up again, admission reopens; a holdover request that stands goes on. -/
def Core.resume (c : Core) : Core :=
  if c.prc.state ≠ .pfSafe ∨ c.prc.band ≠ 2 ∨ !c.prc.pwrgd then c
  else
    let up (l : LinkS) : LinkS := if l.enable then { l with st := .training, since := c.clk.nominal } else l
    { c with
      prc := { c.prc with state := if c.blf.reqHoldover ≠ 0 then .holdover else .normal }
      blf := { c.blf with stopped := false }, gate := { c.gate with stopping := false }, links := c.links.map up }.okN 5

def execResume (f : FnId) (s : State) := adminAct f Core.resume s

/-- RIPPLE_MEASURE (R419): every 100 ms, in mV and Hz; the event at most every 10 s. -/
def Core.ripple (mv hz : Nat) (c : Core) : Core :=
  let c := { c with prc := { c.prc with ripple := mv % 2 ^ 16, freq := hz % 2 ^ 16 } }
  if !c.prc.powered ∨ mv ≤ 1500 then { c with prc := { c.prc with rippleAt := none } }
  else
    let now := c.clk.nominal
    let fire := match c.prc.rippleAt with
      | some b => decide (now ≥ b + 12_500_000_000)
      | none => true
    if fire then { c with prc := { c.prc with rippleAt := some now } }.raise (sysEvent 0x0808 mv hz 0 0) else c

def execRippleMeasure (mv hz : Nat) (s : State) := s.act (Core.ripple mv hz)

/-! The envelope (R420, R428, R429). -/

/-- The staged fields are in range (R420). -/
def envelopeOk (p ph : Nat) : Bool :=
  within 200 1400 (bits p 0 16) && within 10 5000 (bits p 16 16) && within 10 5000 (bits p 32 16)
    && within 1 256 (bits ph 0 9) && decide (bits ph 16 8 < bits ph 0 9)

/-- PRC_ENVELOPE_APPLY set. -/
def Core.envelopeApply (c : Core) : Core :=
  let p := c.reg 0x30_0010
  let ph := c.reg 0x30_0018
  if envelopeOk p ph then { c with pow := { c.pow with apply := true, pending := some (p, ph), since := c.window } }
  else { c with pow := { c.pow with refCode := 0x080D } }

def execPrcEnvelopeApply (f : FnId) (s : State) := adminAct f Core.envelopeApply s

/-- Some window of the forecast at factor `e` is above MAX_POWER. -/
def Core.exceeds (c : Core) (e : Nat) : Bool :=
  (List.range (c.horizon c.loads e + 1)).any (fun k => decide (c.forecast c.loads e k > c.pow.maxPower * 1_000_000))

/-- The latest reservation or ballast is dropped while the forecast exceeds (R428); `fuel` bounds the number of drops. -/
def Core.trimPlan (e : Nat) : Nat → Core → Core
  | 0, c => c
  | fuel + 1, c =>
    if !c.exceeds e then c
    else
      let rs := c.pow.reservations
      let bs := c.pow.ballast
      let r : Nat := (rs.map (fun x => x.first + 1)).foldl max 0
      let b : Nat := (bs.map (fun x => x.first + 1)).foldl max 0
      let last (xs : List Nat) (w : Nat) : Nat := xs.length - 1 - (xs.reverse.idxOf w)
      let pow := if r ≥ b then { c.pow with reservations := rs.eraseIdx (last (rs.map (fun x => x.first + 1)) r) }
        else { c.pow with ballast := bs.eraseIdx (last (bs.map (fun x => x.first + 1)) b) }
      Core.trimPlan e fuel { c with pow := pow }

/-- ENVELOPE_IN_FORCE: at the first beat of a later window than that of its acceptance the envelope takes effect (R420), and a cut
with it (R428). -/
def Core.envelopeForce (c : Core) : Core :=
  match c.pow.pending with
  | none => c
  | some (p, ph) =>
    if !c.clk.first ∨ c.window ≤ c.pow.since then c
    else
      let before := c.binNow
      let cut := decide (bits p 0 16 < c.pow.maxPower)
      let c := { c with pow := { c.pow with envPower := p, envPhase := ph, pending := none } }.raise (sysEvent 0x080F 0 0 0 0)
      if cut ∧ c.exceeds c.eighths then
        let k := if c.fits c.loads (factorEighths 3) then 3 else 4
        let c := { c with blf := { c.blf with reqEnvelope := max c.blf.reqEnvelope k } }
        let c := Core.trimPlan (factorEighths k) (c.pow.reservations.length + c.pow.ballast.length) c
        c.unfilled before c.binNow
      else c

def execEnvelopeInForce (s : State) := s.act Core.envelopeForce

/-- One bin as BLF_FC holds it: mean, largest window and mean ballast in W (R421). -/
def Core.binWord (c : Core) (ls : List Load) (b : Nat) : Nat :=
  let ws := (List.range 125).map (fun i => c.forecast ls c.eighths (125 * b + i))
  let bal := (List.range 125).map (fun i => if c.prc.state = .holdover then 0 else c.pow.ballastAt (c.window + 125 * b + i))
  ws.sum / 125_000_000 + ws.foldl max 0 / 1_000_000 * 2 ^ 16 + bal.sum / 125_000_000 * 2 ^ 32

/-- FORECAST_SNAP: the 625 bins as they stand. -/
def Core.snapshot (c : Core) : Core :=
  let ls := c.loads
  { c with pow := { c.pow with
    snapBase := c.window * 4096, snap := (List.range 625).foldl (fun (m : SMap Nat) b => m.set 0 b (c.binWord ls b)) [] } }

def execForecastSnap (f : FnId) (s : State) := adminAct f Core.snapshot s

/-- OVERDRAW: 16 more consecutive windows above MAX_POWER, with mean draw `watts`. -/
def Core.overdraw (watts : Nat) (c : Core) : Core :=
  if watts ≤ c.pow.maxPower then c
  else
    let c := { c with prc := { c.prc with pin := watts } }
    if c.blf.reqOverdraw = 0 then
      ({ c with blf := { c.blf with reqOverdraw := 3 } }.raise (sysEvent 0x080C watts 0 0 0)).bump 0x30_0090 1
    else { c with blf := { c.blf with reqOverdraw := 4 } }

def execOverdraw (watts : Nat) (s : State) := s.act (Core.overdraw watts)

/-- OVERDRAW_CLEAR: 1,024 windows at or below MAX_POWER; a cut's request clears with it. -/
def execOverdrawClear (s : State) := s.act (fun c =>
  { c with blf := { c.blf with reqOverdraw := 0, reqEnvelope := 0 } }.cleared c.request)

/-! The regions (R431 to R436). -/

def Core.region (c : Core) (r : Nat) : Region := c.prc.regions.getD r .reset
def Core.setRegion (c : Core) (r : Nat) (x : Region) : Core := { c with prc := { c.prc with regions := c.prc.regions.set r x } }

/-- The voltage a region is held at in mV: its setpoint, in holdover 80 mV lower (R413). -/
def Core.level (tr : Trim) (c : Core) (r : Nat) : Nat := tr.setpoints.getD r 0 - (if c.blf.reqHoldover ≠ 0 then 80 else 0)

/-- DROOP: the region has stood at `mv` for 8 beats. -/
def Core.droop (r mv : Nat) (tr : Trim) (c : Core) : Core :=
  let x := c.region r
  let d := c.level tr r - mv
  let k := if d ≥ 45 then 2 else if d ≥ 25 then 1 else 0
  if r ≥ 16 ∨ x.fenced then c
  else if k > x.droop then (c.setRegion r { x with mv := mv, droop := k }).raise (sysEvent 0x080A r d 0 r)
  else c.setRegion r { x with mv := mv }

def execDroop (r mv : Nat) (s : State) := s.actT (Core.droop r mv)

/-- DROOP_CLEAR: within 15 mV for 4,096 beats. -/
def Core.droopClear (r mv : Nat) (tr : Trim) (c : Core) : Core :=
  let lv := c.level tr r
  if r ≥ 16 ∨ lv > mv + 15 ∨ mv > lv + 15 then c
  else (c.setRegion r { c.region r with mv := mv, droop := 0 }).cleared c.request

def execDroopClear (r mv : Nat) (s : State) := s.actT (Core.droopClear r mv)

/-- The PRC fences region `r` (R435), with a cause and a value. -/
def Core.fence (tr : Trim) (c : Core) (r cause value : Nat) : Core :=
  let before := c.binNow
  let c := (c.setRegion r { c.region r with fenced := true, cause := cause }).cleared c.request
  let c := (List.range' (4 * r) 4).foldl (fun (c : Core) k => c.setTower k { c.tower k with fenced := true }) c
  let c := (c.fenceTowers r).raise (sysEvent 0x0801 r cause value r)
  (c.wake tr).unfilled before c.binNow

/-- The thermal request of a region at `temp` °C, which requested `old` before (R433). -/
def thermalCode (old temp : Nat) : Nat :=
  if temp ≥ 105 ∨ (old ≥ 4 ∧ temp ≥ 102) then 4
  else if temp ≥ 100 ∨ (old ≥ 3 ∧ temp ≥ 97) then 3
  else if temp ≥ 95 ∨ (old ≥ 2 ∧ temp ≥ 92) then 2
  else 0

/-- THERMAL_SAMPLE: a region's junction temperature in a window. -/
def Core.thermalSample (r temp : Nat) (tr : Trim) (c : Core) : Core :=
  let x := c.region r
  let k := thermalCode x.thermal temp
  let y := { x with temp := min 255 temp, thermal := k, hot := if temp ≥ 110 then x.hot + 1 else 0 }
  if r ≥ 16 ∨ !c.prc.powered then c
  else
    let c := (c.setRegion r y).cleared c.request
    if x.fenced then c
    else
      let c := if k > x.thermal then c.raise (sysEvent 0x0811 0 0 0 r) else c
      if y.hot ≥ 4 then c.fence tr r 3 (min 255 temp) else c

def execThermalSample (r temp : Nat) (s : State) := s.actT (Core.thermalSample r temp)

/-- Two regions share an edge of the 4 × 4 grid (R431). -/
def neighbours (a b : Nat) : Bool :=
  decide (a < 16 ∧ b < 16) && ((a / 4 = b / 4 && (decide (a + 1 = b) || decide (b + 1 = a))) || decide (a + 4 = b) || decide (b + 4 = a))

/-- Twice the median of a list. -/
def median2 (xs : List Nat) : Nat :=
  let ys := xs.mergeSort (fun a b => decide (a ≤ b))
  ys.getD ((ys.length - 1) / 2) 0 + ys.getD (ys.length / 2) 0

/-- A region's temperature, or its voltage: its level where none has been measured. -/
def Core.sensed (tr : Trim) (c : Core) (thermal : Bool) (r : Nat) : Nat :=
  if thermal then (c.region r).temp else if (c.region r).mv = 0 then c.level tr r else (c.region r).mv

/-- Which of two regions lies farther from the median of the unfenced regions, the higher-numbered on a tie (R434). -/
def Core.farther (tr : Trim) (c : Core) (thermal : Bool) (a b : Nat) : Nat :=
  let m := median2 (((List.range 16).filter (fun r => !(c.region r).fenced)).map (c.sensed tr thermal))
  let d (r : Nat) : Nat := let v := 2 * c.sensed tr thermal r; (v - m) + (m - v)
  if d a > d b then a else if d b > d a then b else max a b

/-- NEIGHBOUR_LIMIT: a neighbour pair differs by `diff` mV or °C. -/
def Core.neighbourLimit (a b : Nat) (thermal : Bool) (diff : Nat) (tr : Trim) (c : Core) : Core :=
  if !neighbours a b || (c.region a).fenced || (c.region b).fenced then c
  else if diff ≥ (if thermal then 25 else 80) then
    let r := c.farther tr thermal a b
    c.fence tr r (if thermal then 2 else 1) (c.sensed tr thermal r)
  else if diff > (if thermal then 18 else 60) then
    ({ c with blf := { c.blf with reqNeighbour := 1 } }.raise (sysEvent 0x0809 a b diff a)).bump 0x30_00A0 1
  else c

def execNeighbourLimit (a b : Nat) (thermal : Bool) (diff : Nat) (s : State) := s.actT (Core.neighbourLimit a b thermal diff)

/-- NEIGHBOUR_CLEAR: every pair has stayed within the limits for 4,096 beats. -/
def execNeighbourClear (s : State) := s.act (fun c => { c with blf := { c.blf with reqNeighbour := 0 } }.cleared c.request)

/-- REGION_FENCE. -/
def Core.regionFence (r cause value : Nat) (tr : Trim) (c : Core) : Core :=
  if r ≥ 16 ∨ !within 1 3 cause ∨ !c.prc.powered ∨ (c.region r).fenced then c else c.fence tr r cause value

def execRegionFence (r cause value : Nat) (s : State) := s.actT (Core.regionFence r cause value)

/-- THERMAL_TRIP (R436): any sensor at 120 °C or more. -/
def execThermalTrip (sensor temp : Nat) (s : State) : Host.Outcome State Fault Refusal :=
  if s.core.prc.powered ∧ temp ≥ 120 then .next (s.lose ((s.core.dark (some (sensor, temp))).failN 6))
  else s.act (fun c => c)

end Sys2Proof.Machine
end

