-- ==== Sys2Proof/Machine/Resets.lean ====
section
/-! DEFINITION. The resets (17 R459 to R463, R410): of one region, of the module warm, and cold. -/

namespace Sys2Proof.Machine

/-! Region partial reset (R461). -/

/-- REGION of PRC_RESET. -/
def Core.resetRegion (c : Core) : Nat := bits (c.reg 0x30_0070) 8 4

/-- The PRC takes a reset request: powered, and neither STOPPING nor PF_SAFE (R462). -/
def Core.takesReset (c : Core) : Bool := c.prc.powered && c.prc.state != .stopping && c.prc.state != .pfSafe

/-- The towers of a region go back to reset values, FENCED, and their self-test begins. -/
def Core.clearTowers (c : Core) (r : Nat) : Core :=
  let mine (o : Nat) : Bool := (blockAt o).1 = 1 && (blockAt o).2.2 / 4 = r
  let c := { c with regs := c.regs.keep (fun o => !mine o), locks := c.locks.filter (fun x => !mine x.1) }.clearCtr mine
  (List.range' (4 * r) 4).foldl (fun (c : Core) k =>
    c.setTower k { Tower.reset (c.clk.nominal + selfTestBeats) with fenced := true }) c

/-- Steps 1 to 3: the fence with cause 0, the log entry (R410), reset values, the self-test. -/
def Core.startRegionReset (tr : Trim) (c : Core) (r : Nat) : Core :=
  let c := ((c.fence tr r 0 0).clearTowers r).noteReset 2 r
  { c with prc := { c.prc with busy := some r } }

/-- REGION_RESET: dropped while one is BUSY; in an activation window it waits for the window's end (R410). -/
def Core.regionReset (tr : Trim) (c : Core) : Core :=
  if !c.takesReset || c.prc.busy.isSome then c
  else if c.keep.fwState = 2 then { c with prc := { c.prc with resetWait := some (c.prc.resetWait.getD c.resetRegion) } }
  else c.startRegionReset tr c.resetRegion

def execRegionReset (f : FnId) (s : State) := s.actT (fun tr c => if f = tr.admin then c.regionReset tr else c)

/-- A region reset that waited for an activation window starts. -/
def Core.startWaiting (tr : Trim) (c : Core) : Core :=
  match c.prc.resetWait with
  | none => c
  | some r =>
    let c := { c with prc := { c.prc with resetWait := none } }
    if c.takesReset && c.prc.busy.isNone then c.startRegionReset tr r else c

/-- ACTIVATION_DONE (R406, R407), and the region reset that waited for it (R410). -/
def execActivationDone (ok : Bool) (s : State) := s.actT (fun tr c =>
  if c.keep.fwState = 2 then (c.activationDone ok).startWaiting tr else c)

/-- The self-test of tower `k` in a region reset: `unit` is the first failing unit, 0 when it passed. -/
def Core.regionTest (c : Core) (k unit : Nat) : Core :=
  let x := c.tower k
  if x.testDone then c.setTower k { x with fenced := decide (x.testUnit ≠ 0) }
  else
    let c := c.setTower k { x with testDone := true, testPass := unit = 0, testUnit := unit, fenced := decide (unit ≠ 0) }
    if unit = 0 then c else c.raise (sysEvent 0x010B unit 0 0 k)

/-- REGION_RESET_DONE: the self-test is over; towers that passed leave FENCED, and BUSY clears. -/
def Core.regionResetDone (units : List Nat) (c : Core) : Core :=
  match c.prc.busy with
  | none => c
  | some r =>
    if (List.range' (4 * r) 4).any (fun k => decide (c.clk.nominal < (c.tower k).testEnd)) then c
    else
      let c := c.setRegion r { c.region r with fenced := false, cause := 0 }
      let c := (List.range 4).foldl (fun (c : Core) i => c.regionTest (4 * r + i) (units.getD i 0)) c
      { c with prc := { c.prc with busy := none } }

def execRegionResetDone (units : List Nat) (s : State) := s.act (Core.regionResetDone units)

/-! Warm module reset (R459, R460). -/

/-- A block whose registers, LOCK and counters a warm reset keeps: Keep, PRC, memory controllers, recorder, host complex. -/
def warmKeeps (off : Nat) : Bool := [5, 8, 4, 9, 6].contains (blockAt off).1

/-- Step 1: every pair of a function is DISABLED, with its MSI-X table at reset (R349). -/
def HostFn.drop (x : HostFn) : HostFn :=
  { x with pairs := x.pairs.map (fun (p : Nat × Pair) => (p.1, { Pair.reset with epoch := p.2.epoch + 1 })), msix := [] }

/-- Steps 1 to 4: pairs, settlements begun, towers, links. -/
def Core.warmStop (tr : Trim) (c : Core) : Core :=
  let c := { c with ports := c.ports.map (fun (p : Port) => { p with fns := p.fns.map (fun (x : Nat × HostFn) => (x.1, x.2.drop)) }) }
  let c := (c.segs.filter (fun s => s.st = .ended && s.due != 0)).foldl (fun (c : Core) s0 =>
    match c.seg? s0.id with
    | some s => c.settle tr s
    | none => c) c
  { c with segs := [], links := List.replicate 36 .reset, xfers := [], cadence := (3, 0, 0) }

/-- The towers after step 5: FENCED towers stay so until their test passes; a region under reset is included (R462). -/
def Core.warmTowers (c : Core) : Core :=
  let p := c.prc
  let regions := match p.busy with
    | some r => p.regions.set r { p.regions.getD r .reset with fenced := false, cause := 0 }
    | none => p.regions
  { c with
    prc := { p with regions := regions, busy := none, resetWait := none }
    towers := c.towers.zipIdx.map (fun (x : Tower × Nat) =>
      { Tower.reset (c.clk.nominal + selfTestBeats) with fenced := x.1.fenced && p.busy != some (x.2 / 4) }) }

/-- The Belfry after step 5: the PRC's requests stand, and in holdover it starts at code 5 (R462). -/
def Belfry.warm (b : Belfry) : Belfry :=
  { Belfry.reset with
    applied := if b.reqHoldover ≠ 0 then 5 else 0, reqHoldover := b.reqHoldover, reqNeighbour := b.reqNeighbour
    reqOverdraw := b.reqOverdraw }

/-- Step 5: the reset blocks return to reset values; BLF_ENV follows the staged registers. -/
def Core.warmBlocks (c : Core) : Core :=
  let c := { c with
    regs := c.regs.keep warmKeeps, locks := c.locks.filter (fun x => warmKeeps x.1)
    blf := c.blf.warm, tref := .reset c.clk.nominal, clk := { c.clk with total := 0 }
    pow := { Power.reset with
      envPower := c.reg 0x30_0010, envPhase := c.reg 0x30_0018, apply := c.pow.apply, refCode := c.pow.refCode }
    gate := { Gate.reset with ready := c.gate.ready, run := List.replicate 4 true, bases := c.gate.bases } }.clearCtr (fun o => !warmKeeps o)
  c.warmTowers.okN 2

/-- The Keep's part of step 5: the images are loaded again, sessions end, an activation window is cut short (R410). -/
def Core.warmKeep (c : Core) : Core :=
  let k := c.keep.fwKind
  let open_ := decide (c.keep.fwState = 2)
  let ws := c.keep.waiting
  let c := { c with keep := { c.keep with sessions := [], waiting := [] } }
  let c := if open_ then (c.fwIdle.setFw k { c.fw k with failed := true }).raise (sysEvent 0x0514 0 0 0 0) else c
  let c := ws.foldl Core.retireNow c
  match c.bootKinds [2, 3, 4] with
  | some c => c
  | none => c.bootFail

/-- Step 6 on a descriptor: nothing is under way on it, no pins, no transient claim; one that holds a poisoned line is FREE
(R463). -/
def Core.warmDesc (tr : Trim) (c : Core) (i : Nat) : Core :=
  let c := (c.fetchFail tr i 0x0A07).writebackFail i 0x0A07
  let c := if (c.desc i).st = .fetching then c.dropRun i else c
  let c := c.updDesc i (fun d => { d with
    pins := 0, claimant := 0, kind := 0, dirty := d.dirty || decide (d.st = .evicting)
    st := match d.st with
      | .fetching => .remote
      | .evicting => .resident
      | x => x })
  if (c.desc i).poisoned then (c.freeDesc i 0x0A07).raise (sysEvent 0x0202 (128 * i / 65536) 0 0 0) else c

/-- Step 6 on a context: disabled, without Dome and transient data; one whose area holds a poisoned line is deleted (R463). -/
def Core.warmCtx (c : Core) (x : Nat) : Core :=
  let c := (c.updCtx x (fun v => { v with enable := false, running := none, starts := false, dome := [], later := [] })).freeTransient x
  if ((c.ctx? x).map (fun v => v.poisoned)).getD false then
    (c.deleteCtx x).raise (sysEvent 0x0202 ((0x20_0000 + 0x1_8000 * x) / 65536) 0 0 0)
  else c

/-- Step 6, and a base load cut short. -/
def Core.warmSettle (tr : Trim) (c : Core) : Core :=
  let ids := c.ctxIds
  let c := ids.foldl (fun (c : Core) x => c.holdOpen x 0x0332) c
  let c := ids.foldl Core.warmCtx c
  let c := (c.dir.map (fun x => x.1)).foldl (Core.warmDesc tr) c
  [0, 1].foldl (fun (c : Core) b => if (c.base b).st = .loading then c.baseFail b 0x0A07 else c) c

/-- WARM: steps 1 to 7; dropped before READY. -/
def Core.warm (tr : Trim) (c : Core) : Core :=
  if !c.takesReset || !c.gate.ready then c
  else (((c.warmStop tr).warmBlocks.warmKeep).warmSettle tr).noteReset 1 0

def execWarm (f : FnId) (s : State) := s.actT (fun tr c => if f = tr.admin then c.warm tr else c)

/-! Cold reset (R459). -/

/-- COLD: the power stage goes off; POWER_UP follows. -/
def execCold (f : FnId) (s : State) : Host.Outcome State Fault Refusal :=
  if f = s.trim.admin ∧ s.core.takesReset then .next (s.lose (s.core.dark s.core.tripWord)) else s.act (fun c => c)

end Sys2Proof.Machine
end

