-- ==== Sys2Proof/Machine/Dispatch.lean ====
section
/-! DEFINITION. Dispatch: one arm per command, one direct call of its meaning. -/

namespace Sys2Proof.Machine

/-- The effect of a command on everything but the queue. -/
def exec (i : Instr) (s : State) : Host.Outcome State Fault Refusal :=
  match i with
  | .registerWrite f bar off size v => Sys2Proof.Machine.execRegisterWrite f bar off size v s
  | .unsupportedBarAccess f bar off size write => Sys2Proof.Machine.execUnsupportedBarAccess f bar off size write s
  | .lock f off => Sys2Proof.Machine.execLock f off s
  | .cntClear f off => Sys2Proof.Machine.execCntClear f off s
  | .counterSaturated off n => Sys2Proof.Machine.execCounterSaturated off n s
  | .coreHalt core => Sys2Proof.Machine.execCoreHalt core s
  | .parkDeadlineExpired => Sys2Proof.Machine.execParkDeadlineExpired s
  | .cadencePulse src rising => Sys2Proof.Machine.execCadencePulse src rising s
  | .syntheticPulse => Sys2Proof.Machine.execSyntheticPulse s
  | .sourceLost => Sys2Proof.Machine.execSourceLost s
  | .beatCounterWrap => Sys2Proof.Machine.execBeatCounterWrap s
  | .cpWrap => Sys2Proof.Machine.execCpWrap s
  | .calendarWrap => Sys2Proof.Machine.execCalendarWrap s
  | .factorChange => Sys2Proof.Machine.execFactorChange s
  | .factorStepDown => Sys2Proof.Machine.execFactorStepDown s
  | .blfRunSet f => Sys2Proof.Machine.execBlfRunSet f s
  | .blfRunClear f => Sys2Proof.Machine.execBlfRunClear f s
  | .segAdmitSet f => Sys2Proof.Machine.execSegAdmitSet f s
  | .segAdmitClear f => Sys2Proof.Machine.execSegAdmitClear f s
  | .blfCpRead f => Sys2Proof.Machine.execBlfCpRead f s
  | .segmentAdmission => Sys2Proof.Machine.execSegmentAdmission s
  | .imagePlacement => Sys2Proof.Machine.execImagePlacement s
  | .segmentRelease => Sys2Proof.Machine.execSegmentRelease s
  | .dropLateExpiry => Sys2Proof.Machine.execDropLateExpiry s
  | .segmentEnd => Sys2Proof.Machine.execSegmentEnd s
  | .release ctx => Sys2Proof.Machine.execRelease ctx s
  | .waitRel ctx => Sys2Proof.Machine.execWaitRel ctx s
  | .waitPulse ctx => Sys2Proof.Machine.execWaitPulse ctx s
  | .forecast ctx => Sys2Proof.Machine.execForecast ctx s
  | .ballast ctx => Sys2Proof.Machine.execBallast ctx s
  | .releaseLoop ctx => Sys2Proof.Machine.execReleaseLoop ctx s
  | .setAnchor ctx => Sys2Proof.Machine.execSetAnchor ctx s
  | .releaseEnd ctx => Sys2Proof.Machine.execReleaseEnd ctx s
  | .nop t => Sys2Proof.Machine.execNop t s
  | .loop t => Sys2Proof.Machine.execLoop t s
  | .barrier t => Sys2Proof.Machine.execBarrier t s
  | .endSeg t => Sys2Proof.Machine.execEndSeg t s
  | .aregSet t => Sys2Proof.Machine.execAregSet t s
  | .aregAdd t => Sys2Proof.Machine.execAregAdd t s
  | .aregStep t => Sys2Proof.Machine.execAregStep t s
  | .load t => Sys2Proof.Machine.execLoad t s
  | .pass t => Sys2Proof.Machine.execPass t s
  | .forward t => Sys2Proof.Machine.execForward t s
  | .sample t => Sys2Proof.Machine.execSample t s
  | .merge t => Sys2Proof.Machine.execMerge t s
  | .deltaRowCheck t => Sys2Proof.Machine.execDeltaRowCheck t s
  | .drain t => Sys2Proof.Machine.execDrain t s
  | .stream t => Sys2Proof.Machine.execStream t s
  | .reduce t => Sys2Proof.Machine.execReduce t s
  | .rule t => Sys2Proof.Machine.execRule t s
  | .zero t => Sys2Proof.Machine.execZero t s
  | .save t => Sys2Proof.Machine.execSave t s
  | .restore t => Sys2Proof.Machine.execRestore t s
  | .copy t => Sys2Proof.Machine.execCopy t s
  | .pop t => Sys2Proof.Machine.execPop t s
  | .retire t => Sys2Proof.Machine.execRetire t s
  | .openOut t => Sys2Proof.Machine.execOpenOut t s
  | .push t => Sys2Proof.Machine.execPush t s
  | .inboundIssue t => Sys2Proof.Machine.execInboundIssue t s
  | .outboundIssue t => Sys2Proof.Machine.execOutboundIssue t s
  | .entryPresent t q retried dome => Sys2Proof.Machine.execEntryPresent t q retried dome s
  | .writeAccepted t q => Sys2Proof.Machine.execWriteAccepted t q s
  | .stallLimitExceeded t => Sys2Proof.Machine.execStallLimitExceeded t s
  | .swapOut t => Sys2Proof.Machine.execSwapOut t s
  | .selfTestDone t unit => Sys2Proof.Machine.execSelfTestDone t unit s
  | .stepSettle => Sys2Proof.Machine.execStepSettle s
  | .tier2FetchDone idx pages => Sys2Proof.Machine.execTier2FetchDone idx pages s
  | .tier2FetchFailed idx code => Sys2Proof.Machine.execTier2FetchFailed idx code s
  | .tagListReceived idx tags dome => Sys2Proof.Machine.execTagListReceived idx tags dome s
  | .eviction => Sys2Proof.Machine.execEviction s
  | .writebackDone idx => Sys2Proof.Machine.execWritebackDone idx s
  | .tier0Copy idx bank page => Sys2Proof.Machine.execTier0Copy idx bank page s
  | .tier0Reclaim => Sys2Proof.Machine.execTier0Reclaim s
  | .memLineRead entry u line slot gen chk => Sys2Proof.Machine.execMemLineRead entry u line slot gen chk s
  | .memLineWrite entry u line slot gen data => Sys2Proof.Machine.execMemLineWrite entry u line slot gen data s
  | .checkByteRetry chk => Sys2Proof.Machine.execCheckByteRetry chk s
  | .scrub ch n chk => Sys2Proof.Machine.execScrub ch n chk s
  | .refresh ch => Sys2Proof.Machine.execRefresh ch s
  | .refreshForced ch bank => Sys2Proof.Machine.execRefreshForced ch bank s
  | .pkgTempChange c temp => Sys2Proof.Machine.execPkgTempChange c temp s
  | .memoryInitDone c trainFail => Sys2Proof.Machine.execMemoryInitDone c trainFail s
  | .slotEnableSet f => Sys2Proof.Machine.execSlotEnableSet f s
  | .slotEnableClear f => Sys2Proof.Machine.execSlotEnableClear f s
  | .slotRetire f => Sys2Proof.Machine.execSlotRetire f s
  | .retireBroadcast slot u => Sys2Proof.Machine.execRetireBroadcast slot u s
  | .zeroization slot => Sys2Proof.Machine.execZeroization slot s
  | .drainTimeout slot => Sys2Proof.Machine.execDrainTimeout slot s
  | .slotFreed slot => Sys2Proof.Machine.execSlotFreed slot s
  | .keyInstall o => Sys2Proof.Machine.execKeyInstall o s
  | .keyRetire o => Sys2Proof.Machine.execKeyRetire o s
  | .sealSet o => Sys2Proof.Machine.execSealSet o s
  | .sealGet o => Sys2Proof.Machine.execSealGet o s
  | .allowHash o => Sys2Proof.Machine.execAllowHash o s
  | .status o => Sys2Proof.Machine.execStatus o s
  | .extract o => Sys2Proof.Machine.execExtract o s
  | .baseKeyInstall o => Sys2Proof.Machine.execBaseKeyInstall o s
  | .getVersion via => Sys2Proof.Machine.execGetVersion via s
  | .getCapabilities via => Sys2Proof.Machine.execGetCapabilities via s
  | .negotiateAlgorithms via offersAll => Sys2Proof.Machine.execNegotiateAlgorithms via offersAll s
  | .getDigests via => Sys2Proof.Machine.execGetDigests via s
  | .getCertificate via slot => Sys2Proof.Machine.execGetCertificate via slot s
  | .challenge via slot nonce summary => Sys2Proof.Machine.execChallenge via slot nonce summary s
  | .getMeasurements via index slot nonce sign => Sys2Proof.Machine.execGetMeasurements via index slot nonce sign s
  | .keyExchange via slot summary => Sys2Proof.Machine.execKeyExchange via slot summary s
  | .finish via session verified => Sys2Proof.Machine.execFinish via session verified s
  | .endSession via session => Sys2Proof.Machine.execEndSession via session s
  | .heartbeat via session => Sys2Proof.Machine.execHeartbeat via session s
  | .keyUpdate via session => Sys2Proof.Machine.execKeyUpdate via session s
  | .getCsr via session slot => Sys2Proof.Machine.execGetCsr via session slot s
  | .setCertificate via session slot chain => Sys2Proof.Machine.execSetCertificate via session slot chain s
  | .unsupportedSpdmRequest via code => Sys2Proof.Machine.execUnsupportedSpdmRequest via code s
  | .sessionTimeout session => Sys2Proof.Machine.execSessionTimeout session s
  | .qEnableSet f q => Sys2Proof.Machine.execQEnableSet f q s
  | .qEnableClear f q => Sys2Proof.Machine.execQEnableClear f q s
  | .hstSqTail f q index => Sys2Proof.Machine.execHstSqTail f q index s
  | .hstCqHead f q index => Sys2Proof.Machine.execHstCqHead f q index s
  | .coalesceTimer f q => Sys2Proof.Machine.execCoalesceTimer f q s
  | .msixUnmask f vec => Sys2Proof.Machine.execMsixUnmask f vec s
  | .submitSegment c => Sys2Proof.Machine.execSubmitSegment c s
  | .imageHash c => Sys2Proof.Machine.execImageHash c s
  | .imageHashClear c => Sys2Proof.Machine.execImageHashClear c s
  | .contextCreate c => Sys2Proof.Machine.execContextCreate c s
  | .contextWrite c => Sys2Proof.Machine.execContextWrite c s
  | .contextEnable c => Sys2Proof.Machine.execContextEnable c s
  | .contextDisable c => Sys2Proof.Machine.execContextDisable c s
  | .contextDelete c => Sys2Proof.Machine.execContextDelete c s
  | .contextRead c => Sys2Proof.Machine.execContextRead c s
  | .loadChain c => Sys2Proof.Machine.execLoadChain c s
  | .loadRules c => Sys2Proof.Machine.execLoadRules c s
  | .loadGroups c => Sys2Proof.Machine.execLoadGroups c s
  | .loadSchedule c => Sys2Proof.Machine.execLoadSchedule c s
  | .advanceStep c => Sys2Proof.Machine.execAdvanceStep c s
  | .loadRelease c => Sys2Proof.Machine.execLoadRelease c s
  | .adaptRegister c => Sys2Proof.Machine.execAdaptRegister c s
  | .adaptRead c => Sys2Proof.Machine.execAdaptRead c s
  | .adaptRemove c => Sys2Proof.Machine.execAdaptRemove c s
  | .adaptPrefetch c => Sys2Proof.Machine.execAdaptPrefetch c s
  | .adaptWriteback c => Sys2Proof.Machine.execAdaptWriteback c s
  | .adaptRewrap c => Sys2Proof.Machine.execAdaptRewrap c s
  | .baseLoad c => Sys2Proof.Machine.execBaseLoad c s
  | .baseLoadDone slot src => Sys2Proof.Machine.execBaseLoadDone slot src s
  | .baseFree c => Sys2Proof.Machine.execBaseFree c s
  | .functionLevelReset f => Sys2Proof.Machine.execFunctionLevelReset f s
  | .flrComplete f => Sys2Proof.Machine.execFlrComplete f s
  | .getTdispVersion f => Sys2Proof.Machine.execGetTdispVersion f s
  | .getTdispCapabilities f => Sys2Proof.Machine.execGetTdispCapabilities f s
  | .lockInterface f => Sys2Proof.Machine.execLockInterface f s
  | .getDeviceInterfaceReport f => Sys2Proof.Machine.execGetDeviceInterfaceReport f s
  | .getDeviceInterfaceState f => Sys2Proof.Machine.execGetDeviceInterfaceState f s
  | .startInterface f => Sys2Proof.Machine.execStartInterface f s
  | .stopInterface f => Sys2Proof.Machine.execStopInterface f s
  | .ideKm f stream bound link => Sys2Proof.Machine.execIdeKm f stream bound link s
  | .ideIntegrityFailure port stream => Sys2Proof.Machine.execIdeIntegrityFailure port stream s
  | .configWriteLocked f => Sys2Proof.Machine.execConfigWriteLocked f s
  | .pcieLinkTrained port rate width => Sys2Proof.Machine.execPcieLinkTrained port rate width s
  | .hstVfEnableSet f port => Sys2Proof.Machine.execHstVfEnableSet f port s
  | .hstVfEnableClear f port => Sys2Proof.Machine.execHstVfEnableClear f port s
  | .vfEnableChange port numVfs => Sys2Proof.Machine.execVfEnableChange port numVfs s
  | .perst port => Sys2Proof.Machine.execPerst port s
  | .lnkEnableSet f k => Sys2Proof.Machine.execLnkEnableSet f k s
  | .lnkEnableClear f k => Sys2Proof.Machine.execLnkEnableClear f k s
  | .linkTrained k lanes => Sys2Proof.Machine.execLinkTrained k lanes s
  | .linkKeyed k partnerId partnerLink chainOk => Sys2Proof.Machine.execLinkKeyed k partnerId partnerLink chainOk s
  | .linkBringupTimeout k => Sys2Proof.Machine.execLinkBringupTimeout k s
  | .linkDown k => Sys2Proof.Machine.execLinkDown k s
  | .linkCtl k fr => Sys2Proof.Machine.execLinkCtl k fr s
  | .ackTimer k => Sys2Proof.Machine.execAckTimer k s
  | .fetchReq k fr => Sys2Proof.Machine.execFetchReq k fr s
  | .fetchData k fr => Sys2Proof.Machine.execFetchData k fr s
  | .fetchEnd k fr => Sys2Proof.Machine.execFetchEnd k fr s
  | .writeData k fr => Sys2Proof.Machine.execWriteData k fr s
  | .cadence k fr => Sys2Proof.Machine.execCadence k fr s
  | .cadenceSend k edgeOffset => Sys2Proof.Machine.execCadenceSend k edgeOffset s
  | .delayMeasure k => Sys2Proof.Machine.execDelayMeasure k s
  | .delayReq k fr => Sys2Proof.Machine.execDelayReq k fr s
  | .delayResp k fr => Sys2Proof.Machine.execDelayResp k fr s
  | .attest k fr => Sys2Proof.Machine.execAttest k fr s
  | .retireMarker k fr => Sys2Proof.Machine.execRetireMarker k fr s
  | .retireAck k fr => Sys2Proof.Machine.execRetireAck k fr s
  | .spdmFrame k fr => Sys2Proof.Machine.execSpdmFrame k fr s
  | .rekeyThreshold k => Sys2Proof.Machine.execRekeyThreshold k s
  | .frameCounterLimit k => Sys2Proof.Machine.execFrameCounterLimit k s
  | .transferDeadline => Sys2Proof.Machine.execTransferDeadline s
  | .stage f img => Sys2Proof.Machine.execStage f img s
  | .stagingDone flashOk => Sys2Proof.Machine.execStagingDone flashOk s
  | .activate f => Sys2Proof.Machine.execActivate f s
  | .activationDone selfCheckOk => Sys2Proof.Machine.execActivationDone selfCheckOk s
  | .commitSvn f => Sys2Proof.Machine.execCommitSvn f s
  | .discard f => Sys2Proof.Machine.execDiscard f s
  | .kepLogSel f entry => Sys2Proof.Machine.execKepLogSel f entry s
  | .bootStage n => Sys2Proof.Machine.execBootStage n s
  | .powerUp => Sys2Proof.Machine.execPowerUp s
  | .inputBandChange vin => Sys2Proof.Machine.execInputBandChange vin s
  | .overVoltage vin => Sys2Proof.Machine.execOverVoltage vin s
  | .holdoverEntry vin => Sys2Proof.Machine.execHoldoverEntry vin s
  | .holdoverExit energy => Sys2Proof.Machine.execHoldoverExit energy s
  | .orderlyStop cause => Sys2Proof.Machine.execOrderlyStop cause s
  | .orderlyStopYieldEnd => Sys2Proof.Machine.execOrderlyStopYieldEnd s
  | .pfSafe => Sys2Proof.Machine.execPfSafe s
  | .resume f => Sys2Proof.Machine.execResume f s
  | .rippleMeasure mv hz => Sys2Proof.Machine.execRippleMeasure mv hz s
  | .prcEnvelopeApply f => Sys2Proof.Machine.execPrcEnvelopeApply f s
  | .envelopeInForce => Sys2Proof.Machine.execEnvelopeInForce s
  | .forecastSnap f => Sys2Proof.Machine.execForecastSnap f s
  | .overdraw watts => Sys2Proof.Machine.execOverdraw watts s
  | .overdrawClear => Sys2Proof.Machine.execOverdrawClear s
  | .droop r mv => Sys2Proof.Machine.execDroop r mv s
  | .droopClear r mv => Sys2Proof.Machine.execDroopClear r mv s
  | .thermalSample r temp => Sys2Proof.Machine.execThermalSample r temp s
  | .neighbourLimit a b thermal diff => Sys2Proof.Machine.execNeighbourLimit a b thermal diff s
  | .neighbourClear => Sys2Proof.Machine.execNeighbourClear s
  | .regionFence r cause value => Sys2Proof.Machine.execRegionFence r cause value s
  | .thermalTrip sensor temp => Sys2Proof.Machine.execThermalTrip sensor temp s
  | .pwrgdInDeasserted => Sys2Proof.Machine.execPwrgdInDeasserted s
  | .recordWrite => Sys2Proof.Machine.execRecordWrite s
  | .tokenAdd code => Sys2Proof.Machine.execTokenAdd code s
  | .evrClear f => Sys2Proof.Machine.execEvrClear f s
  | .evrTime f v => Sys2Proof.Machine.execEvrTime f v s
  | .evrEnableSet f => Sys2Proof.Machine.execEvrEnableSet f s
  | .evrEnableClear f => Sys2Proof.Machine.execEvrEnableClear f s
  | .failClear f => Sys2Proof.Machine.execFailClear f s
  | .warm f => Sys2Proof.Machine.execWarm f s
  | .regionReset f => Sys2Proof.Machine.execRegionReset f s
  | .regionResetDone failUnits => Sys2Proof.Machine.execRegionResetDone failUnits s
  | .cold f => Sys2Proof.Machine.execCold f s

end Sys2Proof.Machine
end

