-- ==== Sys2Proof/Machine/Step.lean ====
section
/-! DEFINITION. One step: the command at the front of the queue, or a beat when no command waits (log 1). -/

namespace Sys2Proof.Machine

/-- A beat passes; nothing does while the power stage is off. -/
def idle (s : State) : Host.Outcome State Fault Refusal := s.act (fun c => if c.prc.powered then c.tick else c)

/-- Take the command at the front and run it with the rest queued. -/
def step (s : State) : Host.Outcome State Fault Refusal :=
  match s.pending with
  | [] => idle s
  | c :: rest => exec c { s with pending := rest }

/-- `s` with the command a word spells at the front of its queue; `s` itself where it spells none. -/
def State.withFetchWord (s : State) (nbits w : Nat) : State :=
  match decodeTableWord nbits w with
  | some c => { s with pending := c :: s.pending }
  | none => s

end Sys2Proof.Machine
end

