-- ==== Sys2Proof/Machine/ReadReg.lean ====
section
/-! DEFINITION. Host reads of registers (00 R13 to R15; 12 R335): the value of every register of the block map and of BAR2, by
the register headers.  A read changes nothing but BLF_BEAT_LATCH, which BLF_CP_READ latches, so no other command carries one
(log 118). -/

namespace Sys2Proof.Machine

/-- A register word from its fields as (lowest bit, width, value); bits that no field holds read zero. -/
def packed (fs : List (Nat × Nat × Nat)) : Nat := (fs.map (fun f => f.2.2 % 2 ^ f.2.1 * 2 ^ f.1)).sum

/-- A performance counter as its register holds it: COUNT and OVF (R440). -/
def Counter.word (x : Counter) : Nat := packed [(0, 48, x.count), (63, 1, b2n x.ovf)]

/-- The LOCK bit of the block at base `b`. -/
def Core.lockBit (c : Core) (b : Nat) : Nat := b2n (c.locks.any (fun x => x.1 = b))

/-- Descriptors in a state (GTH_DIR_STATUS). -/
def Core.countDir (c : Core) (st : DirSt) : Nat := (c.dir.filter (fun x => decide (x.2.st = st))).length

/-- Tenant slots in one of the states (KEP_SLOT_COUNTS). -/
def Core.countSlots (c : Core) (sts : List SlotSt) : Nat :=
  (c.keep.slots.filter (fun x => decide (x.1 < 4096) && sts.contains x.2.st)).length

/-- Enabled contexts that name base slot `b`. -/
def Core.baseCtxs (c : Core) (b : Nat) : Nat := (c.ctxs.filter (fun x => x.2.enable && decide (x.2.baseSlot = b))).length

def BaseSt.code : BaseSt → Nat
  | .empty => 0 | .loading => 1 | .ready => 2 | .freeing => 3

def PairSt.code : PairSt → Nat
  | .disabled => 0 | .running => 1 | .stopped => 2 | .draining => 3

def SupplySt.code : SupplySt → Nat
  | .normal => 0 | .low => 1 | .holdover => 2 | .stopping => 3 | .pfSafe => 4

def LinkSt.code : LinkSt → Nat
  | .down => 0 | .training => 1 | .keying => 2 | .up => 3 | .failed => 4

/-- The Gatehouse's registers (09, 17). -/
def Core.readGate (c : Core) (r : Nat) : Nat :=
  let g := c.gate
  match r with
  | 0x000 => packed [(0, 1, c.lockBit 0)]
  | 0x008 => packed [(0, 16, g.refCode), (16, 16, g.refCtx), (32, 16, fnCode g.refFn)]
  | 0x010 => packed ((0, 1, b2n g.ready) :: (List.range 4).flatMap (fun k =>
      [(1 + k, 1, b2n (g.run.getD k false)), (5 + k, 1, b2n (g.halted.getD k false))]))
  | 0x400 => packed [(0, 16, 16_384 - (c.dir.filter (fun x => decide (x.2.st ≠ .free))).length), (16, 16, c.countDir .resident),
      (32, 16, c.countDir .fetching), (48, 16, c.countDir .evicting)]
  | 0x408 => packed [(0, 13, (c.segs.filter (fun s => decide (s.st = .parked))).length), (16, 11, c.freeUnits.length)]
  | 0x418 => packed [(0, 2, (c.base 0).st.code), (16, 9, c.baseCtxs 0)]
  | 0x420 => packed [(0, 2, (c.base 1).st.code), (16, 9, c.baseCtxs 1)]
  | 0x428 => if (c.base 0).st = .empty then 0 else (c.base 0).tag % 2 ^ 64
  | 0x430 => if (c.base 1).st = .empty then 0 else (c.base 1).tag % 2 ^ 64
  | _ => 0

/-- A segment stands at its phase slot: its release lacks only that (R423, BLF_DRAW.PHASE_WAIT); a release is judged as at a
window's first beat (R47). -/
def Core.phaseWait (c : Core) : Bool :=
  let c := { c with clk := { c.clk with first := true } }
  c.segs.any (fun s => (c.byDefault s || c.progSeg s) && (c.startable s).isSome && (c.releasable s).isNone)

/-- The Belfry's registers (02, 15). -/
def Core.readBelfry (c : Core) (r : Nat) : Nat :=
  let b := c.blf
  if 0x1000 ≤ r ∧ r < 0x1000 + 8 * 625 then c.pow.snap.get 0 ((r - 0x1000) / 8)
  else match r with
  | 0x000 => packed [(0, 1, b2n b.run), (1, 1, b2n b.segAdmit), (2, 1, c.lockBit 0x10_0000)]
  | 0x008 => packed [(0, 16, b.refCode), (16, 16, b.refCtx)]
  | 0x010 => c.clk.total % 2 ^ 64
  | 0x018 => c.cp
  | 0x028 => packed [(0, 2, c.tref.active), (2, 2, c.tref.st.code), (8, 32, c.tref.period),
      (40, 16, unsigned 16 (satSigned 16 c.tref.phase))]
  | 0x030 => packed [(0, 3, b.applied), (3, 3, c.request), (8, 5, c.sources)]
  | 0x038 => packed [(0, 11, (c.segs.filter (fun s => s.st = .queued || s.st = .swapped)).length),
      (16, 9, (c.segs.filter (fun s => decide (s.st = .running))).length)]
  | 0x040 => b.beatLatch
  | 0x100 => c.pow.envPower
  | 0x108 => c.pow.envPhase
  | 0x110 =>
    let ballast := if c.prc.state = .holdover then 0 else c.pow.ballastAt c.window
    let reserved := if c.prc.state = .holdover then 0 else c.pow.reserved c.window
    packed [(0, 16, c.forecast c.loads c.eighths 0 / 1_000_000), (16, 16, ballast / 1_000_000), (32, 16, reserved / 1_000_000),
      (48, 1, b2n b.stepWait), (49, 1, b2n c.phaseWait)]
  | 0x128 => c.pow.snapBase % 2 ^ 64
  | _ => 0

/-- Quadword `q` of a log entry (R397). -/
def LogEntry.quad (x : LogEntry) (q : Nat) : Nat :=
  fieldLE (leBytes 8 x.time ++ leBytes 2 x.kind ++ leBytes 2 x.ctx ++ leBytes 2 x.arg ++ leBytes 2 0 ++ leBytes 48 x.digest.toNat) (8 * q) 8

/-- The Keep's registers (11, 14). -/
def Core.readKeep (c : Core) (r : Nat) : Nat :=
  let k := c.slot c.selSlot
  if 0x128 ≤ r ∧ r < 0x168 then ((c.keep.logShown.map (fun x => x.quad ((r - 0x128) / 8))).getD 0)
  else match r with
  | 0x000 => packed [(0, 1, c.lockBit 0x20_0000)]
  | 0x008 => packed [(0, 16, c.keep.refCode), (16, 13, c.keep.refSlot)]
  | 0x018 => packed [(0, 1, b2n k.st.reads), (8, 16, fnCode k.fn)]
  | 0x020 => packed [(0, 3, k.st.code), (3, 3, k.policy), (16, 16, k.genShown), (32, 16, min 0xFFFF (c.inflight c.selSlot))]
  | 0x030 => packed [(0, 13, 4096 - (c.countSlots [.enabled, .active, .retiring, .zeroizing, .dead])), (16, 13, c.countSlots [.active]),
      (32, 13, c.countSlots [.retiring, .zeroizing]), (48, 13, c.countSlots [.dead])]
  | 0x110 => packed ((0, 2, c.keep.fwState) :: (List.range 4).flatMap (fun i =>
      let x := c.fw (i + 1)
      [(8 + 4 * i, 1, b2n x.activeB), (9 + 4 * i, 1, b2n x.staged), (10 + 4 * i, 1, b2n x.failed)]))
  | 0x118 => packed ((List.range 4).map (fun i => (16 * i, 16, (c.fw (i + 1)).svnMin)))
  | 0x120 => packed [(0, 12, c.keep.logSel), (32, 13, c.keep.log.length)]
  | _ => 0

/-- The PRC's registers (15, 17). -/
def Core.readPrc (tr : Trim) (c : Core) (r : Nat) : Nat :=
  let p := c.prc
  let i := bits (c.reg 0x30_0058) 0 4
  let x := p.regions.getD i .reset
  match r with
  | 0x00 => packed [(0, 1, c.lockBit 0x30_0000)]
  | 0x08 => packed [(0, 16, c.pow.refCode)]
  | 0x20 => b2n c.pow.apply
  | 0x40 => packed [(0, 16, p.vin), (16, 16, p.iin), (32, 16, p.pin), (48, 3, p.state.code), (51, 1, b2n p.pwrgd)]
  | 0x48 => packed [(0, 16, p.energy), (16, 1, b2n (decide (p.energy ≥ 3100)))]
  | 0x50 => packed [(0, 16, p.ripple), (16, 16, p.freq)]
  | 0x60 => packed [(0, 10, tr.setpoints.getD i 0), (10, 10, x.mv), (20, 8, x.temp), (28, 1, b2n x.fenced),
      (29, 3, max x.droop x.thermal), (32, 2, x.cause)]
  | 0x68 => packed ((List.range 16).map (fun j => (j, 1, b2n (p.regions.getD j .reset).fenced)))
  | 0x70 => packed [(8, 4, bits (c.reg 0x30_0070) 8 4), (12, 1, b2n p.busy.isSome)]
  | _ => 0

/-- The event recorder's registers and records (16). -/
def readEvr (c : Core) (e : Evr) (r : Nat) : Nat :=
  if 0x20_0000 ≤ r ∧ r < 0x40_0000 then
    ((e.records[(r - 0x20_0000) / 32]?).map (fun x => fieldLE x.bytes (r % 32) 8)).getD 0
  else if 0x100 ≤ r ∧ r < 0x200 then e.filters.get 0 ((r - 0x100) / 8)
  else match r with
  | 0x00 => packed [(0, 1, b2n e.enable), (1, 1, c.lockBit 0x40_0000)]
  | 0x08 => packed [(0, 16, e.refCode)]
  | 0x10 => packed [(0, 17, e.records.length), (17, 1, b2n e.full), (18, 1, b2n e.timeSet), (19, 10, e.queue.length), (32, 32, e.epoch)]
  | 0x18 => e.lost.word
  | 0x20 => c.clk.time
  | 0x28 => packed [(0, 16, e.rateSel)]
  | 0x30 => packed [(0, 32, e.rates.get (defaultRate e.rateSel) e.rateSel), (32, 16, (e.buckets.get .full e.rateSel).pending)]
  | 0x38 => packed [(0, 6, e.irq), (8, 1, e.irq / 2 ^ 8)]
  | 0x40 => e.filtered.word
  | _ => 0

/-- The host window of port `p` (12). -/
def Core.readPort (tr : Trim) (c : Core) (p r : Nat) : Nat :=
  let x := c.port p
  let f := c.selFn p
  let y := c.fn f
  match r with
  | 0x00 => packed [(0, 1, c.lockBit (hstBase p)), (2, 1, c.reg (hstBase p) / 4)]
  | 0x08 => packed [(0, 16, bits (c.reg (hstBase p + 8)) 0 16), (16, 6, bits (c.reg (hstBase p + 8)) 16 6)]
  | 0x10 => packed [(0, 1, b2n x.up), (1, 3, x.rate), (4, 5, x.width), (9, 1, b2n (tr.adminPort = p)), (10, 1, b2n x.linkIde),
      (16, 6, x.numVfs), (32, 7, x.secure.length), (40, 7, (x.fns.filter (fun z => decide (z.2.tdi = .run))).length)]
  | 0x18 => packed [(0, 8, c.reg (hstBase p + 0x18)), (16, 7, c.share p), (24, 7, c.usedTowers p)]
  | 0x28 => packed [(0, 1, b2n y.enable), (8, 7, y.vectors)]
  | 0x30 => packed [(0, 3, y.tdi.code), (3, 1, b2n y.stream.isSome), (8, 8, y.stream.getD 0),
      (16, 7, (y.pairs.filter (fun z => decide (z.2.st ≠ .disabled))).length),
      (32, 9, (c.ctxs.filter (fun z => decide (z.2.owner = f))).length)]
  | _ => 0

/-- A controller's registers (10). -/
def Core.readMem (c : Core) (k r : Nat) : Nat :=
  let x := c.mem.ctls.getD k .reset
  match r with
  | 0x00 => packed [(0, 1, c.lockBit (memBase k)), (2, 1, c.reg (memBase k) / 4)]
  | 0x08 => packed [(0, 1, b2n x.init), (1, 1, b2n x.hot), (8, 8, x.trainFail), (16, 8, min 255 x.temp)]
  | 0x20 => packed [(0, 16, x.errCode), (16, 3, x.errCh), (24, 25, x.errGroup)]
  | _ => 0

/-- A link's registers (13). -/
def Core.readLink (c : Core) (k r : Nat) : Nat :=
  let l := c.link k
  match r with
  | 0x00 => packed [(0, 1, b2n l.enable), (1, 1, c.lockBit (lnkBase k)), (3, 1, c.reg (lnkBase k) / 8), (8, 4, c.reg (lnkBase k) / 2 ^ 8)]
  | 0x10 => packed [(0, 16, l.refCode)]
  | 0x18 => packed [(0, 3, l.st.code), (3, 1, b2n l.epoch), (4, 2, l.lanes), (6, 1, b2n (decide (l.samples.length ≥ 16))),
      (8, 6, l.partnerLink), (16, 16, l.epochs)]
  | 0x20 => l.partner % 2 ^ 64
  | 0x28 => l.txCount % 2 ^ 64
  | 0x30 => l.rxCount % 2 ^ 64
  | 0x40 => packed [(0, 32, l.delay)]
  | _ => 0

/-- TWR_STATUS.STATE: LOADING before a tower's first beat and while a swap is saved or restored, WAITING while a bundle waits or
the tower stands at a barrier or an END (log 117). -/
def Tower.stateCode (t : Tower) : Nat :=
  if t.fenced then 6
  else match t.st with
  | .faulted => 5
  | .swapped => 4
  | .waiting => 3
  | .loading => 1
  | .running => if t.startIn + t.swapLeft ≠ 0 then 1 else if t.wait ≠ 0 ∨ t.atBarrier ∨ t.done then 3 else 2
  | .idle => if t.swapLeft ≠ 0 then 4 else 0

/-- The byte of queue `q` in TWR_QUEUE_LO and TWR_QUEUE_HI; the direction is that of the segment on the tower. -/
def Core.queueByte (c : Core) (t q : Nat) : Nat :=
  let x := c.tower t
  let es := (x.queue q).entries
  let here := c.env t
  packed [(0, 5, (es.filter (fun e => decide (e.st ≠ .free))).length),
    (5, 1, b2n (match here with
      | some h => qOut (h.2.prog.queues.getD q 0)
      | none => false)),
    (6, 1, b2n (match here with
      | some h => h.2.isDue x && (match h.2.waitsOn x with
        | some w => decide (w.2.1 = q)
        | none => false)
      | none => false)),
    (7, 1, b2n (match (List.range 16).find? (fun i => ((x.queue q).entry ((x.queue q).mid + i)).st = .present) with
      | some i => ((x.queue q).entry ((x.queue q).mid + i)).poison != 0
      | none => false))]

/-- A tower's registers (03). -/
def Core.readTower (c : Core) (t r : Nat) : Nat :=
  let x := c.tower t
  match r with
  | 0x00 => packed [(0, 1, c.lockBit (twrBase t))]
  | 0x08 => packed [(0, 3, x.stateCode), (16, 16, if x.seg.isSome then x.ctx else 0xFFFF)]
  | 0x10 => x.sched % 2 ^ 40
  | 0x18 => x.lag % 2 ^ 40
  | 0x20 => packed [(0, 16, x.fault.code), (16, 3, x.fault.slot), (19, 5, x.fault.item), (32, 32, x.fault.bundle)]
  | 0x28 => x.fault.beat % 2 ^ 40
  | 0x38 => packed ((List.range 8).map (fun q => (8 * q, 8, c.queueByte t q)))
  | 0x40 => packed ((List.range 8).map (fun q => (8 * q, 8, c.queueByte t (q + 8))))
  | 0x48 => packed ((List.range 8).map (fun g =>
      (4 * g, 4, let h := x.holds.getD g ⟨0, 0, 0⟩
        if h.until_ > c.clk.total then h.owner else 0)))
  | 0x50 => packed [(0, 1, b2n x.testDone), (1, 1, b2n x.testPass), (2, 1, b2n x.fenced), (8, 8, x.testUnit)]
  | _ => 0

/-- The register at an 8-byte aligned BAR0 offset (R12 to R14): a counter, a register whose fields are stored, or one of a
block's own; an offset that no register occupies reads zero. -/
def readBar0 (tr : Trim) (c : Core) (e : Evr) (off : Nat) : Nat :=
  let b := blockAt off
  let r := off - b.2.1
  if isCounter off then (c.ctr.get .zero off).word
  else
    let own := (match b.1 with
      | 0xA => c.readGate r
      | 6 => c.readPort tr b.2.2 r
      | 3 => c.readBelfry r
      | 5 => c.readKeep r
      | 8 => c.readPrc tr r
      | 9 => readEvr c e r
      | 4 => c.readMem b.2.2 r
      | 7 =>
        if off < 0x124_0000 then c.readLink b.2.2 r
        else if off = 0x124_0000 then c.lockBit 0x124_0000
        else if off = 0x124_0008 then tr.moduleId % 2 ^ 64
        else if off = 0x124_0010 then packed [(0, 15, c.xfers.length)]
        else 0
      | 1 => c.readTower b.2.2 r
      | _ => 0)
    match regRow off with
    | some row => own ||| (c.reg off &&& (row.rw ||| row.rwl))
    | none => own

/-- A queue pair's registers (R338); the doorbells read zero. -/
def Pair.read (p : Pair) (r : Nat) : Nat :=
  match r with
  | 0x00 => p.sqBase
  | 0x08 => p.cqBase
  | 0x10 => p.cfg
  | 0x18 => packed [(0, 2, p.st.code), (16, 12, p.sqHead), (32, 12, p.cqTail), (44, 1, b2n p.phase), (48, 16, p.error)]
  | _ => 0

/-- The register at an 8-byte aligned BAR2 offset of a function (R335). -/
def Core.readBar2 (c : Core) (f : FnId) (off : Nat) : Nat :=
  let x := c.fn f
  if off < 0x1000 then (c.pair f (off / 0x40)).read (off % 0x40)
  else if off = 0x1000 then packed [(0, 1, b2n x.enable), (1, 3, x.tdi.code), (8, 7, x.vectors)]
  else if 0x2_0000 ≤ off ∧ off < 0x2_0400 ∧ (off - 0x2_0000) / 16 < x.vectors then
    let m := x.msix.get .reset ((off - 0x2_0000) / 16)
    if off % 16 = 0 then m.addr else packed [(0, 32, m.data), (32, 1, b2n m.mask)]
  else if off = 0x2_1000 then packed ((List.range 64).map (fun k => (k, 1, b2n (x.msix.get .reset k).pend)))
  else 0

/-- The bytes of a register word that a read of `size` bytes at `off` returns (R13). -/
def readPart (off size w : Nat) : Nat := if size = 8 then w else bits w (32 * (off / 4 % 2)) 32

/-- What a host read returns (R13, R14, R335, R337, R350, R456): none where it completes with Unsupported Request.  BAR0 is served to
the administration PF, and to the other PF for its own port's window only. -/
def State.readReg (s : State) (f : HostReq) (bar off size : Nat) : Option Nat :=
  let c := s.core
  let base := off / 8 * 8
  if bar = 2 then
    (if (c.fn f.fn).tdi = .error ∨ (c.bar2 f.fn ∧ !c.ownStream f.fn f.via) then none
     else if !c.bar2 f.fn ∨ !accessOk off size then some 0
     else some (readPart off size (c.readBar2 f.fn base)))
  else if bar = 0 ∧ f.fn.fn = 0 ∧ accessOk off size
      ∧ (f.fn = s.trim.admin ∨ (hstBase f.fn.port ≤ off ∧ off < hstBase f.fn.port + 0x1_0000)) then
    some (readPart off size (readBar0 s.trim c s.evr base))
  else some 0

end Sys2Proof.Machine
end

