-- ==== Sys2Proof/WellFormed.lean ====
section
/-! DEFINITION. Well-formed commands: every operand names something the module has.  A command that is not well formed still has
a meaning (most often none of its effect); these checks say which commands the spec's agents can send. -/

namespace Sys2Proof

/-- A function that exists (R333, R334). -/
def FnId.wf (f : FnId) : Bool := decide (f.port < 2 ∧ f.fn < 64)

/-- A stream ID has 8 bits. -/
def IdeStream.wf : IdeStream → Bool
  | .link i | .selective i => decide (i < 256)

/-- A request of a function that exists, on a stream that can. -/
def HostReq.wf (r : HostReq) : Bool := r.fn.wf && (match r.via with
  | none => true
  | some i => decide (i < 256))

/-- A write of one register that reaches it (R13): both halves, or one. -/
def RegWrite.wf (w : RegWrite) : Bool :=
  (w.off = 0 && w.size = 8 || (w.off = 0 || w.off = 4) && w.size = 4) && decide (w.value < 2 ^ (8 * w.size))

/-- A transport that exists. -/
def Via.wf : Via → Bool
  | .doe f => f.wf
  | .mctp => true
  | .relay => true

/-- A register access: BAR 0 or 2, 1 to 8 bytes, a value of that many bytes (R13). -/
def accessWf (f : HostReq) (bar size v : Nat) : Bool :=
  f.wf && (bar = 0 || bar = 2) && decide (1 ≤ size ∧ size ≤ 8 ∧ v < 2 ^ (8 * size))

/-- A frame whose fields fit R360. -/
def Frame.wf (fr : Frame) : Bool :=
  decide (fr.type < 64 ∧ fr.route < 4096 ∧ fr.ret < 4096 ∧ fr.hops < 2 ^ 16 ∧ fr.seq < 2 ^ 16 ∧ fr.ack < 2 ^ 16 ∧ fr.transfer < 2 ^ 24
    ∧ fr.index < 2 ^ 24 ∧ fr.payload.length ≤ 256)

/-- A host command: 64 bytes, from a pair that exists (R338, R344). -/
def HostCmd.wf (c : HostCmd) : Bool := c.f.wf && decide (c.q < 64 ∧ c.entry.length = 64)

/-- A unit of the retirement broadcast that exists. -/
def RetireUnit.wf : RetireUnit → Bool
  | .gatehouse => true
  | .belfry => true
  | .host => true
  | .memory c => decide (c < 16)
  | .link k => decide (k < 36)

/-- A session operation. -/
def SessOp.wf (o : SessOp) : Bool := o.via.wf

/-- Numbers of towers, queues, contexts, links, controllers, channels, descriptors, key slots, regions, ports. -/
def towerNo (t : Nat) : Bool := decide (t < 64)
def queueNo (q : Nat) : Bool := decide (q < 16)
def ctxNo (x : Nat) : Bool := decide (x < 256)
def linkIx (k : Nat) : Bool := decide (k < 36)
def chanNo (ch : Nat) : Bool := decide (ch < 128)
def descNo (i : Nat) : Bool := decide (i < 16384)
def slotNo (k : Nat) : Bool := decide (k < 4160)
def regionNo (r : Nat) : Bool := decide (r < 16)
def portNo (p : Nat) : Bool := decide (p < 2)
def pairNo (q : Nat) : Bool := decide (q < 64)


/-- Every operand names something that exists. -/
def Instr.wf : Instr → Bool
  | .registerWrite f bar _ size v => accessWf f bar size v
  | .unsupportedBarAccess f bar _ size _ => f.wf && (bar = 0 || bar = 2) && decide (1 ≤ size)
  | .lock f _ => f.wf
  | .cntClear f _ => f.wf
  | .counterSaturated _ _ => true
  | .coreHalt core => decide (core < 4)
  | .parkDeadlineExpired => true
  | .cadencePulse src _ => decide (src < 3)
  | .syntheticPulse => true
  | .sourceLost => true
  | .beatCounterWrap => true
  | .cpWrap => true
  | .calendarWrap => true
  | .factorChange => true
  | .factorStepDown => true
  | .blfRunSet f => f.wf
  | .blfRunClear f => f.wf
  | .segAdmitSet f => f.wf
  | .segAdmitClear f => f.wf
  | .blfCpRead f => f.wf
  | .segmentAdmission => true
  | .imagePlacement => true
  | .segmentRelease => true
  | .dropLateExpiry => true
  | .segmentEnd => true
  | .release ctx => ctxNo ctx
  | .waitRel ctx => ctxNo ctx
  | .waitPulse ctx => ctxNo ctx
  | .forecast ctx => ctxNo ctx
  | .ballast ctx => ctxNo ctx
  | .releaseLoop ctx => ctxNo ctx
  | .setAnchor ctx => ctxNo ctx
  | .releaseEnd ctx => ctxNo ctx
  | .nop t => towerNo t
  | .loop t => towerNo t
  | .barrier t => towerNo t
  | .endSeg t => towerNo t
  | .aregSet t => towerNo t
  | .aregAdd t => towerNo t
  | .aregStep t => towerNo t
  | .load t => towerNo t
  | .pass t => towerNo t
  | .forward t => towerNo t
  | .sample t => towerNo t
  | .merge t => towerNo t
  | .deltaRowCheck t => towerNo t
  | .drain t => towerNo t
  | .stream t => towerNo t
  | .reduce t => towerNo t
  | .rule t => towerNo t
  | .zero t => towerNo t
  | .save t => towerNo t
  | .restore t => towerNo t
  | .copy t => towerNo t
  | .pop t => towerNo t
  | .retire t => towerNo t
  | .openOut t => towerNo t
  | .push t => towerNo t
  | .inboundIssue t => towerNo t
  | .outboundIssue t => towerNo t
  | .entryPresent t q _ _ => towerNo t && queueNo q
  | .writeAccepted t q => towerNo t && queueNo q
  | .stallLimitExceeded t => towerNo t
  | .swapOut t => towerNo t
  | .selfTestDone t _ => towerNo t
  | .stepSettle => true
  | .tier2FetchDone idx _ => descNo idx
  | .tier2FetchFailed idx _ => descNo idx
  | .tagListReceived idx _ _ => descNo idx
  | .eviction => true
  | .writebackDone idx => descNo idx
  | .tier0Copy idx bank _ => descNo idx && decide (bank < 2)
  | .tier0Reclaim => true
  | .memLineRead entry _ line slot _ _ => decide (entry < 16643) && decide (line < 64) && slotNo slot
  | .memLineWrite entry _ line slot _ _ => decide (entry < 16643) && decide (line < 64) && slotNo slot
  | .checkByteRetry _ => true
  | .scrub ch _ _ => chanNo ch
  | .refresh ch => chanNo ch
  | .refreshForced ch bank => chanNo ch && decide (bank < 16)
  | .pkgTempChange c _ => decide (c < 16)
  | .memoryInitDone c trainFail => decide (c < 16) && decide (trainFail < 256)
  | .slotEnableSet f => f.wf
  | .slotEnableClear f => f.wf
  | .slotRetire f => f.wf
  | .retireBroadcast slot u => slotNo slot && u.wf
  | .zeroization slot => slotNo slot
  | .drainTimeout slot => slotNo slot
  | .slotFreed slot => slotNo slot
  | .keyInstall o => o.wf
  | .keyRetire o => o.wf
  | .sealSet o => o.wf
  | .sealGet o => o.wf
  | .allowHash o => o.wf
  | .status o => o.wf
  | .extract o => o.wf
  | .baseKeyInstall o => o.wf
  | .getVersion via => via.wf
  | .getCapabilities via => via.wf
  | .negotiateAlgorithms via _ => via.wf
  | .getDigests via => via.wf
  | .getCertificate via slot => via.wf && decide (slot < 8)
  | .challenge via slot _ _ => via.wf && decide (slot < 8)
  | .getMeasurements via _ slot _ _ => via.wf && decide (slot < 8)
  | .keyExchange via slot _ => via.wf && decide (slot < 8)
  | .finish via _ _ => via.wf
  | .endSession via _ => via.wf
  | .heartbeat via _ => via.wf
  | .keyUpdate via _ => via.wf
  | .getCsr via _ slot => via.wf && decide (slot < 8)
  | .setCertificate via _ slot _ => via.wf && decide (slot < 8)
  | .unsupportedSpdmRequest via _ => via.wf
  | .sessionTimeout _ => true
  | .qEnableSet f q => f.wf && pairNo q
  | .qEnableClear f q => f.wf && pairNo q
  | .hstSqTail f q index => f.wf && pairNo q && decide (index < 4096)
  | .hstCqHead f q index => f.wf && pairNo q && decide (index < 4096)
  | .coalesceTimer f q => f.wf && pairNo q
  | .msixUnmask f vec => f.wf && decide (vec < 64)
  | .submitSegment c => c.wf
  | .imageHash c => c.wf
  | .imageHashClear c => c.wf
  | .contextCreate c => c.wf
  | .contextWrite c => c.wf
  | .contextEnable c => c.wf
  | .contextDisable c => c.wf
  | .contextDelete c => c.wf
  | .contextRead c => c.wf
  | .loadChain c => c.wf
  | .loadRules c => c.wf
  | .loadGroups c => c.wf
  | .loadSchedule c => c.wf
  | .advanceStep c => c.wf
  | .loadRelease c => c.wf
  | .adaptRegister c => c.wf
  | .adaptRead c => c.wf
  | .adaptRemove c => c.wf
  | .adaptPrefetch c => c.wf
  | .adaptWriteback c => c.wf
  | .adaptRewrap c => c.wf
  | .baseLoad c => c.wf
  | .baseLoadDone slot _ => decide (slot < 2)
  | .baseFree c => c.wf
  | .functionLevelReset f => f.wf
  | .flrComplete f => f.wf
  | .getTdispVersion f => f.wf
  | .getTdispCapabilities f => f.wf
  | .lockInterface f => f.wf
  | .getDeviceInterfaceReport f => f.wf
  | .getDeviceInterfaceState f => f.wf
  | .startInterface f => f.wf
  | .stopInterface f => f.wf
  | .ideKm f i _ _ => f.wf && decide (i < 256)
  | .ideIntegrityFailure port i => portNo port && i.wf
  | .configWriteLocked f => f.wf
  | .pcieLinkTrained port rate width => portNo port && decide (1 ≤ rate ∧ rate ≤ 5) && decide (1 ≤ width ∧ width ≤ 16)
  | .hstVfEnableSet f port => f.wf && portNo port
  | .hstVfEnableClear f port => f.wf && portNo port
  | .vfEnableChange port numVfs => portNo port && decide (numVfs < 64)
  | .perst port => portNo port
  | .lnkEnableSet f k => f.wf && linkIx k
  | .lnkEnableClear f k => f.wf && linkIx k
  | .linkTrained k lanes => linkIx k && decide (lanes ≤ 2)
  | .linkKeyed k _ _ _ => linkIx k
  | .linkBringupTimeout k => linkIx k
  | .linkDown k => linkIx k
  | .linkCtl k fr => linkIx k && fr.wf
  | .ackTimer k => linkIx k
  | .fetchReq k fr => linkIx k && fr.wf
  | .fetchData k fr => linkIx k && fr.wf
  | .fetchEnd k fr => linkIx k && fr.wf
  | .writeData k fr => linkIx k && fr.wf
  | .cadence k fr => linkIx k && fr.wf
  | .cadenceSend k _ => linkIx k
  | .delayMeasure k => linkIx k
  | .delayReq k fr => linkIx k && fr.wf
  | .delayResp k fr => linkIx k && fr.wf
  | .attest k fr => linkIx k && fr.wf
  | .retireMarker k fr => linkIx k && fr.wf
  | .retireAck k fr => linkIx k && fr.wf
  | .spdmFrame k fr => linkIx k && fr.wf
  | .rekeyThreshold k => linkIx k
  | .frameCounterLimit k => linkIx k
  | .transferDeadline => true
  | .stage f _ => f.wf
  | .stagingDone _ => true
  | .activate f => f.wf
  | .activationDone _ => true
  | .commitSvn f => f.wf
  | .discard f => f.wf
  | .kepLogSel f entry => f.wf && decide (entry < 4096)
  | .bootStage n => decide (1 ≤ n ∧ n ≤ 4)
  | .powerUp => true
  | .inputBandChange _ => true
  | .overVoltage _ => true
  | .holdoverEntry _ => true
  | .holdoverExit _ => true
  | .orderlyStop cause => decide (cause < 3)
  | .orderlyStopYieldEnd => true
  | .pfSafe => true
  | .resume f => f.wf
  | .rippleMeasure _ _ => true
  | .prcEnvelopeApply f => f.wf
  | .envelopeInForce => true
  | .forecastSnap f => f.wf
  | .overdraw _ => true
  | .overdrawClear => true
  | .droop r _ => regionNo r
  | .droopClear r _ => regionNo r
  | .thermalSample r _ => regionNo r
  | .neighbourLimit a b _ _ => regionNo a && regionNo b
  | .neighbourClear => true
  | .regionFence r cause _ => regionNo r && decide (1 ≤ cause ∧ cause ≤ 3)
  | .thermalTrip _ _ => true
  | .pwrgdInDeasserted => true
  | .recordWrite => true
  | .tokenAdd _ => true
  | .evrClear f => f.wf
  | .evrTime f v => f.wf && v.wf
  | .evrEnableSet f => f.wf
  | .evrEnableClear f => f.wf
  | .failClear f => f.wf
  | .warm f => f.wf
  | .regionReset f => f.wf
  | .regionResetDone _ => true
  | .cold f => f.wf

/-- The function a command comes from; none for what the module, its links or the world outside bring about, and for SPDM
over SMBus or a relay. -/
def Via.sender : Via → Option FnId
  | .doe f => some f
  | .mctp => none
  | .relay => none

/-- The function that sends a command. -/
def Instr.sender : Instr → Option FnId
  | .registerWrite ⟨f, _⟩ _ _ _ _ | .unsupportedBarAccess ⟨f, _⟩ _ _ _ _ | .lock f _ | .cntClear f _ | .blfRunSet f
  | .blfRunClear f | .segAdmitSet f | .segAdmitClear f | .blfCpRead f | .slotEnableSet f | .slotEnableClear f
  | .slotRetire f | .qEnableSet ⟨f, _⟩ _ | .qEnableClear ⟨f, _⟩ _ | .hstSqTail ⟨f, _⟩ _ _ | .hstCqHead ⟨f, _⟩ _ _ | .coalesceTimer f _
  | .msixUnmask ⟨f, _⟩ _ | .functionLevelReset f | .flrComplete f | .getTdispVersion f | .getTdispCapabilities f
  | .lockInterface f | .getDeviceInterfaceReport f | .getDeviceInterfaceState f | .startInterface f
  | .stopInterface f | .ideKm f _ _ _ | .configWriteLocked f | .hstVfEnableSet f _ | .hstVfEnableClear f _
  | .lnkEnableSet f _ | .lnkEnableClear f _ | .stage f _ | .activate f | .commitSvn f | .discard f | .kepLogSel f _
  | .resume f | .prcEnvelopeApply f | .forecastSnap f | .evrClear f | .evrTime f _ | .evrEnableSet f
  | .evrEnableClear f | .failClear f | .warm f | .regionReset f | .cold f => some f
  | .submitSegment c | .imageHash c | .imageHashClear c | .contextCreate c | .contextWrite c | .contextEnable c
  | .contextDisable c | .contextDelete c | .contextRead c | .loadChain c | .loadRules c | .loadGroups c
  | .loadSchedule c | .advanceStep c | .loadRelease c | .adaptRegister c | .adaptRead c | .adaptRemove c
  | .adaptPrefetch c | .adaptWriteback c | .adaptRewrap c | .baseLoad c | .baseFree c => some c.f
  | .getVersion via | .getCapabilities via | .negotiateAlgorithms via _ | .getDigests via | .getCertificate via _
  | .challenge via _ _ _ | .getMeasurements via _ _ _ _ | .keyExchange via _ _ | .finish via _ _ | .endSession via _
  | .heartbeat via _ | .keyUpdate via _ | .getCsr via _ _ | .setCertificate via _ _ _ | .unsupportedSpdmRequest via _ => via.sender
  | .keyInstall o | .keyRetire o | .sealSet o | .sealGet o | .allowHash o | .status o | .extract o
  | .baseKeyInstall o => o.via.sender
  | _ => none

/-- The commands that only the administration PF may send (R12, R334). -/
def Instr.adminOnly : Instr → Bool
  | .registerWrite _ bar _ _ _ => bar = 0
  | .lock _ _ | .cntClear _ _ | .blfRunSet _ | .blfRunClear _ | .segAdmitSet _ | .segAdmitClear _ | .blfCpRead _
  | .slotEnableSet _ | .slotEnableClear _ | .slotRetire _ | .hstVfEnableSet _ _ | .hstVfEnableClear _ _
  | .lnkEnableSet _ _ | .lnkEnableClear _ _ | .stage _ _ | .activate _ | .commitSvn _ | .discard _ | .kepLogSel _ _
  | .resume _ | .prcEnvelopeApply _ | .forecastSnap _ | .evrClear _ | .evrTime _ _ | .evrEnableSet _
  | .evrEnableClear _ | .failClear _ | .warm _ | .regionReset _ | .cold _ => true
  | _ => false

end Sys2Proof
end

