-- ==== Sys2Proof/Safety.lean ====
section
/-! DEFINITION. The terms in which statements speak of a safe run: what a command delivers, the canonical form of external
memory, the bounds of the event recorder, and which commands may change which part of the state. -/

namespace Sys2Proof.Machine

/-- The state after a meaning that leaves the die at `c`: what `c` sends to the recorder is delivered in this beat (R443). -/
def State.after (s : State) (c : Core) : State := { s with core := c }.deliver s.core.stamp

/-- The same, for a meaning that leaves external memory at `d`. -/
def State.afterM (s : State) (c : Core) (d : Dram) : State := { s with core := c, dram := d }.deliver s.core.stamp

/-- The same, for a meaning that leaves the recorder at `e`. -/
def State.afterE (s : State) (c : Core) (e : Evr) : State := { s with core := c, evr := e }.deliver s.core.stamp

/-- Between commands nothing waits to be delivered. -/
def State.quiet (s : State) : Prop := s.core.outbox = []

/-- The recorder holds at most 65,536 records and queues at most 1,024 events, and EVR_FULL stands exactly when the last record
is taken (R445, R446). -/
def Evr.ok (e : Evr) : Prop :=
  e.records.length ≤ 65536 ∧ e.queue.length ≤ 1024 ∧ (e.full = true ↔ e.records.length = 65536)

/-- The keys of a sparse map rise. -/
def SMap.rising {α : Type} : SMap α → Bool
  | [] => true
  | (i, _) :: m => m.all (fun e => decide (i < e.1)) && SMap.rising m

/-- External memory is in its canonical form: every store lists rising addresses, and no line, version or tag that
an unlisted address has. -/
def Dram.wf (d : Dram) : Bool := SMap.wf 0 d.lines && SMap.wf 0 d.versions && SMap.wf 0 d.tags && d.digests.rising

/-- The completion of a command taken on `r` is written now: its pair has not been stopped, disabled or reset since, its core runs,
no activation window of the Gatehouse holds completions back, and its function is not in ERROR (R24, R340, R350, R407). -/
def Core.answers (c : Core) (r : Req) : Prop :=
  (c.pair r.f r.q).epoch = r.epoch ∧ c.gate.halted.getD r.f.port false = false ∧ c.gateWindow = false ∧
    (c.fn r.f).tdi ≠ .error

/-- The completion entry of `r` with a status is written at the tail of its pair's completion queue (R342, R347). -/
def State.completes (s t : State) (r : Req) (status : Nat) : Prop :=
  ∃ before after result,
    let p := s.core.pair r.f r.q
    t.core.out.dma = s.core.out.dma ++ before ++
      [⟨r.f, p.cqBase + 16 * p.cqTail, completionBytes p r.q ⟨r, status, result, []⟩⟩] ++ after

/-- The release program of context `x` stands before an operation of opcode `op`, and nothing holds it (R60). -/
def Core.standsAt (c : Core) (x op : Nat) (v : Ctx) (r : ProgRun) : Prop :=
  c.ctx? x = some v ∧ v.running = some r ∧ v.enable = true ∧ r.waitEnd = none ∧ pOp (v.prog.getD r.idx 0) = op

/-- Tower `k` may issue its next bundle now (R69, R70, R77, R78): it runs segment `s`, which no fault has stopped, no change of
factor holds it, its bundle is due, waits for nothing and fails no check; `y` is the tower once the queue sub-ops have acted, with the
registers they load. -/
def Core.mayIssue (c : Core) (k : Nat) (s : Seg) (e : TEnv) (y : Tower) (loads : List (Nat × Nat)) : Prop :=
  c.env k = some (s, e) ∧ s.out.fault = 0 ∧ c.blf.hold = 0 ∧ e.isDue (c.tower k) = true ∧ e.waits (c.tower k) = false ∧
    issueFault e (e.bundle (c.tower k)) (c.tower k) = none ∧
    ∃ poison, queueOps e (e.bundle (c.tower k)) (c.tower k) = .ok y loads poison

/-- Command `i` is that of an operation of tower `k`, and bundle `b` carries the operation. -/
def carries (b k : Nat) (i : Instr) : Prop :=
  (i = .nop k ∧ bEmpty b = true) ∨ (i = .loop k ∧ bCtl b = 1) ∨ (i = .barrier k ∧ bCtl b = 2) ∨ (i = .endSeg k ∧ bCtl b = 3) ∨
  (i = .aregSet k ∧ bCtl b = 4) ∨ (i = .aregAdd k ∧ bCtl b = 5) ∨ (i = .aregStep k ∧ bCtl b = 6) ∨ (i = .load k ∧ bMop b = 1) ∨
  (i = .pass k ∧ bMop b = 2) ∨ (i = .forward k ∧ bDop b = 1) ∨ (i = .sample k ∧ bDop b = 2) ∨ (i = .merge k ∧ bDop b = 3) ∨
  (i = .drain k ∧ bVop b = 1) ∨ (i = .stream k ∧ bVop b = 2) ∨ (i = .reduce k ∧ bVop b = 3) ∨ (i = .rule k ∧ bVop b = 4) ∨
  (i = .zero k ∧ bAop b = 1) ∨ (i = .save k ∧ bAop b = 2) ∨ (i = .restore k ∧ bAop b = 3) ∨ (i = .copy k ∧ bAop b = 4) ∨
  (i = .pop k ∧ bHasQ 1 b = true) ∨ (i = .retire k ∧ bHasQ 2 b = true) ∨ (i = .openOut k ∧ bHasQ 3 b = true) ∨
  (i = .push k ∧ bHasQ 4 b = true)

/-- A bundle of word `b` was issued by tower `x`, which is now `u`: the position moves on as R69 and R71 say. -/
def Tower.advanced (x u : Tower) (b : Nat) : Prop :=
  u.last = some x.sched ∧ (u.pc, u.loops) = loopNext x.pc (loopPush b x.pc x.loops) ∧ u.ops = x.ops + 1 ∧ u.seg = x.seg ∧
    u.sched = x.sched ∧ u.st = x.st

/-- Session operation `o` comes in the open session `x` of its transport, outside an activation window, with the header of
operation `op` and a body of `len` bytes (R308). -/
def Core.inSessionOp (c : Core) (o : SessOp) (x : Session) (op len : Nat) : Prop :=
  c.session? o.session = some x ∧ c.keep.open_ = true ∧ x.open_ = true ∧ x.via = o.via ∧ c.viaUp o.via = true ∧ c.busy = false ∧
    o.payload.length = 8 + len ∧ fieldLE o.payload 0 1 = op ∧ fieldLE o.payload 1 1 = 0 ∧ fieldLE o.payload 4 4 = len

/-- The responder answers request `code` of transport `via` (R391, R402, R409). -/
def Core.responds (c : Core) (via : Via) (code : Nat) : Prop :=
  c.keep.open_ = true ∧ c.viaUp via = true ∧ c.busy = false ∧ (c.keep.basic = false ∨ basicReq code = true) ∧ via ≠ .relay

/-- The state after the response alone: code, error code and body go out by `via`. -/
def State.answered (s : State) (via : Via) (code error : Nat) (body : List Byte) : State :=
  s.after { s.core with keep := { s.core.keep with out := s.core.keep.out ++ [⟨via, code, error, body⟩] } }

/-- A core takes entry `x` now, its opcode is that of form `k`, it is well formed, none of the key slots it concerns is leaving,
the cores whose duty it is run, and its data can be read (R21, R24, R339, R346 checks 1, 3 and 7). -/
def Core.passes (c : Core) (x : HostCmd) (k : Form) (slots : List Nat) : Prop :=
  c.takes x.f x.q = true ∧ hOp x.entry = k.op ∧ malformed x.entry k = false ∧ slots.any c.leaving = false ∧
    (opCores k.op).all c.coreUp = true ∧ (k.reads = true → hBytes x.entry ≠ 0 → x.data.isSome = true)

/-- The die once entry `x` is taken and its data read. -/
def Core.entered (c : Core) (x : HostCmd) (k : Form) : Core :=
  if k.reads = true ∧ hBytes x.entry ≠ 0 then (c.take x).1.bump (hstBase x.f.port + 0x80) (hBytes x.entry) else (c.take x).1

/-- The data of command `x`, as many bytes as its entry asks for. -/
def hData (x : HostCmd) : List Byte := pad (hBytes x.entry) (x.data.getD [])

/-- Command `x` of form `k` comes from the OWNER of its context `v`, enabled for a segment (R346 checks 4 and 5). -/
def Core.onCtx (c : Core) (x : HostCmd) (k : Form) (v : Ctx) : Prop :=
  c.ctx? (hCtx x.entry) = some v ∧ c.passes x k [v.keySlot] ∧ v.owner = x.f ∧ (k.op = 1 → v.enable = true)

/-- A context once a Dome read of its area found what `d` says (R463). -/
def Ctx.readBy (v : Ctx) (d : Check) : Ctx := if d = .uncorrectable then { v with poisoned := true } else v

/-- Command `x` of form `k` comes from the owner of adaptation `i`, which its entry names (R346 check 4). -/
def Core.onDesc (c : Core) (x : HostCmd) (k : Form) (i : Nat) : Prop :=
  hIndex x.entry = i ∧ c.passes x k (c.descSlots i) ∧ c.ownsDesc x.f i = true

/-- Link `k` is UP and can send a frame of any type at once: nothing is queued before it (R363). -/
def Core.clear (c : Core) (k : Nat) : Prop :=
  (c.link k).canSend = true ∧ (c.link k).queue = [] ∧ c.prc.state ≠ .holdover

/-- Since `c` link `k` has sent a frame of a type with a payload, under the next SEQ (R361, R362). -/
def Core.sentOn (c t : Core) (k type : Nat) (payload : List Byte) : Prop :=
  ∃ (x : Sent) (more : List Sent), (t.link k).replay = (c.link k).replay ++ x :: more ∧ x.fr.type = type ∧
    x.fr.payload = payload ∧ x.fr.seq = (c.link k).seqTx % 2 ^ 16 ∧ x.fr.epoch = (c.link k).epoch

/-- Link `k` accepts frame `fr` of a type: it is UP, the tag verifies, and the SEQ is the next (R362, R363). -/
def Core.hears (c : Core) (k type : Nat) (fr : Frame) : Prop :=
  (c.link k).st = .up ∧ fr.type = type ∧ fr.tagOk = true ∧ fr.seq = (c.link k).seqRx

/-- The die once link `k` has accepted frame `fr`: the counts, the next SEQ, and the ACK's effect on its replay buffer. -/
def Core.heard (c : Core) (k : Nat) (fr : Frame) : Core :=
  let l := c.link k
  let l' : LinkS := { l with
    rxCount := if fr.epoch != l.rxEpoch then 1 else l.rxCount + 1, rxEpoch := fr.epoch, seqRx := (l.seqRx + 1) % 2 ^ 16, nak := false
    ackAt := if l.unacked = 0 then c.clk.nominal else l.ackAt }
  (c.setLink k (l'.takeAck fr.ack)).bump (lnkBase k + 0x108) 1

/-- Link `k` has nothing to add once the frame has acted: nothing queued, and no acknowledgement due (R362). -/
def Core.settled (c : Core) (k : Nat) : Prop := (c.link k).queue = [] ∧ (c.link k).unacked < 128

/-- Recorder `e'` differs from `e` at most in what events bring: records, queue, counts and buckets. -/
def Evr.sameSetup (e e' : Evr) : Prop :=
  e' = { e with records := e'.records, full := e'.full, queue := e'.queue, lost := e'.lost, filtered := e'.filtered
                buckets := e'.buckets }

/-- The LOCK bit's place in the CTL register at `off` (the register headers). -/
def lockPlace (off : Nat) : Nat :=
  if off = 0x10_0000 then 2 else if off = 0x40_0000 ∨ (lnkBase 0 ≤ off ∧ off < lnkBase 36) then 1 else 0

/-- The form every state keeps: the banks have their sizes, and the maps of registers, counters, functions, contexts, descriptors, key
slots, sessions and rate buckets list rising keys. -/
def State.formed (s : State) : Prop :=
  s.core.ports.length = 2 ∧ s.core.links.length = 36 ∧ s.core.towers.length = 64 ∧ s.core.gate.bases.length = 2 ∧
    s.core.mem.ctls.length = 16 ∧ s.core.prc.regions.length = 16 ∧ s.core.keep.fws.length = 4 ∧
    s.core.regs.rising = true ∧ s.core.ctr.rising = true ∧ (∀ p ∈ s.core.ports, p.fns.rising = true) ∧ s.core.ctxs.rising = true ∧
    s.core.dir.rising = true ∧ s.core.keep.slots.rising = true ∧ s.core.keep.sessions.rising = true ∧ s.evr.buckets.rising = true

/-- The effects of commands in order. -/
def State.runs (s : State) (cs : List Instr) : State :=
  cs.foldl (fun (s : State) c => match exec c s with
    | .next t => t
    | .fault _ => s
    | .refused _ => s) s

/-- The invariant of a run. -/
def State.safe (s : State) : Prop := s.quiet ∧ s.evr.ok ∧ s.dram.wf = true

/-! Which commands may change which part of the state. -/

end Sys2Proof.Machine

namespace Sys2Proof

open Machine

/-- The form of a host command (R345, R346 check 1).  IMAGE_HASH and CONTEXT_ENABLE are two commands each, told apart by CLEAR
and by ENABLE. -/
def Instr.hostForm : Instr → Option (HostCmd × Form)
  | .submitSegment x => some (x, ⟨1, 3, true, true, fun n => decide (1 ≤ n ∧ n ≤ 2 ^ 25), 0, true⟩)
  | .imageHash x =>
    if bit (hFlags x.entry) 0 then none
    else some (x, ⟨2, 0, true, true, fun n => n = 48, argBits 0x20 2, decide (hArg x.entry 0x20 2 < 64)⟩)
  | .imageHashClear x =>
    if bit (hFlags x.entry) 0 then some (x, ⟨2, 1, true, false, fun n => n = 0, argBits 0x20 2, decide (hArg x.entry 0x20 2 < 64)⟩)
    else none
  | .contextCreate x => some (x, ⟨0x10, 0, true, true, fun n => n = 128, 0, true⟩)
  | .contextWrite x => some (x, ⟨0x11, 0, true, true, fun n => n = 128, 0, true⟩)
  | .contextEnable x => if bit (hArg x.entry 0x20 1) 0 then some (x, ⟨0x12, 0, true, false, fun n => n = 0, 1, true⟩) else none
  | .contextDisable x => if bit (hArg x.entry 0x20 1) 0 then none else some (x, ⟨0x12, 0, true, false, fun n => n = 0, 1, true⟩)
  | .contextDelete x => some (x, ⟨0x13, 0, true, false, fun n => n = 0, 0, true⟩)
  | .contextRead x => some (x, ⟨0x14, 0, true, false, fun n => n = 256, 0, true⟩)
  | .loadChain x => some (x, ⟨0x15, 0, true, true, fun n => n = 1024, 0, true⟩)
  | .loadRules x => some (x, ⟨0x16, 0, true, true, fun n => n = 4096, 0, true⟩)
  | .loadGroups x =>
    some (x, ⟨0x17, 0, true, true, fun n => n = 32 * hArg x.entry 0x20 2, argBits 0x20 2,
      decide (1 ≤ hArg x.entry 0x20 2 ∧ hArg x.entry 0x20 2 ≤ 256)⟩)
  | .loadSchedule x => some (x, ⟨0x18, 0, true, true, fun n => decide (1 ≤ n ∧ n ≤ 65536), argBits 0x20 2, true⟩)
  | .advanceStep x => some (x, ⟨0x19, 0, true, false, fun n => n = 0, 0, true⟩)
  | .loadRelease x =>
    some (x, ⟨0x1A, 0, true, true, fun n => n = 8 * hArg x.entry 0x20 2, argBits 0x20 2,
      decide (1 ≤ hArg x.entry 0x20 2 ∧ hArg x.entry 0x20 2 ≤ 64)⟩)
  | .adaptRegister x => some (x, ⟨0x20, 1, false, true, fun n => n = 8192, argBits 0x20 2 + argBits 0x28 24, true⟩)
  | .adaptRead x => some (x, ⟨0x21, 0, false, false, fun n => n = 128, argBits 0x20 2, true⟩)
  | .adaptRemove x => some (x, ⟨0x22, 0, false, false, fun n => n = 0, argBits 0x20 2, true⟩)
  | .adaptPrefetch x => some (x, ⟨0x23, 0, false, false, fun n => n = 0, argBits 0x20 2 + 2 ^ 16, true⟩)
  | .adaptWriteback x => some (x, ⟨0x24, 0, false, false, fun n => n = 0, argBits 0x20 2, true⟩)
  | .adaptRewrap x => some (x, ⟨0x25, 0, false, false, fun n => n = 0, argBits 0x20 4, true⟩)
  | .baseLoad x =>
    some (x, ⟨0x30, 0, false, false, fun n => n = 0, argBits 0x20 2 + argBits 0x28 16 + (2 ^ 12 - 1) * 2 ^ 192 + 2 ^ 207, true⟩)
  | .baseFree x => some (x, ⟨0x31, 0, false, false, fun n => n = 0, argBits 0x20 2, true⟩)
  | _ => none

/-- The commands that may put the power stage off, with all that it holds. -/
def Instr.losesPower : Instr → Bool
  | .powerUp | .inputBandChange _ | .overVoltage _ | .thermalTrip _ _ | .pwrgdInDeasserted | .cold _ => true
  | _ => false

/-- The commands that may change the calendar and the time reference (02). -/
def Instr.movesClocks : Instr → Bool
  | .cadencePulse _ _ | .syntheticPulse | .sourceLost | .calendarWrap | .cadence _ _ | .powerUp | .inputBandChange _
  | .overVoltage _ | .thermalTrip _ _ | .pwrgdInDeasserted | .evrTime _ _ | .warm _ | .cold _ => true
  | _ => false

/-- The commands that may change the Belfry's registers, cadence position and factor (02). -/
def Instr.movesBelfry : Instr → Bool
  | .cadencePulse _ _ | .syntheticPulse | .sourceLost | .beatCounterWrap | .cpWrap | .factorChange | .factorStepDown
  | .blfRunSet _ | .blfRunClear _ | .segAdmitSet _ | .segAdmitClear _ | .blfCpRead _ | .segmentAdmission
  | .loadRelease _ | .cadence _ _ | .activationDone _ | .powerUp | .inputBandChange _ | .overVoltage _
  | .holdoverEntry _ | .holdoverExit _ | .orderlyStop _ | .resume _ | .envelopeInForce | .overdraw _ | .overdrawClear
  | .droopClear _ _ | .thermalSample _ _ | .neighbourLimit _ _ _ _ | .neighbourClear | .regionFence _ _ _
  | .thermalTrip _ _ | .pwrgdInDeasserted | .warm _ | .regionReset _ | .cold _ => true
  | _ => false

/-- The commands that may change the relayed cadence (R382). -/
def Instr.movesCadence : Instr → Bool
  | .cadence _ _ | .powerUp | .inputBandChange _ | .overVoltage _ | .thermalTrip _ _ | .pwrgdInDeasserted | .warm _
  | .cold _ => true
  | _ => false

/-- The commands that may change the envelope, reservations and ballast (15). -/
def Instr.movesEnvelope : Instr → Bool
  | .registerWrite _ _ _ _ _ | .segmentRelease | .segmentEnd | .release _ | .forecast _ | .ballast _ | .nop _
  | .loop _ | .barrier _ | .endSeg _ | .aregSet _ | .aregAdd _ | .aregStep _ | .load _ | .pass _ | .forward _
  | .sample _ | .merge _ | .deltaRowCheck _ | .drain _ | .stream _ | .reduce _ | .rule _ | .zero _ | .save _
  | .restore _ | .copy _ | .pop _ | .retire _ | .openOut _ | .push _ | .inboundIssue _ | .outboundIssue _
  | .writeAccepted _ _ | .stallLimitExceeded _ | .retireBroadcast _ _ | .zeroization _ | .drainTimeout _
  | .contextDisable _ | .loadRelease _ | .hstVfEnableClear _ _ | .vfEnableChange _ _ | .perst _ | .powerUp
  | .inputBandChange _ | .overVoltage _ | .orderlyStopYieldEnd | .pfSafe | .prcEnvelopeApply _ | .envelopeInForce
  | .forecastSnap _ | .thermalTrip _ _ | .pwrgdInDeasserted | .warm _ | .cold _ => true
  | _ => false

/-- The commands that may change the supply, the regions and the trip word (15). -/
def Instr.movesSupply : Instr → Bool
  | .activationDone _ | .powerUp | .inputBandChange _ | .overVoltage _ | .holdoverEntry _ | .holdoverExit _
  | .orderlyStop _ | .pfSafe | .resume _ | .rippleMeasure _ _ | .overdraw _ | .droop _ _ | .droopClear _ _
  | .thermalSample _ _ | .neighbourLimit _ _ _ _ | .regionFence _ _ _ | .thermalTrip _ _ | .pwrgdInDeasserted
  | .warm _ | .regionReset _ | .regionResetDone _ | .cold _ => true
  | _ => false

/-- The commands that may change the registers whose fields are plain storage (00). -/
def Instr.movesRegisters : Instr → Bool
  | .registerWrite _ _ _ _ _ | .hstVfEnableSet _ _ | .activationDone _ | .powerUp | .inputBandChange _
  | .overVoltage _ | .thermalTrip _ _ | .pwrgdInDeasserted | .warm _ | .regionReset _ | .cold _ => true
  | _ => false

/-- The commands that may change the LOCK bits (R15). -/
def Instr.movesLocks : Instr → Bool
  | .lock _ _ | .lnkEnableClear _ _ | .linkDown _ | .linkCtl _ _ | .frameCounterLimit _ | .activationDone _
  | .powerUp | .inputBandChange _ | .overVoltage _ | .pfSafe | .thermalTrip _ _ | .pwrgdInDeasserted | .warm _
  | .regionReset _ | .cold _ => true
  | _ => false

/-- The commands that may change the towers (03 to 07). -/
def Instr.movesTowers : Instr → Bool
  | .segmentRelease | .segmentEnd | .release _ | .nop _ | .loop _ | .barrier _ | .endSeg _ | .aregSet _ | .aregAdd _
  | .aregStep _ | .load _ | .pass _ | .forward _ | .sample _ | .merge _ | .deltaRowCheck _ | .drain _ | .stream _
  | .reduce _ | .rule _ | .zero _ | .save _ | .restore _ | .copy _ | .pop _ | .retire _ | .openOut _ | .push _
  | .inboundIssue _ | .outboundIssue _ | .entryPresent _ _ _ _ | .writeAccepted _ _ | .stallLimitExceeded _
  | .swapOut _ | .selfTestDone _ _ | .retireBroadcast _ _ | .lnkEnableClear _ _ | .linkDown _ | .linkCtl _ _
  | .fetchEnd _ _ | .frameCounterLimit _ | .transferDeadline | .activationDone _ | .powerUp | .inputBandChange _
  | .overVoltage _ | .orderlyStopYieldEnd | .pfSafe | .thermalSample _ _ | .neighbourLimit _ _ _ _
  | .regionFence _ _ _ | .thermalTrip _ _ | .pwrgdInDeasserted | .warm _ | .regionReset _ | .regionResetDone _
  | .cold _ => true
  | _ => false

/-- The commands that may change the segments (02). -/
def Instr.movesSegments : Instr → Bool
  | .parkDeadlineExpired | .segmentAdmission | .imagePlacement | .segmentRelease | .dropLateExpiry | .segmentEnd
  | .release _ | .nop _ | .loop _ | .barrier _ | .endSeg _ | .aregSet _ | .aregAdd _ | .aregStep _ | .load _
  | .pass _ | .forward _ | .sample _ | .merge _ | .deltaRowCheck _ | .drain _ | .stream _ | .reduce _ | .rule _
  | .zero _ | .save _ | .restore _ | .copy _ | .pop _ | .retire _ | .openOut _ | .push _ | .inboundIssue _
  | .outboundIssue _ | .writeAccepted _ _ | .stallLimitExceeded _ | .swapOut _ | .stepSettle | .tier2FetchDone _ _
  | .tier2FetchFailed _ _ | .tagListReceived _ _ _ | .writebackDone _ | .retireBroadcast _ _ | .zeroization _
  | .drainTimeout _ | .submitSegment _ | .contextEnable _ | .contextDisable _ | .adaptRegister _ | .adaptPrefetch _
  | .functionLevelReset _ | .ideIntegrityFailure _ _ | .configWriteLocked _ | .hstVfEnableClear _ _
  | .vfEnableChange _ _ | .perst _ | .lnkEnableClear _ _ | .linkDown _ | .linkCtl _ _ | .fetchData _ _
  | .fetchEnd _ _ | .writeData _ _ | .frameCounterLimit _ | .transferDeadline | .activationDone _ | .powerUp
  | .inputBandChange _ | .overVoltage _ | .orderlyStopYieldEnd | .pfSafe | .thermalSample _ _
  | .neighbourLimit _ _ _ _ | .regionFence _ _ _ | .thermalTrip _ _ | .pwrgdInDeasserted | .warm _ | .regionReset _
  | .cold _ => true
  | _ => false

/-- The commands that may change the contexts (09). -/
def Instr.movesContexts : Instr → Bool
  | .segmentAdmission | .dropLateExpiry | .segmentEnd | .release _ | .waitRel _ | .waitPulse _ | .forecast _
  | .ballast _ | .releaseLoop _ | .setAnchor _ | .releaseEnd _ | .writeAccepted _ _ | .stepSettle
  | .retireBroadcast _ _ | .zeroization _ | .drainTimeout _ | .allowHash _ | .submitSegment _ | .imageHash _
  | .imageHashClear _ | .contextCreate _ | .contextWrite _ | .contextEnable _ | .contextDisable _ | .contextDelete _
  | .contextRead _ | .loadChain _ | .loadRules _ | .loadGroups _ | .loadSchedule _ | .advanceStep _ | .loadRelease _
  | .functionLevelReset _ | .ideIntegrityFailure _ _ | .configWriteLocked _ | .hstVfEnableClear _ _
  | .vfEnableChange _ _ | .perst _ | .powerUp | .inputBandChange _ | .overVoltage _ | .orderlyStopYieldEnd | .pfSafe
  | .thermalTrip _ _ | .pwrgdInDeasserted | .warm _ | .cold _ => true
  | _ => false

/-- The commands that may change the adaptation directory (08). -/
def Instr.movesDirectory : Instr → Bool
  | .parkDeadlineExpired | .segmentAdmission | .imagePlacement | .segmentRelease | .dropLateExpiry | .segmentEnd
  | .release _ | .writeAccepted _ _ | .swapOut _ | .stepSettle | .tier2FetchDone _ _ | .tier2FetchFailed _ _
  | .tagListReceived _ _ _ | .eviction | .writebackDone _ | .memLineWrite _ _ _ _ _ _ | .retireBroadcast _ _
  | .zeroization _ | .drainTimeout _ | .sealSet _ | .submitSegment _ | .contextWrite _ | .contextEnable _
  | .contextDisable _ | .contextDelete _ | .loadSchedule _ | .advanceStep _ | .adaptRegister _ | .adaptRead _
  | .adaptRemove _ | .adaptPrefetch _ | .adaptWriteback _ | .adaptRewrap _ | .baseLoad _ | .baseLoadDone _ _
  | .functionLevelReset _ | .ideIntegrityFailure _ _ | .configWriteLocked _ | .hstVfEnableClear _ _
  | .vfEnableChange _ _ | .perst _ | .lnkEnableClear _ _ | .linkDown _ | .linkCtl _ _ | .fetchReq _ _
  | .fetchData _ _ | .fetchEnd _ _ | .writeData _ _ | .retireMarker _ _ | .frameCounterLimit _ | .transferDeadline
  | .activationDone _ | .powerUp | .inputBandChange _ | .overVoltage _ | .orderlyStopYieldEnd | .pfSafe
  | .thermalSample _ _ | .neighbourLimit _ _ _ _ | .regionFence _ _ _ | .thermalTrip _ _ | .pwrgdInDeasserted
  | .warm _ | .regionReset _ | .cold _ => true
  | _ => false

/-- The commands that may change the run table and the memory controllers (10). -/
def Instr.movesMemory : Instr → Bool
  | .parkDeadlineExpired | .segmentAdmission | .imagePlacement | .segmentRelease | .dropLateExpiry | .segmentEnd
  | .release _ | .entryPresent _ _ _ _ | .writeAccepted _ _ | .swapOut _ | .stepSettle | .tier2FetchDone _ _
  | .tier2FetchFailed _ _ | .tagListReceived _ _ _ | .eviction | .writebackDone _ | .tier0Copy _ _ _
  | .memLineRead _ _ _ _ _ _ | .memLineWrite _ _ _ _ _ _ | .checkByteRetry _ | .scrub _ _ _ | .refresh _
  | .refreshForced _ _ | .pkgTempChange _ _ | .memoryInitDone _ _ | .retireBroadcast _ _ | .zeroization _
  | .drainTimeout _ | .submitSegment _ | .contextEnable _ | .contextDisable _ | .contextDelete _ | .adaptRegister _
  | .adaptRemove _ | .adaptPrefetch _ | .adaptWriteback _ | .adaptRewrap _ | .baseLoad _ | .baseLoadDone _ _
  | .baseFree _ | .functionLevelReset _ | .ideIntegrityFailure _ _ | .configWriteLocked _ | .hstVfEnableClear _ _
  | .vfEnableChange _ _ | .perst _ | .lnkEnableClear _ _ | .linkDown _ | .linkCtl _ _ | .fetchReq _ _
  | .fetchData _ _ | .fetchEnd _ _ | .writeData _ _ | .frameCounterLimit _ | .transferDeadline | .activationDone _
  | .powerUp | .inputBandChange _ | .overVoltage _ | .orderlyStopYieldEnd | .pfSafe | .thermalSample _ _
  | .neighbourLimit _ _ _ _ | .regionFence _ _ _ | .thermalTrip _ _ | .pwrgdInDeasserted | .warm _ | .regionReset _
  | .cold _ => true
  | _ => false

/-- The commands that may change external memory (10). -/
def Instr.movesDram : Instr → Bool
  | .writeAccepted _ _ | .swapOut _ | .tier2FetchDone _ _ | .memLineWrite _ _ _ _ _ _ | .adaptRewrap _
  | .baseLoadDone _ _ | .writeData _ _ | .powerUp | .inputBandChange _ | .overVoltage _ | .thermalTrip _ _
  | .pwrgdInDeasserted | .cold _ => true
  | _ => false

/-- The commands that may change the Keep: key slots, sessions, firmware, log (11, 14). -/
def Instr.movesKeep : Instr → Bool
  | .registerWrite _ _ _ _ _ | .parkDeadlineExpired | .segmentEnd | .inboundIssue _ | .swapOut _
  | .tier2FetchDone _ _ | .tier2FetchFailed _ _ | .tagListReceived _ _ _ | .eviction | .writebackDone _
  | .slotEnableSet _ | .slotEnableClear _ | .slotRetire _ | .retireBroadcast _ _ | .zeroization _ | .drainTimeout _
  | .slotFreed _ | .keyInstall _ | .keyRetire _ | .sealSet _ | .sealGet _ | .allowHash _ | .status _ | .extract _
  | .baseKeyInstall _ | .getVersion _ | .getCapabilities _ | .negotiateAlgorithms _ _ | .getDigests _
  | .getCertificate _ _ | .challenge _ _ _ _ | .getMeasurements _ _ _ _ _ | .keyExchange _ _ _ | .finish _ _ _
  | .endSession _ _ | .heartbeat _ _ | .keyUpdate _ _ | .getCsr _ _ _ | .setCertificate _ _ _ _
  | .unsupportedSpdmRequest _ _ | .sessionTimeout _ | .submitSegment _ | .imageHash _ | .imageHashClear _
  | .contextCreate _ | .contextWrite _ | .contextDisable _ | .loadChain _ | .loadRules _ | .adaptRegister _
  | .adaptPrefetch _ | .adaptWriteback _ | .baseLoad _ | .baseLoadDone _ _ | .baseFree _ | .functionLevelReset _
  | .flrComplete _ | .getTdispVersion _ | .getTdispCapabilities _ | .lockInterface _ | .getDeviceInterfaceReport _
  | .getDeviceInterfaceState _ | .startInterface _ | .stopInterface _ | .ideKm _ _ _ _ | .ideIntegrityFailure _ _
  | .configWriteLocked _ | .hstVfEnableClear _ _ | .vfEnableChange _ _ | .perst _ | .lnkEnableClear _ _ | .linkDown _
  | .linkCtl _ _ | .fetchData _ _ | .fetchEnd _ _ | .writeData _ _ | .attest _ _ | .frameCounterLimit _
  | .transferDeadline | .stage _ _ | .stagingDone _ | .activate _ | .activationDone _ | .commitSvn _ | .discard _
  | .kepLogSel _ _ | .bootStage _ | .powerUp | .inputBandChange _ | .overVoltage _ | .orderlyStopYieldEnd | .pfSafe
  | .thermalSample _ _ | .neighbourLimit _ _ _ _ | .regionFence _ _ _ | .thermalTrip _ _ | .pwrgdInDeasserted
  | .warm _ | .regionReset _ | .cold _ => true
  | _ => false

/-- The commands that may change the links (13). -/
def Instr.movesLinks : Instr → Bool
  | .parkDeadlineExpired | .segmentEnd | .inboundIssue _ | .swapOut _ | .tier2FetchDone _ _ | .tier2FetchFailed _ _
  | .tagListReceived _ _ _ | .eviction | .writebackDone _ | .retireBroadcast _ _ | .zeroization _ | .drainTimeout _
  | .keyInstall _ | .keyRetire _ | .sealSet _ | .sealGet _ | .allowHash _ | .status _ | .extract _
  | .baseKeyInstall _ | .getVersion _ | .getCapabilities _ | .negotiateAlgorithms _ _ | .getDigests _
  | .getCertificate _ _ | .challenge _ _ _ _ | .getMeasurements _ _ _ _ _ | .keyExchange _ _ _ | .finish _ _ _
  | .endSession _ _ | .heartbeat _ _ | .keyUpdate _ _ | .getCsr _ _ _ | .setCertificate _ _ _ _
  | .unsupportedSpdmRequest _ _ | .submitSegment _ | .contextDisable _ | .adaptRegister _ | .adaptPrefetch _
  | .adaptWriteback _ | .baseLoad _ | .functionLevelReset _ | .getTdispVersion _ | .getTdispCapabilities _
  | .lockInterface _ | .getDeviceInterfaceReport _ | .getDeviceInterfaceState _ | .startInterface _
  | .stopInterface _ | .ideKm _ _ _ _ | .ideIntegrityFailure _ _ | .configWriteLocked _ | .hstVfEnableClear _ _
  | .vfEnableChange _ _ | .perst _ | .lnkEnableSet _ _ | .lnkEnableClear _ _ | .linkTrained _ _ | .linkKeyed _ _ _ _
  | .linkBringupTimeout _ | .linkDown _ | .linkCtl _ _ | .ackTimer _ | .fetchReq _ _ | .fetchData _ _ | .fetchEnd _ _
  | .writeData _ _ | .cadence _ _ | .cadenceSend _ _ | .delayMeasure _ | .delayReq _ _ | .delayResp _ _ | .attest _ _
  | .retireMarker _ _ | .retireAck _ _ | .spdmFrame _ _ | .rekeyThreshold _ | .frameCounterLimit _
  | .transferDeadline | .activationDone _ | .powerUp | .inputBandChange _ | .overVoltage _ | .holdoverExit _
  | .pfSafe | .resume _ | .thermalSample _ _ | .neighbourLimit _ _ _ _ | .regionFence _ _ _ | .thermalTrip _ _
  | .pwrgdInDeasserted | .warm _ | .regionReset _ | .cold _ => true
  | _ => false

/-- The commands that may change the transfer records (R377). -/
def Instr.movesTransfers : Instr → Bool
  | .parkDeadlineExpired | .segmentEnd | .inboundIssue _ | .entryPresent _ _ _ _ | .swapOut _ | .tier2FetchDone _ _
  | .tier2FetchFailed _ _ | .tagListReceived _ _ _ | .eviction | .writebackDone _ | .retireBroadcast _ _
  | .zeroization _ | .drainTimeout _ | .submitSegment _ | .contextDisable _ | .adaptRegister _ | .adaptRemove _
  | .adaptPrefetch _ | .adaptWriteback _ | .baseLoad _ | .baseLoadDone _ _ | .functionLevelReset _
  | .ideIntegrityFailure _ _ | .configWriteLocked _ | .hstVfEnableClear _ _ | .vfEnableChange _ _ | .perst _
  | .lnkEnableClear _ _ | .linkDown _ | .linkCtl _ _ | .fetchReq _ _ | .fetchData _ _ | .fetchEnd _ _
  | .writeData _ _ | .retireMarker _ _ | .frameCounterLimit _ | .transferDeadline | .activationDone _ | .powerUp
  | .inputBandChange _ | .overVoltage _ | .orderlyStopYieldEnd | .pfSafe | .thermalSample _ _
  | .neighbourLimit _ _ _ _ | .regionFence _ _ _ | .thermalTrip _ _ | .pwrgdInDeasserted | .warm _ | .regionReset _
  | .cold _ => true
  | _ => false

/-- The commands that may change the Gatehouse: its cores, base slots, tier-0 copies and READY (01, 09). -/
def Instr.movesGatehouse : Instr → Bool
  | .coreHalt _ | .parkDeadlineExpired | .segmentAdmission | .imagePlacement | .dropLateExpiry | .segmentEnd
  | .release _ | .swapOut _ | .stepSettle | .tier2FetchDone _ _ | .tier2FetchFailed _ _ | .tagListReceived _ _ _
  | .eviction | .writebackDone _ | .tier0Copy _ _ _ | .tier0Reclaim | .memoryInitDone _ _ | .retireBroadcast _ _
  | .zeroization _ | .drainTimeout _ | .submitSegment _ | .imageHash _ | .imageHashClear _ | .contextCreate _
  | .contextWrite _ | .contextEnable _ | .contextDisable _ | .contextDelete _ | .contextRead _ | .loadChain _
  | .loadRules _ | .loadGroups _ | .loadSchedule _ | .advanceStep _ | .loadRelease _ | .adaptRegister _
  | .adaptRead _ | .adaptRemove _ | .adaptPrefetch _ | .adaptWriteback _ | .adaptRewrap _ | .baseLoad _
  | .baseLoadDone _ _ | .baseFree _ | .functionLevelReset _ | .ideIntegrityFailure _ _ | .configWriteLocked _
  | .hstVfEnableClear _ _ | .vfEnableChange _ _ | .perst _ | .lnkEnableClear _ _ | .linkDown _ | .linkCtl _ _
  | .fetchData _ _ | .fetchEnd _ _ | .writeData _ _ | .frameCounterLimit _ | .transferDeadline | .activationDone _
  | .bootStage _ | .powerUp | .inputBandChange _ | .overVoltage _ | .orderlyStop _ | .orderlyStopYieldEnd | .pfSafe
  | .resume _ | .thermalSample _ _ | .neighbourLimit _ _ _ _ | .regionFence _ _ _ | .thermalTrip _ _
  | .pwrgdInDeasserted | .warm _ | .regionReset _ | .cold _ => true
  | _ => false

/-- The commands that may change the performance counters outside the recorder (16). -/
def Instr.movesCounters : Instr → Bool
  | .registerWrite _ _ _ _ _ | .unsupportedBarAccess _ _ _ _ _ | .cntClear _ _ | .counterSaturated _ _
  | .parkDeadlineExpired | .factorChange | .segmentAdmission | .imagePlacement | .segmentRelease | .dropLateExpiry
  | .segmentEnd | .release _ | .nop _ | .loop _ | .barrier _ | .endSeg _ | .aregSet _ | .aregAdd _ | .aregStep _
  | .load _ | .pass _ | .forward _ | .sample _ | .merge _ | .drain _ | .stream _ | .reduce _ | .rule _ | .zero _
  | .save _ | .restore _ | .copy _ | .pop _ | .retire _ | .openOut _ | .push _ | .inboundIssue _ | .outboundIssue _
  | .entryPresent _ _ _ _ | .writeAccepted _ _ | .swapOut _ | .stepSettle | .tier2FetchDone _ _
  | .tier2FetchFailed _ _ | .tagListReceived _ _ _ | .eviction | .writebackDone _ | .tier0Copy _ _ _
  | .memLineRead _ _ _ _ _ _ | .memLineWrite _ _ _ _ _ _ | .checkByteRetry _ | .scrub _ _ _ | .refreshForced _ _
  | .retireBroadcast _ _ | .zeroization _ | .drainTimeout _ | .keyInstall _ | .keyRetire _ | .sealSet _ | .sealGet _
  | .allowHash _ | .status _ | .extract _ | .baseKeyInstall _ | .getVersion _ | .getCapabilities _
  | .negotiateAlgorithms _ _ | .getDigests _ | .getCertificate _ _ | .challenge _ _ _ _ | .getMeasurements _ _ _ _ _
  | .keyExchange _ _ _ | .finish _ _ _ | .endSession _ _ | .heartbeat _ _ | .keyUpdate _ _ | .getCsr _ _ _
  | .setCertificate _ _ _ _ | .unsupportedSpdmRequest _ _ | .qEnableSet _ _ | .qEnableClear _ _ | .hstSqTail _ _ _
  | .hstCqHead _ _ _ | .msixUnmask _ _ | .submitSegment _ | .imageHash _ | .imageHashClear _ | .contextCreate _
  | .contextWrite _ | .contextEnable _ | .contextDisable _ | .contextDelete _ | .contextRead _ | .loadChain _
  | .loadRules _ | .loadGroups _ | .loadSchedule _ | .advanceStep _ | .loadRelease _ | .adaptRegister _
  | .adaptRead _ | .adaptRemove _ | .adaptPrefetch _ | .adaptWriteback _ | .adaptRewrap _ | .baseLoad _
  | .baseLoadDone _ _ | .baseFree _ | .functionLevelReset _ | .flrComplete _ | .getTdispVersion _
  | .getTdispCapabilities _ | .lockInterface _ | .getDeviceInterfaceReport _ | .getDeviceInterfaceState _
  | .startInterface _ | .stopInterface _ | .ideKm _ _ _ _ | .ideIntegrityFailure _ _ | .configWriteLocked _
  | .hstVfEnableClear _ _ | .vfEnableChange _ _ | .perst _ | .lnkEnableClear _ _ | .linkDown _ | .linkCtl _ _
  | .ackTimer _ | .fetchReq _ _ | .fetchData _ _ | .fetchEnd _ _ | .writeData _ _ | .cadence _ _ | .cadenceSend _ _
  | .delayMeasure _ | .delayReq _ _ | .delayResp _ _ | .attest _ _ | .retireMarker _ _ | .retireAck _ _
  | .spdmFrame _ _ | .rekeyThreshold _ | .frameCounterLimit _ | .transferDeadline | .stage _ _ | .activationDone _
  | .powerUp | .inputBandChange _ | .overVoltage _ | .holdoverEntry _ | .holdoverExit _ | .orderlyStopYieldEnd
  | .pfSafe | .envelopeInForce | .overdraw _ | .thermalSample _ _ | .neighbourLimit _ _ _ _ | .regionFence _ _ _
  | .thermalTrip _ _ | .pwrgdInDeasserted | .warm _ | .regionReset _ | .cold _ => true
  | _ => false

/-- The commands that may change the ports and functions, but for a pending interrupt (12). -/
def Instr.movesFunctions : Instr → Bool
  | .registerWrite _ _ _ _ _ | .parkDeadlineExpired | .segmentAdmission | .imagePlacement | .dropLateExpiry
  | .segmentEnd | .release _ | .swapOut _ | .stepSettle | .tier2FetchDone _ _ | .tier2FetchFailed _ _
  | .tagListReceived _ _ _ | .eviction | .writebackDone _ | .retireBroadcast _ _ | .zeroization _ | .drainTimeout _
  | .qEnableSet _ _ | .qEnableClear _ _ | .hstSqTail _ _ _ | .hstCqHead _ _ _ | .coalesceTimer _ _ | .msixUnmask _ _
  | .submitSegment _ | .imageHash _ | .imageHashClear _ | .contextCreate _ | .contextWrite _ | .contextEnable _
  | .contextDisable _ | .contextDelete _ | .contextRead _ | .loadChain _ | .loadRules _ | .loadGroups _
  | .loadSchedule _ | .advanceStep _ | .loadRelease _ | .adaptRegister _ | .adaptRead _ | .adaptRemove _
  | .adaptPrefetch _ | .adaptWriteback _ | .adaptRewrap _ | .baseLoad _ | .baseLoadDone _ _ | .baseFree _
  | .functionLevelReset _ | .flrComplete _ | .getTdispVersion _ | .getTdispCapabilities _ | .lockInterface _
  | .getDeviceInterfaceReport _ | .getDeviceInterfaceState _ | .startInterface _ | .stopInterface _ | .ideKm _ _ _ _
  | .ideIntegrityFailure _ _ | .configWriteLocked _ | .pcieLinkTrained _ _ _ | .hstVfEnableSet _ _
  | .hstVfEnableClear _ _ | .vfEnableChange _ _ | .perst _ | .lnkEnableClear _ _ | .linkDown _ | .linkCtl _ _
  | .fetchData _ _ | .fetchEnd _ _ | .writeData _ _ | .frameCounterLimit _ | .transferDeadline | .activationDone _
  | .powerUp | .inputBandChange _ | .overVoltage _ | .orderlyStopYieldEnd | .pfSafe | .thermalSample _ _
  | .neighbourLimit _ _ _ _ | .regionFence _ _ _ | .thermalTrip _ _ | .pwrgdInDeasserted | .recordWrite | .warm _
  | .regionReset _ | .cold _ => true
  | _ => false

/-- The commands that may change the set-up of the event recorder (16). -/
def Instr.movesRecorder : Instr → Bool
  | .registerWrite _ _ _ _ _ | .powerUp | .inputBandChange _ | .overVoltage _ | .thermalTrip _ _ | .pwrgdInDeasserted
  | .evrClear _ | .evrTime _ _ | .evrEnableSet _ | .evrEnableClear _ | .cold _ => true
  | _ => false

end Sys2Proof
end

