-- ==== Sys2Proof/Certificates/Slice0/Obligations.lean ====
section
/-! DEFINITION. The statements for the provers. -/

open Sys2Proof Sys2Proof.Machine

/-! ## The machine: one step, every command, the recorder, external memory -/

/-- A step takes the command at the front of the queue and is its meaning on the state with the queue's rest. -/
def Obligations.StepRunsFront : Prop :=
  ∀ (i : Instr) (rest : List Instr) (s : State),
    step { s with pending := i :: rest } = exec i { s with pending := rest }

/-- With no command waiting a beat passes (the model's choice, log 1): on a powered module the beat counter rises by one, the
nominal beats by the whole ones the period brings (R34 to R36), and queue, trim and external memory stay. -/
def Obligations.IdleBeat : Prop :=
  ∀ s : State, s.pending = [] →
    ∃ t, step s = .next t ∧ t.pending = [] ∧ t.trim = s.trim ∧ t.dram = s.dram ∧
      (s.core.prc.powered = true →
        t.core.clk.total = s.core.clk.total + 1 ∧
        t.core.clk.nominal = s.core.clk.nominal + (s.core.clk.eighths + s.core.eighths) / 8 ∧
        t.core.clk.eighths = (s.core.clk.eighths + s.core.eighths) % 8) ∧
      (s.core.prc.powered = false → t.core.clk = s.core.clk ∧ t.core.towers = s.core.towers)

/-- Every command answers a next state: none faults, none is refused; the queue is the step's alone, the trim is fixed, and
what the command sends to the recorder is delivered. (The model's own choices in it: log 2.) -/
def Obligations.EveryCommandAnswers : Prop :=
  ∀ (i : Instr) (s : State), ∃ t, exec i s = .next t ∧ t.pending = s.pending ∧ t.trim = s.trim ∧ t.quiet

/-- The queue is first in, first out, and no meaning looks at it: a run of as many steps as there are commands at the front of
the queue is the commands' effects in order, and leaves the rest queued. -/
def Obligations.QueueIsFifo : Prop :=
  ∀ (cs rest : List Instr) (s : State),
    core.run cs.length { s with pending := cs ++ rest } = .next { s.runs cs with pending := rest }

/-- R445, R446: the recorder keeps its bounds at every step: at most 65,536 records, at most 1,024 queued events, EVR_FULL set
exactly with the last record. -/
def Obligations.RecorderBounded : Prop :=
  ∀ s t : State, s.evr.ok → step s = .next t → t.evr.ok

/-- R445: the records written before stay as they are, in every step but one that clears the recorder (EVR_CLEAR) or loses the
power. -/
def Obligations.RecordsKept : Prop :=
  ∀ (i : Instr) (s t : State), exec i s = .next t → i.losesPower = false → (∀ f, i ≠ .evrClear f) →
    ∃ more, t.evr.records = s.evr.records ++ more ∧ more.length ≤ 1

/-- External memory keeps its canonical form at every step. (The model's own choices in it: log 88.) -/
def Obligations.DramCanonical : Prop :=
  ∀ s t : State, s.dram.wf = true → step s = .next t → t.dram.wf = true

/-- The form of the state, which other statements take as a premise, stands at every step: the banks keep their sizes and the
maps list rising keys. (The model's own choices in it: log 88.) -/
def Obligations.StateFormed : Prop :=
  ∀ s t : State, s.formed → step s = .next t → t.formed

/-- The state at reset: quiet, an empty recorder, external memory with nothing listed, no command waiting, the pins and
enables as the spec gives them (BLF_RUN, SEG_ADMIT 0; the reference in SEARCH; FAIL_N asserted until READY; every slot but the
version-tree key's FREE; every link DOWN; every pair DISABLED). (The model's own choices in it: logs 6 and 7.) -/
def Obligations.ResetState : Prop :=
  State.reset.safe ∧ State.reset.formed ∧ State.reset.pending = [] ∧
  (let c := State.reset.core
   c.blf.run = false ∧ c.blf.segAdmit = false ∧ c.blf.applied = 0 ∧ c.tref.st = .search ∧ c.clk.cal = 0 ∧ c.clk.total = 0 ∧
   c.locks = [] ∧ c.out.failN = [0] ∧ c.gate.ready = false ∧ c.keep.bootStage = 0 ∧
   c.pow.envPower = 1150 + 500 * 2 ^ 16 + 500 * 2 ^ 32 + 20 * 2 ^ 48 ∧
   (∀ k, k ≠ 4098 → (c.slot k).st = .free ∧ (c.slot k).floor = 1) ∧
   (∀ k, (c.link k).st = .down) ∧ (∀ f q, (c.pair f q).st = .disabled) ∧
   (∀ t, (c.tower t).fenced = false) ∧ (∀ i, (c.desc i).st = .free) ∧
   (∀ e, c.reg (offFwd e) = 0)) ∧
  State.reset.evr.enable = false ∧ State.reset.evr.epoch = 0 ∧ State.reset.evr.timeSet = false

/-! ## Frames: which commands may change which part of the state -/

/-- Only the commands of time and a loss of power move the clocks and the reference; only those of the Belfry its registers,
cadence position and factor. Only these commands move the envelope, the reservations and the supply. Only these commands move
plain registers, LOCK bits, performance counters, and the set-up of the event recorder. -/
def Obligations.FrameClocksAndSupply : Prop :=
  (∀ (i : Instr) (s t : State), exec i s = .next t →
     (i.movesClocks = false → t.core.clk = s.core.clk ∧ t.core.tref = s.core.tref) ∧
     (i.movesBelfry = false → t.core.blf = s.core.blf) ∧
     (i.movesCadence = false → t.core.cadence = s.core.cadence)) ∧
  (∀ (i : Instr) (s t : State), exec i s = .next t →
     (i.movesEnvelope = false → t.core.pow = s.core.pow) ∧
     (i.movesSupply = false → t.core.prc = s.core.prc ∧ t.core.tripWord = s.core.tripWord)) ∧
  (∀ (i : Instr) (s t : State), exec i s = .next t →
     (i.movesRegisters = false → t.core.regs = s.core.regs) ∧ (i.movesLocks = false → t.core.locks = s.core.locks) ∧
     (i.movesCounters = false → t.core.ctr = s.core.ctr) ∧ (i.movesRecorder = false → s.evr.sameSetup t.evr))

/-- Only these commands move a tower. Only these commands move segments, contexts, the directory and the Gatehouse. -/
def Obligations.FrameTowersAndSegments : Prop :=
  (∀ (i : Instr) (s t : State), exec i s = .next t → i.movesTowers = false → t.core.towers = s.core.towers) ∧
  (∀ (i : Instr) (s t : State), exec i s = .next t →
     (i.movesSegments = false → t.core.segs = s.core.segs ∧ t.core.nextSeg = s.core.nextSeg) ∧
     (i.movesContexts = false → t.core.ctxs = s.core.ctxs) ∧
     (i.movesDirectory = false → t.core.dir = s.core.dir) ∧
     (i.movesGatehouse = false → t.core.gate = s.core.gate))

/-- Only these commands move the run table, the controllers and external memory. Only these commands move the Keep: its key
slots, sessions, images and log. Only these commands move the links, the transfer records and, but for a pending interrupt,
the functions with their queue pairs. -/
def Obligations.FrameMemoryKeepAndLinks : Prop :=
  (∀ (i : Instr) (s t : State), exec i s = .next t →
     (i.movesMemory = false → t.core.mem = s.core.mem) ∧ (i.movesDram = false → t.dram = s.dram)) ∧
  (∀ (i : Instr) (s t : State), exec i s = .next t → i.movesKeep = false → t.core.keep = s.core.keep) ∧
  (∀ (i : Instr) (s t : State), exec i s = .next t →
     (i.movesLinks = false → t.core.links = s.core.links) ∧
     (i.movesTransfers = false → t.core.xfers = s.core.xfers ∧ t.core.nextXfer = s.core.nextXfer) ∧
     (i.movesFunctions = false → (∀ p ∈ s.core.ports, p.fns.rising = true) → ∀ f : FnId,
       t.core.fn f = { s.core.fn f with msix := (t.core.fn f).msix }))

/-- A command that only the administration PF may send has no effect when another function sends it (R12, R334). -/
def Obligations.AdministrationOnly : Prop :=
  ∀ (i : Instr) (s : State) (f : FnId), i.adminOnly = true → i.sender = some f → f ≠ s.trim.admin →
    exec i s = .next (s.after s.core)

/-! ## Registers (00, 16) -/

/-- R13, R15, R468: an aligned 32-bit or 64-bit write of the administration PF to a BAR0 register that only stores fields: the
RW bits touched, and while the block is not LOCKed the RWL bits touched, take the value written, and nothing else changes; a
write that would leave a field out of its range is dropped as a whole. Reading back: after a register is set it reads as set,
and every other register as before, while the map of registers is in its rising order; a host read of such a register returns
its stored fields, and a read of one half of any register of BAR0 that half. (The model's own choices in it: logs 36, 37 and 118.) -/
def Obligations.RegisterWriteStores : Prop :=
  (∀ (s : State) (via : Option Nat) (off size v : Nat) (row : RegRow),
     (size = 4 ∨ size = 8) → off % size = 0 → regRow (off / 8 * 8) = some row →
     let base := off / 8 * 8
     let m := (row.rw ||| (if s.core.locked (lockBase base) then 0 else row.rwl)) &&& lanes off size
     let old := s.core.reg base
     let new := mergeBits m old (placed off size v)
     (∀ i, new.testBit i = if m.testBit i then (placed off size v).testBit i else old.testBit i) ∧
     (m ≠ 0 → s.core.regOk base old (placed off size v) new = true →
       exec (.registerWrite ⟨s.trim.admin, via⟩ 0 off size v) s = .next (s.after (s.core.setReg base new))) ∧
     ((m = 0 ∨ s.core.regOk base old (placed off size v) new = false) →
       exec (.registerWrite ⟨s.trim.admin, via⟩ 0 off size v) s = .next (s.after s.core))) ∧
  (∀ (c : Core) (base v o : Nat), c.regs.rising = true →
     (c.setReg base v).reg o = (if o = base then v else c.reg o) ∧ (c.setReg base v).regs.rising = true) ∧
  (∀ (s : State) (via : Option Nat) (off : Nat) (row : RegRow), off % 8 = 0 → regRow off = some row →
     ∃ v, s.readReg ⟨s.trim.admin, via⟩ 0 off 8 = some v ∧
       ∀ i, (row.rw ||| row.rwl).testBit i = true → v.testBit i = (s.core.reg off).testBit i) ∧
  (∀ (s : State) (via : Option Nat) (off : Nat), off % 8 = 0 →
     ∃ v, s.readReg ⟨s.trim.admin, via⟩ 0 off 8 = some v ∧ s.readReg ⟨s.trim.admin, via⟩ 0 off 4 = some (v % 2 ^ 32) ∧
       s.readReg ⟨s.trim.admin, via⟩ 0 (off + 4) 4 = some (v / 2 ^ 32 % 2 ^ 32))

/-- R13: any access that is not an aligned 32-bit or 64-bit one reaches no register and records event 0x060A with the port and
the offset's halves; R337: one to BAR2 off the stream of a bound function is rejected and counted instead. R15, R468: LOCK of a
block's CTL register by the administration PF sets the block's LOCK bit, which reads 1 at once and applies from the next beat.
R441: CNT_CLEAR sets every counter of its block to zero, but for the increments of the beat of the clear, which count after it, and
leaves every other counter; the recorder's clears EVR_FILTERED; a host read of a counter returns its COUNT and OVF. R440: a
counter that would pass 2^48 - 1 stays at 2^48 - 1 with OVF set, and 0x0906 names it in the beat in which it reaches that
value; once OVF is set every increment is discarded; below, the count is exact. -/
def Obligations.BlockControls : Prop :=
  ((∀ (s : State) (f : HostReq) (bar off size : Nat) (w : Bool), accessOk off size = false →
     (bar ≠ 2 ∨ s.core.ownStream f.fn f.via = true → exec (.unsupportedBarAccess f bar off size w) s = .next (s.after
       (s.core.raise ⟨0x060A, 0xFFFF, f.fn.port % 2 ^ 16, off / 2 ^ 16 % 2 ^ 16, off % 2 ^ 16, 0xFFFF, f.fn.port⟩))) ∧
     (bar = 2 → s.core.ownStream f.fn f.via = false → s.core.bar2 f.fn = true →
       exec (.unsupportedBarAccess f bar off size w) s = .next (s.after (s.core.bump (hstBase f.fn.port + 0x98) 1)))) ∧
   (∀ (s : State) (via : Option Nat) (off : Nat), lockable off = true → (∀ x ∈ s.core.locks, x.1 ≠ off) →
     ∃ t, exec (.lock s.trim.admin off) s = .next t ∧ t = s.after { s.core with locks := s.core.locks ++ [(off, s.core.clk.nominal)] } ∧
       (∀ k : Clock, ({ t.core with clk := k } : Core).locked off = decide (s.core.clk.nominal < k.nominal)) ∧
       ∃ v, t.readReg ⟨s.trim.admin, via⟩ 0 off 8 = some v ∧ v.testBit (lockPlace off) = true) ∧
   (∀ (s : State) (via : Option Nat) (o : Nat), isCounter o = true → s.readReg ⟨s.trim.admin, via⟩ 0 o 8 =
     some ((s.core.ctr.get .zero o).count % 2 ^ 48 + b2n (s.core.ctr.get .zero o).ovf * 2 ^ 63)) ∧
   (∀ (s : State) (off : Nat), clearable off = true → s.core.ctr.rising = true →
     ∃ t, exec (.cntClear s.trim.admin off) s = .next t ∧
       (∀ o, (blockAt o).1 = (blockAt off).1 → (blockAt o).2.1 = off →
         let old := s.core.ctr.get .zero o
         (old.beat ≠ s.core.clk.nominal → t.core.ctr.get .zero o = .zero) ∧
         (old.beat = s.core.clk.nominal → old.part < 2 ^ 48 - 1 →
           (t.core.ctr.get .zero o).count = old.part ∧ (t.core.ctr.get .zero o).ovf = false)) ∧
       (∀ o, ¬((blockAt o).1 = (blockAt off).1 ∧ (blockAt o).2.1 = off) → t.core.ctr.get .zero o = s.core.ctr.get .zero o) ∧
       (off = 0x40_0000 → s.quiet → s.evr.filtered.beat ≠ s.core.clk.nominal → t.evr = { s.evr with filtered := .zero }))) ∧
  (∀ (s : State) (off n : Nat), isCounter off = true → s.core.ctr.rising = true →
     let old := s.core.ctr.get .zero off
     ∃ t, exec (.counterSaturated off n) s = .next t ∧
       let new := t.core.ctr.get .zero off
       (old.ovf = true → new.count = old.count ∧ new.ovf = true) ∧
       (old.ovf = false → old.count + n < 2 ^ 48 - 1 → new.count = old.count + n ∧ new.ovf = false) ∧
       (old.ovf = false → 0 < n → 2 ^ 48 - 1 ≤ old.count + n → new.count = 2 ^ 48 - 1 ∧ new.ovf = true ∧
         t.evr = (s.evr.takeAll s.core.stamp (s.core.outbox ++
           [⟨0x0906, 0xFFFF, (blockAt off).1, (off - (blockAt off).2.1) % 2 ^ 16, (blockAt off).2.2, 0xFFFF, (blockAt off).2.2⟩])).1) ∧
       (∀ o, o ≠ off → t.core.ctr.get .zero o = s.core.ctr.get .zero o))

/-! ## Time (02) -/

/-- R40, R41, R43: an edge on the pins of source 0 or 1. In SEARCH and FREE_RUN a configured source starts LOCKING, and its
first pulse is a good one within ±8 ns of the train; LOCKING ends in LOCKED after 16 good pulses on end; in LOCKED a pulse
of the active source within 1 % of the tracked period is accepted: it is the last pulse, the position advances by one pulse
while BLF_RUN is 1; one outside that band is dropped, counted, and recorded as 0x0314, and moves no position. (The
model's own choices in it: logs 10, 92.) -/
def Obligations.CadencePulses : Prop :=
  ∀ (s : State) (src : Nat) (rising : Bool), src < 2 → s.core.edgeOk src rising = true →
    let c := s.core
    let took := c.clk.nominal - c.tref.lastPulse
    ((c.tref.st = .search ∨ c.tref.st = .freeRun) → src ∈ c.sourceOrder →
      let c1 : Core := { c with tref := { c.tref with
        st := .locking, active := src, lastPulse := c.clk.nominal, entered := c.clk.nominal
        wasFree := decide (c.tref.st = .freeRun), trainP := c.trainPeriod } }
      let phase := c1.trainPhase c.clk.nominal
      exec (.cadencePulse src rising) s = .next (s.after { c1 with tref := { c1.tref with
        phase := phase * 8 / 10, good := if phase.natAbs * 8 ≤ 80 then 1 else 0 } })) ∧
    (c.tref.st = .locking → c.tref.active = src → c.period * 99 ≤ took * 100 → took * 100 ≤ c.period * 101 →
      ∃ t, exec (.cadencePulse src rising) s = .next t ∧ t.core.tref.lastPulse = c.clk.nominal ∧ t.core.tref.active = src ∧
        (t.core.tref.st = .locking ∨ (t.core.tref.st = .locked ∧ 15 ≤ c.tref.good))) ∧
    (c.tref.st = .locked → c.tref.active = src → c.period * 99 ≤ took * 100 → took * 100 ≤ c.period * 101 →
      ∃ t, exec (.cadencePulse src rising) s = .next t ∧ t.core.tref.st = .locked ∧ t.core.tref.lastPulse = c.clk.nominal ∧
        t.core.tref.active = src ∧ t.core.clk.nominal = c.clk.nominal ∧ t.core.clk.total = c.clk.total ∧
        t.core.blf = (if c.blf.run then { c.blf with pulses := c.blf.pulses + 1, elapsed := 0, fracP := t.core.period } else c.blf)) ∧
    ((c.tref.st = .locked ∨ c.tref.st = .locking) → c.tref.active = src →
      (took * 100 < c.period * 99 ∨ c.period * 101 < took * 100) →
      exec (.cadencePulse src rising) s = .next (s.after
        ({ c with tref := { c.tref with dropped := c.tref.dropped + 1, good := 0 } }.raise ⟨0x0314, 0xFFFF, 0, 0, 0, 0xFFFF, 0⟩)))

/-- R41 to R43: while no source is LOCKED a synthetic pulse that is due advances the position by one pulse, with the nominal
beats since its due time elapsed, while BLF_RUN is 1, and in LOCKING the train's
period changes by at most 1/1,000; a LOCKED source without an accepted pulse for 1.5 tracked periods is
lost: FREE_RUN, event 0x0312, and the missing pulse is counted from its due edge; one that was LOCKING goes to SEARCH where no other
source is configured. R43, R44: FRACTION is taken with the P in force when the period began. R34, R45, R448: the beat counter and PULSES
wrap with event 0x0315, calendar time with none. R45: one cadence position is at or after another when their difference modulo
2^64 is below 2^63. (The model's own choices in it: log 10.) -/
def Obligations.PulsesAndWraps : Prop :=
  ((∀ s : State,
     let c := s.core
     let due := c.tref.train + c.trainPeriod
     let blf := if c.blf.run then { c.blf with pulses := c.blf.pulses + 1, elapsed := c.clk.nominal - due, fracP := c.period } else c.blf
     due ≤ c.clk.nominal →
     ((c.tref.st = .search ∨ c.tref.st = .freeRun) → exec .syntheticPulse s = .next (s.after { c with
       tref := { c.tref with train := due }, blf := blf })) ∧
     (c.tref.st = .locking → ∃ t, exec .syntheticPulse s = .next t ∧ t.core.tref.train = due ∧ t.core.blf = blf ∧
       c.trainPeriod - c.trainPeriod / 1000 ≤ t.core.tref.trainP ∧
       t.core.tref.trainP ≤ c.trainPeriod + c.trainPeriod / 1000)) ∧
   (∀ s : State,
     let c := s.core
     let edge := c.tref.lastPulse + c.period
     c.tref.st = .locked → 3 * c.period < (c.clk.nominal - c.tref.lastPulse) * 2 →
     exec .sourceLost s = .next (s.after ({ c with
       tref := { c.tref with st := .freeRun, active := 3, train := edge, trainP := c.period, good := 0 }
       blf := if c.blf.run then { c.blf with pulses := c.blf.pulses + 1, elapsed := c.clk.nominal - edge, fracP := c.period } else c.blf
       }.raise ⟨0x0312, 0xFFFF, 0, 0, 0, 0xFFFF, 0⟩))) ∧
   (∀ s : State,
     let c := s.core
     c.tref.st = .locking → 3 * c.period < (c.clk.nominal - c.tref.lastPulse) * 2 →
     exec .sourceLost s = .next (s.after { c with tref := { c.tref with
       st := if c.tref.wasFree = true ∧ (∃ k ∈ c.sourceOrder, k < 3 ∧ k ≠ c.tref.active) then .freeRun else .search
       active := 3, good := 0 } })) ∧
   (∀ c : Core, c.cp = c.blf.pulses % 2 ^ 40 * 2 ^ 24 + min (c.blf.elapsed * 2 ^ 24 / max c.blf.fracP 1) (2 ^ 24 - 1))) ∧
  ((∀ s : State, s.core.blf.wraps < s.core.clk.total / 2 ^ 64 →
     exec .beatCounterWrap s = .next (s.after
       ({ s.core with blf := { s.core.blf with wraps := s.core.blf.wraps + 1 } }.raise ⟨0x0315, 0xFFFF, 0, 0, 0, 0xFFFF, 0⟩))) ∧
   (∀ s : State, 2 ^ 40 ≤ s.core.blf.pulses →
     exec .cpWrap s = .next (s.after
       ({ s.core with blf := { s.core.blf with pulses := s.core.blf.pulses % 2 ^ 40 } }.raise
         ⟨0x0315, 0xFFFF, 0, 0, 0, 0xFFFF, 0⟩))) ∧
   (∀ s : State, 10 * 2 ^ 64 ≤ s.core.clk.calNow → 10 * 2 ^ 64 ≤ s.core.clk.cal → s.core.clk.cal < 20 * 2 ^ 64 →
     ∃ t, exec .calendarWrap s = .next t ∧ t.core.clk.cal = s.core.clk.cal % (10 * 2 ^ 64) ∧ t.core.clk.time = s.core.clk.time ∧
       t.core.blf = s.core.blf ∧ t.core.tref = s.core.tref ∧ (s.quiet → t.evr = s.evr)) ∧
   (∀ a b : Nat, a < 2 ^ 64 → b < 2 ^ 64 → (atOrAfter a b = true ↔ ((a : Int) - (b : Int)) % 2 ^ 64 < 2 ^ 63)))

/-- R37, R38, R427: at a beat whose number is a multiple of 32, with no change under way, a larger request takes effect at
once; a lower one 65,536 beats after the last request above it cleared and the last change, one code down, where the forecast
fits. Each change holds every engine for 4 beats and records 0x0311 with the old code, the new one and the requesting sources.
R61: the enable bits of BLF_CTL. Each is set when its checks pass; the first failed check leaves it 0 with its code and
context 0xFFFF; clearing one closes it and nothing else; a 64-bit read of BLF_CP latches the beat counter. (The model's own
choices in it: logs 17 and 78.) -/
def Obligations.BelfryRuns : Prop :=
  (∀ s : State,
     let c := s.core
     c.clk.total % 32 = 0 → c.blf.hold = 0 →
     (c.blf.applied < c.request → c.request ≤ 5 →
       ∃ t, exec .factorChange s = .next t ∧
         t.core.blf = { c.blf with applied := c.request, hold := 4, lastStep := c.clk.total, stepWait := false } ∧
         t.core.clk = c.clk ∧ t.core.towers = c.towers ∧
         ∃ more, t.evr = (s.evr.takeAll c.stamp (c.outbox ++
           ⟨0x0311, 0xFFFF, c.blf.applied % 2 ^ 16, c.request, c.sources % 2 ^ 16, 0xFFFF, 0⟩ :: more)).1) ∧
     (c.request < c.blf.applied → c.blf.lastClear + 65536 ≤ c.clk.total → c.blf.lastStep + 65536 ≤ c.clk.total →
       (c.fits c.loads (factorEighths (c.blf.applied - 1)) = true →
         exec .factorStepDown s = .next (s.after ({ c with blf := { c.blf with
           applied := c.blf.applied - 1, hold := 4, lastStep := c.clk.total, stepWait := false } }.raise
           ⟨0x0311, 0xFFFF, c.blf.applied % 2 ^ 16, (c.blf.applied - 1) % 2 ^ 16, c.sources % 2 ^ 16, 0xFFFF, 0⟩))) ∧
       (c.fits c.loads (factorEighths (c.blf.applied - 1)) = false →
         exec .factorStepDown s = .next (s.after { c with blf := { c.blf with stepWait := true } })))) ∧
  (∀ s : State,
     let c := s.core
     let locked := c.tref.st = .locked ∨ bit (c.reg offTref) 7 = true
     (c.blf.run = false → locked → c.pow.apply = true →
       exec (.blfRunSet s.trim.admin) s = .next (s.after { c with blf := { c.blf with
         run := true, everRun := true, fracP := if c.blf.elapsed = 0 then c.period else c.blf.fracP } })) ∧
     (c.blf.run = false → ¬ locked →
       exec (.blfRunSet s.trim.admin) s = .next (s.after { c with blf := { c.blf with refCode := 0x0320, refCtx := 0xFFFF } })) ∧
     (c.blf.run = false → locked → c.pow.apply = false →
       exec (.blfRunSet s.trim.admin) s = .next (s.after { c with blf := { c.blf with refCode := 0x0321, refCtx := 0xFFFF } })) ∧
     (c.blf.segAdmit = false → c.blf.run = true → (∃ t ∈ c.towers, t.fenced = false) →
       exec (.segAdmitSet s.trim.admin) s = .next (s.after { c with blf := { c.blf with segAdmit := true } })) ∧
     (c.blf.segAdmit = false → c.blf.run = false →
       exec (.segAdmitSet s.trim.admin) s = .next (s.after { c with blf := { c.blf with refCode := 0x0323, refCtx := 0xFFFF } })) ∧
     (c.blf.segAdmit = false → c.blf.run = true → (∀ t ∈ c.towers, t.fenced = true) →
       exec (.segAdmitSet s.trim.admin) s = .next (s.after { c with blf := { c.blf with refCode := 0x0324, refCtx := 0xFFFF } })) ∧
     exec (.blfRunClear s.trim.admin) s = .next (s.after { c with blf := { c.blf with run := false } }) ∧
     exec (.segAdmitClear s.trim.admin) s = .next (s.after { c with blf := { c.blf with segAdmit := false } }) ∧
     exec (.blfCpRead s.trim.admin) s = .next (s.after { c with blf := { c.blf with beatLatch := c.clk.total % 2 ^ 64 } }))

/-! ## The event recorder (16) -/

/-- R446: the event at the head of the queue is written as its own record while fewer than 65,535 are; the next takes code
0x0907 with its code and first two arguments and sets EVR_FULL; after that each is counted in EVR_LOST and its suppressed
count goes back to its code. R449, R447, R451: a token that is due fills the bucket by one, never past BURST; EVR_CLEAR starts
a new epoch whose record 0 is 0x0905 with the lost count and the old epoch (R441: a loss of its own beat counts after it);
FAIL_CLEAR releases the filters' FAIL_N. R448,
R452: EVR_TIME sets calendar time to the value written (a 32-bit write its half) and records 0x0904; EVR_ENABLE is set when its checks pass and puts the
staged rates, filters and EVR_IRQ in force; the first failed check leaves it 0 with its code; clearing it returns to boot
mode. (The model's own choices in it: logs 23, 42, 43 and 96.) -/
def Obligations.RecorderRuns : Prop :=
  (∀ (s : State) (q : EvRecord) (qs : List EvRecord), s.quiet → s.evr.ok → s.evr.queue = q :: qs →
     let e := s.evr
     let w := { q with beat := s.core.clk.nominal }
     (e.records.length < 65535 →
       exec .recordWrite s = .next (s.afterE s.core { e with queue := qs, records := e.records ++ [w] })) ∧
     (e.records.length = 65535 → ∃ t, exec .recordWrite s = .next t ∧
       t.evr = { e with queue := qs, full := true, records := e.records ++
         [{ w with ev := ⟨0x0907, q.ev.slot, q.ev.code, q.ev.a0, q.ev.a1, q.ev.ctx, q.ev.inst⟩ }] }) ∧
     (e.full = true → e.lost.ovf = false → e.lost.count + 1 < 2 ^ 48 - 1 → ∃ t, exec .recordWrite s = .next t ∧
       t.evr.records = e.records ∧ t.evr.queue = qs ∧ t.evr.lost.count = e.lost.count + 1 ∧ t.evr.lost.ovf = false ∧
       (e.buckets.rising = true → (t.evr.buckets.get .full q.ev.code).pending =
         min 0xFFFF ((e.buckets.get .full q.ev.code).pending + q.suppressed)))) ∧
  (((∀ (s : State) (code : Nat), s.quiet → s.evr.buckets.rising = true →
      let r := s.evr.rate code % 2 ^ 16
      let b := s.evr.buckets.get .full code
      r ≠ 0 → b.missing ≠ 0 → 1_250_000_000 * (b.added + 1) ≤ (s.core.clk.nominal - b.since) * r →
      ∃ t, exec (.tokenAdd code) s = .next t ∧ (t.evr.buckets.get .full code).missing = b.missing - 1 ∧
        (t.evr.buckets.get .full code).pending = b.pending ∧ t.evr.records = s.evr.records ∧ t.evr.queue = s.evr.queue) ∧
    (∀ s : State, s.quiet → s.evr.lost.beat ≠ s.core.clk.nominal →
      exec (.evrClear s.trim.admin) s = .next (s.afterE s.core { s.evr with
        full := false, lost := .zero, epoch := (s.evr.epoch + 1) % 2 ^ 32
        records := [⟨s.core.stamp.time, s.core.stamp.cp,
          ⟨0x0905, 0xFFFF, min 0xFFFF s.evr.lost.count, s.evr.epoch % 2 ^ 16, 0, 0xFFFF, 0⟩, 0, s.core.stamp.beat⟩] })) ∧
    (∀ s : State, s.evr.lost.beat = s.core.clk.nominal → s.evr.lost.part < 2 ^ 48 - 1 → s.quiet →
      ∃ t, exec (.evrClear s.trim.admin) s = .next t ∧ t.evr.lost.count = s.evr.lost.part ∧ t.evr.records.length = 1) ∧
    (∀ s : State,
      exec (.failClear s.trim.admin) s = .next (s.after { s.core with
        out := { s.core.out with failN := s.core.out.failN.filter (· != 1) } }))) ∧
   ((∀ (s : State) (w : RegWrite) (v : Nat),
      (w = ⟨0, 8, v⟩ ∧ v < 2 ^ 64) ∨
        (∃ h, h < 2 ^ 32 ∧ ((w = ⟨0, 4, h⟩ ∧ v = s.core.clk.time / 2 ^ 32 * 2 ^ 32 + h) ∨
          (w = ⟨4, 4, h⟩ ∧ v = s.core.clk.time % 2 ^ 32 + h * 2 ^ 32))) →
      ∃ t, exec (.evrTime s.trim.admin w) s = .next t ∧
      t.core.clk.time = v ∧ t.evr.timeSet = true ∧ t.core.clk.nominal = s.core.clk.nominal ∧
      ∃ a0 a1 a2, t.evr = (Evr.takeAll { s.evr with timeSet := true } { s.core.stamp with time := v }
          (s.core.outbox ++ [⟨0x0904, 0xFFFF, a0, a1, a2, 0xFFFF, 0⟩])).1 ∧
        (a0 * 2 ^ 32 + a1 * 2 ^ 16 + a2 : Nat) = timeStep s.core.clk.time v) ∧
    (∀ s : State, s.quiet → s.evr.enable = false → s.evr.timeSet = true → (∀ w ∈ s.evr.filters, w.2 < 2 ^ 50) →
      (bit s.evr.irq 8 = true → bits s.evr.irq 0 6 < (s.core.fn s.trim.admin).vectors) →
      ∃ t, exec (.evrEnableSet s.trim.admin) s = .next t ∧ t.evr.enable = true ∧ t.evr.live = s.evr.rates ∧
        t.evr.liveIrq = s.evr.irq ∧ t.evr.liveFilters = s.evr.filters ∧ t.evr.records = s.evr.records ∧
        t.evr.queue = s.evr.queue ∧ t.core = s.core) ∧
    (∀ s : State, s.quiet → s.evr.enable = false → s.evr.timeSet = false →
      exec (.evrEnableSet s.trim.admin) s = .next (s.afterE s.core { s.evr with refCode := 0x0901 })) ∧
    (∀ s : State, s.quiet → s.evr.enable = true →
      ∃ t, exec (.evrEnableClear s.trim.admin) s = .next t ∧ t.evr.enable = false ∧ t.evr.live = [] ∧ t.evr.liveIrq = 0 ∧
        t.evr.liveFilters = [] ∧ t.evr.records = s.evr.records ∧ t.evr.queue = s.evr.queue ∧ t.core = s.core)))

/-! ## Segments (01, 02, 09) -/

/-- R46, R204, R354: the oldest segment handed over is judged; one that passes every check is queued, and if it is TRAINING
joins the open step of its member contexts; one that fails completes with the code, BLF_LAST_REFUSAL names it, and it is gone.
-/
def Obligations.SegmentsAdmitted : Prop :=
  ∀ (s : State) (x : Seg),
    let c := s.core
    c.segs.find? (fun y => y.st = .handed) = some x → c.blf.stopped = false → ¬(c.keep.fwState = 2 ∧ c.keep.fwKind = 4) →
    (∀ arg, c.admitCode x = (0, arg) → x.img.training = false →
      exec .segmentAdmission s = .next (s.after (c.setSeg { x with st := .queued }))) ∧
    (∀ arg, c.admitCode x = (0, arg) → x.img.training = true → ∃ t, exec .segmentAdmission s = .next t ∧
      (∀ y ∈ t.core.segs, y.id = x.id → y.st = .queued ∧ y.steps = x.img.ctxs) ∧ t.core.towers = c.towers ∧ t.core.blf = c.blf) ∧
    (∀ code arg, c.admitCode x = (code, arg) → code ≠ 0 → ∃ t, exec .segmentAdmission s = .next t ∧
      t.core.blf = { c.blf with refCode := code, refCtx := x.ctx } ∧ (∀ y ∈ t.core.segs, y.id ≠ x.id) ∧
      t.core.towers = c.towers ∧ (c.answers x.req → State.completes s t x.req code))

/-- R267: when room is made the first waiting image that fits, with no earlier parked or waiting request of its context, is
placed and handed over, or refused for a check that it no longer passes. R48: a queued DROP_LATE segment whose deadline position has
passed cannot be released, and completes with 0x0305. R24: a halted core leaves the running ones, records 0x0A0E with its number and
asserts FAIL_N. R30, R256: the first parked request whose park deadline passed before its adaptations were ready completes with 0x0A06;
its fetch goes on. (The model's own choices in it: logs 21 and 50.) -/
def Obligations.SegmentsWaitAndExpire : Prop :=
  ((∀ (s : State) (x : Seg),
     let c := s.core
     c.coreUp 3 = true →
     c.segs.find? (fun y => y.st = .waiting && decide (c.poolUsed + c.unitsFor y.raw.length ≤ 1120)
       && c.segs.all (fun z => !(z.ctx = y.ctx && (z.st = .parked || z.st = .waiting) && decide (z.id < y.id)))) = some x →
     (c.handCode x = 0 → ∃ t, exec .imagePlacement s = .next t ∧ t.core.towers = c.towers ∧
       ∃ y ∈ t.core.segs, y.id = x.id ∧ y.st = .handed ∧ y.pooled = c.unitsFor x.raw.length) ∧
     (c.handCode x ≠ 0 → ∃ t, exec .imagePlacement s = .next t ∧ t.core.towers = c.towers ∧ (∀ y ∈ t.core.segs, y.id ≠ x.id) ∧
       (c.answers x.req → State.completes s t x.req (c.handCode x)))) ∧
   (∀ (s : State) (x : Seg),
     let c := s.core
     c.segs.find? (fun y => y.st = .queued && y.img.dropLate && decide (overrun c.cp y.img.deadline ≠ 0)) = some x →
     c.releasable x = none ∧ ∃ t, exec .dropLateExpiry s = .next t ∧ (∀ y ∈ t.core.segs, y.id ≠ x.id) ∧ t.core.towers = c.towers ∧
       (c.answers x.req → State.completes s t x.req 0x0305))) ∧
  ((∀ (s : State) (k : Nat), k < 4 → s.core.gate.halted.getD k true = false →
     ∃ t, exec (.coreHalt k) s = .next t ∧
       t.core.gate = { s.core.gate with halted := s.core.gate.halted.set k true, run := s.core.gate.run.set k false } ∧
       2 ∈ t.core.out.failN ∧ t.core.segs = s.core.segs ∧
       t.evr = (s.evr.takeAll s.core.stamp (s.core.outbox ++ [⟨0x0A0E, 0xFFFF, k, 0, 0, 0xFFFF, k⟩])).1) ∧
   (∀ (s : State) (x : Seg), s.core.coreUp 2 = true → s.core.segs.find? (fun y => y.st = .parked && !y.granted
       && (y.overAt.elim false (fun b => decide (b < s.core.clk.total)))) = some x →
     ∃ t, exec .parkDeadlineExpired s = .next t ∧ (∀ y ∈ t.core.segs, y.id ≠ x.id) ∧ t.core.towers = s.core.towers ∧
       (s.core.answers x.req → State.completes s t x.req 0x0A06)))

/-- R47, R212, R273: the first segment that can be released now is released in this beat: it runs, every tower of its set runs
it and holds its context, and no other tower changes; a queued segment starts at its first bundle with what its members latch
now, a swapped one goes on with the registers, position and group states its towers had saved. No other segment that can be released
goes before it on a tower of its own. (The model's own choices in it: logs 18 and 49.) -/
def Obligations.SegmentsReleased : Prop :=
  ∀ (s : State) (x : Seg) (offs : List (Nat × Nat)),
    let c := s.core
    c.nextRelease c.byDefault = some (x, offs) →
    (∀ y ∈ c.segs, y.id ≠ x.id → y.shares x = true → y.before x = true → (c.byDefault y = true ∨ c.progSeg y = true) →
      c.releasable y = none) ∧
    ∃ t, exec .segmentRelease s = .next t ∧
      (∀ y ∈ t.core.segs, y.id = x.id → y.st = .running ∧ y.saved = [] ∧
        (x.st = .queued → y.start = c.clk.total ∧ y.latches = x.img.members.map c.latch)) ∧
      (∀ k ∈ towersOf x.img.towerSet, k < c.towers.length → ∀ p, x.img.prog k = some p →
        (t.core.tower k).st = .running ∧ (t.core.tower k).seg = some x.id ∧
        (x.saved = [] → (t.core.tower k).pc = 0 ∧ (t.core.tower k).ctx = x.ctx) ∧
        (∀ old, x.saved.find? (fun z => z.1 = k) = some (k, old) → (t.core.tower k).pc = old.pc ∧
          (t.core.tower k).groups.map (fun g => (g.full, g.level)) = old.groups.map (fun g => (g.full, g.level)) ∧
          (t.core.tower k).aregs = old.aregs ∧ (t.core.tower k).loops = old.loops)) ∧
      ((∀ z ∈ x.saved, z.1 ∈ towersOf x.img.towerSet) → ∀ k, k ∉ towersOf x.img.towerSet → t.core.tower k = c.tower k)

/-- R55, R56, R78: the first running segment whose towers have all issued their last bundle in an earlier beat, or that a fault has
stopped on every tower, ends: its towers are free, for a release from the beat after its end on; one that closes no step completes
with the code of its outcome. -/
def Obligations.SegmentsEnd : Prop :=
  ∀ (s : State) (x : Seg),
    let c := s.core
    c.segs.find? (fun y => y.st = .running && c.allTowers y.img (y.over c.clk.total)) = some x →
    ∃ t, exec .segmentEnd s = .next t ∧
      (∀ k, (c.tower k).seg = some x.id → (t.core.tower k).seg = none ∧ (t.core.tower k).ctx = 0xFFFF ∧
        (t.core.tower k).freeFrom = if x.out.fault = 0 then c.clk.total else c.clk.total + 1) ∧
      (∀ k, (c.tower k).seg ≠ some x.id → t.core.tower k = c.tower k) ∧
      (x.stepEnd = false → (∀ y ∈ t.core.segs, y.id ≠ x.id) ∧
        (c.answers x.req → State.completes s t x.req x.out.fault)) ∧
      (x.stepEnd = true → x.img.training = true → (∃ z ∈ x.img.ctxs, z ∈ x.steps) → ∀ y ∈ t.core.segs, y.id = x.id → y.st = .ended)

/-! ## Release programs (02) -/

/-- R58, R60: WAIT_REL goes on at or after the anchor plus its offset, WAIT_PULSE at the pulse after the anchor and in the
phase slot, and until then both wait; SET_ANCHOR sets the anchor to the present position, LOOP branches its number of times and then
goes on, END ends the program. R58 to R60: RELEASE releases the context's next segment when R47 allows it, makes
the release the anchor and gives up the context's reservations, and completes a segment that another operation is to release with
0x030B; FORECAST reserves once the reservation fits; BALLAST adds ballast of at most MAX_POWER on the towers that hold no segment;
in holdover FORECAST waits and no ballast runs. (The model's own choices in it: log 17.) -/
def Obligations.ProgramsRun : Prop :=
  (∀ (s : State) (x : Nat) (v : Ctx) (r : ProgRun),
     let c := s.core
     let w := v.prog.getD r.idx 0
     let go (r' : ProgRun) : State := s.after (c.setCtx x { v with running := some r' })
     (c.standsAt x 2 v r → atOrAfter c.cp ((r.anchor + pArg w) % 2 ^ 64) = true →
       exec (.waitRel x) s = .next (go { r with idx := r.idx + 1 })) ∧
     (c.standsAt x 2 v r → atOrAfter c.cp ((r.anchor + pArg w) % 2 ^ 64) = false → exec (.waitRel x) s = .next (s.after c)) ∧
     (c.standsAt x 3 v r → atOrAfter c.cp ((r.anchor / 2 ^ 24 + pArg w) % 2 ^ 40 * 2 ^ 24) = true → c.inSlot = true →
       exec (.waitPulse x) s = .next (go { r with idx := r.idx + 1 })) ∧
     (c.standsAt x 3 v r →
       (atOrAfter c.cp ((r.anchor / 2 ^ 24 + pArg w) % 2 ^ 40 * 2 ^ 24) = false ∨ c.inSlot = false) →
       exec (.waitPulse x) s = .next (s.after c)) ∧
     (c.standsAt x 7 v r → exec (.setAnchor x) s = .next (go { r with idx := r.idx + 1, anchor := c.cp })) ∧
     (c.standsAt x 6 v r → bits w 48 8 = 0 → exec (.releaseLoop x) s = .next (go { r with idx := bits w 0 6 })) ∧
     (c.standsAt x 6 v r → r.loops.get 0 r.idx < bits w 48 8 →
       exec (.releaseLoop x) s = .next (go { r with
         idx := bits w 0 6, loops := r.loops.set 0 r.idx (r.loops.get 0 r.idx + 1) })) ∧
     (c.standsAt x 6 v r → bits w 48 8 ≠ 0 → bits w 48 8 ≤ r.loops.get 0 r.idx →
       exec (.releaseLoop x) s = .next (go { r with idx := r.idx + 1, loops := r.loops.erase r.idx })) ∧
     (c.standsAt x 0 v r → exec (.releaseEnd x) s = .next (s.after (c.setCtx x { v with running := none })))) ∧
  (∀ (s : State) (x : Nat) (v : Ctx) (r : ProgRun),
     let c := s.core
     let w := v.prog.getD r.idx 0
     (∀ (y : Seg) (offs : List (Nat × Nat)), c.standsAt x 1 v r → c.segs.find? (fun z => z.ctx = x && z.st = .queued) = some y →
       (y.img.releaseIndex = 0xFF ∨ y.img.releaseIndex = r.idx) → c.nextRelease (fun z => z.id = y.id) = some (y, offs) →
       ∃ t, exec (.release x) s = .next t ∧ (∀ z ∈ t.core.segs, z.id = y.id → z.st = .running) ∧
         (∀ z ∈ t.core.pow.reservations, z.ctx ≠ x) ∧
         ∃ v' : Ctx, t.core.ctx? x = some v' ∧ v'.running = some { r with
           idx := r.idx + 1, anchor := c.cp, waitEnd := if pFlags w = 1 then some y.id else none }) ∧
     (∀ y : Seg, c.standsAt x 1 v r → c.segs.find? (fun z => z.ctx = x && z.st = .queued) = some y →
       y.img.releaseIndex ≠ 0xFF → y.img.releaseIndex ≠ r.idx →
       ∃ t, exec (.release x) s = .next t ∧ (∀ z ∈ t.core.segs, z.id ≠ y.id) ∧ t.core.towers = c.towers ∧
         (c.answers y.req → State.completes s t y.req 0x030B)) ∧
     (c.standsAt x 4 v r → c.prc.state = .holdover → exec (.forecast x) s = .next (s.after c)) ∧
     (c.standsAt x 5 v r → c.prc.state = .holdover →
       exec (.ballast x) s = .next (s.after (c.setCtx x { v with running := some { r with idx := r.idx + 1 } }))) ∧
     (let c' : Core := { c with pow := { c.pow with
         reservations := c.pow.reservations ++ [(⟨x, bits w 40 16, c.window, bits w 24 16⟩ : Reservation)] } }
      c.standsAt x 4 v r → c.prc.state ≠ .holdover →
        (c'.fits c'.loads c'.eighths = true →
          exec (.forecast x) s = .next (s.after (c'.setCtx x { v with running := some { r with idx := r.idx + 1 } }))) ∧
        (c'.fits c'.loads c'.eighths = false → exec (.forecast x) s = .next (s.after c))) ∧
     (c.standsAt x 5 v r → c.prc.state ≠ .holdover →
       ∃ (t : State) (b : Ballast), exec (.ballast x) s = .next t ∧ t.core.pow.ballast = c.pow.ballast ++ [b] ∧ b.ctx = x ∧ b.count = bits w 24 16 ∧
         b.first = c.window ∧ b.watts ≤ bits w 40 16 ∧ b.watts ≤ c.pow.maxPower ∧
         (∀ k ∈ b.towers, (c.tower k).seg = none ∧ (c.tower k).fenced = false) ∧
         ∃ v' : Ctx, t.core.ctx? x = some v' ∧ v'.running = some { r with idx := r.idx + 1 }))

/-! ## Towers (03, 05 to 08) -/

/-- R67, R69, R70, R77: a due bundle that waits for nothing and fails no check issues whole, whichever of its operations names
it (log 3): its tower goes to what the slots, the sub-ops and the register updates make of it, the position moves on, and no
other tower changes; an operation reads and writes from then on, so but at a yield point the store is as it was. R69, R70, R38: a
bundle that is not due, that waits on a queue, or that a change of factor holds back, does not issue. -/
def Obligations.BundlesIssue : Prop :=
  (∀ (s : State) (k : Nat) (sg : Seg) (e : TEnv) (y : Tower) (loads : List (Nat × Nat)), s.core.mayIssue k sg e y loads →
     let x := s.core.tower k
     let b := e.bundle x
     ∀ i : Instr,
       carries b k i →
       ∃ t, exec i s = .next t ∧ (bCtl b ≠ 3 ∨ x.checks = [] → t.core.tower k = (issueEffect e b x y loads).t ∧
           x.advanced (t.core.tower k) b) ∧
         (bCtl b ≠ 2 → (t.core.tower k).store = x.store ∧ (t.core.tower k).tags = x.tags) ∧
         (∀ j, j ≠ k → t.core.tower j = s.core.tower j) ∧ t.core.clk = s.core.clk ∧ t.core.blf = s.core.blf) ∧
  (∀ (s : State) (k : Nat) (sg : Seg) (e : TEnv) (i : Instr), s.core.env k = some (sg, e) → sg.out.fault = 0 →
     i ∈ [.nop k, .loop k, .barrier k, .endSeg k, .aregSet k, .aregAdd k, .aregStep k, .load k, .pass k, .forward k, .sample k,
       .merge k, .drain k, .stream k, .reduce k, .rule k, .zero k, .save k, .restore k, .copy k, .pop k, .retire k, .openOut k,
       .push k] →
     (e.isDue (s.core.tower k) = false ∨ e.waits (s.core.tower k) = true ∨ s.core.blf.hold ≠ 0) →
     exec i s = .next (s.after s.core))

/-- R71, R72, R90, R91, R67: what the control slot does. LOOP pushes its body with the passes left; BARRIER stands at it and
at a yield point clears the stores and planes; END ends the tower's work, empties its queues and completes its row checks; AREG_SET, AREG_ADD and
AREG_STEP write their register; a bundle of nothing changes nothing but the position. R79 to R81: POP takes the oldest PRESENT
entry into use and loads its slot address; RETIRE frees the oldest entry in use; OPEN opens the next FREE entry and loads its
slot address; PUSH hands the oldest opened entry to the fetch engine. In a bundle whose only queue sub-op it is, every other
entry stays. (The model's own choices in it: logs 3, 46, 93 and 94.) -/
def Obligations.ControlAndQueueBundles : Prop :=
  (∀ (s : State) (k : Nat) (sg : Seg) (e : TEnv) (y : Tower) (loads : List (Nat × Nat)), s.core.mayIssue k sg e y loads →
     let x := s.core.tower k
     let b := e.bundle x
     (bEmpty b = true → ∃ t, exec (.nop k) s = .next t ∧ x.advanced (t.core.tower k) b ∧ (t.core.tower k).store = x.store ∧
       (t.core.tower k).groups = x.groups ∧ (t.core.tower k).active = x.active ∧ (t.core.tower k).shadow = x.shadow ∧
       (t.core.tower k).queues = x.queues) ∧
     (bCtl b = 1 → 1 < bLoopBody b → x.loops.any (fun l => l.first = x.pc) = false →
       ∃ t, exec (.loop k) s = .next t ∧ (t.core.tower k).pc = x.pc + 1 ∧
         (t.core.tower k).loops = ⟨x.pc, x.pc + bLoopBody b - 1, bLoopCount b - 1⟩ :: x.loops) ∧
     (bCtl b = 2 → ∃ t, exec (.barrier k) s = .next t ∧ (t.core.tower k).atBarrier = true ∧
       (t.core.tower k).barriers = x.barriers + 1 ∧
       (e.im.barriers[bBarrier b]?.map (·.2) = some true →
         (t.core.tower k).store = [] ∧ (t.core.tower k).active = List.replicate 4 .clear ∧
         (t.core.tower k).shadow = List.replicate 4 .clear)) ∧
     (bCtl b = 3 → ∃ t, exec (.endSeg k) s = .next t ∧ (t.core.tower k).done = true ∧
       (t.core.tower k).doneAt = s.core.clk.total ∧ (t.core.tower k).queues = List.replicate 16 .empty ∧
       (t.core.tower k).flightIn = [] ∧ (t.core.tower k).checks = []) ∧
     (bCtl b = 4 → bCReg b < x.aregs.length → (∀ l ∈ loads, l.1 ≠ bCReg b) →
       ∃ t, exec (.aregSet k) s = .next t ∧ ((t.core.tower k).areg (bCReg b)).val = bCVal b) ∧
     (bCtl b = 5 → bMop b = 0 → bDop b = 0 → bVop b = 0 → bAop b = 0 → bCReg b < x.aregs.length → (∀ l ∈ loads, l.1 ≠ bCReg b) →
       ∃ t, exec (.aregAdd k) s = .next t ∧
         ((t.core.tower k).areg (bCReg b)).val = adr ((x.areg (bCReg b)).val + bCVal b)) ∧
     (bCtl b = 6 → bCReg b < x.aregs.length →
       ∃ t, exec (.aregStep k) s = .next t ∧ ((t.core.tower k).areg (bCReg b)).step = bCVal b)) ∧
  (∀ (s : State) (k : Nat) (sg : Seg) (e : TEnv) (y : Tower) (loads : List (Nat × Nat)), s.core.mayIssue k sg e y loads →
     let x := s.core.tower k
     let b := e.bundle x
     let q := bQueue b 0
     let w := x.queue q
     bQop b 1 = 0 → bCtl b ≠ 3 → bQReg b 0 < x.aregs.length →
     (bQop b 0 = 1 → ∃ t, exec (.pop k) s = .next t ∧ (w.entry w.mid).st = .present ∧
       (t.core.tower k).queues = x.queues.set q { w.setEntry w.mid { w.entry w.mid with st := .inUse } with mid := (w.mid + 1) % 16 } ∧
       ((t.core.tower k).areg (bQReg b 0)).val = slotOf e.prog q w.mid) ∧
     (bQop b 0 = 2 → ∃ t, exec (.retire k) s = .next t ∧ (w.entry w.tail).st = .inUse ∧
       (t.core.tower k).queues = x.queues.set q 
         { w.setEntry w.tail { QEntry.free with freeAt := s.core.clk.total + 1 } with tail := (w.tail + 1) % 16 }) ∧
     (bQop b 0 = 3 → ∃ t, exec (.openOut k) s = .next t ∧ (w.entry w.head).st = .free ∧
       (t.core.tower k).queues = x.queues.set q { w.setEntry w.head { w.entry w.head with st := .opened } with head := (w.head + 1) % 16 } ∧
       ((t.core.tower k).areg (bQReg b 0)).val = slotOf e.prog q w.head) ∧
     (bQop b 0 = 4 → ∃ t, exec (.push k) s = .next t ∧ (w.entry w.mid).st = .opened ∧
       (t.core.tower k).queues = x.queues.set q { w.setEntry w.mid { w.entry w.mid with st := .pushed } with mid := (w.mid + 1) % 16 }))

/-- R63, R73, R121: LOAD busies the load port, and after its last beat, not before, the planes its mask selects hold what it read,
in its format, and no other does; PASS takes the planes, exchanged first where it says so, and busies the array, and a group changes
only in the beats in which a row reaches it (R134); FORWARD and SAMPLE busy the delta lane with their PASS; MERGE busies it 20 beats, in
the first 16 of which it sets a sum to be written four beats later (R177). R194, R228, R140, R215: a chain operation busies the vector
unit for its beats, a RULE for 16 and its passes, and a RULE on a frozen group writes nothing and counts its pages as suppressed; ZERO
empties its group, SAVE, RESTORE and COPY hold theirs for 256 beats. (The model's own choices in it: log 3.) -/
def Obligations.ArrayAndVectorBundles : Prop :=
  (∀ (s : State) (k : Nat) (sg : Seg) (e : TEnv) (y : Tower) (loads : List (Nat × Nat)), s.core.mayIssue k sg e y loads →
     let x := s.core.tower k
     let b := e.bundle x
     let now := s.core.clk.total
     (bMop b = 1 → (∃ p, p < 4 ∧ bit (bMask b) p = true) → ∃ (t : State) (j : LoadJob), exec (.load k) s = .next t ∧
       (t.core.tower k).loadUntil = now + popcount 4 (bMask b) * planeBeats (bWFmt b) ∧ .load j ∈ (t.core.tower k).jobs ∧
       j.op.at_ = now ∧ j.mask = setBits 4 (bMask b) ∧ j.fmt = bWFmt b ∧ j.addr = (x.areg (bMReg b)).val) ∧
     (bMop b = 2 → ∃ (t : State) (j : PassJob), exec (.pass k) s = .next t ∧ (t.core.tower k).arrayUntil = now + bBusy b ∧
       (bCtl b ≠ 2 → (t.core.tower k).active = (if bSwap b then x.shadow else x.active) ∧
         (t.core.tower k).shadow = (if bSwap b then x.active else x.shadow)) ∧
       .pass j ∈ (t.core.tower k).jobs ∧ j.op.at_ = now ∧ j.b = b ∧ j.planes = (if bSwap b then x.shadow else x.active)) ∧
     (bDop b = 1 → (bCtl b ≠ 3 ∨ x.checks = []) → ∃ t, exec (.forward k) s = .next t ∧ (t.core.tower k).laneBusy = true ∧
       (t.core.tower k).arrayUntil = now + bBusy b) ∧
     (bDop b = 2 → (bCtl b ≠ 3 ∨ x.checks = []) → ∃ t, exec (.sample k) s = .next t ∧ (t.core.tower k).laneBusy = true ∧
       (t.core.tower k).arrayUntil = now + bBusy b) ∧
     (bDop b = 3 → ∃ (t : State) (j : MergeJob), exec (.merge k) s = .next t ∧ (t.core.tower k).laneBusy = true ∧
       .merge j ∈ (t.core.tower k).jobs ∧ j.op.at_ = now ∧ j.src = (x.areg (bDSrc b)).val ∧ j.dst = (x.areg (bDDst b)).val)) ∧
  (∀ (s : State) (k : Nat) (sg : Seg) (e : TEnv) (y : Tower) (loads : List (Nat × Nat)), s.core.mayIssue k sg e y loads →
     let x := s.core.tower k
     let b := e.bundle x
     let now := s.core.clk.total
     (bVop b = 1 → ∃ (t : State) (j : ChainJob), exec (.drain k) s = .next t ∧ (t.core.tower k).chainUntil = now + (e.cctx b).busy ∧
       .chain j ∈ (t.core.tower k).jobs ∧ j.op.at_ = now ∧ j.b = b ∧ j.aregs = x.aregs) ∧
     (bVop b = 2 → ∃ (t : State) (j : ChainJob), exec (.stream k) s = .next t ∧ (t.core.tower k).chainUntil = now + (e.cctx b).busy ∧
       .chain j ∈ (t.core.tower k).jobs ∧ j.op.at_ = now ∧ j.b = b ∧ j.aregs = x.aregs) ∧
     (bVop b = 3 → ∃ (t : State) (j : ChainJob), exec (.reduce k) s = .next t ∧ (t.core.tower k).chainUntil = now + (e.cctx b).busy ∧
       .chain j ∈ (t.core.tower k).jobs ∧ j.op.at_ = now ∧ j.b = b ∧ j.aregs = x.aregs) ∧
     (∀ rc, bVop b = 4 → e.ruleCtx b x = some rc → ∃ (t : State) (j : RuleJob), exec (.rule k) s = .next t ∧
       (t.core.tower k).chainUntil = now + 16 + bVRows b * ruleP rc.prog ∧ .rule j ∈ (t.core.tower k).jobs ∧ j.op.at_ = now ∧
       j.ctx = rc ∧ j.rows = bVRows b ∧ j.frozen = bit rc.latch.frozen rc.gi ∧
       (j.frozen = true → ∀ z ∈ t.core.segs, z.id = sg.id → z.out.frozen = sg.out.frozen ++ [(rc.member, rc.gi, bVRows b)])) ∧
     (bAop b = 1 → e.im.spire = false → bAGroup b < x.groups.length → ∃ t, exec (.zero k) s = .next t ∧
       (t.core.tower k).group (bAGroup b) = .empty ∧ (t.core.tower k).accUntil = now + 1) ∧
     (bAop b = 1 → e.im.spire = true → ∃ t, exec (.zero k) s = .next t ∧ (t.core.tower k).accUntil = now + 1) ∧
     (bAop b = 2 → ∃ (t : State) (j : AccJob), exec (.save k) s = .next t ∧ (t.core.tower k).accUntil = now + 256 ∧
       .acc j ∈ (t.core.tower k).jobs ∧ j.op.at_ = now ∧ j.b = b ∧ j.addr = (x.areg (bAReg b)).val) ∧
     (bAop b = 3 → ∃ (t : State) (j : AccJob), exec (.restore k) s = .next t ∧ (t.core.tower k).accUntil = now + 256 ∧
       .acc j ∈ (t.core.tower k).jobs ∧ j.op.at_ = now ∧ j.b = b ∧ j.addr = (x.areg (bAReg b)).val) ∧
     (bAop b = 4 → e.im.spire = false → bGroup2 b < x.groups.length → ∃ t, exec (.copy k) s = .next t ∧
       ((t.core.tower k).group (bGroup2 b)).full = true ∧ (t.core.tower k).accUntil = now + 256) ∧
     (bAop b = 4 → e.im.spire = true → ∃ t, exec (.copy k) s = .next t ∧ (t.core.tower k).accUntil = now + 256)) ∧
  (∀ (e : TEnv) (o : BOut) (j : LoadJob),
     let o' := (Job.load j).beat e o
     let d := e.now - j.op.at_
     (∀ p ∈ j.mask, p < 4) → j.mask.Nodup → o.t.shadow.length = 4 →
     (d + 1 ≠ j.mask.length * planeBeats j.fmt → o'.t.shadow = o.t.shadow) ∧
     (d + 1 = j.mask.length * planeBeats j.fmt → o'.t.jobs = o.t.jobs ∧ ∀ p, p < 4 →
       (p ∈ j.mask → (o'.t.shadow.getD p .clear).fmt = j.fmt) ∧ (p ∉ j.mask → o'.t.shadow.getD p .clear = o.t.shadow.getD p .clear)) ∧
     o'.t.active = o.t.active) ∧
  (∀ (e : TEnv) (o : BOut) (j : PassJob), j.lane = none → (∀ r, e.now - j.op.at_ ≠ bRowBeats j.b * (r + 1) + 5) →
     ((Job.pass j).beat e o).t.groups = o.t.groups) ∧
  (∀ (e : TEnv) (o : BOut) (j : MergeJob),
     let d := e.now - j.op.at_
     (d < 16 → ∃ w, ((Job.merge j).beat e o).t.landing = o.t.landing ++ [w] ∧ w.beat = e.now + 4 ∧ w.tile = none ∧
       w.addr = j.dst + 256 * d ∧ w.n = 256 ∧ w.tag = j.tag ∧ w.v = mergeSum o.t.store (j.src + 256 * d) (j.dst + 256 * d)) ∧
     (16 ≤ d → ((Job.merge j).beat e o).t.landing = o.t.landing) ∧ ((Job.merge j).beat e o).laneBeats = o.laneBeats + 1) ∧
  (∀ (e : TEnv) (o : BOut) (j : RuleJob), j.frozen = true →
     ((Job.rule j).beat e o).t.landing = o.t.landing ∧ ((Job.rule j).beat e o).t.store = o.t.store ∧
     ((Job.rule j).beat e o).pages = o.pages)

/-- R82, R85 to R89, R173: the fetch engine, which issues no inbound repeat after END, no outbound repeat while a row check is
outstanding, and at most eight of a direction that have not landed. An inbound repeat that may issue joins the repeats in flight and
fills the next entry; an outbound one writes the oldest PUSHED entry; the oldest sealed FILLING entry becomes PRESENT when its last bytes land, and
keeps the poison it already has; the oldest sealed WRITING entry is FREE once its write is accepted. (The model's own choices
in it: logs 47, 94 and 97.) -/
def Obligations.FetchEngine : Prop :=
  (∀ (s : State) (k : Nat) (sg : Seg) (e : TEnv), s.core.env k = some (sg, e) →
    let c := s.core
    let x := c.tower k
    let ds := e.prog.descs
    let n := nextDesc ds true x.inPtr.1
    let i := if n = x.inPtr.1 then x.inPtr.2 else 0
    let d := ds.getD n 0
    let q := x.queue (dQueue d)
    (x.done = true → exec (.inboundIssue k) s = .next (s.after c)) ∧
    (fullFlight (c.makeFlight ds k x.flightIn) = true → exec (.inboundIssue k) s = .next (s.after c)) ∧
    (n < ds.length → x.st = .running → x.done = false → x.startIn + x.swapLeft = 0 → dIssueAt d i ≤ x.sched →
    (((q.entry q.head).st = .free ∧ (q.entry q.head).freeAt ≤ c.clk.total) ∨ ((q.entry q.head).st = .filling ∧ (q.entry q.head).sealed = false)) →
    fullFlight x.flightIn = false → yieldAhead e.im x.barriers (dIssueAt d i) = false → c.repeatFault sg d i = 0 →
    ∃ (t : State) (f : Flight), exec (.inboundIssue k) s = .next t ∧
      (t.core.tower k).flightIn = x.flightIn ++ [f] ∧ f.desc = n ∧ f.rep = i ∧ f.queue = dQueue d ∧ f.entry = q.head ∧
      f.landed = false ∧ f.deadline = (c.clk.nominal : Int) + ((dDeadlineAt d i : Int) - (x.sched : Int)) ∧
      (t.core.tower k).inPtr = advance ds true n i ∧ (t.core.tower k).inBlocked = false ∧
      (t.core.tower k).store = x.store ∧ ∀ j, j ≠ k → t.core.tower j = c.tower j)) ∧
  (∀ (s : State) (k : Nat) (sg : Seg) (e : TEnv), s.core.env k = some (sg, e) →
    let c := s.core
    let x := c.tower k
    let ds := e.prog.descs
    let n := nextDesc ds false x.outPtr.1
    let i := if n = x.outPtr.1 then x.outPtr.2 else 0
    let d := ds.getD n 0
    let q := x.queue (dQueue d)
    (x.checks ≠ [] → exec (.outboundIssue k) s = .next (s.after c)) ∧
    (x.checks = [] →
    n < ds.length → x.st = .running → x.startIn + x.swapLeft = 0 → dIssueAt d i ≤ x.sched → fullFlight x.flightOut = false →
    ((q.entry q.tail).st = .pushed ∨ ((q.entry q.tail).st = .writing ∧ (q.entry q.tail).sealed = false)) →
    c.repeatFault sg d i = 0 →
    ∃ (t : State) (f : Flight), exec (.outboundIssue k) s = .next t ∧
      (t.core.tower k).flightOut = x.flightOut ++ [f] ∧ f.desc = n ∧ f.rep = i ∧ f.queue = dQueue d ∧ f.entry = q.tail ∧
      f.landed = false ∧ f.deadline = (c.clk.nominal : Int) + ((dDeadlineAt d i : Int) - (x.sched : Int)) ∧
      (t.core.tower k).outPtr = advance ds false n i ∧ (t.core.tower k).store = x.store ∧
      ∀ j, j ≠ k → t.core.tower j = c.tower j)) ∧
  (∀ (s : State) (k q n : Nat) (sg : Seg) (e : TEnv) (retried : Bool) (dome : Check), s.core.env k = some (sg, e) →
    let x := s.core.tower k
    let w := x.queue q
    q < x.queues.length → w.entries.length = 16 →
    ((List.range 16).map (fun j => (w.mid + j) % 16)).find? (fun j => decide ((w.entry j).st = .filling)) = some n →
    (w.entry n).sealed = true → (∀ z ∈ s.core.xfers, ∀ d r, z.role = .tower k q n d r → z.ended = true) →
    x.turned e.prog.descs q n s.core.clk.total = true →
    ∃ t, exec (.entryPresent k q retried dome) s = .next t ∧ (((t.core.tower k).queue q).entry n).st = .present ∧
      (∀ f ∈ (t.core.tower k).flightIn, ¬(f.queue = q ∧ f.entry = n)) ∧
      ((w.entry n).poison ≠ 0 → (((t.core.tower k).queue q).entry n).poison = (w.entry n).poison)) ∧
  (∀ (s : State) (k q n : Nat) (sg : Seg) (e : TEnv), s.core.env k = some (sg, e) →
    let x := s.core.tower k
    let w := x.queue q
    q < x.queues.length → w.entries.length = 16 →
    ((List.range 16).map (fun j => (w.tail + 1 + j) % 16)).find? (fun j => (w.entry j).st = .writing && (w.entry j).sealed) = some n →
    ∃ t, exec (.writeAccepted k q) s = .next t ∧ ((t.core.tower k).queue q).entry n = .free)

/-- R96, R78: a bundle that has waited longer than LIMIT faults its tower with 0x010A at the slot it waits on: the tower stops, its
segment takes the code, and the segment's other towers go on to their next bundle, where each stops with 0x0101 in place of issuing.
R173, R174: a row check that finds every row at its member is dropped; one that does not stops the delta lane and faults the tower with
0x010F. (The model's own choices in it: logs 11 and 93.) -/
def Obligations.TowersFault : Prop :=
  (∀ (s : State) (k : Nat) (sg : Seg) (e : TEnv), s.core.env k = some (sg, e) →
    let x := s.core.tower k
    e.isDue x = true → e.waits x = true → bits (s.core.reg (twrBase k + 0x30)) 0 32 < x.wait →
    ∃ t, exec (.stallLimitExceeded k) s = .next t ∧ (t.core.tower k).st = .faulted ∧
      (t.core.tower k).fault = ⟨0x010A, (waitSlot e x).1, (waitSlot e x).2, x.pc, x.sched⟩ ∧ (t.core.tower k).jobs = x.jobs ∧
      (sg.out.fault = 0 → ∀ z ∈ t.core.segs, z.id = sg.id → z.out.fault = 0x010A ∧ z.st = sg.st) ∧
      (∀ j, j ≠ k → t.core.tower j = s.core.tower j)) ∧
  (∀ (s : State) (k : Nat) (sg : Seg) (e : TEnv) (i : Instr), s.core.env k = some (sg, e) → sg.out.fault ≠ 0 → s.core.blf.hold = 0 →
    let x := s.core.tower k
    x.st = .running → e.isDue x = true → carries (e.bundle x) k i →
    ∃ t, exec i s = .next t ∧ (t.core.tower k).st = .faulted ∧ (t.core.tower k).fault.code = 0x0101 ∧ (t.core.tower k).pc = x.pc ∧
      (t.core.tower k).store = x.store ∧ t.core.segs = s.core.segs ∧ (∀ j, j ≠ k → t.core.tower j = s.core.tower j)) ∧
  (∀ (s : State) (k : Nat) (sg : Seg) (e : TEnv) (h : RowCheck) (hs : List RowCheck), s.core.env k = some (sg, e) →
    (s.core.tower k).checks = h :: hs →
    let ok := (List.range' h.first h.count).all (fun r => e.im.memberOf r = some h.member)
    (ok = true → exec (.deltaRowCheck k) s = .next (s.after (s.core.setTower k { s.core.tower k with checks := hs }))) ∧
    (ok = false → (s.core.tower k).st ≠ .faulted → ∃ t, exec (.deltaRowCheck k) s = .next t ∧ (t.core.tower k).st = .faulted ∧
      (t.core.tower k).fault = ⟨0x010F, 2, h.group, h.bundle, h.sched⟩ ∧
      (∀ p, .pass p ∈ (t.core.tower k).jobs → p.lane = none) ∧ (∀ j, j ≠ k → t.core.tower j = s.core.tower j)))

/-- R91, R148, R272, R273: at a yield point that another host's work waits for, the segment is swapped out: its towers are free of it
once the beats of its save have passed, until which they hold their full groups; their registers, positions and group states are kept
with it, and the words of their groups go out to its context's transient space, from which the parts read back give the words again.
R153, R154: when a tower's self-test ends it is fenced exactly when a unit failed or its region is fenced. (The model's own choices in
it: log 18.) -/
def Obligations.TowersSwapAndTest : Prop :=
  (∀ (s : State) (k : Nat) (x : Seg), (s.core.tower k).seg.bind s.core.seg? = some x → x.st = .running →
    s.core.coreUp 3 = true → s.core.swappable x = true → (s.core.wanted x = true ∨ s.core.prc.state = .stopping) →
    ((s.core.evictFor s.trim s.dram x.saveFrames).saveSpace x).isSome = true →
    ∃ t, exec (.swapOut k) s = .next t ∧
      (∀ y ∈ t.core.segs, y.id = x.id → y.st = .swapped ∧ y.saved.map (·.1) = towersOf x.img.towerSet ∧
        ∀ j old, (j, old) ∈ y.saved → old.aregs = (s.core.tower j).aregs ∧ old.pc = (s.core.tower j).pc ∧
          old.loops = (s.core.tower j).loops ∧
          old.groups.map (fun g => (g.full, g.level)) = (s.core.tower j).groups.map (fun g => (g.full, g.level))) ∧
      (∀ j, (s.core.tower j).seg = some x.id → (t.core.tower j).seg = none ∧ (t.core.tower j).st = .swapped ∧
        (t.core.tower j).freeFrom = s.core.clk.total + (s.core.tower j).swapBeats ∧
        (t.core.tower j).holds = (s.core.tower j).groups.map (fun g =>
          if g.full then ⟨5, s.core.clk.total + (s.core.tower j).swapBeats, s.core.clk.total + (s.core.tower j).swapBeats⟩
          else ⟨0, 0, 0⟩)) ∧
      (∀ j, (s.core.tower j).seg ≠ some x.id → t.core.tower j = s.core.tower j)) ∧
  (∀ (g h : Group) (p i : Nat), i < 512 → h.words.rising = true → entryClean (g.words.get 0 (512 * p + i)) = g.words.get 0 (512 * p + i) →
    (h.loadLines p (.ok ((g.saveLines p).map (fun l => l.2)))).words.get 0 (512 * p + i) = g.words.get 0 (512 * p + i)) ∧
  (∀ (s : State) (k u : Nat), k < s.core.towers.length → (s.core.tower k).testDone = false →
    (s.core.tower k).testEnd ≤ s.core.clk.nominal →
    ∃ t, exec (.selfTestDone k u) s = .next t ∧
      t.core.tower k = { s.core.tower k with
        testDone := true, testPass := u = 0, testUnit := u
        fenced := decide (u ≠ 0) || (s.core.prc.regions.getD (k / 4) .reset).fenced } ∧
      (∀ j, j ≠ k → t.core.tower j = s.core.tower j) ∧
      t.evr = (s.evr.takeAll s.core.stamp (s.core.outbox ++
        if u = 0 then [] else [⟨0x010B, 0xFFFF, u % 2 ^ 16, 0, 0, 0xFFFF, k⟩])).1)

/-! ## Settlement, residency and memory (08 to 10) -/

/-- R235 to R239: the first closing segment whose 9 beats have passed is settled and gone. A member whose step it closed and
whose outcome is 0 commits: STEP counts, SCHED_POS moves, LAST_CODE is 0, the written groups' banks flip, and the adaptation's
COMMIT takes the same, where the context holds its training claim; with another outcome only LAST_CODE changes, and the command
carries that code. R206: STEP never wraps: a step that would count past its limit is held with 0x0A1B. (The model's own choices in
it: logs 106 and 107.) -/
def Obligations.StepsSettle : Prop :=
  ∀ (s : State) (x : Seg),
    let c := s.core
    c.segs.find? (fun y => y.st = .ended && decide (y.due ≠ 0 ∧ y.due ≤ c.clk.total)) = some x →
    ¬(c.keep.fwState = 2 ∧ c.keep.fwKind = 4) → c.dir.rising = true →
    ∃ t, exec .stepSettle s = .next t ∧ (∀ y ∈ t.core.segs, y.id ≠ x.id) ∧ t.core.towers = c.towers ∧
      (c.answers x.req → ∃ code, State.completes s t x.req code) ∧
      ∀ z v, x.left = [z] → c.ctx? z = some v → v.record.closing = some x.id →
        (v.outcome.1 = 0 → v.commit.step ≠ 2 ^ 32 - 1 → ∃ v' : Ctx, t.core.ctx? z = some v' ∧
          v'.commit = ⟨v.commit.step + 1, v.nextPos, 0, v.commit.bank ^^^ v.flips⟩ ∧
          (v.training = true → (c.desc v.adapt).trainCtx = z → (t.core.desc v.adapt).commit = v'.commit) ∧
          (c.usesTransient z = false → v'.transient = false) ∧
          (c.answers x.req → State.completes s t x.req x.status)) ∧
        (v.outcome.1 = 0 → v.commit.step = 2 ^ 32 - 1 → ∃ v' : Ctx, t.core.ctx? z = some v' ∧
          v'.commit = { v.commit with last := 0x0A1B } ∧ (x.status = 0 → c.answers x.req → State.completes s t x.req 0x0A1B)) ∧
        (v.outcome.1 ≠ 0 → ∃ v' : Ctx, t.core.ctx? z = some v' ∧ v'.commit = { v.commit with last := v.outcome.1 } ∧
          (x.status = 0 → c.answers x.req → State.completes s t x.req v.outcome.1))

/-- R250, R257, R258: when the last page of a fetch has landed, as its tag list says, the entry is RESIDENT in the form
fetched and the command that asked for it completes; when the source fails, the entry is REMOTE again and the command
completes with 0x0A07, or 0x0A0B where frames are short. R316, R317, R259: a tag list that the seal check lets pass is kept,
once the frames of the form are allocated; one that it does not ends the fetch. R250, R261, R317: the source's acknowledgement
of a write-back's last page clears DIRTY and takes the seal; an entry under eviction leaves tier 1. (The model's own choices
in it: logs 24 to 26.) -/
def Obligations.FetchesAndWritebacks : Prop :=
  ((∀ (s : State) (i : Nat) (pages : List StoredPage) (f : Fetch),
     let c := s.core
     let d := c.desc i
     c.coreUp 2 = true → d.fetch = some f → f.sealOk = true → c.stands d = true → c.dir.rising = true →
     c.xfers.any (fun x => decide (x.role = .fetch i) && !x.ended) = false →
     ∃ t, exec (.tier2FetchDone i pages) s = .next t ∧ (t.core.desc i).st = .resident ∧
       (t.core.desc i).training = (d.training || f.training) ∧
       t.dram = pages.foldl (fun (dr : Dram) p => c.landPage dr i (withTag (d.statePages (c.groupsOf i) true) f.tags p)) s.dram ∧
       ∀ r, f.reqs = [r] → c.answers r → State.completes s t r 0) ∧
   (∀ (s : State) (i code : Nat) (f : Fetch),
     let c := s.core
     let d := c.desc i
     c.coreUp 2 = true → d.fetch = some f → c.dir.rising = true →
     ∃ t, exec (.tier2FetchFailed i code) s = .next t ∧ (t.core.desc i).st = (if d.st = .fetching then .remote else d.st) ∧ (t.core.desc i).fetch = none ∧
       ∀ r, f.reqs = [r] → c.answers r → State.completes s t r (if code = 0x0A0B then 0x0A0B else 0x0A07))) ∧
  ((∀ (s : State) (i : Nat) (tags : List TagEntry) (dome : Check) (f : Fetch),
     let c := s.core
     let d := c.desc i
     let act := sealAct d.sealSt (bit (c.slot d.keySlot).policy 2) (decide (sealOf d.tpn tags = d.sealV))
     c.coreUp 2 = true → d.fetch = some f → f.sealOk = false → d.claimant ≠ 0 → d.sealBad = false → dome ≠ .uncorrectable → c.dir.rising = true →
     (∀ code, act = .fail code → ∃ t, exec (.tagListReceived i tags dome) s = .next t ∧
       (t.core.desc i).st = (if d.st = .fetching then .remote else d.st) ∧ (t.core.desc i).fetch = none ∧
       ∀ r, f.reqs = [r] → c.answers r → State.completes s t r 0x0A07) ∧
     ((act = .proceed ∨ act = .adopt) → (c.allocRun i f.training).isSome = true →
       ∃ t, exec (.tagListReceived i tags dome) s = .next t ∧
         (t.core.desc i).fetch = some { f with sealOk := true, tags := tags } ∧
         (act = .adopt → (t.core.desc i).sealV = sealOf d.tpn tags ∧ (t.core.desc i).sealSt = 2))) ∧
   (∀ (s : State) (i : Nat) (r : Option Req),
     let c := s.core
     let d := c.desc i
     c.coreUp 2 = true → d.wb = some r → c.stands d = true → c.dir.rising = true → (c.moveOut s.dram i).2 = 0 →
     ∃ t, exec (.writebackDone i) s = .next t ∧ (t.core.desc i).wb = none ∧ (t.core.desc i).dirty = false ∧
       (t.core.desc i).sealSt = 3 ∧ (d.st = .resident → (t.core.desc i).st = .resident ∧
         ∀ q, r = some q → c.answers q → State.completes s t q 0)))

/-- R260, R261: below LOW_WATER the first candidate is evicted: a clean one is REMOTE at once, a DIRTY one with a host source
is claimed and its pages are written back. R263, R264: a tier-0 copy takes the active page it names; RECLAIM drops every dead
copy, and its unit of the pool is free. R21, R24: with core 2 halted none of its duties is done. (The model's own choices in it: logs
20, 28 and 104.) -/
def Obligations.TierZeroAndEviction : Prop :=
  (∀ (s : State) (i : Nat) (is : List Nat),
    let c := s.core
    c.coreUp 2 = true → c.freeFrames < bits (c.reg offTier1) 0 16 * 2 ^ 18 → c.comingFrames < bits (c.reg offTier1) 16 16 * 2 ^ 18 →
    c.candidates = i :: is → c.dir.rising = true →
    ((c.desc i).dirty = false → ∃ t, exec .eviction s = .next t ∧ (t.core.desc i).st = .remote) ∧
    ((c.desc i).dirty = true → bits (c.desc i).tier2 0 2 = 2 → c.serves (c.desc i) 0 = true → ∃ t, exec .eviction s = .next t ∧
      (t.core.desc i).st = .evicting ∧ (t.core.desc i).wb = some none)) ∧
  (∀ (s : State) (i bank page u : Nat) (us : List Nat) (c' : Core) (ls : List Line),
    let c := s.core
    let d := c.desc i
    c.coreUp 2 = true → d.st = .resident → d.kind ≤ 1 → page < d.pages → bankFor (c.groupsOf i) d.commit.bank page = bank →
    c.freeUnits = u :: us →
    c.gate.copies.any (fun k => k.idx = i && k.bank = bank && k.page = page && !k.dead) = false →
    c.readPage s.dram i (d.pageAt 0 bank page) (List.range 64) = (c', .ok ls) →
    ∃ t, exec (.tier0Copy i bank page) s = .next t ∧
      t.core.gate.copies = c.gate.copies ++ [⟨u, i, bank, page, c.clk.total, false, ls⟩] ∧
      SMap.get .free t.core.gate.units u = .copy ∧ t.dram = s.dram) ∧
  (∀ s : State, s.core.coreUp 2 = true → exec .tier0Reclaim s = .next (s.after { s.core with gate := { s.core.gate with
    copies := s.core.gate.copies.filter (fun k => !k.dead)
    units := (s.core.gate.copies.filter (fun k => k.dead)).foldl (fun (m : SMap UnitClaim) k => m.erase k.unit) s.core.gate.units } })) ∧
  (∀ (s : State) (i bank page code : Nat) (pages : List StoredPage) (tags : List TagEntry) (dome : Check) (q : Instr),
    s.core.coreUp 2 = false → q ∈ [.eviction, .tier0Copy i bank page, .tier0Reclaim, .tier2FetchDone i pages, .tier2FetchFailed i code,
      .tagListReceived i tags dome, .writebackDone i, .parkDeadlineExpired] → exec q s = .next (s.after s.core))

/-- R282, R285, R287, R323: a line of an untagged page whose check bytes are clean is delivered decrypted; one with a
single-bit error as well; an uncorrectable one waits for its retry, and then is delivered, or poisoned with 0x0403 and stays
bad; a request whose slot no longer runs under its generation completes with 0x0505. R285, R286, R288, R290, R315: a write of one
line of an untagged page stores its ciphertext and nothing else; of a tagged page, whose other lines, tag and version path are good,
it advances the page's version and takes a new tag; one that finds the tag or the path bad completes with 0x040B, one whose version is
exhausted with 0x0406, and neither stores anything. -/
def Obligations.LinesReadAndWritten : Prop :=
  ((∀ (s : State) (entry u line slot gen : Nat) (chk : Check) (e : RunEnt) (pfn : Nat),
     let c := s.core
     let r : LineReq := ⟨entry, u, line, slot, gen⟩
     line < 64 →
     (∀ p, c.lineAt r = .error p → ∃ t, exec (.memLineRead entry u line slot gen chk) s = .next t ∧
       t.core.mem.last = some ⟨entry, u, line, p, 0⟩ ∧ t.dram = s.dram) ∧
     (c.lineAt r = .ok (e, pfn) → chk ≠ .uncorrectable → c.mem.bad.get 0 (64 * pfn + line) = 0 → e.tagged = false →
       ∃ t, exec (.memLineRead entry u line slot gen chk) s = .next t ∧
         t.core.mem.last = some ⟨entry, u, line, 0, c.plain entry e u line (c.storedLine s.dram entry u pfn line)⟩ ∧
         (systemEntry entry = false → c.storedLine s.dram entry u pfn line = s.dram.lines.get 0 (64 * pfn + line)) ∧
         t.dram = s.dram) ∧
     (c.lineAt r = .ok (e, pfn) → chk ≠ .uncorrectable → c.mem.bad.get 0 (64 * pfn + line) = 0 → e.tagged = true →
       (∀ i, i < 64 → c.mem.bad.get 0 (64 * pfn + i) = 0) →
       ∃ t, exec (.memLineRead entry u line slot gen chk) s = .next t ∧
         (c.snapOk e (c.snapPage s.dram entry e u pfn [line]) = true → t.core.mem.last =
           some ⟨entry, u, line, 0, c.plain entry e u line (c.storedLine s.dram entry u pfn line)⟩) ∧
         (c.snapOk e (c.snapPage s.dram entry e u pfn [line]) = false → t.core.mem.last = some ⟨entry, u, line, 0x0404, 0⟩) ∧
         (systemEntry entry = false → c.snapOk e (c.snapPage s.dram entry e u pfn [line]) = c.tagOk s.dram e u pfn)) ∧
     (c.lineAt r = .ok (e, pfn) → chk = .uncorrectable → ∃ t, exec (.memLineRead entry u line slot gen chk) s = .next t ∧
       t.core.mem.retries = c.mem.retries ++ [⟨r, c.snapPage s.dram entry e u pfn [line]⟩] ∧ t.core.mem.last = c.mem.last)) ∧
   (∀ (s : State) (chk : Check) (r : LineReq) (p : PageSnap) (rs : List Retry) (e : RunEnt) (pfn : Nat),
     let c := s.core
     c.mem.retries = ⟨r, p⟩ :: rs → c.lineAt r = .ok (e, pfn) →
     (chk = .uncorrectable → ∃ t, exec (.checkByteRetry chk) s = .next t ∧ t.core.mem.retries = rs ∧
       t.core.mem.last = some ⟨r.entry, r.u, r.line, 0x0403, 0⟩ ∧
       (c.storedLine s.dram r.entry r.u pfn r.line = p.line r.line → t.core.mem.bad = c.mem.bad.set 0 (64 * pfn + r.line) 1)) ∧
     (chk ≠ .uncorrectable → c.mem.bad.get 0 (64 * pfn + r.line) = 0 → e.tagged = false → (∀ i ∈ p.bad, i = r.line) →
       ∃ t, exec (.checkByteRetry chk) s = .next t ∧ t.core.mem.retries = rs ∧
         t.core.mem.last = some ⟨r.entry, r.u, r.line, 0, c.plain r.entry e r.u r.line (p.line r.line)⟩))) ∧
  (∀ (s : State) (entry u line slot gen : Nat) (data : Line) (e : RunEnt) (pfn : Nat),
     let c := s.core
     line < 64 → c.lineAt ⟨entry, u, line, slot, gen⟩ = .ok (e, pfn) →
     (systemEntry entry = true ∨ c.slotCode (pfn % 16) e.slot e.gen = 0) →
     let lines := s.dram.lines.set 0 (64 * pfn + line) (c.cipher entry e u line data)
     let v := s.dram.versions.get 0 pfn
     (e.tagged = false → ∃ t, exec (.memLineWrite entry u line slot gen data) s = .next t ∧
       (systemEntry entry = false → t.dram = { s.dram with lines := lines }) ∧ t.core.mem.last = some ⟨entry, u, line, 0, 0⟩) ∧
     (e.tagged = true → systemEntry entry = false → v < 2 ^ 32 - 1 → c.tagOk s.dram e u pfn = true →
       (∀ i, i < 64 → c.mem.bad.get 0 (64 * pfn + i) = 0) →
       ∃ t, exec (.memLineWrite entry u line slot gen data) s = .next t ∧ t.core.mem.last = some ⟨entry, u, line, 0, 0⟩ ∧
         t.dram.lines = lines ∧ t.dram.versions = s.dram.versions.set 0 pfn (v + 1)) ∧
     (e.tagged = true → systemEntry entry = false → v < 2 ^ 32 - 1 → c.tagOk s.dram e u pfn = false →
       (∀ i, i < 64 → c.mem.bad.get 0 (64 * pfn + i) = 0) →
       ∃ t, exec (.memLineWrite entry u line slot gen data) s = .next t ∧ t.core.mem.last = some ⟨entry, u, line, 0x040B, 0⟩ ∧
         t.dram = s.dram) ∧
     (e.tagged = true → systemEntry entry = false → v = 2 ^ 32 - 1 →
       ∃ t, exec (.memLineWrite entry u line slot gen data) s = .next t ∧ t.core.mem.last = some ⟨entry, u, line, 0x0406, 0⟩ ∧
         t.dram = s.dram))

/-- R283, R284, R296, R297: what the controllers do of themselves. A scrubbed group counts its reads, and an uncorrectable one,
or one with a line known to be so, is logged with 0x0405 and left; a refresh takes the channel's next bank; a forced one the bank named, with 0x0408; a package's
temperature doubles its refresh rate from 85 °C, with 0x0409 at each change; a controller that has filled its channels is
initialised, and one whose channels failed training asserts FAIL_N. (The model's own choices in it: log 27.) -/
def Obligations.ControllersWork : Prop :=
  ∀ (s : State) (ch n bank : Nat), ch < 128 →
    let c := s.core
    let p := ch / 8
    let k := ch % 8
    let m := c.mem.ctls.getD p .reset
    (bit (c.reg (memBase p)) 2 = true → c.noMemory = false → c.prc.state ≠ .holdover → c.prc.state ≠ .pfSafe → c.ctr.rising = true →
      (c.badGroup ch n = false → ∃ t, exec (.scrub ch n .clean) s = .next t ∧ t.core.mem = c.mem ∧
        t.core.ctr.get .zero (memBase p + 0x100 + 0x40 * k) = ((c.ctr.get .zero (memBase p + 0x100 + 0x40 * k)).bump c.clk.nominal 8).1) ∧
      (c.badGroup ch n = false → ∃ t, exec (.scrub ch n .single) s = .next t ∧ t.core.mem = c.mem ∧
        t.core.ctr.get .zero (memBase p + 0x100 + 0x40 * k + 24) = ((c.ctr.get .zero (memBase p + 0x100 + 0x40 * k + 24)).bump c.clk.nominal 1).1) ∧
      (∀ chk, chk = .uncorrectable ∨ c.badGroup ch n = true → ∃ t, exec (.scrub ch n chk) s = .next t ∧
        t.core.mem = { c.mem with ctls := c.mem.ctls.set p { m with errCode := 0x0405, errCh := k, errGroup := n } })) ∧
    exec (.refresh ch) s = .next (s.after { c with mem := { c.mem with
      banks := c.mem.banks.set 0 ch ((c.mem.banks.get 0 ch + 1) % 16) } }) ∧
    (∃ t, exec (.refreshForced ch bank) s = .next t ∧
      t.core.mem = { c.mem with banks := c.mem.banks.set 0 ch ((bank + 1) % 16) } ∧
      ∃ more, t.evr = (s.evr.takeAll c.stamp (c.outbox ++
        ⟨0x0408, 0xFFFF, ch, bank % 2 ^ 16, 0, 0xFFFF, p⟩ :: more)).1) ∧
    (∀ temp, decide (85 ≤ temp) = m.hot → exec (.pkgTempChange p temp) s = .next (s.after { c with mem := { c.mem with
      ctls := c.mem.ctls.set p { m with temp := min 255 temp, hot := decide (85 ≤ temp) } } })) ∧
    (∀ temp, decide (85 ≤ temp) ≠ m.hot → exec (.pkgTempChange p temp) s = .next (s.after ({ c with mem := { c.mem with
      ctls := c.mem.ctls.set p { m with temp := min 255 temp, hot := decide (85 ≤ temp) } } }.raise
        ⟨0x0409, 0xFFFF, 0, 0, 0, 0xFFFF, p⟩))) ∧
    (c.prc.powered = true → m.init = false → m.trainFail = 0 → p < c.mem.ctls.length →
      (∃ t, exec (.memoryInitDone p 0) s = .next t ∧
        t.core.mem = { c.mem with ctls := c.mem.ctls.set p { m with init := true, trainFail := 0 } }) ∧
      (∀ fail, 0 < fail → fail < 256 → ∃ t, exec (.memoryInitDone p fail) s = .next t ∧
        t.core.mem = { c.mem with ctls := c.mem.ctls.set p { m with init := false, trainFail := fail } } ∧
        3 ∈ t.core.out.failN))

/-! ## Key slots and sessions (11, 14) -/

/-- R306: SLOT_ENABLE of the selected slot enables a FREE tenant slot bound to an enabled function whose floor is below
0xFFFF; the first failed check leaves it with its code. R303, R320: clearing it, or RETIRE, frees an ENABLED slot and retires
an ACTIVE one, whose drain deadline is 50 ms on (R324). R321: a unit that the retirement broadcast reaches counts as told: the
host complex and the controllers do no more, the Gatehouse and the Belfry complete what they hold of the slot with 0x0504, a
link drops its queued frames of the slot. R325, R326: once every unit is told and INFLIGHT is zero the slot is zeroized, its
root and its descriptors and contexts gone; past the drain deadline it is zeroized all the same, with 0x0506. R304: then its
floor passes its generation. (The model's own choices in it: logs 65 and 66.) -/
def Obligations.SlotsEnableRetireAndFree : Prop :=
  (∀ s : State,
     let c := s.core
     let i := c.selSlot
     let k := c.slot i
     let a := s.trim.admin
     let refused (code : Nat) := s.after { c with keep := { c.keep with refCode := code, refSlot := i } }
     (i < 4096 → k.st = .free → (c.fn k.fn).enable = true → k.floor < 0xFFFF →
       exec (.slotEnableSet a) s = .next (s.after (c.setSlot i { k with st := .enabled }))) ∧
     (i < 4096 → (k.st = .zeroizing ∨ k.st = .dead) → exec (.slotEnableSet a) s = .next (refused 0x0501)) ∧
     (i < 4096 → k.st = .free → (c.fn k.fn).enable = false → exec (.slotEnableSet a) s = .next (refused 0x0502)) ∧
     (i < 4096 → k.st = .free → (c.fn k.fn).enable = true → 0xFFFF ≤ k.floor →
       exec (.slotEnableSet a) s = .next (refused 0x0503)) ∧
     (i < 4096 → ¬(c.keep.fwState = 2 ∧ c.keep.fwKind = 1) →
       (k.st = .enabled → exec (.slotEnableClear a) s = .next (s.after (c.setSlot i { k with st := .free })) ∧
         exec (.slotRetire a) s = .next (s.after (c.setSlot i { k with st := .free }))) ∧
       (k.st = .active → exec (.slotEnableClear a) s = .next (s.after (c.setSlot i { k with
           st := .retiring, deadline := c.clk.nominal + 62_500_000, told := [] })) ∧
         exec (.slotRetire a) s = .next (s.after (c.setSlot i { k with
           st := .retiring, deadline := c.clk.nominal + 62_500_000, told := [] }))))) ∧
  (∀ (s : State) (k : Nat),
     let c := s.core
     let x := c.slot k
     let gone (t : State) := (t.core.slot k).st = .zeroizing ∧ (t.core.slot k).root = 0 ∧
       (∀ e ∈ t.core.ctxs, e.2.keySlot ≠ k) ∧ (∀ j, (t.core.desc j).st ≠ .free → (t.core.desc j).keySlot ≠ k)
     (∀ u, x.st = .retiring → unitNum u ∉ x.told → (u = .host ∨ ∃ m, u = .memory m) →
       exec (.retireBroadcast k u) s = .next (s.after (c.setSlot k { x with told := x.told ++ [unitNum u] }))) ∧
     (x.st = .retiring → 53 ∉ x.told → ∃ t, exec (.retireBroadcast k .gatehouse) s = .next t ∧
       (t.core.slot k).told = x.told ++ [53] ∧ ∀ y, c.segs = [y] → c.segSlot k y = true → (y.st = .parked ∨ y.st = .waiting) →
         c.answers y.req → t.core.segs = [] ∧ State.completes s t y.req 0x0504) ∧
     (x.st = .retiring → 54 ∉ x.told → ∃ t, exec (.retireBroadcast k .belfry) s = .next t ∧
       (t.core.slot k).told = x.told ++ [54]) ∧
     (∀ l, x.st = .retiring → l < 36 → 17 + l ∉ x.told → l < c.links.length → ∃ t, exec (.retireBroadcast k (.link l)) s = .next t ∧
       (t.core.slot k).told = x.told ++ [17 + l]) ∧
     (x.st = .retiring → x.told.length = 55 → c.inflight k = 0 → c.dir.rising = true → c.ctxs.rising = true →
       ∃ t, exec (.zeroization k) s = .next t ∧ gone t) ∧
     (x.st = .retiring → x.deadline ≤ c.clk.nominal → c.inflight k ≠ 0 → c.dir.rising = true → c.ctxs.rising = true →
       ∃ t, exec (.drainTimeout k) s = .next t ∧ gone t ∧ ∃ more, t.evr = (s.evr.takeAll c.stamp (c.outbox ++
         ⟨0x0506, k, k % 2 ^ 16, min (c.inflight k) 0xFFFF % 2 ^ 16, 0, 0xFFFF, 0⟩ :: more)).1) ∧
     (x.st = .zeroizing → c.keep.slots.rising = true → ∃ t, exec (.slotFreed k) s = .next t ∧
       t.core.slot k = { x with
         st := if x.gen + 1 = 0xFFFF then .dead else .free, floor := x.gen + 1, gen := 0, policy := 0, deadline := 0, nonce := 0
         activeAt := 0 } ∧
       ∀ j, j ≠ k → t.core.slot j = c.slot j))

/-- R303, R307, R309, R311: the key operations of a session. KEY_INSTALL puts an ENABLED slot under a generation at or above
its floor with the secret it brings; KEY_RETIRE retires it; BASE_KEY_INSTALL, of the operator, keys an empty base slot. Each
answers 0, but for an install over a base key that is there, which answers 0x0508 and changes no slot. R309, R310, R316, R318: SEAL_SET stores the seal it brings, SEAL_GET answers it with its status and STEP,
ALLOW_HASH of an image enters the lowest empty place of the context's list, STATUS answers what KEP_SLOT_STATUS shows. (The
model's own choices in it: logs 58, 67 and 114.) -/
def Obligations.TenantOperations : Prop :=
  (∀ (s : State) (o : SessOp) (x : Session),
     let c := s.core
     let n := fieldLE o.payload 2 2
     let b := o.payload.drop 8
     let k := c.slot n
     let g := fieldLE b 0 2
     (c.inSessionOp o x 0x01 40 → c.tenantOk x n = true → k.st = .enabled → k.floor ≤ g → g ≤ 0xFFFE → fieldLE b 2 2 < 8 →
       fieldLE b 4 4 = 0 → ∃ t, exec (.keyInstall o) s = .next t ∧
         t.core.slot n = { k with
           st := .active, root := BitVec.ofNat 256 (fieldLE b 8 32), gen := g, policy := fieldLE b 2 2, nonce := 0
           activeAt := c.clk.nominal, told := [] } ∧
         (∀ j, j ≠ n → t.core.slot j = c.slot j) ∧ t.core.keep.out = c.keep.out ++ [⟨o.via, 0x01, 0, []⟩]) ∧
     (c.inSessionOp o x 0x02 0 → c.tenantOk x n = true → k.st = .active → ∃ t, exec (.keyRetire o) s = .next t ∧
       t.core.slot n = { k with st := .retiring, deadline := c.clk.nominal + 62_500_000, told := [] } ∧
       t.core.keep.out = c.keep.out ++ [⟨o.via, 0x02, 0, []⟩]) ∧
     (let bs := fieldLE b 0 1
      let kb := c.slot (4096 + bs)
      let gb := fieldLE b 2 2
      c.inSessionOp o x 0x10 40 → operatorVia s.trim o.via = true → bs ≤ 1 → n = 4096 + bs → fieldLE b 1 1 = 0 →
        fieldLE b 4 4 = 0 → (c.base bs).st = .empty → (kb.st ≠ .free → ∃ t, exec (.baseKeyInstall o) s = .next t ∧
          t.core.keep.slots = c.keep.slots ∧ t.core.keep.out = c.keep.out ++ [⟨o.via, 0x10, 0x0508, []⟩]) ∧
        (kb.st = .free → kb.floor ≤ gb → gb ≤ 0xFFFE → ∃ t, exec (.baseKeyInstall o) s = .next t ∧
          t.core.slot (4096 + bs) = { kb with
            st := .active, root := BitVec.ofNat 256 (fieldLE b 8 32), gen := gb, nonce := 0, activeAt := c.clk.nominal, told := [] } ∧
          t.core.keep.out = c.keep.out ++ [⟨o.via, 0x10, 0, []⟩]))) ∧
  (∀ (s : State) (o : SessOp) (x : Session) (i : Nat),
     let c := s.core
     let n := fieldLE o.payload 2 2
     let b := o.payload.drop 8
     c.tenantOk x n = true → (c.slot n).st = .active →
     (c.inSessionOp o x 0x03 56 → c.descOf n (fieldLE b 0 8) = some i → c.dir.rising = true → ∃ t, exec (.sealSet o) s = .next t ∧
       t.core.desc i = { c.desc i with sealV := BitVec.ofNat 384 (fieldLE b 8 48), sealSt := 1, sealBad := false } ∧
       (∀ j, j ≠ i → t.core.desc j = c.desc j) ∧ t.core.keep.out = c.keep.out ++ [⟨o.via, 0x03, 0, []⟩]) ∧
     (c.inSessionOp o x 0x04 8 → c.descOf n (fieldLE b 0 8) = some i → ∃ t, exec (.sealGet o) s = .next t ∧
       t.core.dir = c.dir ∧ t.core.keep.out = c.keep.out ++ [⟨o.via, 0x04, 0,
         leBytes 48 (c.desc i).sealV.toNat ++ leBytes 1 (c.desc i).sealSt ++ leBytes 3 0 ++ leBytes 4 (c.desc i).commit.step⟩]) ∧
     (∀ v, c.inSessionOp o x 0x05 56 → fieldLE b 0 1 = 1 → fieldLE b 1 1 = 0 → fieldLE b 4 4 = 0 →
       c.ctx? (fieldLE b 2 2) = some v → v.owner = (c.slot n).fn → v.keySlot = n → v.emptyHash = some i →
       ∃ t v', exec (.allowHash o) s = .next t ∧ t.core.ctx? (fieldLE b 2 2) = some v' ∧
         v'.hashes = v.hashes.set 0 i (BitVec.ofNat 384 (fieldLE b 8 48)) ∧ v'.enable = v.enable ∧
         t.core.keep.out = c.keep.out ++ [⟨o.via, 0x05, 0, []⟩]) ∧
     (c.inSessionOp o x 0x06 0 → ∃ t, exec (.status o) s = .next t ∧
       t.core.keep.out = c.keep.out ++ [⟨o.via, 0x06, 0, slotStatus c n⟩] ∧ t.core.keep.slots = c.keep.slots))

/-- R453, R454: EXTRACT answers with the epoch, the next index, and of the records only those of the slot itself written since
it became ACTIVE, at most as many as asked for, in order. -/
def Obligations.ExtractOwnRecords : Prop :=
  (∀ (slot since i n : Nat) (rs : List EvRecord), let r := extractScan slot since i n rs
    (∀ q ∈ r.1, q.ev.slot = slot ∧ since ≤ q.beat) ∧ r.1.length ≤ n ∧ r.1.Sublist rs ∧ r.2 ≤ i + rs.length) ∧
  (∀ (s : State) (o : SessOp) (x : Session),
    let c := s.core
    let k := fieldLE o.payload 2 2
    let b := o.payload.drop 8
    let n := fieldLE b 8 2
    c.inSessionOp o x 0x07 48 → c.tenantOk x k = true → (c.slot k).st = .active → 1 ≤ n → n ≤ 64 → allZero (slice b 0xA 6) = true →
    fieldLE b 4 4 = s.evr.epoch →
    ∃ t sig, exec (.extract o) s = .next t ∧
      (let r := extractScan k (c.slot k).activeAt (fieldLE b 0 4) n (s.evr.records.drop (fieldLE b 0 4))
       t.core.keep.out = c.keep.out ++ [⟨o.via, 0x07, 0, leBytes 4 s.evr.epoch ++ leBytes 4 r.2 ++ leBytes 2 r.1.length ++
         leBytes 1 (b2n s.evr.full) ++ leBytes 5 0 ++ r.1.flatMap (fun y => y.forTenant.bytes) ++ sig⟩]) ∧
      t.evr.records = s.evr.records)

/-- R399 to R402: the responder's answers that change nothing else: version 1.3 alone, the capabilities, the algorithms, the
digests of the certificate chains, a chain; ERROR for an empty slot and for any request it does not know. R409: throughout an
activation window of any kind the responder answers every request, on every transport, with ERROR Busy, and does nothing else
but send it. (The model's own choices in it: log 33.) -/
def Obligations.ResponderAnswers : Prop :=
  (∀ (s : State) (via : Via),
     (s.core.responds via 0x84 → exec (.getVersion via) s = .next (s.answered via 0x84 0 (leBytes 2 0x1300))) ∧
     (s.core.responds via 0xE1 → exec (.getCapabilities via) s = .next (s.answered via 0xE1 0
       (leBytes 1 14 ++ leBytes 4 capFlags ++ leBytes 4 4096 ++ leBytes 4 65_536))) ∧
     (s.core.responds via 0xE3 → exec (.negotiateAlgorithms via true) s = .next (s.answered via 0xE3 0 algoBytes) ∧
       exec (.negotiateAlgorithms via false) s = .next (s.answered via 0xE3 errInvalid [])) ∧
     (s.core.responds via 0x81 → ∃ body, exec (.getDigests via) s = .next (s.answered via 0x81 0 body) ∧
       ∀ k ch, k < 4 → s.core.chain k = some ch → (leBytes 1 k ++ leBytes 48 (Config.sha384 ch).toNat) <:+: body) ∧
     (∀ k, s.core.responds via 0x82 →
       (∀ ch, s.core.chain k = some ch → exec (.getCertificate via k) s = .next (s.answered via 0x82 0 ch)) ∧
       (s.core.chain k = none → exec (.getCertificate via k) s = .next (s.answered via 0x82 errInvalid []))) ∧
     (∀ code, s.core.responds via code → exec (.unsupportedSpdmRequest via code) s = .next (s.answered via code errUnsupported []))) ∧
  (∀ (s : State) (via : Via) (i : Instr) (code : Nat), s.core.keep.open_ = true → s.core.viaUp via = true → s.core.keep.fwState = 2 →
     (∃ (n k m : Nat) (nonce : Key) (b : Bool) (chain : List Byte),
       (i, code) ∈ [(.getVersion via, 0x84), (.getCapabilities via, 0xE1), (.negotiateAlgorithms via b, 0xE3), (.getDigests via, 0x81),
         (.getCertificate via k, 0x82), (.challenge via k nonce m, 0x83), (.getMeasurements via n k nonce b, 0xE0),
         (.keyExchange via k m, 0xE4), (.finish via n b, 0xE5), (.endSession via n, 0xEC), (.heartbeat via n, 0xE8),
         (.keyUpdate via n, 0xE9), (.getCsr via n k, 0xED), (.setCertificate via n k chain, 0xEE),
         (.unsupportedSpdmRequest via code, code)]) →
     ∃ t, exec i s = .next t ∧ t.core.keep.out = s.core.keep.out ++ [⟨via, code, 0x03, []⟩] ∧
       t.core.keep.sessions = s.core.keep.sessions ∧ t.core.keep.slots = s.core.keep.slots ∧ t.core.ctxs = s.core.ctxs ∧
       t.core.free = s.core.free)

/-- R393, R403, R404: CHALLENGE, GET_MEASUREMENTS and KEY_EXCHANGE answer with what they ask for, signed anew; KEY_EXCHANGE
opens a session of its transport while fewer than its limit are open, which FINISH completes. R401, R403: within a session of
its transport FINISH completes the handshake, END_SESSION ends the session, HEARTBEAT restarts its time, KEY_UPDATE counts
one; two heartbeat periods without a message end it; the operator's session asks for signing requests and writes certificate
chains. (The model's own choices in it: logs 14 and 33.) -/
def Obligations.ResponderSessions : Prop :=
  (∀ (s : State) (via : Via) (k sum : Nat) (ch : List Byte) (nonce : Key),
     let c := s.core
     c.chain k = some ch →
     (c.responds via 0x83 → ∃ t sig, exec (.challenge via k nonce sum) s = .next t ∧ t.core.free = c.free + 1 ∧
       t.core.keep.out = c.keep.out ++ [⟨via, 0x83, 0,
         leBytes 48 (Config.sha384 ch).toNat ++ c.summary s.trim via sum ++ sig⟩]) ∧
     (c.responds via 0xE0 → (∃ t sig, exec (.getMeasurements via 0xFF k nonce true) s = .next t ∧
         t.core.keep.out = c.keep.out ++ [⟨via, 0xE0, 0, blockBytes (c.measure s.trim via) ++ sig⟩]) ∧
       exec (.getMeasurements via 0 k nonce false) s = .next (s.answered via 0xE0 0 (leBytes 1 (c.measure s.trim via).length))) ∧
     (c.responds via 0xE4 → c.sessions via < sessionLimit via → ∃ t sig, exec (.keyExchange via k sum) s = .next t ∧
       t.core.session? c.keep.nextSession = some ⟨via, k, false, c.clk.nominal, 0⟩ ∧
       t.core.keep.nextSession = c.keep.nextSession + 1 ∧ t.core.keep.out = c.keep.out ++ [⟨via, 0xE4, 0,
         leBytes 4 c.keep.nextSession ++ c.summary s.trim via sum ++ sig⟩]) ∧
     (c.responds via 0xE4 → sessionLimit via ≤ c.sessions via →
       exec (.keyExchange via k sum) s = .next (s.answered via 0xE4 errSessions []))) ∧
  (∀ (s : State) (via : Via) (i : Nat) (x : Session),
     let c := s.core
     c.session? i = some x → c.keep.sessions.rising = true →
     (x.via = via → c.responds via 0xE5 → x.open_ = false → ∃ t, exec (.finish via i true) s = .next t ∧
       t.core.session? i = some { x with open_ := true, last := c.clk.nominal } ∧
       t.core.keep.out = c.keep.out ++ [⟨via, 0xE5, 0, []⟩]) ∧
     (x.via = via → c.responds via 0xE5 → x.open_ = false → ∃ t, exec (.finish via i false) s = .next t ∧
       t.core.session? i = none) ∧
     (x.via = via → c.responds via 0xEC → ∃ t, exec (.endSession via i) s = .next t ∧ t.core.session? i = none ∧
       t.core.keep.out = c.keep.out ++ [⟨via, 0xEC, 0, []⟩]) ∧
     (x.via = via → c.responds via 0xE8 → ∃ t, exec (.heartbeat via i) s = .next t ∧
       t.core.session? i = some { x with last := c.clk.nominal } ∧ t.core.keep.out = c.keep.out ++ [⟨via, 0xE8, 0, []⟩]) ∧
     (x.via = via → c.responds via 0xE9 → ∃ t, exec (.keyUpdate via i) s = .next t ∧
       t.core.session? i = some { x with updates := x.updates + 1, last := c.clk.nominal } ∧
       t.core.keep.out = c.keep.out ++ [⟨via, 0xE9, 0, []⟩]) ∧
     (x.last + 150_000_000_000 ≤ c.clk.nominal →
       ∃ t, exec (.sessionTimeout i) s = .next t ∧ t.core.session? i = none) ∧
     (c.clk.nominal < x.last + 150_000_000_000 → exec (.sessionTimeout i) s = .next (s.after c)) ∧
     (x.via = via → x.open_ = true → operatorVia s.trim via = true →
       (∀ k, c.responds via 0xED → (k = 2 ∨ k = 3) → ∃ t sig, exec (.getCsr via i k) s = .next t ∧
         t.core.keep.out = c.keep.out ++ [⟨via, 0xED, 0, leBytes 1 (certKey k) ++ sig⟩]) ∧
       (∀ chain, c.responds via 0xEE → (∃ t, exec (.setCertificate via i 2 chain) s = .next t ∧ t.core.keep.cert2 = chain ∧
           t.core.keep.cert3 = c.keep.cert3) ∧
         (∃ t, exec (.setCertificate via i 3 chain) s = .next t ∧ t.core.keep.cert3 = chain ∧ t.core.keep.cert2 = c.keep.cert2))))

/-! ## Queue pairs and host commands (12) -/

/-- R338: a write of a DISABLED pair's SQ_BASE or CQ_BASE by its function sets the 4 KiB-aligned base while Q_ENABLE is 0, and
one of HST_Q_CFG its sizes, vector and coalescing. Setting Q_ENABLE with valid sizes runs the pair from empty rings with PHASE
1; clearing it disables the pair, after its commands in the Gatehouse (R341). R339, R340: a doorbell moves its index, or stops
the pair with 0x0605 where it is out of range. R343: the coalescing timer fires the vector, and unmasking sends what was held.
R337: a write of a function whose TDI is CONFIG_LOCKED or RUN that comes off its stream does nothing but count in HST_IDE_REJECT.
-/
def Obligations.QueuePairs : Prop :=
  ∀ (s : State) (x : HostReq) (q : Nat), s.core.bar2 x.fn = true → q < 64 →
    let c := s.core
    let f := x.fn
    let p := c.pair f q
    (∀ i : Instr, c.ownStream f x.via = false → ((∃ o n v, accessOk o n = true ∧ i = .registerWrite x 2 o n v) ∨ i = .qEnableSet x q ∨ i = .qEnableClear x q ∨
        (∃ j, i = .hstSqTail x q j ∨ i = .hstCqHead x q j ∨ i = .msixUnmask x j)) →
      exec i s = .next (s.after (c.bump (hstBase f.port + 0x98) 1))) ∧
    (c.ownStream f x.via = true →
    (∀ v, v < 2 ^ 64 → bit p.cfg 0 = false → p.st = .disabled →
      exec (.registerWrite x 2 (0x40 * q) 8 v) s =
        .next (s.after (c.setPair f q { p with sqBase := p.sqBase % 2 ^ 12 + v / 2 ^ 12 * 2 ^ 12 })) ∧
      exec (.registerWrite x 2 (0x40 * q + 8) 8 v) s =
        .next (s.after (c.setPair f q { p with cqBase := p.cqBase % 2 ^ 12 + v / 2 ^ 12 * 2 ^ 12 })) ∧
      (bit v 0 = false → ∃ cfg : Nat, exec (.registerWrite x 2 (0x40 * q + 0x10) 8 v) s =
          .next (s.after (c.setPair f q { p with cfg := cfg })) ∧
        bits cfg 1 4 = bits v 1 4 ∧ bits cfg 5 4 = bits v 5 4 ∧ bits cfg 9 6 = bits v 9 6 ∧ bits cfg 16 16 = bits v 16 16)) ∧
    (bit p.cfg 0 = false → p.st = .disabled → cfgOk p.cfg (c.fn f).vectors = true →
      exec (.qEnableSet x q) s = .next (s.after (c.setPair f q { p with
        cfg := p.cfg + 1, st := .running, sqHead := 0, sqTail := 0, cqHead := 0, cqTail := 0, phase := true, error := 0, taken := 0
        unread := 0, pend := 0, pendAt := 0, epoch := p.epoch + 1 }))) ∧
    (bit p.cfg 0 = true → exec (.qEnableClear x q) s = .next (s.after (c.setPair f q { p with
      cfg := p.cfg - 1, st := if p.st = .running ∧ p.taken ≠ 0 then .draining else .disabled }))) ∧
    (let stopped : State := s.after ((c.setPair f q { p.stop .stopped with error := 0x0605 }).raise
       ⟨0x0605, 0xFFFF, 0, 0, 0, 0xFFFF, f.port⟩)
     ∀ i, p.st = .running → i < 4096 →
      (i < p.sqSize → exec (.hstSqTail x q i) s = .next (s.after (c.setPair f q { p with sqTail := i }))) ∧
      (p.sqSize ≤ i → exec (.hstSqTail x q i) s = .next stopped) ∧
      (let freed := (i + p.cqSize - p.cqHead) % p.cqSize
       (i < p.cqSize → freed ≤ p.unread → exec (.hstCqHead x q i) s =
          .next (s.after (c.setPair f q { p with cqHead := i, unread := p.unread - freed }))) ∧
       ((p.cqSize ≤ i ∨ p.unread < freed) → exec (.hstCqHead x q i) s = .next stopped))) ∧
    (p.pend ≠ 0 → bits p.cfg 24 8 ≠ 0 → p.pendAt + 1250 * bits p.cfg 24 8 ≤ c.clk.nominal →
      ((c.fn f).msix.get .reset (bits p.cfg 9 6)).mask = false →
      exec (.coalesceTimer f q) s = .next (s.after { c.setPair f q { p with pend := 0 } with
        out := { c.out with msi := c.out.msi ++ [(f, bits p.cfg 9 6)] } })) ∧
    (∀ v, v < (c.fn f).vectors →
      let m := (c.fn f).msix.get .reset v
      let c' : Core := c.setFn f { c.fn f with msix := (c.fn f).msix.set .reset v { m with mask := false, pend := false } }
      (m.pend = true → exec (.msixUnmask x v) s = .next (s.after { c' with out := { c.out with msi := c.out.msi ++ [(f, v)] } })) ∧
      (m.pend = false → exec (.msixUnmask x v) s = .next (s.after c'))))

/-- R339, R346: a host command whose turn has not come changes nothing, and so does one whose entry is another's; one that is
taken and fails a check completes with the code of the first that fails: an entry not well formed or of an unknown opcode
0x0A1D, the administration PF's commands from another function 0x0A20, a slot that is leaving 0x0504, CONTEXT_CREATE of a
number already held 0x0A02, a context or an adaptation of another owner 0x0A1E, a segment of a context that is not enabled
0x0A1F, data that cannot be read 0x0601. (The model's own choices in it: logs 52 and 103.) -/
def Obligations.HostChecks : Prop :=
  ∀ (i : Instr) (x : HostCmd) (k : Form) (s : State), i.hostForm = some (x, k) →
    let c := s.core
    let fails (code : Nat) : Prop := ∃ t, exec i s = .next t ∧ State.completes s t (c.take x).2 code
    (c.takes x.f x.q = false → exec i s = .next (s.after c)) ∧
    (knownOps.contains (hOp x.entry) = true → hOp x.entry ≠ k.op → exec i s = .next (s.after c)) ∧
    (c.takes x.f x.q = true →
      (knownOps.contains (hOp x.entry) = false → fails 0x0A1D) ∧
      (hOp x.entry = k.op → malformed x.entry k = true → fails 0x0A1D) ∧
      (hOp x.entry = k.op → malformed x.entry k = false →
        (k.op = 0x30 ∨ k.op = 0x31 → x.f ≠ s.trim.admin → fails 0x0A20) ∧
        (k.op = 0x10 → (c.ctx? (hCtx x.entry)).isSome = true → fails 0x0A02) ∧
        (k.ctx = true → k.op ≠ 0x10 →
          (c.ctx? (hCtx x.entry) = none → fails 0x0A1E) ∧
          (∀ v, c.ctx? (hCtx x.entry) = some v →
            (c.leaving v.keySlot = true → fails 0x0504) ∧
            (c.leaving v.keySlot = false → v.owner ≠ x.f → fails 0x0A1E) ∧
            (c.leaving v.keySlot = false → v.owner = x.f → k.op = 1 → v.enable = false → fails 0x0A1F) ∧
            (c.leaving v.keySlot = false → v.owner = x.f → (k.op = 1 → v.enable = true) → k.reads = true → hBytes x.entry ≠ 0 →
              x.data = none → (opCores k.op).all c.coreUp = true → fails 0x0601))) ∧
        (0x21 ≤ k.op → k.op ≤ 0x24 →
          let d := c.desc (hIndex x.entry)
          (d.st = .free → fails 0x0A1E) ∧
          (d.st ≠ .free → c.leaving d.keySlot = true → fails 0x0504) ∧
          (d.st ≠ .free → c.leaving d.keySlot = false → (c.slot d.keySlot).fn ≠ x.f → fails 0x0A1E))))

/-- R26, R255, R267: SUBMIT_SEGMENT. A segment whose members fail a condition, whose image can never be placed, or that may
not or cannot park completes with its code and leaves the segments as they were; one whose adaptations are ready is handed
over or waits for room; another parks. R310: IMAGE_HASH writes its entry of the hash list where the slot allows it, CLEAR
always. (The model's own choices in it: logs 50 and 51.) -/
def Obligations.SegmentsSubmitted : Prop :=
  ∀ (s : State) (x : HostCmd) (k : Form) (v : Ctx),
    let c := s.core
    let n := hCtx x.entry
    let r := (c.take x).2
    (Instr.hostForm (.submitSegment x) = some (x, k) → c.onCtx x k v →
      let c1 := (c.entered x k).ctxRead n x.dome
      let y := newSeg c1.nextSeg n r (hData x) (bit (hFlags x.entry) 0) (bit (hFlags x.entry) 1)
      let code := c1.memberCode x.f n y.img y.resupport
      let fails (code : Nat) : Prop :=
        ∃ t, exec (.submitSegment x) s = .next t ∧ t.core.segs = c.segs ∧ State.completes s t r code
      (code ≠ 0 → fails code) ∧
      (code = 0 → c1.unplaceable (hData x).length = true → fails 0x0A0F) ∧
      (code = 0 → c1.unplaceable (hData x).length = false →
        (c1.ready y = false → hPark x.entry = 0xFFFF → fails 0x0A06) ∧
        (c1.ready y = false → hPark x.entry ≠ 0xFFFF → 4096 ≤ c.parked → fails 0x0A08) ∧
        (c1.ready y = false → hPark x.entry ≠ 0xFFFF → c.parked < 4096 →
          ∃ t, exec (.submitSegment x) s = .next t ∧ t.core.nextSeg = c.nextSeg + 1) ∧
        (c1.ready y = true → c.segs.any (fun z => z.ctx = n && (z.st = .parked || z.st = .waiting)) = true →
          ∃ t, exec (.submitSegment x) s = .next t ∧ t.core.segs = c.segs ++ [{ y with st := .waiting, pinned := c1.toPin y }]) ∧
        (c1.ready y = true → c.segs.any (fun z => z.ctx = n && (z.st = .parked || z.st = .waiting)) = false →
          ∃ t, exec (.submitSegment x) s = .next t ∧ ∃ z ∈ t.core.segs, (z.st = .handed ∨ z.st = .waiting) ∧
            z.id = c.nextSeg ∧ z.ctx = n ∧ z.req = r ∧ z.raw = (hData x)))) ∧
    (Instr.hostForm (.imageHash x) = some (x, k) → c.onCtx x k v →
      (c.hostImages v = true → ∃ (t : State) (v' : Ctx), exec (.imageHash x) s = .next t ∧ t.core.ctx? n = some v' ∧
        v'.hashes = v.hashes.set 0 (hArg x.entry 0x20 2) (BitVec.ofNat 384 (leNat (hData x))) ∧ State.completes s t r 0) ∧
      (c.hostImages v = false → ∃ t, exec (.imageHash x) s = .next t ∧ State.completes s t r 0x050D)) ∧
    (Instr.hostForm (.imageHashClear x) = some (x, k) → c.onCtx x k v →
      ∃ (t : State) (v' : Ctx), exec (.imageHashClear x) s = .next t ∧ t.core.ctx? n = some v' ∧
        v'.hashes = v.hashes.set 0 (hArg x.entry 0x20 2) 0 ∧ State.completes s t r 0)

/-- R251, R269, R352: contexts. CONTEXT_CREATE claims a free number for its OWNER, CONTEXT_WRITE replaces a disabled
descriptor, CONTEXT_DELETE frees the number, CONTEXT_READ sends the descriptor and the step state block; a context that is
enabled refuses with 0x0A0C. CONTEXT_ENABLE sets CTX_ENABLE when the checks of R269 pass, takes the training claim and starts
the release program, and else shows the code in GTH_REFUSAL; disabling clears it. R240: ADVANCE_STEP counts STEP of a context
between steps. (The model's own choices in it: logs 32, 60 to 62.) -/
def Obligations.ContextsManaged : Prop :=
  ∀ (s : State) (x : HostCmd) (k : Form),
    let c := s.core
    let n := hCtx x.entry
    let r := (c.take x).2
    let c1 := (c.entered x k).ctxRead n x.dome
    (Instr.hostForm (.contextCreate x) = some (x, k) → c.passes x k [] →
      let v := Ctx.fresh (rawCtx (hData x))
      let fails (code : Nat) : Prop :=
        ∃ t, exec (.contextCreate x) s = .next t ∧ t.core.ctx? n = c.ctx? n ∧ State.completes s t r code
      ((c.ctx? n).isSome = true → fails 0x0A02) ∧
      (c.ctx? n = none → c.leaving v.keySlot = true → fails 0x0504) ∧
      (c.leaving v.keySlot = false → c.ctx? n = none → (v.owner ≠ x.f ∨ bit (fieldLE (hData x) 0 2) 0 = true) → fails 0x0A04) ∧
      (c.leaving v.keySlot = false → c.ctx? n = none → v.owner = x.f → bit (fieldLE (hData x) 0 2) 0 = false →
        ∃ t, exec (.contextCreate x) s = .next t ∧ t.core.ctx? n = some v ∧ (∀ j, j ≠ n → t.core.ctx? j = c.ctx? j) ∧
          State.completes s t r 0)) ∧
    ∀ v : Ctx,
      let fails (i : Instr) (code : Nat) : Prop := ∃ t, exec i s = .next t ∧ State.completes s t r code
      (Instr.hostForm (.contextWrite x) = some (x, k) → c.onCtx x k v →
        let w := { v.readBy x.dome with raw := rawCtx (hData x) }
        (v.enable = true → fails (.contextWrite x) 0x0A0C) ∧
        (v.enable = false → c.leaving w.keySlot = true → fails (.contextWrite x) 0x0504) ∧
        (v.enable = false → c.leaving w.keySlot = false → ∃ t, exec (.contextWrite x) s = .next t ∧
          t.core.ctx? n = some (if w.training = v.training ∧ w.adapt = v.adapt then w else { w with groups := [] }) ∧
          State.completes s t r 0)) ∧
      (Instr.hostForm (.contextDelete x) = some (x, k) → c.onCtx x k v →
        (v.enable = true → fails (.contextDelete x) 0x0A0C) ∧
        (v.enable = false → c.ctxs.rising = true → ∃ t, exec (.contextDelete x) s = .next t ∧ t.core.ctx? n = none ∧
          (∀ j, j ≠ n → t.core.ctx? j = c.ctx? j) ∧ State.completes s t r 0)) ∧
      (Instr.hostForm (.contextRead x) = some (x, k) → c.onCtx x k v →
        ∃ (t : State) (more : List DmaWrite), exec (.contextRead x) s = .next t ∧
          t.core.out.dma = c.out.dma ++ ⟨x.f, hAddr x.entry, c.ctxBytes n v ++ c.stepBlock v⟩ :: more ∧ State.completes s t r 0) ∧
      (Instr.hostForm (.advanceStep x) = some (x, k) → c.onCtx x k v →
        (v.stepOpen = true → fails (.advanceStep x) 0x0A17) ∧
        (v.stepOpen = false → v.commit.step = 2 ^ 32 - 1 → fails (.advanceStep x) 0x0A1B) ∧
        (v.stepOpen = false → v.commit.step ≠ 2 ^ 32 - 1 → ∃ (t : State) (v' : Ctx), exec (.advanceStep x) s = .next t ∧
          t.core.ctx? n = some v' ∧ v'.commit = { v.commit with step := v.commit.step + 1 } ∧ State.completes s t r 0)) ∧
      (Instr.hostForm (.contextEnable x) = some (x, k) → c.onCtx x k v →
        (v.enable = true → fails (.contextEnable x) 0) ∧
        (∀ code, v.enable = false → c1.enableCode n (v.readBy x.dome) = code → code ≠ 0 → ∃ t, exec (.contextEnable x) s = .next t ∧
          t.core.gate.refCode = code ∧ t.core.gate.refCtx = n ∧ t.core.gate.refFn = x.f ∧ t.core.ctxs = c1.ctxs ∧
          State.completes s t r code) ∧
        (v.enable = false → c1.enableCode n (v.readBy x.dome) = 0 → (∀ y ∈ c.segs, y.st ≠ .waiting) →
          ∃ (t : State) (v' : Ctx), exec (.contextEnable x) s = .next t ∧ t.core.ctx? n = some v' ∧ v'.enable = true ∧
            v'.raw = v.raw ∧ v'.transient = true ∧ v'.running = (if v.prog = [] then none else some ⟨0, c.cp, [], none⟩) ∧
            (v.training = true → (t.core.desc v.adapt).trainCtx = n) ∧ State.completes s t r 0)) ∧
      (Instr.hostForm (.contextDisable x) = some (x, k) → c.onCtx x k v →
        (v.enable = false → fails (.contextDisable x) 0) ∧
        (v.enable = true → ∃ (t : State) (v' : Ctx), exec (.contextDisable x) s = .next t ∧ t.core.ctx? n = some v' ∧
          v'.enable = false ∧ v'.running = none ∧ (c.segs = [] → State.completes s t r 0)))

/-- R187, R208, R220, R222, R57: the tables of a context. A chain, rule or schedule table, a group table and a release program
that the tenant allows, that keep their form, and that come while nothing of the context is in flight, replace what was there;
the first failed check leaves the context's table and gives its code. (The model's own choices in it: log 29.) -/
def Obligations.TablesLoaded : Prop :=
  ∀ (s : State) (x : HostCmd) (k : Form) (v : Ctx),
    let c := s.core
    let n := hCtx x.entry
    let m := hArg x.entry 0x20 2
    let r := (c.take x).2
    let fails (i : Instr) (code : Nat) : Prop :=
      ∃ t, exec i s = .next t ∧ t.core.ctx? n = some (v.readBy x.dome) ∧ State.completes s t r code
    let loads (i : Instr) (p : Ctx → Prop) : Prop :=
      ∃ (t : State) (v' : Ctx), exec i s = .next t ∧ t.core.ctx? n = some v' ∧ p v' ∧ State.completes s t r 0
    (Instr.hostForm (.loadChain x) = some (x, k) → c.onCtx x k v →
      let ws := words (hData x) 0 32 32
      (c.tableAllowed v 2 (hData x) = false → fails (.loadChain x) 0x050D) ∧
      (c.tableAllowed v 2 (hData x) = true → ws.all chainWordOk = false → fails (.loadChain x) 0x0A14) ∧
      (c.tableAllowed v 2 (hData x) = true → ws.all chainWordOk = true → c.inFlight n = true → fails (.loadChain x) 0x0A15) ∧
      (c.tableAllowed v 2 (hData x) = true → ws.all chainWordOk = true → c.inFlight n = false →
        loads (.loadChain x) (fun v' => v' = { v.readBy x.dome with chain := ws }))) ∧
    (Instr.hostForm (.loadRules x) = some (x, k) → c.onCtx x k v →
      let ws := words (hData x) 0 4 1024
      let ok := (List.range 32).all (fun j => (ruleBad 0 0 0 [] ((ws.drop (32 * j)).take 32)).isNone)
      (c.tableAllowed v 3 (hData x) = false → fails (.loadRules x) 0x050D) ∧
      (c.tableAllowed v 3 (hData x) = true → ok = false → fails (.loadRules x) 0x0A16) ∧
      (∀ j w, c.tableAllowed v 3 (hData x) = true → ruleBad 0 0 0 [] ((ws.drop (32 * j)).take 32) = some w → j < 32 →
        (∀ j', j' < j → ruleBad 0 0 0 [] ((ws.drop (32 * j')).take 32) = none) →
        ∃ t, exec (.loadRules x) s = .next t ∧ t.core.gate.refArgs = (j, w) ∧ t.core.gate.refCode = c.gate.refCode ∧
          State.completes s t r 0x0A16) ∧
      (c.tableAllowed v 3 (hData x) = true → ok = true → c.inFlight n = true → fails (.loadRules x) 0x0A17) ∧
      (c.tableAllowed v 3 (hData x) = true → ok = true → c.inFlight n = false →
        loads (.loadRules x) (fun v' => v' = { v.readBy x.dome with rules := ws }))) ∧
    (Instr.hostForm (.loadGroups x) = some (x, k) → c.onCtx x k v →
      let gs := parseGroups (hData x) m
      let bad := groupsBad (if v.training then (c.desc v.adapt).pages else 0) 0 0 gs
      let held := v.stepOpen || c.segs.any (fun y => (y.st = .queued || y.st = .running || y.st = .swapped) && y.img.adapts.contains v.adapt)
      (bad ≠ none → fails (.loadGroups x) 0x0A19) ∧
      (bad = none → held = true → fails (.loadGroups x) 0x0A17) ∧
      (bad = none → held = false → loads (.loadGroups x) (fun v' => v' = { v.readBy x.dome with groups := mergeGroups v.groups gs }))) ∧
    (Instr.hostForm (.loadSchedule x) = some (x, k) → c.onCtx x k v →
      (schedOk (hData x) m = false → fails (.loadSchedule x) 0x0A18) ∧
      (schedOk (hData x) m = true → v.stepOpen = true → fails (.loadSchedule x) 0x0A17) ∧
      (schedOk (hData x) m = true → v.stepOpen = false → loads (.loadSchedule x) (fun v' =>
        v'.sched = (List.range (fieldLE (hData x) 2 2)).map (fun i => words (hData x) (64 + 64 * i) 4 16) ∧
        v'.endMode = fieldLE (hData x) 4 1 ∧ v'.loopRow = fieldLE (hData x) 6 2 ∧ v'.commit = { v.commit with pos := m }))) ∧
    (Instr.hostForm (.loadRelease x) = some (x, k) → c.onCtx x k v →
      let ws := words (hData x) 0 8 m
      (progBad ws ≠ none → ∃ t, exec (.loadRelease x) s = .next t ∧ t.core.blf = { c.blf with refCode := 0x030A, refCtx := n } ∧
        t.core.ctx? n = some (v.readBy x.dome) ∧ State.completes s t r 0x030A) ∧
      (progBad ws = none → loads (.loadRelease x) (fun v' => v'.prog = ws ∧ v'.running = none ∧ v'.starts = v.enable)))

/-- R249 to R262, R319: the commands on adaptations. Registration writes the lowest FREE descriptor, REMOTE or already
fetched; removal frees one that nobody holds; a prefetch starts or joins a fetch, or completes on a form that is there; a
write-back claims its entry; a rewrap reads every page under the old slot and goes over to the new one, or stops with the
descriptor unchanged; each completes with the code of the check that fails. (The model's own choices in it: logs 34, 53 to
57.) -/
def Obligations.AdaptationsManaged : Prop :=
  ∀ (s : State) (x : HostCmd) (k : Form) (i : Nat),
    let c := s.core
    let r := (c.take x).2
    let c1 := (c.entered x k).descRead i x.dome
    let d := c1.desc i
    let fails (a : Instr) (code : Nat) : Prop := ∃ t, exec a s = .next t ∧ State.completes s t r code
    (Instr.hostForm (.adaptRegister x) = some (x, k) → c.passes x k [hIndex x.entry] →
      let v := c1.newDesc x (hData x)
      let owns := c.activeFor (hIndex x.entry) x.f
      (owns = false → fails (.adaptRegister x) 0x0A1C) ∧
      (owns = true → c.freeIndex = none → fails (.adaptRegister x) 0x0A03) ∧
      (owns = true → c.freeIndex = some i → c1.descOk v = false → fails (.adaptRegister x) 0x0A04) ∧
      (owns = true → c.freeIndex = some i → c1.descOk v = true → bit (hFlags x.entry) 0 = false →
        ∃ t, exec (.adaptRegister x) s = .next t ∧ t.core.desc i = v ∧ (∀ j, j ≠ i → t.core.desc j = c.desc j) ∧
          State.completes s t r 0) ∧
      (owns = true → c.freeIndex = some i → c1.descOk v = true → bit (hFlags x.entry) 0 = true → bits v.tier2 0 2 = 2 →
        c.noMemory = false → ∃ t, exec (.adaptRegister x) s = .next t ∧
          t.core.desc i = { v with st := .fetching, claimant := 1, kind := 1, fetch := some ⟨true, true, [r], false, []⟩ })) ∧
    (Instr.hostForm (.adaptRead x) = some (x, k) → c.onDesc x k i →
      ∃ (t : State) (more : List DmaWrite), exec (.adaptRead x) s = .next t ∧
        t.core.out.dma = c.out.dma ++ ⟨x.f, hAddr x.entry, c.descBytes i (c.desc i)⟩ :: more ∧ State.completes s t r 0) ∧
    (Instr.hostForm (.adaptRemove x) = some (x, k) → c.onDesc x k i →
      ((d.claimant ≠ 0 ∨ d.pins ≠ 0 ∨ d.trainCtx ≠ 0xFFFF) → fails (.adaptRemove x) 0x0A02) ∧
      (d.claimant = 0 → d.pins = 0 → d.trainCtx = 0xFFFF → d.fetch = none → d.wb = none → c.dir.rising = true →
        ∃ t, exec (.adaptRemove x) s = .next t ∧ t.core.desc i = .free ∧ (∀ j, j ≠ i → t.core.desc j = c.desc j) ∧
          State.completes s t r 0)) ∧
    (Instr.hostForm (.adaptPrefetch x) = some (x, k) → c.onDesc x k i →
      let training := bit (hArg x.entry 0x22 1) 0
      let there := d.st = .resident ∧ (training = true → d.training = true)
      (∀ f, d.fetch = some f → ¬there → training = true → f.training = false → fails (.adaptPrefetch x) 0x0A02) ∧
      (∀ f, d.fetch = some f → ¬there → (training = true → f.training = true) → ∃ t, exec (.adaptPrefetch x) s = .next t ∧
        t.core.desc i = { d with fetch := some { f with reqs := f.reqs ++ [r] } }) ∧
      (there → fails (.adaptPrefetch x) 0) ∧
      (d.fetch = none → (d.st ≠ .resident ∨ (training = true ∧ d.training = false)) → d.claimant ≠ 0 →
        fails (.adaptPrefetch x) 0x0A02) ∧
      (d.fetch = none → d.st = .remote → d.claimant = 0 → bits d.tier2 0 2 = 2 → c.noMemory = false →
        ∃ t, exec (.adaptPrefetch x) s = .next t ∧
          t.core.desc i = { d with st := .fetching, claimant := 1, kind := 1, fetch := some ⟨training, false, [r], false, []⟩ })) ∧
    (Instr.hostForm (.adaptWriteback x) = some (x, k) → c.onDesc x k i →
      (bits d.tier2 0 2 = 0 → fails (.adaptWriteback x) 0x0A04) ∧
      (bits d.tier2 0 2 ≠ 0 → (d.claimant ≠ 0 ∨ d.pins ≠ 0 ∨ d.st ≠ .resident) → fails (.adaptWriteback x) 0x0A02) ∧
      (bits d.tier2 0 2 = 2 → d.claimant = 0 → d.pins = 0 → d.st = .resident → c.serves d 0 = false → fails (.adaptWriteback x) 0x0505) ∧
      (bits d.tier2 0 2 = 2 → d.claimant = 0 → d.pins = 0 → d.st = .resident → c.serves d 0 = true → ∃ t, exec (.adaptWriteback x) s = .next t ∧
        t.core.desc i = { d with claimant := 1, kind := 2, wb := some (some r) } ∧ t.dram = s.dram)) ∧
    (let m := hArg x.entry 0x22 2
     Instr.hostForm (.adaptRewrap x) = some (x, k) → hIndex x.entry = i → c.passes x k (c.descSlots i ++ [m]) → c.ownsDesc x.f i = true →
      let pages := d.statePages (c1.groupsOf i) true
      (∀ code, c1.rewrapCode x.f i m = code → code ≠ 0 → fails (.adaptRewrap x) code) ∧
      (∀ c' p, c1.rewrapCode x.f i m = 0 → (c1.dropCopies i).readAll s.dram i pages = (c', .error p) →
        ∃ t, exec (.adaptRewrap x) s = .next t ∧ t.core.desc i = d ∧ t.dram = s.dram ∧ State.completes s t r p) ∧
      (∀ c' ps, c1.rewrapCode x.f i m = 0 → (c1.dropCopies i).readAll s.dram i pages = (c', .ok ps) →
        ∃ t, exec (.adaptRewrap x) s = .next t ∧
          t.core.desc i = { d with keySlot := m, gen := (c.slot m).gen, sealSt := 0, dirty := true } ∧ State.completes s t r 0))

/-- R271, R311, R398: base slots. BASE_LOAD takes an EMPTY slot whose key is there into LOADING; the load that is done
measures the base and leaves it READY, or fails and leaves the slot EMPTY; BASE_FREE empties a slot that no enabled context
and no descriptor uses, and retires its key slot. (The model's own choices in it: logs 58 and 59.) -/
def Obligations.BaseSlots : Prop :=
  (∀ (s : State) (x : HostCmd) (k : Form) (b : Nat),
    let c := s.core
    let r := (c.take x).2
    let tag := hArg x.entry 0x28 8
    let bytes := hArg x.entry 0x30 8
    let fails (i : Instr) (code : Nat) : Prop := ∃ t, exec i s = .next t ∧ t.core.base b = c.base b ∧ State.completes s t r code
    hIndex x.entry = b → b < 2 → c.gate.bases.length = 2 → x.f = s.trim.admin → c.passes x k [4096 + b] →
    (Instr.hostForm (.baseLoad x) = some (x, k) →
      (bytes = 0 → fails (.baseLoad x) 0x0A04) ∧
      (bytes ≠ 0 → (c.base b).st ≠ .empty → fails (.baseLoad x) 0x0A02) ∧
      (bytes ≠ 0 → (c.base b).st = .empty → (tag = 0 ∨ tag = (c.base (1 - b)).tag ∨ (c.slot (4096 + b)).st ≠ .active) →
        fails (.baseLoad x) 0x0A04) ∧
      (bytes ≠ 0 → (c.base b).st = .empty → tag ≠ 0 → tag ≠ (c.base (1 - b)).tag → (c.slot (4096 + b)).st = .active →
        (c.noMemory = true → fails (.baseLoad x) 0x0A0B) ∧
        (c.noMemory = false → roundUp (ceilDiv bytes 4096) 16 ≤ c.comingFrames → bit (hArg x.entry 0x38 2) 15 = false →
          ∃ t, exec (.baseLoad x) s = .next t ∧ t.core.base b = ⟨.loading, tag, bytes, 0, some r, false⟩))) ∧
    (Instr.hostForm (.baseFree x) = some (x, k) →
      ((c.base b).st ≠ .ready → fails (.baseFree x) 0x0A0A) ∧
      (let used := c.ctxs.any (fun v => v.2.enable && v.2.baseSlot = b) || c.dir.any (fun d => d.2.st != .free && d.2.baseTag = (c.base b).tag)
       ((c.base b).st = .ready → used = true → fails (.baseFree x) 0x0A09) ∧
       ((c.base b).st = .ready → used = false → (c.slot (4096 + b)).st = .active → ¬(c.keep.fwState = 2 ∧ c.keep.fwKind = 1) →
         ∃ t, exec (.baseFree x) s = .next t ∧ t.core.base b = .empty ∧ (t.core.slot (4096 + b)).st = .retiring ∧
           State.completes s t r 0)))) ∧
  (∀ (s : State) (b : Nat) (r : Req),
    let c := s.core
    let x := c.base b
    b < 2 → c.gate.bases.length = 2 → x.st = .loading → x.link = false → x.req = some r → c.answers r →
    (∃ t, exec (.baseLoadDone b none) s = .next t ∧ t.core.base b = .empty ∧ State.completes s t r 0x0601) ∧
    (∀ (src : List Byte) (ps : List (Nat × List Line)) (c' : Core), (c.runEnt (16640 + b)).isSome = true →
      let y := Core.landBase b src c s.dram
      y.1.readAll y.2 (16640 + b) (List.range (ceilDiv x.bytes 4096)) = (c', .ok ps) →
      ∃ t, exec (.baseLoadDone b (some src)) s = .next t ∧ t.dram = y.2 ∧ (t.core.base b).st = .ready ∧ (t.core.base b).tag = x.tag ∧
        (t.core.base b).hash = Config.sha384 (((ps.flatMap (fun p => p.2)).flatMap lineBytes).take x.bytes) ∧
        State.completes s t r 0))

/-! ## Functions, trusted interfaces and the PCIe ports (12, 17) -/

/-- R349, R458: a function-level reset disables every pair of its function and leaves its TDI UNLOCKED; its completion counts
HST_FLR and records 0x0608. R333, R351: PCIe training sets a port's rate and width, with 0x0609 below 64 GT/s or 16 lanes;
HST_VF_ENABLE serves a granted VF within the vector table, and shows 0x0602 or 0x0603 otherwise; cleared, or as NumVFs falls
below it, a VF is unserved and its keys retire. PERST# takes a port's configuration back to reset. (The model's own choices in
it: logs 63 and 75.) -/
def Obligations.FunctionsResetAndServed : Prop :=
  ∀ s : State,
    let c := s.core
    c.ports.length = 2 → (∀ p ∈ c.ports, p.fns.rising = true) →
    (∀ f, f.port < 2 →
      (∃ t, exec (.functionLevelReset f) s = .next t ∧ (t.core.fn f).tdi = .unlocked ∧ (t.core.fn f).flr = true ∧
        (t.core.fn f).enable = (c.fn f).enable ∧ (c.segs = [] → ∀ q, (t.core.pair f q).st = .disabled ∧ (t.core.pair f q).taken = 0)) ∧
      ((c.fn f).flr = true → ∃ (t : State) (pre : List Event), exec (.flrComplete f) s = .next t ∧ (t.core.fn f).flr = false ∧
        t.core.keep.resets = { c.keep.resets with flr := min (2 ^ 32 - 1) (c.keep.resets.flr + 1) } ∧
        t.evr = (s.evr.takeAll c.stamp (c.outbox ++ pre ++ [⟨0x0608, 0xFFFF, 0, 0, 0, 0xFFFF, f.port⟩])).1) ∧
      ((c.fn f).flr = false → exec (.flrComplete f) s = .next (s.after c))) ∧
    (∀ port rate width, port < 2 → 1 ≤ rate → rate ≤ 5 → 1 ≤ width → width ≤ 16 →
      let c' := c.setPort port { c.port port with up := true, rate := rate, width := width }
      exec (.pcieLinkTrained port rate width) s = .next (s.after (if rate = 5 ∧ width = 16 then c'
        else c'.raise ⟨0x0609, 0xFFFF, rate, width, 0, 0xFFFF, port⟩))) ∧
    (∀ port, port < 2 →
      let f := c.selFn port
      let refused (code : Nat) : State := s.after (c.setReg (hstBase f.port + 8) (code + f.fn * 2 ^ 16))
      (c.fn f).enable = false →
      ((f.fn = 0 ∨ (c.port port).numVfs < f.fn) → exec (.hstVfEnableSet s.trim.admin port) s = .next (refused 0x0602)) ∧
      (f.fn ≠ 0 → f.fn ≤ (c.port port).numVfs → 2048 < c.vectorsOf port + (c.fn f).vectors →
        exec (.hstVfEnableSet s.trim.admin port) s = .next (refused 0x0603)) ∧
      (f.fn ≠ 0 → f.fn ≤ (c.port port).numVfs → c.vectorsOf port + (c.fn f).vectors ≤ 2048 →
        exec (.hstVfEnableSet s.trim.admin port) s = .next (s.after (c.setFn f { c.fn f with enable := true })))) ∧
    (∀ port, (c.selFn port).port < 2 → (c.selFn port).fn ≠ 0 → (c.fn (c.selFn port)).enable = true →
      ∃ t, exec (.hstVfEnableClear s.trim.admin port) s = .next t ∧ (t.core.fn (c.selFn port)).enable = false ∧
        (t.core.fn (c.selFn port)).tdi = .error ∧
        (c.keep.slots.rising = true → ¬(c.keep.fwState = 2 ∧ c.keep.fwKind = 1) → ∀ k, k < 4096 → (c.slot k).fn = c.selFn port →
          ((c.slot k).st = .active → (t.core.slot k).st = .retiring) ∧ ((c.slot k).st = .enabled → (t.core.slot k).st = .free))) ∧
    (∀ port n, port < 2 → n ≤ 63 → ∃ t, exec (.vfEnableChange port n) s = .next t ∧ (t.core.port port).numVfs = n ∧
      ∀ k, n < k → k ≤ 63 → (t.core.fn ⟨port, k⟩).enable = false) ∧
    (∀ port, port < 2 → ∃ t, exec (.perst port) s = .next t ∧ (t.core.port port).up = false ∧ (t.core.port port).secure = [] ∧
      (t.core.port port).linkIde = false ∧ (t.core.port port).numVfs = 0 ∧ (t.core.fn ⟨port, 0⟩).tdi = .unlocked ∧
      (t.core.fn ⟨port, 0⟩).flr = true)

/-- R336, R337, R350: the TDISP requests over a function's DOE. LOCK needs a bound stream that is Secure and takes UNLOCKED to
LOCKED, START takes LOCKED to RUN, STOP goes back to UNLOCKED, and the reports change nothing; IDE_KM makes a stream Secure
and binds it while a port has fewer than 64, or the link's; an integrity failure, with 0x0606, ends it, and that of a stream or a write
of locked configuration takes the TDI to ERROR.
(The model's own choices in it: logs 33 and 87.) -/
def Obligations.TrustedInterfaces : Prop :=
  ∀ (s : State) (f : FnId),
    let c := s.core
    let p := c.port f.port
    let tells (t : State) (code error : Nat) (body : List Byte) : Prop := t.core.keep.out = c.keep.out ++ [⟨.doe f, code, error, body⟩]
    c.ports.length = 2 → f.port < 2 → p.fns.rising = true →
    (c.keep.open_ = true → c.busy = false →
      (∃ t, exec (.getTdispVersion f) s = .next t ∧ (t.core.fn f).tdi = (c.fn f).tdi ∧ tells t 0x181 0 (leBytes 1 1 ++ leBytes 1 0x10)) ∧
      (∃ (t : State) (body : List Byte), exec (.getTdispCapabilities f) s = .next t ∧ (t.core.fn f).tdi = (c.fn f).tdi ∧ tells t 0x182 0 body) ∧
      (c.streamSecure f = true → (c.fn f).tdi = .unlocked → ∃ t, exec (.lockInterface f) s = .next t ∧ (t.core.fn f).tdi = .locked ∧
        tells t 0x183 0 []) ∧
      (c.streamSecure f = false → ∃ t, exec (.lockInterface f) s = .next t ∧ (t.core.fn f).tdi = (c.fn f).tdi ∧ tells t 0x183 errInvalid []) ∧
      (c.streamSecure f = true → (c.fn f).tdi ≠ .unlocked → ∃ t, exec (.lockInterface f) s = .next t ∧
        (t.core.fn f).tdi = (c.fn f).tdi ∧ tells t 0x183 errState []) ∧
      (((c.fn f).tdi = .locked ∨ (c.fn f).tdi = .run) → ∃ t, exec (.getDeviceInterfaceReport f) s = .next t ∧
        (t.core.fn f).tdi = (c.fn f).tdi ∧ tells t 0x184 0 tdiReport) ∧
      (∃ t, exec (.getDeviceInterfaceState f) s = .next t ∧ (t.core.fn f).tdi = (c.fn f).tdi ∧ tells t 0x185 0 (leBytes 1 (c.fn f).tdi.code)) ∧
      ((c.fn f).tdi = .locked → ∃ t, exec (.startInterface f) s = .next t ∧ (t.core.fn f).tdi = .run ∧ tells t 0x186 0 []) ∧
      ((c.fn f).tdi ≠ .locked → ∃ t, exec (.startInterface f) s = .next t ∧ (t.core.fn f).tdi = (c.fn f).tdi ∧ tells t 0x186 errState []) ∧
      (∃ t, exec (.stopInterface f) s = .next t ∧ (t.core.fn f).tdi = .unlocked ∧ tells t 0x187 0 []) ∧
      (f.fn = 0 → ∀ stream bound, (∃ t, exec (.ideKm f stream bound true) s = .next t ∧ (t.core.port f.port).linkIde = true ∧
          tells t 0x200 0 []) ∧
        (stream < 256 → bound < 64 → p.full stream = false → ∃ t, exec (.ideKm f stream bound false) s = .next t ∧ (t.core.fn ⟨f.port, bound⟩).stream = some stream ∧
          stream ∈ (t.core.port f.port).secure ∧ tells t 0x200 0 []) ∧
        (256 ≤ stream ∨ 64 ≤ bound ∨ p.full stream = true → ∃ t, exec (.ideKm f stream bound false) s = .next t ∧ t.core.ports = c.ports ∧
          tells t 0x200 errInvalid []))) ∧
    (c.keep.open_ = true → c.busy = true →
      (∃ t, exec (.lockInterface f) s = .next t ∧ t.core.ports = c.ports ∧ tells t 0x183 errBusy []) ∧
      (∃ t, exec (.startInterface f) s = .next t ∧ t.core.ports = c.ports ∧ tells t 0x186 errBusy [])) ∧
    (∀ stream, p.secure.contains stream = true → ∃ t, exec (.ideIntegrityFailure f.port (.selective stream)) s = .next t ∧
      (t.core.port f.port).secure = p.secure.filter (fun x => x != stream) ∧
      ∀ k, k < 64 → (c.fn ⟨f.port, k⟩).stream = some stream → (t.core.fn ⟨f.port, k⟩).tdi = .error) ∧
    (∀ i, p.linkIde = true → exec (.ideIntegrityFailure f.port (.link i)) s =
      .next (s.after ((c.setPort f.port { p with linkIde := false }).raise ⟨0x0606, 0xFFFF, i % 2 ^ 16, 0, 0, 0xFFFF, f.port⟩))) ∧
    (((c.fn f).tdi = .locked ∨ (c.fn f).tdi = .run) → ∃ t, exec (.configWriteLocked f) s = .next t ∧ (t.core.fn f).tdi = .error) ∧
    ((c.fn f).tdi = .unlocked → exec (.configWriteLocked f) s = .next (s.after c))

/-! ## Links (13) -/

/-- R365, R358: LNK_ENABLE brings a link with a neighbour number and room in its bundle into TRAINING, and shows 0x0701 or
0x0702 otherwise; both lanes trained it keys, and keyed it is UP with event 0x0704 and both frame counters at zero; a step
that fails or takes too long leaves it FAILED with 0x0703. R363, R364, R367: a SEQ sent 8 times, or the frame counter's limit
with 0x0708, takes an UP link DOWN with 0x0705, its buffers empty; clearing LNK_ENABLE too. (The model's own choices in it:
log 73.) -/
def Obligations.LinksComeUpAndFall : Prop :=
  ∀ (s : State) (k : Nat),
    let c := s.core
    let l := c.link k
    let a := s.trim.admin
    k < 36 → c.links.length = 36 →
    let failed (step : Nat) : State := s.after ((c.setLink k { l with st := .failed }).raise ⟨0x0703, 0xFFFF, step, 0, 0, 0xFFFF, k⟩)
    (l.enable = false →
      (11 < c.neighbour k → exec (.lnkEnableSet a k) s = .next (s.after (c.setLink k { l with refCode := 0x0701 }))) ∧
      (c.neighbour k ≤ 11 → 6 ≤ c.mates k → exec (.lnkEnableSet a k) s = .next (s.after (c.setLink k { l with refCode := 0x0702 }))) ∧
      (c.neighbour k ≤ 11 → c.mates k < 6 → exec (.lnkEnableSet a k) s =
        .next (s.after (c.setLink k { l with enable := true, st := .training, since := c.clk.nominal })))) ∧
    (l.enable = true → ∃ t, exec (.lnkEnableClear a k) s = .next t ∧ (t.core.link k).enable = false ∧ (t.core.link k).st = .down) ∧
    (l.st = .training →
      (∀ lanes, lanes < 2 → exec (.linkTrained k lanes) s = .next (s.after (c.setLink k { l with lanes := lanes }))) ∧
      exec (.linkTrained k 2) s = .next (s.after (c.setLink k { l with lanes := 2, st := .keying, since := c.clk.nominal })) ∧
      (l.since + 25_000_000 ≤ c.clk.nominal → exec (.linkBringupTimeout k) s = .next (failed 1)) ∧
      (c.clk.nominal < l.since + 25_000_000 → exec (.linkBringupTimeout k) s = .next (s.after c))) ∧
    (l.st = .keying → c.linkWindow = false →
      (l.since + 12_500_000 ≤ c.clk.nominal → exec (.linkBringupTimeout k) s = .next (failed 2)) ∧
      (∀ partner plink, exec (.linkKeyed k partner plink false) s = .next (failed 2)) ∧
      (∀ partner plink, c.reg (lnkBase k + 8) ≠ 0 → c.reg (lnkBase k + 8) ≠ partner →
        exec (.linkKeyed k partner plink true) s = .next (failed 2)) ∧
      (∀ partner plink, (c.reg (lnkBase k + 8) = 0 ∨ c.reg (lnkBase k + 8) = partner) →
        ((c.bundle (c.neighbour k)).any (fun j => (c.link j).partner != partner) = true →
          exec (.linkKeyed k partner plink true) s = .next (failed 3)) ∧
        ((c.bundle (c.neighbour k)).any (fun j => (c.link j).partner != partner) = false →
          exec (.linkKeyed k partner plink true) s = .next (s.after ((c.fresh.setLink k { LinkS.reset with
            enable := true, st := .up, since := c.clk.nominal, lanes := l.lanes, epochs := l.epochs, partner := partner
            partnerLink := plink, delayAt := c.clk.nominal, refCode := l.refCode, dropped := l.dropped
            secret := Config.freeKey c.free, low := decide (s.trim.moduleId < partner) }).raise ⟨0x0704, 0xFFFF, 0, 0, 0, 0xFFFF, k⟩))))) ∧
    (let fallen (t : State) : Prop := (t.core.link k).st = (if l.enable then .training else .down) ∧ (t.core.link k).replay = [] ∧
       (t.core.link k).queue = [] ∧ (t.core.link k).txCount = 0 ∧ (t.core.link k).enable = l.enable
     l.st = .up →
      (l.replay.any (fun x => decide (8 ≤ x.times)) = true → ∃ (t : State) (more : List Event), exec (.linkDown k) s = .next t ∧ fallen t ∧
        t.evr = (s.evr.takeAll c.stamp (c.outbox ++ ⟨0x0705, 0xFFFF, 0, 0, 0, 0xFFFF, k⟩ :: more)).1) ∧
      (2 ^ 63 - 2 ^ 20 ≤ l.txCount → ∃ (t : State) (more : List Event), exec (.frameCounterLimit k) s = .next t ∧ fallen t ∧
        t.evr = (s.evr.takeAll c.stamp (c.outbox ++ ⟨0x0708, 0xFFFF, 0, 0, 0, 0xFFFF, k⟩ :: ⟨0x0705, 0xFFFF, 0, 0, 0, 0xFFFF, k⟩ :: more)).1)) ∧
    (l.replay.any (fun x => decide (8 ≤ x.times)) = false → exec (.linkDown k) s = .next (s.after c)) ∧
    (l.txCount < 2 ^ 63 - 2 ^ 20 → exec (.frameCounterLimit k) s = .next (s.after c))

/-- R362, R366, R367, R381, R382: what an UP link does of itself. It acknowledges 1 µs after the first frame it has accepted,
or at 128; it asks for the delay every 65,536 nominal beats; at its threshold it goes to the next EPOCH with its counter at
zero; it sends the cadence for each pulse; and the first transfer past its deadline fails. (The model's own choices in it: log
74.) -/
def Obligations.LinksRun : Prop :=
  (∀ (s : State) (k : Nat),
    let c := s.core
    let l := c.link k
    k < 36 → c.links.length = 36 → l.st = .up →
    (c.clear k → l.unacked ≠ 0 → (l.ackAt + 1250 ≤ c.clk.nominal ∨ 128 ≤ l.unacked) →
      ∃ t, exec (.ackTimer k) s = .next t ∧ c.sentOn t.core k 0x01 (ctlPayload false 0) ∧ (t.core.link k).unacked = 0) ∧
    (l.unacked = 0 → exec (.ackTimer k) s = .next (s.after c)) ∧
    (c.clear k → c.linkWindow = false → l.delayAt + 65536 ≤ c.clk.nominal → ∃ t, exec (.delayMeasure k) s = .next t ∧
      c.sentOn t.core k 0x09 (leBytes 8 c.time50) ∧ (t.core.link k).delayAt = c.clk.nominal ∧ (t.core.link k).delayT1 = c.time50) ∧
    (c.linkWindow = true → exec (.delayMeasure k) s = .next (s.after c)) ∧
    (c.reg (lnkBase k + 0x38) ≤ l.txCount → c.linkWindow = false → ∃ t, exec (.rekeyThreshold k) s = .next t ∧
      t.core.link k = { l with
        rekeyWait := false, epoch := !l.epoch, epochs := (l.epochs + 1) % 2 ^ 16, txCount := 0, secret := Config.freeKey c.free } ∧
      (l.rekeyWait = false → ∃ more, t.evr = (s.evr.takeAll c.stamp (c.outbox ++ ⟨0x0706, 0xFFFF, 0, 0, 0, 0xFFFF, k⟩ :: more)).1)) ∧
    (c.reg (lnkBase k + 0x38) ≤ l.txCount → c.linkWindow = true → ∃ t, exec (.rekeyThreshold k) s = .next t ∧
      t.core.link k = { l with rekeyWait := true }) ∧
    (∀ edge, c.clear k → c.cadOut k = true → c.blf.run = true → (c.tref.st = .locked ∨ c.tref.st = .freeRun) →
      ∃ t, exec (.cadenceSend k edge) s = .next t ∧ c.sentOn t.core k 0x08 (c.cadencePayload edge)) ∧
    (∀ edge, c.cadOut k = false → exec (.cadenceSend k edge) s = .next (s.after c))) ∧
  (∀ s : State,
    let c := s.core
    (∀ (x : Xfer) (i : Nat) (f : Fetch), c.xfers = [x] → x.role = .fetch i → x.ended = false → x.deadline ≤ c.clk.nominal →
      c.segs = [] → (c.desc i).fetch = some f → c.dir.rising = true →
      ∃ t, exec .transferDeadline s = .next t ∧ t.core.xfers = [] ∧ (t.core.desc i).fetch = none ∧
        (t.core.desc i).st = (if (c.desc i).st = .fetching then .remote else (c.desc i).st) ∧
        ∀ r, f.reqs = [r] → c.answers r → State.completes s t r 0x0A07) ∧
    (∀ x : Xfer, c.xfers = [x] → x.role = .relay → x.deadline + 1_250_000 ≤ c.clk.nominal →
      exec .transferDeadline s = .next (s.after { c with xfers := [] })))

/-- R362, R363: every frame command. A frame on a link that is not UP has no effect; one whose tag does not verify is counted
and asked for again, once; one out of sequence is dropped and asked for again. An accepted one acts: LINK_CTL's ACK frees the
replay buffer, and so does every frame's; SPDM changes nothing else; a delay request is answered with its own times, and its
answer is a new sample (R381); the cadence of RELAY_LINK is taken over (R382); a relayed message is kept until its last frame
(R385); a retire marker marks its transfers, is recorded with 0x070B and acknowledged, and its acknowledgement clears the
link's mark (R380). (The model's own choices in it: logs 68 and 69.) -/
def Obligations.FramesHeard : Prop :=
  ∀ (s : State) (k : Nat) (fr : Frame),
    let c := s.core
    let l := c.link k
    let c1 := c.heard k fr
    k < 36 → c.links.length = 36 →
    (∀ i type, (i, type) ∈ [(Instr.linkCtl k fr, 0x01), (.fetchReq k fr, 0x02), (.fetchData k fr, 0x03), (.fetchEnd k fr, 0x04),
        (.writeData k fr, 0x05), (.cadence k fr, 0x08), (.delayReq k fr, 0x09), (.delayResp k fr, 0x0A), (.attest k fr, 0x0C),
        (.retireMarker k fr, 0x0D), (.retireAck k fr, 0x0E), (.spdmFrame k fr, 0x10)] →
      (l.st ≠ .up → exec i s = .next (s.after c)) ∧
      (l.st = .up → fr.type = type → fr.tagOk = false → l.nak = true →
        exec i s = .next (s.after ((c.setLink k { l with rxCount := l.rxCount + 1 }).bump (lnkBase k + 0x118) 1))) ∧
      (c.clear k → fr.type = type → fr.tagOk = false → l.nak = false → ∃ t, exec i s = .next t ∧
        c.sentOn t.core k 0x01 (ctlPayload true l.seqRx) ∧ (t.core.link k).nak = true ∧ (t.core.link k).seqRx = l.seqRx ∧
        (t.core.link k).rxCount = l.rxCount + 1) ∧
      (l.st = .up → fr.type = type → fr.tagOk = true → fr.seq ≠ l.seqRx → l.nak = true →
        exec i s = .next (s.after (c.setLink k { l with
          rxCount := if fr.epoch != l.rxEpoch then 1 else l.rxCount + 1, rxEpoch := fr.epoch, dropped := l.dropped + 1 })))) ∧
    (c.hears k 0x01 fr → c1.settled k → bit (fieldLE fr.payload 0 1) 0 = false → exec (.linkCtl k fr) s = .next (s.after c1)) ∧
    (c.hears k 0x01 fr → c1.settled k → bit (fieldLE fr.payload 0 1) 0 = true →
      let from_ := fieldLE fr.payload 2 2
      let again (x : Sent) : Bool := ackedBy x.fr.seq from_
      let l1 := c1.link k
      l1.replay.any (fun x => again x && decide (8 ≤ x.times)) = false → l1.txCount + l1.replay.length ≤ 2 ^ 63 - 2 ^ 20 →
      l1.replay.any again = true → c.segs = [] →
      ∃ t, exec (.linkCtl k fr) s = .next t ∧ (t.core.link k).replay.length = l1.replay.length ∧
        (t.core.link k).txCount = l1.txCount + (l1.replay.filter again).length ∧
        ∀ j (h : j < l1.replay.length), ((t.core.link k).replay.map (fun x => x.times)).getD j 0 =
          (l1.replay[j]).times + (if again (l1.replay[j]) then 1 else 0)) ∧
    (c.hears k 0x10 fr → c1.settled k → exec (.spdmFrame k fr) s = .next (s.after c1)) ∧
    (c.hears k 0x09 fr → c1.clear k → ∃ t, exec (.delayReq k fr) s = .next t ∧
      c1.sentOn t.core k 0x0A (slice fr.payload 0 8 ++ leBytes 8 c.time50 ++ leBytes 8 c.time50)) ∧
    (c.hears k 0x0A fr → fieldLE fr.payload 0 8 = l.delayT1 → ∃ t, exec (.delayResp k fr) s = .next t ∧
      (t.core.link k).samples = (l.samples ++ [((c.time50 - fieldLE fr.payload 0 8) -
        (fieldLE fr.payload 16 8 - fieldLE fr.payload 8 8)) / 2]).drop (l.samples.length + 1 - 16)) ∧
    (c.hears k 0x0A fr → c1.settled k → fieldLE fr.payload 0 8 ≠ l.delayT1 → exec (.delayResp k fr) s = .next (s.after c1)) ∧
    (c.hears k 0x08 fr → bits (c.reg offTref) 8 6 = k → 16 ≤ l.samples.length → ∃ t, exec (.cadence k fr) s = .next t ∧
      t.core.cadence = (fieldLE fr.payload 9 1, fieldLE fr.payload 0xA 2, fieldLE fr.payload 0xC 2) ∧
      t.core.tref.origin = fieldLE fr.payload 9 1 ∧
      ((c.tref.st = .search ∨ c.tref.st = .freeRun) → 2 ∈ c.sourceOrder →
        t.core.tref.st = .locking ∧ t.core.tref.active = 2)) ∧
    (c.hears k 0x08 fr → c1.settled k → bits (c.reg offTref) 8 6 ≠ k → exec (.cadence k fr) s = .next (s.after c1)) ∧
    (c.hears k 0x0C fr → fKind (c.fwd fr.route) = 2 → fr.index < 256 →
      let ps := (c.keep.relayParts.filter (fun p => !(p.1 = fr.transfer && p.2.1 = fr.index))) ++ [(fr.transfer, fr.index, fr.payload)]
      (fr.last = false → ∃ t, exec (.attest k fr) s = .next t ∧ t.core.keep = { c.keep with relayParts := ps }) ∧
      (fr.last = true → (List.range (fr.index + 1)).all (fun i => ps.any (fun p => p.1 = fr.transfer && p.2.1 = i)) = true →
        ∃ t, exec (.attest k fr) s = .next t ∧ t.core.keep = { c.keep with
          relayParts := ps.filter (fun p => p.1 != fr.transfer), relayTo := some (fr.ret, fr.transfer) })) ∧
    (c.hears k 0x0D fr → c1.clear k →
      let mine (x : Xfer) : Bool := x.origin = fieldLE fr.payload 0 8 && x.slot = fieldLE fr.payload 8 2 && x.gen = fieldLE fr.payload 0xA 2
      ∃ (t : State) (n : Nat) (pre more : List Event), exec (.retireMarker k fr) s = .next t ∧
        (∀ x ∈ t.core.xfers, mine x = true → x.retired = true) ∧ (∀ x ∈ c.xfers, mine x = false → x ∈ t.core.xfers) ∧
        c1.sentOn t.core k 0x0E (fr.payload.take 12) ∧
        t.evr = (s.evr.takeAll c.stamp (c.outbox ++ pre ++ ⟨0x070B, 0xFFFF, n, 0, 0, 0xFFFF, k⟩ :: more)).1) ∧
    (c.hears k 0x0E fr → c1.settled k → fieldLE fr.payload 0 8 = s.trim.moduleId →
      exec (.retireAck k fr) s = .next (s.after (c1.setLink k { c1.link k with
        marks := l.marks.filter (fun x => x != fieldLE fr.payload 8 2) })))

/-- R369 to R378: requests and transfers on the links. A request is sent on with what is left of its budget and a record of
it, or refused from here; at its source it is refused with the first code that applies, or a write-back claims its entry. Data
is sent on by its label, counted at its origin, and dropped where there is no record of it; FETCH_END ends the transfer where
it is sent on and where it arrives; a write-back's frames are kept until the last, when its pages land. (The model's own
choices in it: logs 35, 70 to 72.) -/
def Obligations.TransfersMove : Prop :=
  ∀ (s : State) (k j : Nat) (fr : Frame),
    let c := s.core
    let c1 := c.heard k fr
    k < 36 → j < 36 → j ≠ k → c.links.length = 36 →
    (c.hears k 0x02 fr → fKind (c.fwd fr.route) = 1 → c.route fr.route = [j] → c.clear j →
      let r := (parseReq fr.payload).1
      let cost := c.deduct j 450_000
      (cost ≤ r.budget → c.tableFull = false → ∃ t, exec (.fetchReq k fr) s = .next t ∧
        t.core.xfers = c.xfers ++ [{
          origin := r.origin, transfer := fr.transfer, slot := r.slot, gen := r.gen, links := [k, j]
          deadline := c.clk.nominal + (r.budget - cost) * 125, role := .relay, frames := 0, data := [], out := some fr.route
          back := some fr.ret, retired := false, ended := false, total := none }] ∧
        c.sentOn t.core j 0x02 (slice fr.payload 0 0x18 ++ leBytes 4 (r.budget - cost) ++ fr.payload.drop 0x1C)) ∧
      (r.budget < cost → ∃ t, exec (.fetchReq k fr) s = .next t ∧ t.core.xfers = c.xfers) ∧
      (cost ≤ r.budget → c.tableFull = true → ∃ t, exec (.fetchReq k fr) s = .next t ∧ t.core.xfers = c.xfers)) ∧
    (c.hears k 0x02 fr → fKind (c.fwd fr.route) = 2 →
      let p := parseReq fr.payload
      let r := p.1
      (∀ code, c1.refusal r p.2 = code → code ≠ 0 → c.route fr.ret = [j] → c.clear j → ∃ t, exec (.fetchReq k fr) s = .next t ∧
        t.core.xfers = c.xfers ∧ t.dram = s.dram ∧ c.sentOn t.core j 0x04 (endPayload code 0)) ∧
      (c1.refusal r p.2 = 0 → r.object = 4 → ∃ t, exec (.fetchReq k fr) s = .next t ∧
        (t.core.desc r.desc).claimant = 1 ∧ (t.core.desc r.desc).kind = 1 ∧
        ∃ x, t.core.xfers = c.xfers ++ [x] ∧ x.role = .source r.desc 4 r.first r.count ∧ x.transfer = fr.transfer ∧ x.back = some fr.ret)) ∧
    (c.hears k 0x03 fr → c.record k fr.transfer = none → fKind (c.fwd fr.route) = 2 → c1.settled k →
      exec (.fetchData k fr) s = .next (s.after (c1.bump (lnkBase k + 0x130) 1))) ∧
    (∀ x : Xfer, c.record k fr.transfer = some x → x.retired = false →
      (c.hears k 0x03 fr → fKind (c.fwd fr.route) = 1 → c.route fr.route = [j] → c.clear j →
        ∃ t, exec (.fetchData k fr) s = .next t ∧ t.core.xfers = c.xfers ∧ c.sentOn t.core j 0x03 fr.payload) ∧
      (∀ i, c.hears k 0x03 fr → fKind (c.fwd fr.route) = 2 → x.role = .fetch i → x.total = none →
        ∃ t, exec (.fetchData k fr) s = .next t ∧ t.dram = s.dram ∧
          t.core.xfers = c.xfers.map (fun y => if y = x then { x with frames := x.frames + 1 } else y)) ∧
      (c.hears k 0x04 fr → fKind (c.fwd fr.route) = 1 → c.route fr.route = [j] → c.clear j →
        ∃ t, exec (.fetchEnd k fr) s = .next t ∧ t.core.xfers = c.xfers.filter (fun y => !decide (y = x)) ∧
          c.sentOn t.core j 0x04 fr.payload) ∧
      (∀ i, c.hears k 0x04 fr → fKind (c.fwd fr.route) = 2 → x.role = .fetch i → x.ended = false → c.xfers = [x] →
        (fieldLE fr.payload 0 2 = 0 → fieldLE fr.payload 4 4 ≤ x.frames → ∃ t, exec (.fetchEnd k fr) s = .next t ∧
          t.core.xfers = [{ x with total := some (fieldLE fr.payload 4 4), ended := true }]) ∧
        (fieldLE fr.payload 0 2 = 0 → x.frames < fieldLE fr.payload 4 4 → ∃ t, exec (.fetchEnd k fr) s = .next t ∧
          t.core.xfers = [{ x with total := some (fieldLE fr.payload 4 4) }])) ∧
      (∀ d first count, c.hears k 0x05 fr → fKind (c.fwd fr.route) = 2 → x.role = .source d 4 first count →
        let y : Xfer := { x with frames := x.frames + 1, data := x.data ++ [(fr.index, fr.payload)] }
        (y.frames < writeFrames count → ∃ t, exec (.writeData k fr) s = .next t ∧ t.dram = s.dram ∧
          t.core.xfers = c.xfers.map (fun z => if z = x then y else z)) ∧
        (writeFrames count ≤ y.frames → c.dir.rising = true → c.segs = [] → (c.desc d).st ≠ .free → ∃ t, exec (.writeData k fr) s = .next t ∧
          (t.core.desc d).claimant = 0 ∧ (t.core.desc d).kind = 0 ∧ (t.core.desc d).sealSt = 3 ∧
          (∀ z ∈ t.core.xfers, z ≠ y) ∧
          t.dram = (((((c.desc d).statePages (c.groupsOf d) true).filter (fun u => decide (first ≤ u))).take count).zipIdx.map
            (fun (u : Nat × Nat) => y.page u.1 u.2 count)).foldl (fun (dr : Dram) q => c.landPage dr d q) s.dram)))

/-! ## Firmware and boot (14, 17) -/

/-- R405 to R409: firmware images of the kind KEP_FW_CTL selects. STAGE takes an image that passes R389 and begins to write it
to the inactive slot, or shows the code; its end stages the image with 0x0515; ACTIVATE opens the window of a staged one; the
window ends with the image active and 0x0516, or with the old one in force and 0x0514; DISCARD drops a staged image;
COMMIT_SVN raises the minimum to the active image's SVN; a command while another is under way shows 0x0512, one on nothing
staged 0x0513. R397: KEP_LOG_SEL shows the entry counted back from the newest. (The model's own choices in it: log 76.) -/
def Obligations.FirmwareImages : Prop :=
  ∀ s : State,
    let c := s.core
    let a := s.trim.admin
    let k := c.fwSel
    let x := c.fw k
    let refused (code : Nat) : State := s.after { c with keep := { c.keep with refCode := code, refSlot := 0 } }
    (∀ entry, exec (.kepLogSel a entry) s = .next (s.after { c with keep := { c.keep with
      logSel := entry % 4096, logShown := c.keep.log.reverse[entry % 4096]? } })) ∧
    (1 ≤ k → k ≤ 4 → c.keep.fws.length = 4 →
      (c.keep.fwState ≠ 0 → (∀ img, exec (.stage a img) s = .next (refused 0x0512)) ∧ exec (.discard a) s = .next (refused 0x0512) ∧
        exec (.activate a) s = .next (refused 0x0512)) ∧
      (c.keep.fwState = 0 →
        (∃ t, exec (.stage a none) s = .next t ∧ t.core.keep = { c.keep with refCode := 0x0510, refSlot := 0 }) ∧
        (∀ d : List Byte, ∃ t, exec (.stage a (some d)) s = .next t ∧
          (let code := imageCode s.trim x.svnMin k d
           (code ≠ 0 → t.core.keep = { c.keep with refCode := code, refSlot := 0 }) ∧
           (code = 0 → t.core.fw k = x.putOther none false ∧ t.core.keep.fwState = 1 ∧ t.core.keep.fwKind = k ∧
             t.core.keep.fwNew = some (imageOf d) ∧ t.core.keep.slots = c.keep.slots))) ∧
        (x.staged = false → exec (.discard a) s = .next (refused 0x0513) ∧ exec (.activate a) s = .next (refused 0x0513)) ∧
        (x.staged = true → (∃ t, exec (.discard a) s = .next t ∧ t.core.fw k = x.putOther none false ∧ t.core.keep.fwState = 0) ∧
          exec (.activate a) s = .next (s.after { c with keep := { c.keep with
            fwState := 2, fwKind := k, sessions := if k = 1 then [] else c.keep.sessions } }))) ∧
      exec (.commitSvn a) s = .next (s.after (c.setFw k { x with svnMin := max x.svnMin ((x.active.map (fun i => i.svn)).getD 0) }))) ∧
    (let n := c.keep.fwKind
     let y := c.fw n
     let idle (t : State) : Prop := t.core.keep.fwState = 0 ∧ t.core.keep.fwKind = 0 ∧ t.core.keep.fwNew = none
     1 ≤ n → n ≤ 4 → c.keep.fws.length = 4 →
      (c.keep.fwState = 1 → (∃ t, exec (.stagingDone true) s = .next t ∧ t.core.fw n = y.putOther c.keep.fwNew true ∧ idle t ∧
          t.evr = (s.evr.takeAll c.stamp (c.outbox ++ [⟨0x0515, 0xFFFF, 0, 0, 0, 0xFFFF, 0⟩])).1) ∧
        (∃ t, exec (.stagingDone false) s = .next t ∧ t.core.fw n = y ∧ idle t ∧ t.core.keep.refCode = 0x0510)) ∧
      (c.keep.fwState = 2 → (∃ (t : State) (more : List Event), exec (.activationDone true) s = .next t ∧ idle t ∧
          t.core.fw n = { y with activeB := !y.activeB, staged := false, failed := false } ∧
          t.evr = (s.evr.takeAll c.stamp (c.outbox ++ ⟨0x0516, 0xFFFF, 0, 0, 0, 0xFFFF, 0⟩ :: more)).1) ∧
        (∃ (t : State) (more : List Event), exec (.activationDone false) s = .next t ∧ idle t ∧ t.core.fw n = { y with failed := true } ∧
          t.evr = (s.evr.takeAll c.stamp (c.outbox ++ ⟨0x0514, 0xFFFF, 0, 0, 0, 0xFFFF, 0⟩ :: more)).1)) ∧
      (c.keep.fwState ≠ 1 → ∀ ok, exec (.stagingDone ok) s = .next (s.after c)) ∧
      (c.keep.fwState ≠ 2 → ∀ ok, exec (.activationDone ok) s = .next (s.after c)))

/-- R391, R456: boot of a powered module goes through its four stages in order. A kind boots from its active slot, from the
other with event 0x0517 where only that one passes, and from none with FAIL_N asserted and a responder that answers little;
stage 4 opens the responder, and READY follows it and the memory controllers, with FAIL_N released. (The model's own choices
in it: log 76.) -/
def Obligations.BootStages : Prop :=
  ∀ s : State,
    let c := s.core
    let x := c.fw 1
    let at_ (n : Nat) : Keep := { c.keep with bootStage := n }
    c.prc.powered = true → c.keep.basic = false → c.keep.fws.length = 4 →
    (∀ n, (n ≠ c.keep.bootStage + 1 ∨ 4 < n) → exec (.bootStage n) s = .next (s.after c)) ∧
    (c.keep.bootStage = 0 →
      (x.passes x.active = true → exec (.bootStage 1) s = .next (s.after { c with keep := at_ 1 })) ∧
      (x.passes x.active = false → x.passes x.other = true → ∃ t, exec (.bootStage 1) s = .next t ∧ t.core.keep.bootStage = 1 ∧
        t.core.fw 1 = { x with activeB := !x.activeB, staged := false } ∧
        t.evr = (s.evr.takeAll c.stamp (c.outbox ++ [⟨0x0517, 0xFFFF, 1, 0, 0, 0xFFFF, 0⟩])).1) ∧
      (x.passes x.active = false → x.passes x.other = false → ∃ t, exec (.bootStage 1) s = .next t ∧ t.core.keep.bootStage = 0 ∧
        t.core.keep.basic = true ∧ t.core.keep.open_ = true ∧ 7 ∈ t.core.out.failN)) ∧
    (c.keep.bootStage = 1 → exec (.bootStage 2) s = .next (s.after { c with keep := at_ 2 })) ∧
    (c.keep.bootStage = 2 → (∀ k, 2 ≤ k → k ≤ 4 → (c.fw k).passes (c.fw k).active = true) →
      exec (.bootStage 3) s = .next (s.after { c with keep := at_ 3 })) ∧
    (c.keep.bootStage = 2 → (∃ k, 2 ≤ k ∧ k ≤ 4 ∧ (c.fw k).passes (c.fw k).active = false ∧ (c.fw k).passes (c.fw k).other = false) →
      ∃ t, exec (.bootStage 3) s = .next t ∧ t.core.keep.bootStage = 2 ∧ t.core.keep.basic = true ∧ 7 ∈ t.core.out.failN) ∧
    (c.keep.bootStage = 3 → ∃ t, exec (.bootStage 4) s = .next t ∧ t.core.keep.bootStage = 4 ∧ t.core.keep.open_ = true ∧
      t.core.gate.run = c.gate.halted.map (fun h => !h) ∧
      (c.gate.ready = false → c.mem.ctls.all (fun m => m.init || m.trainFail != 0) = true →
        t.core.gate.ready = true ∧ 0 ∉ t.core.out.failN) ∧
      (c.gate.ready = false → c.mem.ctls.all (fun m => m.init || m.trainFail != 0) = false → t.core.gate.ready = false))

/-! ## The supply, the envelope, the regions and the resets (15, 17) -/

/-- R456, R457, R412, R413, R415, R419: power and input. POWER_UP starts a module that was off with a charged store and the
towers' self-tests, an empty recorder and empty memory; a change of the input enters its band with that band's event, and is
fatal before READY and in PF_SAFE; above 64.0 V the switch opens; below 44.0 V for more than 2 µs a running module goes to
holdover at factor code 5 with 0x0802, and comes back with 0x0803; ripple above 1.5 V is recorded with 0x0808, at most every
10 s. (The model's own choices in it: logs 6 and 80.) -/
def Obligations.PowerAndInput : Prop :=
  ∀ s : State,
    let c := s.core
    let p := c.prc
    (p.powered = false → ∃ t, exec .powerUp s = .next t ∧ t.core.prc.powered = true ∧ t.core.prc.pwrgd = true ∧ t.core.prc.band = 2 ∧
      t.core.prc.energy = 3100 ∧ t.core.prc.state = .normal ∧ 4600 ≤ t.core.prc.vin ∧ t.core.prc.vin ≤ 6000 ∧
      t.core.gate.ready = false ∧ t.core.out.failN = [0] ∧ t.core.keep.bootStage = 0 ∧ t.core.keep.fws = c.keep.fws ∧
      t.core.towers.length = 64 ∧ (∀ y ∈ t.core.towers, y.testDone = false ∧ y.fenced = false) ∧ t.core.segs = [] ∧ t.core.regs = [] ∧
      t.dram = ⟨[], [], [], []⟩ ∧ t.evr.records = [] ∧ t.evr.full = false ∧ t.pending = s.pending) ∧
    (p.powered = true → exec .powerUp s = .next (s.after { c with
      free := c.free + 1
      prc := { p with pwrgd := true, band := 2, vin := if 4600 ≤ p.vin ∧ p.vin ≤ 6000 then p.vin else 4600 + Config.freeNat c.free % 1401 } })) ∧
    (∀ vin, p.powered = false → exec (.inputBandChange vin) s = .next (s.after { c with prc := { p with vin := vin, band := bandOf vin } })) ∧
    (∀ vin, p.powered = true → c.gate.ready = true → p.state ≠ .pfSafe → bandOf vin = p.band →
      exec (.inputBandChange vin) s = .next (s.after { c with prc := { p with vin := vin } })) ∧
    (∀ vin, p.powered = true → c.gate.ready = true → p.state ≠ .pfSafe → bandOf vin ≠ p.band →
      ∃ t, exec (.inputBandChange vin) s = .next t ∧ t.core.prc.band = bandOf vin ∧ t.core.prc.vin = vin ∧
        (p.state = .normal → bandOf vin = 1 → t.core.prc.state = .low) ∧
        (p.state = .low → (bandOf vin = 2 ∨ bandOf vin = 3) → t.core.prc.state = .normal) ∧
        (p.bandLeft.getD (bandOf vin) 0 = 0 → t.evr = (s.evr.takeAll c.stamp (c.outbox ++
          match bandOf vin with
          | 4 => [⟨0x080E, 0xFFFF, 0, 0, 0, 0xFFFF, 0⟩]
          | 3 => [⟨0x0805, 0xFFFF, 0, 0, 0, 0xFFFF, 0⟩]
          | 1 => [⟨0x0804, 0xFFFF, 0, 0, 0, 0xFFFF, 0⟩]
          | _ => [])).1)) ∧
    (∀ vin, p.powered = true → ((c.gate.ready = false ∧ bandOf vin ≠ 2) ∨ (p.state = .pfSafe ∧ bandOf vin = 0)) →
      ∃ t, exec (.inputBandChange vin) s = .next t ∧ t.core.prc.powered = false ∧ t.core.prc.vin = vin ∧ t.core.segs = [] ∧
        t.dram = ⟨[], [], [], []⟩ ∧ t.core.keep.fws = c.keep.fws) ∧
    (∀ vin, 6400 < vin → p.powered = true → c.gate.ready = true → p.band ≠ 4 → ∃ t, exec (.overVoltage vin) s = .next t ∧
      t.core.prc.band = 4 ∧ t.core.prc.switchOpen = some c.clk.nominal ∧ t.core.switchIsOpen = true) ∧
    (∀ vin, vin ≤ 6400 → exec (.overVoltage vin) s = .next (s.after c)) ∧
    (p.powered = true → c.gate.ready = false → ∃ t, exec .pwrgdInDeasserted s = .next t ∧ t.core.prc.powered = false ∧
      t.core.prc.pwrgd = false ∧ t.dram = ⟨[], [], [], []⟩) ∧
    ((p.powered = false ∨ c.gate.ready = true) → exec .pwrgdInDeasserted s = .next (s.after { c with prc := { p with pwrgd := false } })) ∧
    (∀ vin, p.powered = true → c.gate.ready = true → (p.state = .normal ∨ p.state = .low) → vin < 4400 →
      ∃ (t : State) (pre more : List Event), exec (.holdoverEntry vin) s = .next t ∧ t.core.prc.state = .holdover ∧
        t.core.prc.holdSince = c.clk.nominal ∧ t.core.blf = { c.blf with reqHoldover := 5 } ∧
        t.evr = (s.evr.takeAll c.stamp (c.outbox ++ pre ++ ⟨0x0802, 0xFFFF, vin / 10, 0, 0, 0xFFFF, 0⟩ :: more)).1) ∧
    (∀ energy, p.powered = true → c.gate.ready = true → c.blf.reqHoldover ≠ 0 → c.inputGood = true → 3100 ≤ energy →
      ∃ (t : State) (more : List Event), exec (.holdoverExit energy) s = .next t ∧ t.core.blf.reqHoldover = 0 ∧ t.core.prc.energy = energy ∧
        (p.state = .holdover → t.core.prc.state = .normal) ∧
        t.evr = (s.evr.takeAll c.stamp (c.outbox ++ ⟨0x0803, 0xFFFF, min 0xFFFF ((c.clk.nominal - p.holdSince) / 1250), 0, 0, 0xFFFF, 0⟩ :: more)).1) ∧
    (∀ energy, energy < 3100 → exec (.holdoverExit energy) s = .next (s.after c)) ∧
    (∀ mv hz, mv < 2 ^ 16 → hz < 2 ^ 16 → p.powered = true → 1500 < mv → p.rippleAt = none →
      exec (.rippleMeasure mv hz) s = .next (s.after ({ c with prc := { p with
        ripple := mv, freq := hz, rippleAt := some c.clk.nominal } }.raise ⟨0x0808, 0xFFFF, mv, hz, 0, 0xFFFF, 0⟩))) ∧
    (∀ mv hz b, mv < 2 ^ 16 → hz < 2 ^ 16 → p.powered = true → 1500 < mv → p.rippleAt = some b →
      (c.clk.nominal < b + 12_500_000_000 →
        exec (.rippleMeasure mv hz) s = .next (s.after { c with prc := { p with ripple := mv, freq := hz } })) ∧
      (b + 12_500_000_000 ≤ c.clk.nominal → exec (.rippleMeasure mv hz) s = .next (s.after ({ c with prc := { p with
        ripple := mv, freq := hz, rippleAt := some c.clk.nominal } }.raise ⟨0x0808, 0xFFFF, mv, hz, 0, 0xFFFF, 0⟩)))) ∧
    (∀ mv hz, mv ≤ 1500 → hz < 2 ^ 16 →
      exec (.rippleMeasure mv hz) s = .next (s.after { c with prc := { p with ripple := mv, freq := hz, rippleAt := none } }))

/-- R416 to R418: the orderly stop. A cause stops the queues, the releases and admission at once; after 1 ms what still runs
is held with 0x0806 and the links go DOWN in PF_SAFE, with 0x0807 and FAIL_N; RESUME brings the module back with its links.
(The model's own choices in it: logs 80 and 81.) -/
def Obligations.OrderlyStops : Prop :=
  ∀ s : State,
    let c := s.core
    let p := c.prc
    (∀ cause, p.powered = true → c.gate.ready = true → p.state ≠ .stopping → p.state ≠ .pfSafe →
      ((cause = 0 ∧ p.vin < 4000) ∨ (cause = 1 ∧ p.state = .holdover) ∨ (cause = 2 ∧ p.pwrgd = false)) →
      exec (.orderlyStop cause) s = .next (s.after { c with
        prc := { p with state := .stopping, stopAt := c.clk.nominal, energy := if cause = 1 then 800 else p.energy }
        blf := { c.blf with stopped := true }, gate := { c.gate with stopping := true } })) ∧
    ((p.state = .stopping ∨ p.state = .pfSafe) → ∀ cause, exec (.orderlyStop cause) s = .next (s.after c)) ∧
    ((p.state ≠ .stopping ∨ c.clk.nominal < p.stopAt + 1_250_000) →
      exec .orderlyStopYieldEnd s = .next (s.after c) ∧ exec .pfSafe s = .next (s.after c)) ∧
    (∀ x : Seg, p.state = .stopping → p.stopAt + 1_250_000 ≤ c.clk.nominal → c.segs = [x] → x.st = .running → x.out.fault = 0 → c.towers.length = 64 →
      towersOf x.img.towerSet ≠ [] → (∀ k ∈ towersOf x.img.towerSet, k < 64 ∧ (c.tower k).seg = some x.id ∧ (c.tower k).st = .running) →
      c.answers x.req → ∃ t, exec .orderlyStopYieldEnd s = .next t ∧ t.core.segs = [] ∧ State.completes s t x.req 0x0806 ∧
        ∀ k ∈ towersOf x.img.towerSet, (t.core.tower k).st = .faulted ∧ (t.core.tower k).fault.code = 0x0806) ∧
    (p.state = .stopping → p.stopAt + 1_250_000 ≤ c.clk.nominal → c.links.length = 36 → ∃ (t : State) (pre : List Event), exec .pfSafe s = .next t ∧
      t.core.prc.state = .pfSafe ∧ (∀ k, (t.core.link k).st = .down) ∧ 5 ∈ t.core.out.failN ∧
      t.evr = (s.evr.takeAll c.stamp (c.outbox ++ pre ++ [⟨0x0807, 0xFFFF, 0, 0, 0, 0xFFFF, 0⟩])).1) ∧
    (p.state = .pfSafe → p.band = 2 → p.pwrgd = true → exec (.resume s.trim.admin) s = .next (s.after { c with
      prc := { p with state := if c.blf.reqHoldover ≠ 0 then .holdover else .normal }
      blf := { c.blf with stopped := false }, gate := { c.gate with stopping := false }
      links := c.links.map (fun (l : LinkS) => if l.enable then { l with st := .training, since := c.clk.nominal } else l)
      out := { c.out with failN := c.out.failN.filter (fun x => x != 5) } })) ∧
    ((p.state ≠ .pfSafe ∨ p.band ≠ 2 ∨ p.pwrgd = false) → exec (.resume s.trim.admin) s = .next (s.after c))

/-- R420, R421, R428, R429: the envelope. The staged fields in range are accepted and put in force at the first beat of a
later window, with 0x080F; a cut that the plan exceeds asks for factor code 3 or 4; FORECAST_SNAP shows the 625 bins; 16 windows
above MAX_POWER ask for code 3 with 0x080C, 16 more for 4, until 1,024 windows at or below it. (The model's own choices in it:
logs 17 and 82.) -/
def Obligations.EnvelopeApplied : Prop :=
  ∀ s : State,
    let c := s.core
    let staged := (c.reg 0x30_0010, c.reg 0x30_0018)
    (envelopeOk staged.1 staged.2 = true → exec (.prcEnvelopeApply s.trim.admin) s =
      .next (s.after { c with pow := { c.pow with apply := true, pending := some staged, since := c.window } })) ∧
    (envelopeOk staged.1 staged.2 = false → exec (.prcEnvelopeApply s.trim.admin) s =
      .next (s.after { c with pow := { c.pow with refCode := 0x080D } })) ∧
    (∀ q ph, c.pow.pending = some (q, ph) → c.clk.first = true → c.pow.since < c.window →
      let d : Core := { c with pow := { c.pow with envPower := q, envPhase := ph, pending := none } }
      ∃ (t : State) (more : List Event), exec .envelopeInForce s = .next t ∧ t.core.pow.envPower = q ∧ t.core.pow.envPhase = ph ∧
        t.core.pow.pending = none ∧
        t.evr = (s.evr.takeAll c.stamp (c.outbox ++ ⟨0x080F, 0xFFFF, 0, 0, 0, 0xFFFF, 0⟩ :: more)).1 ∧
        ((c.pow.maxPower ≤ bits q 0 16 ∨ d.exceeds d.eighths = false) → t.core.blf = c.blf ∧ t.core.pow = d.pow) ∧
        (bits q 0 16 < c.pow.maxPower → d.exceeds d.eighths = true →
          (t.core.blf.reqEnvelope = max c.blf.reqEnvelope 3 ∨ t.core.blf.reqEnvelope = max c.blf.reqEnvelope 4))) ∧
    ((c.pow.pending = none ∨ c.clk.first = false ∨ c.window ≤ c.pow.since) → exec .envelopeInForce s = .next (s.after c)) ∧
    (∃ t, exec (.forecastSnap s.trim.admin) s = .next t ∧ t.core.pow.snapBase = c.window * 4096 ∧ t.core.blf = c.blf ∧
      ∀ b, b < 625 → t.core.pow.snap.get 0 b = c.binWord c.loads b) ∧
    (∀ watts, c.pow.maxPower < watts → watts < 2 ^ 16 →
      (c.blf.reqOverdraw = 0 → ∃ (t : State) (more : List Event), exec (.overdraw watts) s = .next t ∧
        t.core.blf = { c.blf with reqOverdraw := 3 } ∧ t.core.prc = { c.prc with pin := watts } ∧
        t.evr = (s.evr.takeAll c.stamp (c.outbox ++ ⟨0x080C, 0xFFFF, watts, 0, 0, 0xFFFF, 0⟩ :: more)).1) ∧
      (c.blf.reqOverdraw ≠ 0 → exec (.overdraw watts) s = .next (s.after { c with
        prc := { c.prc with pin := watts }, blf := { c.blf with reqOverdraw := 4 } }))) ∧
    (∀ watts, watts ≤ c.pow.maxPower → exec (.overdraw watts) s = .next (s.after c)) ∧
    (∃ t, exec .overdrawClear s = .next t ∧ t.core.blf.reqOverdraw = 0 ∧ t.core.blf.reqEnvelope = 0 ∧ t.core.prc = c.prc)

/-- R432 to R436: the regions. A droop asks for its code once, and clears within 15 mV; a temperature asks for factor code 2,
3 or 4 and leaves it with 3 °C of hysteresis, and four windows at 110 °C fence the region; a neighbour pair that differs too
much asks for code 1 with 0x0809, or fences one of the two; a fenced region's towers are FENCED, with 0x0801; 120 °C trips the
module. (The model's own choices in it: log 79.) -/
def Obligations.RegionsGuarded : Prop :=
  ∀ s : State,
    let c := s.core
    let p := c.prc
    let fenced (t : State) (r cause value : Nat) : Prop := (t.core.region r).fenced = true ∧ (t.core.region r).cause = cause ∧
      (∀ k, 4 * r ≤ k → k < 4 * r + 4 → (t.core.tower k).fenced = true) ∧
      ∃ pre more, t.evr = (s.evr.takeAll c.stamp (c.outbox ++ pre ++ ⟨0x0801, 0xFFFF, r, cause, value, 0xFFFF, r⟩ :: more)).1
    p.regions.length = 16 → c.towers.length = 64 →
    (∀ r mv, r < 16 → (c.region r).fenced = false → c.level s.trim r < 2 ^ 16 →
      let x := c.region r
      let d := c.level s.trim r - mv
      let k := if 45 ≤ d then 2 else if 25 ≤ d then 1 else 0
      (x.droop < k → exec (.droop r mv) s = .next (s.after ((c.setRegion r { x with mv := mv, droop := k }).raise
        ⟨0x080A, 0xFFFF, r, d, 0, 0xFFFF, r⟩))) ∧
      (k ≤ x.droop → exec (.droop r mv) s = .next (s.after (c.setRegion r { x with mv := mv })))) ∧
    (∀ r mv, r < 16 → c.level s.trim r ≤ mv + 15 → mv ≤ c.level s.trim r + 15 → ∃ t, exec (.droopClear r mv) s = .next t ∧
      t.core.region r = { c.region r with mv := mv, droop := 0 } ∧ (∀ j, j ≠ r → t.core.region j = c.region j)) ∧
    (∀ r mv, (c.level s.trim r > mv + 15 ∨ mv > c.level s.trim r + 15) → exec (.droopClear r mv) s = .next (s.after c)) ∧
    (∀ r temp, r < 16 → p.powered = true →
      let x := c.region r
      let k := thermalCode x.thermal temp
      (x.fenced = false → (temp < 110 ∨ x.hot + 1 < 4) → ∃ t, exec (.thermalSample r temp) s = .next t ∧
        t.core.region r = { x with temp := min 255 temp, thermal := k, hot := if 110 ≤ temp then x.hot + 1 else 0 } ∧
        (∀ j, j ≠ r → t.core.region j = c.region j) ∧
        t.evr = (s.evr.takeAll c.stamp (c.outbox ++ if x.thermal < k then [⟨0x0811, 0xFFFF, 0, 0, 0, 0xFFFF, r⟩] else [])).1) ∧
      (x.fenced = false → 110 ≤ temp → 4 ≤ x.hot + 1 → ∃ t, exec (.thermalSample r temp) s = .next t ∧ fenced t r 3 (min 255 temp))) ∧
    (∀ old temp, (105 ≤ temp → thermalCode old temp = 4) ∧ (100 ≤ temp → temp < 102 → thermalCode old temp = 3) ∧
      (95 ≤ temp → temp < 97 → thermalCode old temp = 2) ∧ (temp < 92 → thermalCode old temp = 0) ∧
      (102 ≤ temp → temp < 105 → thermalCode old temp = if 4 ≤ old then 4 else 3)) ∧
    (∀ a b thermal diff, neighbours a b = true → (c.region a).fenced = false → (c.region b).fenced = false → diff < 2 ^ 16 →
      ((if thermal then 18 else 60) < diff → diff < (if thermal then 25 else 80) →
        ∃ (t : State) (more : List Event), exec (.neighbourLimit a b thermal diff) s = .next t ∧ t.core.blf = { c.blf with reqNeighbour := 1 } ∧
          t.core.prc = p ∧ t.evr = (s.evr.takeAll c.stamp (c.outbox ++ ⟨0x0809, 0xFFFF, a, b, diff, 0xFFFF, a⟩ :: more)).1) ∧
      ((if thermal then 25 else 80) ≤ diff → ∃ t, exec (.neighbourLimit a b thermal diff) s = .next t ∧
        let r := c.farther s.trim thermal a b
        (r = a ∨ r = b) ∧ fenced t r (if thermal then 2 else 1) (c.sensed s.trim thermal r % 2 ^ 16)) ∧
      (diff ≤ (if thermal then 18 else 60) → exec (.neighbourLimit a b thermal diff) s = .next (s.after c))) ∧
    (∃ t, exec .neighbourClear s = .next t ∧ t.core.blf.reqNeighbour = 0 ∧ t.core.prc = p) ∧
    (∀ r cause value, r < 16 → 1 ≤ cause → cause ≤ 3 → value < 2 ^ 16 → p.powered = true → (c.region r).fenced = false →
      ∃ t, exec (.regionFence r cause value) s = .next t ∧ fenced t r cause value) ∧
    (∀ sensor temp, p.powered = true → 120 ≤ temp → ∃ t, exec (.thermalTrip sensor temp) s = .next t ∧ t.core.prc.powered = false ∧
      t.core.tripWord = some (sensor, temp) ∧ 6 ∈ t.core.out.failN ∧ t.dram = ⟨[], [], [], []⟩) ∧
    (∀ sensor temp, temp < 120 → exec (.thermalTrip sensor temp) s = .next (s.after c))

/-- R459 to R463: the resets. A region reset fences its region with cause 0, takes its towers to reset values and keeps them
FENCED until their self-tests pass; a warm reset stops the towers, links, segments and pairs, keeps the Keep's slots and bases
and counts itself, and is dropped before READY; a cold reset puts the power stage off and keeps only flash. (The model's own
choices in it: logs 83 and 84.) -/
def Obligations.ResetsTaken : Prop :=
  ∀ s : State,
    let c := s.core
    let a := s.trim.admin
    let r := bits (c.reg 0x30_0070) 8 4
    c.prc.regions.length = 16 → c.towers.length = 64 →
    (c.takesReset = true → c.prc.busy = none → c.keep.fwState ≠ 2 → ∃ (t : State) (pre more : List Event), exec (.regionReset a) s = .next t ∧
      t.core.prc.busy = some r ∧ (t.core.region r).fenced = true ∧
      (∀ k, 4 * r ≤ k → k < 4 * r + 4 → t.core.tower k = { Tower.reset (c.clk.nominal + 1_048_576) with fenced := true }) ∧
      t.evr = (s.evr.takeAll c.stamp (c.outbox ++ pre ++ ⟨0x0801, 0xFFFF, r, 0, 0, 0xFFFF, r⟩ :: more)).1) ∧
    (c.prc.busy ≠ none → exec (.regionReset a) s = .next (s.after c)) ∧
    (c.takesReset = true → c.prc.busy = none → c.keep.fwState = 2 → ∃ t, exec (.regionReset a) s = .next t ∧
      t.core.prc.resetWait.isSome = true ∧ t.core.towers = c.towers) ∧
    (∀ (q : Nat) (units : List Nat), c.prc.busy = some q → q < 16 → units.length = 4 →
      (∀ i, i < 4 → (c.tower (4 * q + i)).testDone = false ∧ (c.tower (4 * q + i)).testEnd ≤ c.clk.nominal) →
      ∃ t, exec (.regionResetDone units) s = .next t ∧ t.core.prc.busy = none ∧ (t.core.region q).fenced = false ∧
        (∀ i, i < 4 → (t.core.tower (4 * q + i)).testDone = true ∧
          (t.core.tower (4 * q + i)).fenced = decide (units.getD i 0 ≠ 0)) ∧
        ∀ k, (k < 4 * q ∨ 4 * q + 4 ≤ k) → t.core.tower k = c.tower k) ∧
    (c.takesReset = true → c.gate.ready = true → ∃ t, exec (.warm a) s = .next t ∧ t.core.segs = [] ∧ t.core.xfers = [] ∧
      t.core.links = List.replicate 36 .reset ∧ t.core.gate.ready = true ∧ t.core.blf.run = false ∧ t.core.blf.segAdmit = false ∧
      t.core.clk.total = 0 ∧ t.core.clk.nominal = c.clk.nominal ∧ t.core.keep.sessions = [] ∧
      t.core.keep.resets.warm = min (2 ^ 32 - 1) (c.keep.resets.warm + 1) ∧
      (∀ k, k < 64 → (t.core.tower k).seg = none ∧ (t.core.tower k).testDone = false) ∧
      (c.keep.waiting = [] → ∀ k, (t.core.slot k).st = (c.slot k).st ∧ (t.core.slot k).root = (c.slot k).root)) ∧
    ((c.takesReset = false ∨ c.gate.ready = false) → exec (.warm a) s = .next (s.after c)) ∧
    (c.takesReset = true → ∃ t, exec (.cold a) s = .next t ∧ t.core.prc.powered = false ∧ t.core.keep.fws = c.keep.fws ∧
      t.core.keep.cert2 = c.keep.cert2 ∧ t.core.segs = [] ∧ t.core.regs = [] ∧ t.dram = ⟨[], [], [], []⟩ ∧ t.evr.records = [] ∧
      t.pending = s.pending) ∧
    (c.takesReset = false → exec (.cold a) s = .next (s.after c))
end

