-- ==== Sys2Proof/Laws/Memory.lean ====
section
/-! SUPPORT. Sparse maps and external memory: what a key reads after each map operation, that each operation keeps the rising
order and the canonical form, and that each memory operation keeps external memory canonical. -/

namespace Sys2Proof.Machine

/-! Reading back. -/

theorem SMap.get_insert {α : Type} (d : α) (m : SMap α) (k j : Nat) (v : α) :
    SMap.get d (SMap.insert m k v) j = if j = k then v else SMap.get d m j := by
  induction m with
  | nil => simp only [SMap.insert, SMap.get]; grind
  | cons e m ih => obtain ⟨i, w⟩ := e; simp only [SMap.insert]; grind [SMap.get]

theorem SMap.get_of_above {α : Type} (d : α) (m : SMap α) (k : Nat) (h : ∀ e ∈ m, k < e.1) : SMap.get d m k = d := by
  cases m with
  | nil => rfl
  | cons e m => obtain ⟨i, w⟩ := e; have := h (i, w) (by simp); simp only [SMap.get]; grind

theorem SMap.rising_cons {α : Type} {i : Nat} {v : α} {m : SMap α} :
    SMap.rising ((i, v) :: m) = true ↔ (∀ e ∈ m, i < e.1) ∧ SMap.rising m = true := by
  simp [SMap.rising]

theorem SMap.get_erase {α : Type} (d : α) (m : SMap α) (k j : Nat) (h : m.rising = true) :
    SMap.get d (SMap.erase m k) j = if j = k then d else SMap.get d m j := by
  induction m with
  | nil => simp [SMap.erase, SMap.get]
  | cons e m ih =>
    obtain ⟨i, w⟩ := e
    obtain ⟨h1, h2⟩ := SMap.rising_cons.1 h
    have h3 := SMap.get_of_above d m i h1
    have h4 : ∀ q, q < i → SMap.get d m q = d := fun q hq => SMap.get_of_above d m q (fun e he => Nat.lt_trans hq (h1 e he))
    have ih := ih h2
    simp only [SMap.erase]
    grind [SMap.get]

/-- What a key reads after a write: the value at the key written, and every other key as before. -/
theorem SMap.get_set {α : Type} [DecidableEq α] (d : α) (m : SMap α) (k j : Nat) (v : α) (h : m.rising = true) :
    SMap.get d (SMap.set d m k v) j = if j = k then v else SMap.get d m j := by
  unfold SMap.set
  split
  · rw [SMap.get_erase d m k j h]; grind
  · exact SMap.get_insert d m k j v

/-! The rising order. -/

theorem SMap.mem_erase {α : Type} {m : SMap α} {k : Nat} {e : Nat × α} (h : e ∈ SMap.erase m k) : e ∈ m := by
  induction m with
  | nil => exact h
  | cons a m ih => obtain ⟨i, w⟩ := a; simp only [SMap.erase] at h; grind

theorem SMap.mem_insert {α : Type} {m : SMap α} {k : Nat} {v : α} {e : Nat × α} (h : e ∈ SMap.insert m k v) :
    e = (k, v) ∨ e ∈ m := by
  induction m with
  | nil => simpa [SMap.insert] using h
  | cons a m ih => obtain ⟨i, w⟩ := a; simp only [SMap.insert] at h; grind

theorem SMap.rising_erase {α : Type} {m : SMap α} (k : Nat) (h : m.rising = true) : (SMap.erase m k).rising = true := by
  induction m with
  | nil => rfl
  | cons a m ih =>
    obtain ⟨i, w⟩ := a
    obtain ⟨h1, h2⟩ := SMap.rising_cons.1 h
    simp only [SMap.erase]
    split
    · exact h2
    · split
      · exact h
      · exact SMap.rising_cons.2 ⟨fun e he => h1 e (SMap.mem_erase he), ih h2⟩

theorem SMap.rising_insert {α : Type} {m : SMap α} (k : Nat) (v : α) (h : m.rising = true) : (SMap.insert m k v).rising = true := by
  induction m with
  | nil => rfl
  | cons a m ih =>
    obtain ⟨i, w⟩ := a
    obtain ⟨h1, h2⟩ := SMap.rising_cons.1 h
    simp only [SMap.insert]
    split
    · subst_vars; exact SMap.rising_cons.2 ⟨h1, h2⟩
    · split
      · rename_i h3
        refine SMap.rising_cons.2 ⟨fun e he => ?_, h⟩
        rcases List.mem_cons.1 he with rfl | he
        · exact h3
        · exact Nat.lt_trans h3 (h1 e he)
      · refine SMap.rising_cons.2 ⟨fun e he => ?_, ih h2⟩
        rcases SMap.mem_insert he with rfl | he
        · simp only; omega
        · exact h1 e he

theorem SMap.rising_set {α : Type} [DecidableEq α] {d : α} {m : SMap α} (k : Nat) (v : α) (h : m.rising = true) :
    (SMap.set d m k v).rising = true := by
  unfold SMap.set
  split
  · exact SMap.rising_erase k h
  · exact SMap.rising_insert k v h

/-! The canonical form. -/

theorem SMap.wfFrom_mono {α : Type} [DecidableEq α] {d : α} {a b : Nat} {m : SMap α} (hab : a ≤ b) (h : SMap.wfFrom d b m = true) :
    SMap.wfFrom d a m = true := by
  cases m with
  | nil => rfl
  | cons e m => obtain ⟨i, w⟩ := e; simp only [SMap.wfFrom, Bool.and_eq_true, decide_eq_true_eq] at h ⊢; exact ⟨⟨Nat.le_trans hab h.1.1, h.1.2⟩, h.2⟩

theorem SMap.wfFrom_erase {α : Type} [DecidableEq α] {d : α} {m : SMap α} (k : Nat) :
    ∀ {lo : Nat}, SMap.wfFrom d lo m = true → SMap.wfFrom d lo (SMap.erase m k) = true := by
  induction m with
  | nil => exact fun h => h
  | cons e m ih =>
    intro lo h
    obtain ⟨i, w⟩ := e
    have h' := h
    simp only [SMap.wfFrom, Bool.and_eq_true, decide_eq_true_eq] at h'
    simp only [SMap.erase]
    split
    · exact SMap.wfFrom_mono (by omega) h'.2
    · split
      · exact h
      · simp only [SMap.wfFrom, Bool.and_eq_true, decide_eq_true_eq]; exact ⟨h'.1, ih h'.2⟩

theorem SMap.wfFrom_insert {α : Type} [DecidableEq α] {d : α} {m : SMap α} (k : Nat) (v : α) (hv : v ≠ d) :
    ∀ {lo : Nat}, lo ≤ k → SMap.wfFrom d lo m = true → SMap.wfFrom d lo (SMap.insert m k v) = true := by
  induction m with
  | nil => intro lo hk _; simp [SMap.insert, SMap.wfFrom, hk, hv]
  | cons e m ih =>
    intro lo hk h
    obtain ⟨i, w⟩ := e
    simp only [SMap.wfFrom, Bool.and_eq_true, decide_eq_true_eq] at h
    simp only [SMap.insert]
    split
    · subst_vars; simp only [SMap.wfFrom, Bool.and_eq_true, decide_eq_true_eq]; exact ⟨⟨hk, hv⟩, h.2⟩
    · split
      · simp only [SMap.wfFrom, Bool.and_eq_true, decide_eq_true_eq]; exact ⟨⟨hk, hv⟩, ⟨by omega, h.1.2⟩, h.2⟩
      · simp only [SMap.wfFrom, Bool.and_eq_true, decide_eq_true_eq]; exact ⟨h.1, ih (by omega) h.2⟩

/-- A write keeps the canonical form: writing the value an unlisted key reads as removes the entry. -/
theorem SMap.wf_set {α : Type} [DecidableEq α] {d : α} {m : SMap α} (k : Nat) (v : α) (h : m.wf d = true) :
    (SMap.set d m k v).wf d = true := by
  unfold SMap.set SMap.wf at *
  split
  · exact SMap.wfFrom_erase k h
  · exact SMap.wfFrom_insert k v (by assumption) (Nat.zero_le _) h

theorem SMap.wf_sets {α β : Type} [DecidableEq α] {d : α} (key : β → Nat) (val : β → α) (xs : List β) :
    ∀ {m : SMap α}, m.wf d = true → (xs.foldl (fun (m : SMap α) x => m.set d (key x) (val x)) m).wf d = true := by
  induction xs with
  | nil => exact fun h => h
  | cons x xs ih => exact fun h => ih (SMap.wf_set _ _ h)

/-! External memory: every operation on it keeps the canonical form, and reset has it. -/

theorem Dram.wf_iff {d : Dram} :
    d.wf = true ↔ SMap.wf 0 d.lines = true ∧ SMap.wf 0 d.versions = true ∧ SMap.wf 0 d.tags = true ∧ d.digests.rising = true := by
  simp [Dram.wf, and_assoc]

theorem Dram.wf_zero : Dram.zero.wf = true := rfl

theorem State.reset_dram_wf : State.reset.dram.wf = true := rfl

/-- A list of writes, each of which keeps the canonical form, keeps it. -/
theorem Dram.wf_foldl {α : Type} (f : Dram → α → Dram) (hf : ∀ d x, d.wf = true → (f d x).wf = true) (xs : List α) :
    ∀ {d : Dram}, d.wf = true → (xs.foldl f d).wf = true := by
  induction xs with
  | nil => exact fun h => h
  | cons x xs ih => exact fun h => ih (hf _ _ h)

/-- The same of acts on the die and memory together. -/
theorem Dram.wf_foldl_on {α : Type} (f : Core × Dram → α → Core × Dram) (hf : ∀ r x, r.2.wf = true → (f r x).2.wf = true) (xs : List α) :
    ∀ {r : Core × Dram}, r.2.wf = true → (xs.foldl f r).2.wf = true := by
  induction xs with
  | nil => exact fun h => h
  | cons x xs ih => exact fun h => ih (hf _ _ h)

theorem Dram.wf_lines {d : Dram} {α : Type} (key : α → Nat) (val : α → Line) (xs : List α) (h : d.wf = true) :
    ({ d with lines := xs.foldl (fun (m : SMap Line) x => m.set 0 (key x) (val x)) d.lines } : Dram).wf = true := by
  obtain ⟨h1, h2⟩ := Dram.wf_iff.1 h
  exact Dram.wf_iff.2 ⟨SMap.wf_sets key val xs h1, h2⟩

theorem Dram.wf_tag {d : Dram} (pfn : Nat) (v : BitVec 128) (h : d.wf = true) :
    ({ d with tags := d.tags.set 0 pfn v } : Dram).wf = true := by
  obtain ⟨h1, h2, h3, h4⟩ := Dram.wf_iff.1 h
  exact Dram.wf_iff.2 ⟨h1, h2, SMap.wf_set _ _ h3, h4⟩

theorem Core.setVersion_wf (c : Core) {d : Dram} (pfn v : Nat) (h : d.wf = true) : (c.setVersion d pfn v).wf = true := by
  obtain ⟨h1, h2, h3, h4⟩ := Dram.wf_iff.1 h
  refine Dram.wf_foldl _ (fun d l h => ?_) _ (Dram.wf_iff.2 ⟨h1, SMap.wf_set _ _ h2, h3, h4⟩)
  obtain ⟨g1, g2, g3, g4⟩ := Dram.wf_iff.1 h
  exact Dram.wf_iff.2 ⟨g1, g2, g3, SMap.rising_insert _ _ g4⟩

theorem SMap.rising_inserts {α β : Type} (key : β → Nat) (val : β → α) (xs : List β) :
    ∀ {m : SMap α}, m.rising = true → (xs.foldl (fun (m : SMap α) x => m.insert (key x) (val x)) m).rising = true := by
  induction xs with
  | nil => exact fun h => h
  | cons x xs ih => exact fun h => ih (SMap.rising_insert _ _ h)

theorem Dram.setNode_wf {d : Dram} (o l i : Nat) (v : Line) (h : d.wf = true) : (d.setNode o l i v).wf = true := by
  obtain ⟨h1, h2, h3, h4⟩ := Dram.wf_iff.1 h
  unfold Dram.setNode
  split
  · exact Dram.wf_iff.2 ⟨h1, SMap.wf_sets (fun k => 16 * (16 * i + k) + o) (fun k => bits v.toNat (32 * k) 32) _ h2, h3, h4⟩
  · exact Dram.wf_iff.2 ⟨h1, h2, h3,
      SMap.rising_inserts (fun k => nodeKey o (l - 1) (8 * i + k)) (fun k => v.extractLsb' (64 * k) 64) _ h4⟩

theorem Core.writeSystem_wf (c : Core) {d : Dram} (k u pfn : Nat) (ls : List (Nat × Line)) (h : d.wf = true) :
    (c.writeSystem d k u pfn ls).2.wf = true := by
  unfold Core.writeSystem
  split
  · exact h
  · split
    · refine Dram.wf_foldl _ (fun d l h => ?_) _ h
      split
      · exact Dram.setNode_wf _ _ _ _ h
      · exact h
    · exact Dram.wf_lines (fun l => 64 * pfn + l.1) (fun l => l.2) ls h

theorem Core.landPage_wf (c : Core) (d : Dram) (k : Nat) (p : StoredPage) (h : d.wf = true) : (c.landPage d k p).wf = true := by
  unfold Core.landPage
  repeat' split
  · exact h
  · exact h
  · exact h
  · exact Dram.wf_tag _ _ (Dram.wf_lines (fun (l : Line × Nat) => _) (fun l => l.1) _ (Core.setVersion_wf c _ _ h))

theorem Core.putLines_wf (c : Core) {d : Dram} (k u : Nat) (e : RunEnt) (pfn : Nat) (ls : List (Nat × Line)) (h : d.wf = true) :
    (c.putLines d k u e pfn ls).wf = true :=
  Dram.wf_lines (fun (l : Nat × Line) => 64 * pfn + l.1) (fun l => c.cipher k e u l.1 l.2) ls h

theorem Core.putTag_wf (c : Core) {d : Dram} (u : Nat) (e : RunEnt) (pfn v : Nat) (h : d.wf = true) :
    (c.putTag d u e pfn v).wf = true :=
  Dram.wf_tag _ _ (Core.setVersion_wf c _ _ h)

theorem Core.writePage_wf (c : Core) (d : Dram) (k u : Nat) (ls : List (Nat × Line)) (h : d.wf = true) :
    (c.writePage d k u ls).2.1.wf = true := by
  unfold Core.writePage
  repeat' split
  all_goals first
    | exact h
    | exact Core.writeSystem_wf _ _ _ _ _ h
    | exact Core.putLines_wf _ _ _ _ _ _ h
    | exact Core.putTag_wf _ _ _ _ _ (Core.putLines_wf _ _ _ _ _ _ h)

theorem Core.lineWrite_wf (r : LineReq) (data : Line) (c : Core) (d : Dram) (h : d.wf = true) :
    (c.lineWrite r data d).2.wf = true := by
  unfold Core.lineWrite
  split
  · exact h
  · exact Core.writePage_wf _ _ _ _ _ h

theorem Core.fetchDone_wf (i : Nat) (pages : List StoredPage) (c : Core) (d : Dram) (h : d.wf = true) :
    (c.fetchDone i pages d).2.wf = true := by
  unfold Core.fetchDone
  dsimp only
  split
  · exact h
  · split
    · exact h
    · split
      · exact h
      · exact Dram.wf_foldl _ (fun d p h => Core.landPage_wf _ _ _ _ h) _ h

/-- A swap's save keeps the canonical form. -/
theorem Core.saveSeg_wf (s : Seg) (ts : List (Nat × Tower)) (c : Core) (d : Dram) (h : d.wf = true) :
    (c.saveSeg d s ts).2.wf = true := by
  exact Dram.wf_foldl_on _ (fun r x h => Core.writePage_wf _ _ _ _ _ h) _ h

end Sys2Proof.Machine
end

