-- ==== Sys2Proof/Laws/Ops.lean ====
section
/-! SUPPORT. Each access operation of Machine/Ops.lean: what its part reads after a write, at the place written and at every
other.  A bank of fixed size keeps what it reads outside its size, so its lemma has the bound; a map needs its rising order. -/

namespace Sys2Proof.Machine

theorem Core.tower_setTower (c : Core) (t k : Nat) (x : Tower) (h : t < c.towers.length) :
    (c.setTower t x).tower k = if k = t then x else c.tower k := by
  simp only [Core.tower, Core.setTower, List.getD_eq_getElem?_getD, List.getElem?_set]; grind

theorem Core.link_setLink (c : Core) (l k : Nat) (x : LinkS) (h : l < c.links.length) :
    (c.setLink l x).link k = if k = l then x else c.link k := by
  simp only [Core.link, Core.setLink, List.getD_eq_getElem?_getD, List.getElem?_set]; grind

theorem Core.base_setBase (c : Core) (b k : Nat) (x : Base) (h : b < c.gate.bases.length) :
    (c.setBase b x).base k = if k = b then x else c.base k := by
  simp only [Core.base, Core.setBase, List.getD_eq_getElem?_getD, List.getElem?_set]; grind

theorem Core.port_setPort (c : Core) (p k : Nat) (x : Port) (h : p < c.ports.length) :
    (c.setPort p x).port k = if k = p then x else c.port k := by
  simp only [Core.port, Core.setPort, List.getD_eq_getElem?_getD, List.getElem?_set]; grind

theorem Core.desc_setDesc (c : Core) (i k : Nat) (d : Desc) (h : c.dir.rising = true) :
    (c.setDesc i d).desc k = if k = i then d else c.desc k := SMap.get_set Desc.free c.dir i k d h

theorem Core.slot_setSlot (c : Core) (k j : Nat) (x : KeySlot) (h : c.keep.slots.rising = true) :
    (c.setSlot k x).slot j = if j = k then x else c.slot j := SMap.get_set KeySlot.reset c.keep.slots k j x h

theorem SMap.find_insert {α : Type} (m : SMap α) (k j : Nat) (v : α) :
    ((SMap.insert m k v).find? (fun e => decide (e.1 = j))).map (fun e => e.2) =
      if j = k then some v else (m.find? (fun e => decide (e.1 = j))).map (fun e => e.2) := by
  induction m with
  | nil => simp only [SMap.insert, List.find?]; grind
  | cons e m ih =>
    obtain ⟨i, w⟩ := e
    simp only [SMap.insert]
    split
    · simp only [List.find?]; grind
    · split
      · simp only [List.find?]; grind
      · simp only [List.find?]; grind

theorem Core.ctx_setCtx (c : Core) (x y : Nat) (v : Ctx) : (c.setCtx x v).ctx? y = if y = x then some v else c.ctx? y :=
  SMap.find_insert c.ctxs x y v

theorem Core.runEnt_setRun (c : Core) (k j : Nat) (e : RunEnt) :
    (c.setRun k e).runEnt j = if j = k then some e else c.runEnt j := SMap.find_insert c.mem.runs k j e

theorem FnId.ext_iff' (f g : FnId) : f = g ↔ f.port = g.port ∧ f.fn = g.fn := by
  cases f; cases g; simp

/-- After a function is set, it reads as set and every other as before. -/
theorem Core.fn_setFn (c : Core) (f g : FnId) (x : HostFn) (hp : f.port < c.ports.length)
    (hr : (c.port f.port).fns.rising = true) : (c.setFn f x).fn g = if g = f then x else c.fn g := by
  unfold Core.fn
  rw [Core.setFn, Core.port_setPort _ _ _ _ hp]
  by_cases h : g.port = f.port
  · rw [if_pos h]
    by_cases h2 : g.fn = f.fn
    · have : g = f := (FnId.ext_iff' g f).2 ⟨h, h2⟩
      subst this
      simp [SMap.get_set _ _ _ _ _ hr]
    · have : g ≠ f := fun e => h2 (by rw [e])
      rw [if_neg this, h]
      dsimp only
      have h3 := SMap.get_set (HostFn.reset (decide (f.fn = 0))) (c.port f.port).fns f.fn g.fn x hr
      rw [if_neg h2] at h3
      by_cases h4 : (decide (g.fn = 0)) = decide (f.fn = 0)
      · rw [h4]; exact h3
      · unfold SMap.set at h3 ⊢
        split
        · rw [SMap.get_erase _ _ _ _ hr, if_neg h2]
        · rw [SMap.get_insert, if_neg h2]
  · have : g ≠ f := fun e => h (by rw [e])
    rw [if_neg h, if_neg this]

theorem Core.pair_setPair (c : Core) (f g : FnId) (q j : Nat) (x : Pair) (hp : f.port < c.ports.length)
    (hr : (c.port f.port).fns.rising = true) (hq : (c.fn f).pairs.rising = true) :
    (c.setPair f q x).pair g j = if g = f ∧ j = q then x else c.pair g j := by
  unfold Core.pair Core.setPair
  rw [Core.fn_setFn c f g _ hp hr]
  by_cases h : g = f
  · subst h
    simp only [if_true, true_and]
    exact SMap.get_set .reset _ _ _ _ hq
  · simp [h]

/-- What a counter reads after an addition (R440): its own saturating sum, and every other as before. -/
theorem Core.bump_get (c : Core) (off n o : Nat) (h : c.ctr.rising = true) :
    (c.bump off n).ctr.get .zero o = if o = off then ((c.ctr.get .zero off).bump c.clk.nominal n).1 else c.ctr.get .zero o := by
  have e : (c.bump off n).ctr = c.ctr.set .zero off ((c.ctr.get .zero off).bump c.clk.nominal n).1 := by
    unfold Core.bump; dsimp only; split <;> rfl
  rw [e]; exact SMap.get_set _ _ _ _ _ h

/-- An addition of a counter keeps the rising order, and sends at most the one saturation event. -/
theorem Core.bump_rising (c : Core) (off n : Nat) (h : c.ctr.rising = true) : (c.bump off n).ctr.rising = true := by
  have e : (c.bump off n).ctr = c.ctr.set .zero off ((c.ctr.get .zero off).bump c.clk.nominal n).1 := by
    unfold Core.bump; dsimp only; split <;> rfl
  rw [e]; exact SMap.rising_set _ _ h

theorem Core.bump_outbox (c : Core) (off n : Nat) :
    (c.bump off n).outbox = c.outbox ∨
      (c.bump off n).outbox = c.outbox ++ [satEvent (blockAt off).1 ((off - (blockAt off).2.1) % 2 ^ 16) (blockAt off).2.2] := by
  unfold Core.bump; dsimp only; split
  · exact Or.inr rfl
  · exact Or.inl rfl

end Sys2Proof.Machine
end

