-- ==== Sys2Proof/Laws/PerInstr.lean ====
section
/-! SUPPORT. Per-command families.  Sender: the function that a well-formed command names as its sender exists. -/

namespace Sys2Proof.Laws

/-- The sender of a well-formed command exists (R333, R334). -/
def Sender.Statement (i : Instr) : Prop := i.wf = true → ∀ f, i.sender = some f → f.wf = true

theorem Sender.ofVia : ∀ (v : Via), v.wf = true → ∀ f, v.sender = some f → f.wf = true
  | .doe _, h, _, rfl => h
  | .mctp, _, _, h => nomatch h
  | .relay, _, _, h => nomatch h

theorem Sender.ofAnd : ∀ {a b : Bool}, (a && b) = true → a = true
  | true, _, _ => rfl

theorem Sender.registerWrite (f : HostReq) (bar : Nat) (off : Nat) (size : Nat) (v : Nat) : Sender.Statement (.registerWrite f bar off size v) :=
  fun h _ e => Option.some.inj e ▸ (Sender.ofAnd (Sender.ofAnd (Sender.ofAnd h)))
theorem Sender.unsupportedBarAccess (f : HostReq) (bar : Nat) (off : Nat) (size : Nat) (write : Bool) : Sender.Statement (.unsupportedBarAccess f bar off size write) :=
  fun h _ e => Option.some.inj e ▸ (Sender.ofAnd (Sender.ofAnd (Sender.ofAnd h)))
theorem Sender.lock (f : FnId) (off : Nat) : Sender.Statement (.lock f off) :=
  fun h _ e => Option.some.inj e ▸ h
theorem Sender.cntClear (f : FnId) (off : Nat) : Sender.Statement (.cntClear f off) :=
  fun h _ e => Option.some.inj e ▸ h
theorem Sender.counterSaturated (off : Nat) (n : Nat) : Sender.Statement (.counterSaturated off n) :=
  fun _ _ e => nomatch e
theorem Sender.coreHalt (core : Nat) : Sender.Statement (.coreHalt core) :=
  fun _ _ e => nomatch e
theorem Sender.parkDeadlineExpired : Sender.Statement (.parkDeadlineExpired) :=
  fun _ _ e => nomatch e
theorem Sender.cadencePulse (src : Nat) (rising : Bool) : Sender.Statement (.cadencePulse src rising) :=
  fun _ _ e => nomatch e
theorem Sender.syntheticPulse : Sender.Statement (.syntheticPulse) :=
  fun _ _ e => nomatch e
theorem Sender.sourceLost : Sender.Statement (.sourceLost) :=
  fun _ _ e => nomatch e
theorem Sender.beatCounterWrap : Sender.Statement (.beatCounterWrap) :=
  fun _ _ e => nomatch e
theorem Sender.cpWrap : Sender.Statement (.cpWrap) :=
  fun _ _ e => nomatch e
theorem Sender.calendarWrap : Sender.Statement (.calendarWrap) :=
  fun _ _ e => nomatch e
theorem Sender.factorChange : Sender.Statement (.factorChange) :=
  fun _ _ e => nomatch e
theorem Sender.factorStepDown : Sender.Statement (.factorStepDown) :=
  fun _ _ e => nomatch e
theorem Sender.blfRunSet (f : FnId) : Sender.Statement (.blfRunSet f) :=
  fun h _ e => Option.some.inj e ▸ h
theorem Sender.blfRunClear (f : FnId) : Sender.Statement (.blfRunClear f) :=
  fun h _ e => Option.some.inj e ▸ h
theorem Sender.segAdmitSet (f : FnId) : Sender.Statement (.segAdmitSet f) :=
  fun h _ e => Option.some.inj e ▸ h
theorem Sender.segAdmitClear (f : FnId) : Sender.Statement (.segAdmitClear f) :=
  fun h _ e => Option.some.inj e ▸ h
theorem Sender.blfCpRead (f : FnId) : Sender.Statement (.blfCpRead f) :=
  fun h _ e => Option.some.inj e ▸ h
theorem Sender.segmentAdmission : Sender.Statement (.segmentAdmission) :=
  fun _ _ e => nomatch e
theorem Sender.imagePlacement : Sender.Statement (.imagePlacement) :=
  fun _ _ e => nomatch e
theorem Sender.segmentRelease : Sender.Statement (.segmentRelease) :=
  fun _ _ e => nomatch e
theorem Sender.dropLateExpiry : Sender.Statement (.dropLateExpiry) :=
  fun _ _ e => nomatch e
theorem Sender.segmentEnd : Sender.Statement (.segmentEnd) :=
  fun _ _ e => nomatch e
theorem Sender.release (ctx : Nat) : Sender.Statement (.release ctx) :=
  fun _ _ e => nomatch e
theorem Sender.waitRel (ctx : Nat) : Sender.Statement (.waitRel ctx) :=
  fun _ _ e => nomatch e
theorem Sender.waitPulse (ctx : Nat) : Sender.Statement (.waitPulse ctx) :=
  fun _ _ e => nomatch e
theorem Sender.forecast (ctx : Nat) : Sender.Statement (.forecast ctx) :=
  fun _ _ e => nomatch e
theorem Sender.ballast (ctx : Nat) : Sender.Statement (.ballast ctx) :=
  fun _ _ e => nomatch e
theorem Sender.releaseLoop (ctx : Nat) : Sender.Statement (.releaseLoop ctx) :=
  fun _ _ e => nomatch e
theorem Sender.setAnchor (ctx : Nat) : Sender.Statement (.setAnchor ctx) :=
  fun _ _ e => nomatch e
theorem Sender.releaseEnd (ctx : Nat) : Sender.Statement (.releaseEnd ctx) :=
  fun _ _ e => nomatch e
theorem Sender.nop (t : Nat) : Sender.Statement (.nop t) :=
  fun _ _ e => nomatch e
theorem Sender.loop (t : Nat) : Sender.Statement (.loop t) :=
  fun _ _ e => nomatch e
theorem Sender.barrier (t : Nat) : Sender.Statement (.barrier t) :=
  fun _ _ e => nomatch e
theorem Sender.endSeg (t : Nat) : Sender.Statement (.endSeg t) :=
  fun _ _ e => nomatch e
theorem Sender.aregSet (t : Nat) : Sender.Statement (.aregSet t) :=
  fun _ _ e => nomatch e
theorem Sender.aregAdd (t : Nat) : Sender.Statement (.aregAdd t) :=
  fun _ _ e => nomatch e
theorem Sender.aregStep (t : Nat) : Sender.Statement (.aregStep t) :=
  fun _ _ e => nomatch e
theorem Sender.load (t : Nat) : Sender.Statement (.load t) :=
  fun _ _ e => nomatch e
theorem Sender.pass (t : Nat) : Sender.Statement (.pass t) :=
  fun _ _ e => nomatch e
theorem Sender.forward (t : Nat) : Sender.Statement (.forward t) :=
  fun _ _ e => nomatch e
theorem Sender.sample (t : Nat) : Sender.Statement (.sample t) :=
  fun _ _ e => nomatch e
theorem Sender.merge (t : Nat) : Sender.Statement (.merge t) :=
  fun _ _ e => nomatch e
theorem Sender.deltaRowCheck (t : Nat) : Sender.Statement (.deltaRowCheck t) :=
  fun _ _ e => nomatch e
theorem Sender.drain (t : Nat) : Sender.Statement (.drain t) :=
  fun _ _ e => nomatch e
theorem Sender.stream (t : Nat) : Sender.Statement (.stream t) :=
  fun _ _ e => nomatch e
theorem Sender.reduce (t : Nat) : Sender.Statement (.reduce t) :=
  fun _ _ e => nomatch e
theorem Sender.rule (t : Nat) : Sender.Statement (.rule t) :=
  fun _ _ e => nomatch e
theorem Sender.zero (t : Nat) : Sender.Statement (.zero t) :=
  fun _ _ e => nomatch e
theorem Sender.save (t : Nat) : Sender.Statement (.save t) :=
  fun _ _ e => nomatch e
theorem Sender.restore (t : Nat) : Sender.Statement (.restore t) :=
  fun _ _ e => nomatch e
theorem Sender.copy (t : Nat) : Sender.Statement (.copy t) :=
  fun _ _ e => nomatch e
theorem Sender.pop (t : Nat) : Sender.Statement (.pop t) :=
  fun _ _ e => nomatch e
theorem Sender.retire (t : Nat) : Sender.Statement (.retire t) :=
  fun _ _ e => nomatch e
theorem Sender.openOut (t : Nat) : Sender.Statement (.openOut t) :=
  fun _ _ e => nomatch e
theorem Sender.push (t : Nat) : Sender.Statement (.push t) :=
  fun _ _ e => nomatch e
theorem Sender.inboundIssue (t : Nat) : Sender.Statement (.inboundIssue t) :=
  fun _ _ e => nomatch e
theorem Sender.outboundIssue (t : Nat) : Sender.Statement (.outboundIssue t) :=
  fun _ _ e => nomatch e
theorem Sender.entryPresent (t : Nat) (q : Nat) (retried : Bool) (dome : Check) : Sender.Statement (.entryPresent t q retried dome) :=
  fun _ _ e => nomatch e
theorem Sender.writeAccepted (t : Nat) (q : Nat) : Sender.Statement (.writeAccepted t q) :=
  fun _ _ e => nomatch e
theorem Sender.stallLimitExceeded (t : Nat) : Sender.Statement (.stallLimitExceeded t) :=
  fun _ _ e => nomatch e
theorem Sender.swapOut (t : Nat) : Sender.Statement (.swapOut t) :=
  fun _ _ e => nomatch e
theorem Sender.selfTestDone (t : Nat) (unit : Nat) : Sender.Statement (.selfTestDone t unit) :=
  fun _ _ e => nomatch e
theorem Sender.stepSettle : Sender.Statement (.stepSettle) :=
  fun _ _ e => nomatch e
theorem Sender.tier2FetchDone (idx : Nat) (pages : List StoredPage) : Sender.Statement (.tier2FetchDone idx pages) :=
  fun _ _ e => nomatch e
theorem Sender.tier2FetchFailed (idx : Nat) (code : Nat) : Sender.Statement (.tier2FetchFailed idx code) :=
  fun _ _ e => nomatch e
theorem Sender.tagListReceived (idx : Nat) (tags : List TagEntry) (dome : Check) : Sender.Statement (.tagListReceived idx tags dome) :=
  fun _ _ e => nomatch e
theorem Sender.eviction : Sender.Statement (.eviction) :=
  fun _ _ e => nomatch e
theorem Sender.writebackDone (idx : Nat) : Sender.Statement (.writebackDone idx) :=
  fun _ _ e => nomatch e
theorem Sender.tier0Copy (idx : Nat) (bank : Nat) (page : Nat) : Sender.Statement (.tier0Copy idx bank page) :=
  fun _ _ e => nomatch e
theorem Sender.tier0Reclaim : Sender.Statement (.tier0Reclaim) :=
  fun _ _ e => nomatch e
theorem Sender.memLineRead (entry : Nat) (u : Nat) (line : Nat) (slot : Nat) (gen : Nat) (chk : Check) : Sender.Statement (.memLineRead entry u line slot gen chk) :=
  fun _ _ e => nomatch e
theorem Sender.memLineWrite (entry : Nat) (u : Nat) (line : Nat) (slot : Nat) (gen : Nat) (data : Line) : Sender.Statement (.memLineWrite entry u line slot gen data) :=
  fun _ _ e => nomatch e
theorem Sender.checkByteRetry (chk : Check) : Sender.Statement (.checkByteRetry chk) :=
  fun _ _ e => nomatch e
theorem Sender.scrub (ch : Nat) (n : Nat) (chk : Check) : Sender.Statement (.scrub ch n chk) :=
  fun _ _ e => nomatch e
theorem Sender.refresh (ch : Nat) : Sender.Statement (.refresh ch) :=
  fun _ _ e => nomatch e
theorem Sender.refreshForced (ch : Nat) (bank : Nat) : Sender.Statement (.refreshForced ch bank) :=
  fun _ _ e => nomatch e
theorem Sender.pkgTempChange (c : Nat) (temp : Nat) : Sender.Statement (.pkgTempChange c temp) :=
  fun _ _ e => nomatch e
theorem Sender.memoryInitDone (c : Nat) (trainFail : Nat) : Sender.Statement (.memoryInitDone c trainFail) :=
  fun _ _ e => nomatch e
theorem Sender.slotEnableSet (f : FnId) : Sender.Statement (.slotEnableSet f) :=
  fun h _ e => Option.some.inj e ▸ h
theorem Sender.slotEnableClear (f : FnId) : Sender.Statement (.slotEnableClear f) :=
  fun h _ e => Option.some.inj e ▸ h
theorem Sender.slotRetire (f : FnId) : Sender.Statement (.slotRetire f) :=
  fun h _ e => Option.some.inj e ▸ h
theorem Sender.retireBroadcast (slot : Nat) (u : RetireUnit) : Sender.Statement (.retireBroadcast slot u) :=
  fun _ _ e => nomatch e
theorem Sender.zeroization (slot : Nat) : Sender.Statement (.zeroization slot) :=
  fun _ _ e => nomatch e
theorem Sender.drainTimeout (slot : Nat) : Sender.Statement (.drainTimeout slot) :=
  fun _ _ e => nomatch e
theorem Sender.slotFreed (slot : Nat) : Sender.Statement (.slotFreed slot) :=
  fun _ _ e => nomatch e
theorem Sender.keyInstall (o : SessOp) : Sender.Statement (.keyInstall o) :=
  fun h => Sender.ofVia o.via h
theorem Sender.keyRetire (o : SessOp) : Sender.Statement (.keyRetire o) :=
  fun h => Sender.ofVia o.via h
theorem Sender.sealSet (o : SessOp) : Sender.Statement (.sealSet o) :=
  fun h => Sender.ofVia o.via h
theorem Sender.sealGet (o : SessOp) : Sender.Statement (.sealGet o) :=
  fun h => Sender.ofVia o.via h
theorem Sender.allowHash (o : SessOp) : Sender.Statement (.allowHash o) :=
  fun h => Sender.ofVia o.via h
theorem Sender.status (o : SessOp) : Sender.Statement (.status o) :=
  fun h => Sender.ofVia o.via h
theorem Sender.extract (o : SessOp) : Sender.Statement (.extract o) :=
  fun h => Sender.ofVia o.via h
theorem Sender.baseKeyInstall (o : SessOp) : Sender.Statement (.baseKeyInstall o) :=
  fun h => Sender.ofVia o.via h
theorem Sender.getVersion (via : Via) : Sender.Statement (.getVersion via) :=
  fun h => Sender.ofVia via h
theorem Sender.getCapabilities (via : Via) : Sender.Statement (.getCapabilities via) :=
  fun h => Sender.ofVia via h
theorem Sender.negotiateAlgorithms (via : Via) (offersAll : Bool) : Sender.Statement (.negotiateAlgorithms via offersAll) :=
  fun h => Sender.ofVia via h
theorem Sender.getDigests (via : Via) : Sender.Statement (.getDigests via) :=
  fun h => Sender.ofVia via h
theorem Sender.getCertificate (via : Via) (slot : Nat) : Sender.Statement (.getCertificate via slot) :=
  fun h => Sender.ofVia via (Sender.ofAnd h)
theorem Sender.challenge (via : Via) (slot : Nat) (nonce : Key) (summary : Nat) : Sender.Statement (.challenge via slot nonce summary) :=
  fun h => Sender.ofVia via (Sender.ofAnd h)
theorem Sender.getMeasurements (via : Via) (index : Nat) (slot : Nat) (nonce : Key) (sign : Bool) : Sender.Statement (.getMeasurements via index slot nonce sign) :=
  fun h => Sender.ofVia via (Sender.ofAnd h)
theorem Sender.keyExchange (via : Via) (slot : Nat) (summary : Nat) : Sender.Statement (.keyExchange via slot summary) :=
  fun h => Sender.ofVia via (Sender.ofAnd h)
theorem Sender.finish (via : Via) (session : Nat) (verified : Bool) : Sender.Statement (.finish via session verified) :=
  fun h => Sender.ofVia via h
theorem Sender.endSession (via : Via) (session : Nat) : Sender.Statement (.endSession via session) :=
  fun h => Sender.ofVia via h
theorem Sender.heartbeat (via : Via) (session : Nat) : Sender.Statement (.heartbeat via session) :=
  fun h => Sender.ofVia via h
theorem Sender.keyUpdate (via : Via) (session : Nat) : Sender.Statement (.keyUpdate via session) :=
  fun h => Sender.ofVia via h
theorem Sender.getCsr (via : Via) (session : Nat) (slot : Nat) : Sender.Statement (.getCsr via session slot) :=
  fun h => Sender.ofVia via (Sender.ofAnd h)
theorem Sender.setCertificate (via : Via) (session : Nat) (slot : Nat) (chain : List Byte) : Sender.Statement (.setCertificate via session slot chain) :=
  fun h => Sender.ofVia via (Sender.ofAnd h)
theorem Sender.unsupportedSpdmRequest (via : Via) (code : Nat) : Sender.Statement (.unsupportedSpdmRequest via code) :=
  fun h => Sender.ofVia via h
theorem Sender.sessionTimeout (session : Nat) : Sender.Statement (.sessionTimeout session) :=
  fun _ _ e => nomatch e
theorem Sender.qEnableSet (f : HostReq) (q : Nat) : Sender.Statement (.qEnableSet f q) :=
  fun h _ e => Option.some.inj e ▸ (Sender.ofAnd (Sender.ofAnd h))
theorem Sender.qEnableClear (f : HostReq) (q : Nat) : Sender.Statement (.qEnableClear f q) :=
  fun h _ e => Option.some.inj e ▸ (Sender.ofAnd (Sender.ofAnd h))
theorem Sender.hstSqTail (f : HostReq) (q : Nat) (index : Nat) : Sender.Statement (.hstSqTail f q index) :=
  fun h _ e => Option.some.inj e ▸ (Sender.ofAnd (Sender.ofAnd (Sender.ofAnd h)))
theorem Sender.hstCqHead (f : HostReq) (q : Nat) (index : Nat) : Sender.Statement (.hstCqHead f q index) :=
  fun h _ e => Option.some.inj e ▸ (Sender.ofAnd (Sender.ofAnd (Sender.ofAnd h)))
theorem Sender.coalesceTimer (f : FnId) (q : Nat) : Sender.Statement (.coalesceTimer f q) :=
  fun h _ e => Option.some.inj e ▸ (Sender.ofAnd h)
theorem Sender.msixUnmask (f : HostReq) (vec : Nat) : Sender.Statement (.msixUnmask f vec) :=
  fun h _ e => Option.some.inj e ▸ (Sender.ofAnd (Sender.ofAnd h))
theorem Sender.submitSegment (c : HostCmd) : Sender.Statement (.submitSegment c) :=
  fun h _ e => Option.some.inj e ▸ Sender.ofAnd h
theorem Sender.imageHash (c : HostCmd) : Sender.Statement (.imageHash c) :=
  fun h _ e => Option.some.inj e ▸ Sender.ofAnd h
theorem Sender.imageHashClear (c : HostCmd) : Sender.Statement (.imageHashClear c) :=
  fun h _ e => Option.some.inj e ▸ Sender.ofAnd h
theorem Sender.contextCreate (c : HostCmd) : Sender.Statement (.contextCreate c) :=
  fun h _ e => Option.some.inj e ▸ Sender.ofAnd h
theorem Sender.contextWrite (c : HostCmd) : Sender.Statement (.contextWrite c) :=
  fun h _ e => Option.some.inj e ▸ Sender.ofAnd h
theorem Sender.contextEnable (c : HostCmd) : Sender.Statement (.contextEnable c) :=
  fun h _ e => Option.some.inj e ▸ Sender.ofAnd h
theorem Sender.contextDisable (c : HostCmd) : Sender.Statement (.contextDisable c) :=
  fun h _ e => Option.some.inj e ▸ Sender.ofAnd h
theorem Sender.contextDelete (c : HostCmd) : Sender.Statement (.contextDelete c) :=
  fun h _ e => Option.some.inj e ▸ Sender.ofAnd h
theorem Sender.contextRead (c : HostCmd) : Sender.Statement (.contextRead c) :=
  fun h _ e => Option.some.inj e ▸ Sender.ofAnd h
theorem Sender.loadChain (c : HostCmd) : Sender.Statement (.loadChain c) :=
  fun h _ e => Option.some.inj e ▸ Sender.ofAnd h
theorem Sender.loadRules (c : HostCmd) : Sender.Statement (.loadRules c) :=
  fun h _ e => Option.some.inj e ▸ Sender.ofAnd h
theorem Sender.loadGroups (c : HostCmd) : Sender.Statement (.loadGroups c) :=
  fun h _ e => Option.some.inj e ▸ Sender.ofAnd h
theorem Sender.loadSchedule (c : HostCmd) : Sender.Statement (.loadSchedule c) :=
  fun h _ e => Option.some.inj e ▸ Sender.ofAnd h
theorem Sender.advanceStep (c : HostCmd) : Sender.Statement (.advanceStep c) :=
  fun h _ e => Option.some.inj e ▸ Sender.ofAnd h
theorem Sender.loadRelease (c : HostCmd) : Sender.Statement (.loadRelease c) :=
  fun h _ e => Option.some.inj e ▸ Sender.ofAnd h
theorem Sender.adaptRegister (c : HostCmd) : Sender.Statement (.adaptRegister c) :=
  fun h _ e => Option.some.inj e ▸ Sender.ofAnd h
theorem Sender.adaptRead (c : HostCmd) : Sender.Statement (.adaptRead c) :=
  fun h _ e => Option.some.inj e ▸ Sender.ofAnd h
theorem Sender.adaptRemove (c : HostCmd) : Sender.Statement (.adaptRemove c) :=
  fun h _ e => Option.some.inj e ▸ Sender.ofAnd h
theorem Sender.adaptPrefetch (c : HostCmd) : Sender.Statement (.adaptPrefetch c) :=
  fun h _ e => Option.some.inj e ▸ Sender.ofAnd h
theorem Sender.adaptWriteback (c : HostCmd) : Sender.Statement (.adaptWriteback c) :=
  fun h _ e => Option.some.inj e ▸ Sender.ofAnd h
theorem Sender.adaptRewrap (c : HostCmd) : Sender.Statement (.adaptRewrap c) :=
  fun h _ e => Option.some.inj e ▸ Sender.ofAnd h
theorem Sender.baseLoad (c : HostCmd) : Sender.Statement (.baseLoad c) :=
  fun h _ e => Option.some.inj e ▸ Sender.ofAnd h
theorem Sender.baseLoadDone (slot : Nat) (src : Option (List Byte)) : Sender.Statement (.baseLoadDone slot src) :=
  fun _ _ e => nomatch e
theorem Sender.baseFree (c : HostCmd) : Sender.Statement (.baseFree c) :=
  fun h _ e => Option.some.inj e ▸ Sender.ofAnd h
theorem Sender.functionLevelReset (f : FnId) : Sender.Statement (.functionLevelReset f) :=
  fun h _ e => Option.some.inj e ▸ h
theorem Sender.flrComplete (f : FnId) : Sender.Statement (.flrComplete f) :=
  fun h _ e => Option.some.inj e ▸ h
theorem Sender.getTdispVersion (f : FnId) : Sender.Statement (.getTdispVersion f) :=
  fun h _ e => Option.some.inj e ▸ h
theorem Sender.getTdispCapabilities (f : FnId) : Sender.Statement (.getTdispCapabilities f) :=
  fun h _ e => Option.some.inj e ▸ h
theorem Sender.lockInterface (f : FnId) : Sender.Statement (.lockInterface f) :=
  fun h _ e => Option.some.inj e ▸ h
theorem Sender.getDeviceInterfaceReport (f : FnId) : Sender.Statement (.getDeviceInterfaceReport f) :=
  fun h _ e => Option.some.inj e ▸ h
theorem Sender.getDeviceInterfaceState (f : FnId) : Sender.Statement (.getDeviceInterfaceState f) :=
  fun h _ e => Option.some.inj e ▸ h
theorem Sender.startInterface (f : FnId) : Sender.Statement (.startInterface f) :=
  fun h _ e => Option.some.inj e ▸ h
theorem Sender.stopInterface (f : FnId) : Sender.Statement (.stopInterface f) :=
  fun h _ e => Option.some.inj e ▸ h
theorem Sender.ideKm (f : FnId) (stream : Nat) (bound : Nat) (link : Bool) : Sender.Statement (.ideKm f stream bound link) :=
  fun h _ e => Option.some.inj e ▸ (Sender.ofAnd h)
theorem Sender.ideIntegrityFailure (port : Nat) (stream : IdeStream) : Sender.Statement (.ideIntegrityFailure port stream) :=
  fun _ _ e => nomatch e
theorem Sender.configWriteLocked (f : FnId) : Sender.Statement (.configWriteLocked f) :=
  fun h _ e => Option.some.inj e ▸ h
theorem Sender.pcieLinkTrained (port : Nat) (rate : Nat) (width : Nat) : Sender.Statement (.pcieLinkTrained port rate width) :=
  fun _ _ e => nomatch e
theorem Sender.hstVfEnableSet (f : FnId) (port : Nat) : Sender.Statement (.hstVfEnableSet f port) :=
  fun h _ e => Option.some.inj e ▸ (Sender.ofAnd h)
theorem Sender.hstVfEnableClear (f : FnId) (port : Nat) : Sender.Statement (.hstVfEnableClear f port) :=
  fun h _ e => Option.some.inj e ▸ (Sender.ofAnd h)
theorem Sender.vfEnableChange (port : Nat) (numVfs : Nat) : Sender.Statement (.vfEnableChange port numVfs) :=
  fun _ _ e => nomatch e
theorem Sender.perst (port : Nat) : Sender.Statement (.perst port) :=
  fun _ _ e => nomatch e
theorem Sender.lnkEnableSet (f : FnId) (k : Nat) : Sender.Statement (.lnkEnableSet f k) :=
  fun h _ e => Option.some.inj e ▸ (Sender.ofAnd h)
theorem Sender.lnkEnableClear (f : FnId) (k : Nat) : Sender.Statement (.lnkEnableClear f k) :=
  fun h _ e => Option.some.inj e ▸ (Sender.ofAnd h)
theorem Sender.linkTrained (k : Nat) (lanes : Nat) : Sender.Statement (.linkTrained k lanes) :=
  fun _ _ e => nomatch e
theorem Sender.linkKeyed (k : Nat) (partnerId : Nat) (partnerLink : Nat) (chainOk : Bool) : Sender.Statement (.linkKeyed k partnerId partnerLink chainOk) :=
  fun _ _ e => nomatch e
theorem Sender.linkBringupTimeout (k : Nat) : Sender.Statement (.linkBringupTimeout k) :=
  fun _ _ e => nomatch e
theorem Sender.linkDown (k : Nat) : Sender.Statement (.linkDown k) :=
  fun _ _ e => nomatch e
theorem Sender.linkCtl (k : Nat) (fr : Frame) : Sender.Statement (.linkCtl k fr) :=
  fun _ _ e => nomatch e
theorem Sender.ackTimer (k : Nat) : Sender.Statement (.ackTimer k) :=
  fun _ _ e => nomatch e
theorem Sender.fetchReq (k : Nat) (fr : Frame) : Sender.Statement (.fetchReq k fr) :=
  fun _ _ e => nomatch e
theorem Sender.fetchData (k : Nat) (fr : Frame) : Sender.Statement (.fetchData k fr) :=
  fun _ _ e => nomatch e
theorem Sender.fetchEnd (k : Nat) (fr : Frame) : Sender.Statement (.fetchEnd k fr) :=
  fun _ _ e => nomatch e
theorem Sender.writeData (k : Nat) (fr : Frame) : Sender.Statement (.writeData k fr) :=
  fun _ _ e => nomatch e
theorem Sender.cadence (k : Nat) (fr : Frame) : Sender.Statement (.cadence k fr) :=
  fun _ _ e => nomatch e
theorem Sender.cadenceSend (k : Nat) (edgeOffset : Nat) : Sender.Statement (.cadenceSend k edgeOffset) :=
  fun _ _ e => nomatch e
theorem Sender.delayMeasure (k : Nat) : Sender.Statement (.delayMeasure k) :=
  fun _ _ e => nomatch e
theorem Sender.delayReq (k : Nat) (fr : Frame) : Sender.Statement (.delayReq k fr) :=
  fun _ _ e => nomatch e
theorem Sender.delayResp (k : Nat) (fr : Frame) : Sender.Statement (.delayResp k fr) :=
  fun _ _ e => nomatch e
theorem Sender.attest (k : Nat) (fr : Frame) : Sender.Statement (.attest k fr) :=
  fun _ _ e => nomatch e
theorem Sender.retireMarker (k : Nat) (fr : Frame) : Sender.Statement (.retireMarker k fr) :=
  fun _ _ e => nomatch e
theorem Sender.retireAck (k : Nat) (fr : Frame) : Sender.Statement (.retireAck k fr) :=
  fun _ _ e => nomatch e
theorem Sender.spdmFrame (k : Nat) (fr : Frame) : Sender.Statement (.spdmFrame k fr) :=
  fun _ _ e => nomatch e
theorem Sender.rekeyThreshold (k : Nat) : Sender.Statement (.rekeyThreshold k) :=
  fun _ _ e => nomatch e
theorem Sender.frameCounterLimit (k : Nat) : Sender.Statement (.frameCounterLimit k) :=
  fun _ _ e => nomatch e
theorem Sender.transferDeadline : Sender.Statement (.transferDeadline) :=
  fun _ _ e => nomatch e
theorem Sender.stage (f : FnId) (img : Option (List Byte)) : Sender.Statement (.stage f img) :=
  fun h _ e => Option.some.inj e ▸ h
theorem Sender.stagingDone (flashOk : Bool) : Sender.Statement (.stagingDone flashOk) :=
  fun _ _ e => nomatch e
theorem Sender.activate (f : FnId) : Sender.Statement (.activate f) :=
  fun h _ e => Option.some.inj e ▸ h
theorem Sender.activationDone (selfCheckOk : Bool) : Sender.Statement (.activationDone selfCheckOk) :=
  fun _ _ e => nomatch e
theorem Sender.commitSvn (f : FnId) : Sender.Statement (.commitSvn f) :=
  fun h _ e => Option.some.inj e ▸ h
theorem Sender.discard (f : FnId) : Sender.Statement (.discard f) :=
  fun h _ e => Option.some.inj e ▸ h
theorem Sender.kepLogSel (f : FnId) (entry : Nat) : Sender.Statement (.kepLogSel f entry) :=
  fun h _ e => Option.some.inj e ▸ (Sender.ofAnd h)
theorem Sender.bootStage (n : Nat) : Sender.Statement (.bootStage n) :=
  fun _ _ e => nomatch e
theorem Sender.powerUp : Sender.Statement (.powerUp) :=
  fun _ _ e => nomatch e
theorem Sender.inputBandChange (vin : Nat) : Sender.Statement (.inputBandChange vin) :=
  fun _ _ e => nomatch e
theorem Sender.overVoltage (vin : Nat) : Sender.Statement (.overVoltage vin) :=
  fun _ _ e => nomatch e
theorem Sender.holdoverEntry (vin : Nat) : Sender.Statement (.holdoverEntry vin) :=
  fun _ _ e => nomatch e
theorem Sender.holdoverExit (energy : Nat) : Sender.Statement (.holdoverExit energy) :=
  fun _ _ e => nomatch e
theorem Sender.orderlyStop (cause : Nat) : Sender.Statement (.orderlyStop cause) :=
  fun _ _ e => nomatch e
theorem Sender.orderlyStopYieldEnd : Sender.Statement (.orderlyStopYieldEnd) :=
  fun _ _ e => nomatch e
theorem Sender.pfSafe : Sender.Statement (.pfSafe) :=
  fun _ _ e => nomatch e
theorem Sender.resume (f : FnId) : Sender.Statement (.resume f) :=
  fun h _ e => Option.some.inj e ▸ h
theorem Sender.rippleMeasure (mv : Nat) (hz : Nat) : Sender.Statement (.rippleMeasure mv hz) :=
  fun _ _ e => nomatch e
theorem Sender.prcEnvelopeApply (f : FnId) : Sender.Statement (.prcEnvelopeApply f) :=
  fun h _ e => Option.some.inj e ▸ h
theorem Sender.envelopeInForce : Sender.Statement (.envelopeInForce) :=
  fun _ _ e => nomatch e
theorem Sender.forecastSnap (f : FnId) : Sender.Statement (.forecastSnap f) :=
  fun h _ e => Option.some.inj e ▸ h
theorem Sender.overdraw (watts : Nat) : Sender.Statement (.overdraw watts) :=
  fun _ _ e => nomatch e
theorem Sender.overdrawClear : Sender.Statement (.overdrawClear) :=
  fun _ _ e => nomatch e
theorem Sender.droop (r : Nat) (mv : Nat) : Sender.Statement (.droop r mv) :=
  fun _ _ e => nomatch e
theorem Sender.droopClear (r : Nat) (mv : Nat) : Sender.Statement (.droopClear r mv) :=
  fun _ _ e => nomatch e
theorem Sender.thermalSample (r : Nat) (temp : Nat) : Sender.Statement (.thermalSample r temp) :=
  fun _ _ e => nomatch e
theorem Sender.neighbourLimit (a : Nat) (b : Nat) (thermal : Bool) (diff : Nat) : Sender.Statement (.neighbourLimit a b thermal diff) :=
  fun _ _ e => nomatch e
theorem Sender.neighbourClear : Sender.Statement (.neighbourClear) :=
  fun _ _ e => nomatch e
theorem Sender.regionFence (r : Nat) (cause : Nat) (value : Nat) : Sender.Statement (.regionFence r cause value) :=
  fun _ _ e => nomatch e
theorem Sender.thermalTrip (sensor : Nat) (temp : Nat) : Sender.Statement (.thermalTrip sensor temp) :=
  fun _ _ e => nomatch e
theorem Sender.pwrgdInDeasserted : Sender.Statement (.pwrgdInDeasserted) :=
  fun _ _ e => nomatch e
theorem Sender.recordWrite : Sender.Statement (.recordWrite) :=
  fun _ _ e => nomatch e
theorem Sender.tokenAdd (code : Nat) : Sender.Statement (.tokenAdd code) :=
  fun _ _ e => nomatch e
theorem Sender.evrClear (f : FnId) : Sender.Statement (.evrClear f) :=
  fun h _ e => Option.some.inj e ▸ h
theorem Sender.evrTime (f : FnId) (v : RegWrite) : Sender.Statement (.evrTime f v) :=
  fun h _ e => Option.some.inj e ▸ (Sender.ofAnd h)
theorem Sender.evrEnableSet (f : FnId) : Sender.Statement (.evrEnableSet f) :=
  fun h _ e => Option.some.inj e ▸ h
theorem Sender.evrEnableClear (f : FnId) : Sender.Statement (.evrEnableClear f) :=
  fun h _ e => Option.some.inj e ▸ h
theorem Sender.failClear (f : FnId) : Sender.Statement (.failClear f) :=
  fun h _ e => Option.some.inj e ▸ h
theorem Sender.warm (f : FnId) : Sender.Statement (.warm f) :=
  fun h _ e => Option.some.inj e ▸ h
theorem Sender.regionReset (f : FnId) : Sender.Statement (.regionReset f) :=
  fun h _ e => Option.some.inj e ▸ h
theorem Sender.regionResetDone (failUnits : List Nat) : Sender.Statement (.regionResetDone failUnits) :=
  fun _ _ e => nomatch e
theorem Sender.cold (f : FnId) : Sender.Statement (.cold f) :=
  fun h _ e => Option.some.inj e ▸ h

end Sys2Proof.Laws
end

