-- ==== Sys2Proof/Laws/State.lean ====
section
/-! SUPPORT. One lemma per field per named operation: what each operation of Machine/Ops.lean leaves alone, and what delivery
leaves alone. -/

namespace Sys2Proof.Machine

/-! `Core.raise`. -/

@[simp] theorem Core.raise_regs (c : Core) (ev : Event) : (c.raise ev).regs = c.regs := rfl
@[simp] theorem Core.raise_ctr (c : Core) (ev : Event) : (c.raise ev).ctr = c.ctr := rfl
@[simp] theorem Core.raise_free (c : Core) (ev : Event) : (c.raise ev).free = c.free := rfl
@[simp] theorem Core.raise_locks (c : Core) (ev : Event) : (c.raise ev).locks = c.locks := rfl
@[simp] theorem Core.raise_clk (c : Core) (ev : Event) : (c.raise ev).clk = c.clk := rfl
@[simp] theorem Core.raise_tref (c : Core) (ev : Event) : (c.raise ev).tref = c.tref := rfl
@[simp] theorem Core.raise_blf (c : Core) (ev : Event) : (c.raise ev).blf = c.blf := rfl
@[simp] theorem Core.raise_pow (c : Core) (ev : Event) : (c.raise ev).pow = c.pow := rfl
@[simp] theorem Core.raise_prc (c : Core) (ev : Event) : (c.raise ev).prc = c.prc := rfl
@[simp] theorem Core.raise_tripWord (c : Core) (ev : Event) : (c.raise ev).tripWord = c.tripWord := rfl
@[simp] theorem Core.raise_segs (c : Core) (ev : Event) : (c.raise ev).segs = c.segs := rfl
@[simp] theorem Core.raise_nextSeg (c : Core) (ev : Event) : (c.raise ev).nextSeg = c.nextSeg := rfl
@[simp] theorem Core.raise_towers (c : Core) (ev : Event) : (c.raise ev).towers = c.towers := rfl
@[simp] theorem Core.raise_ctxs (c : Core) (ev : Event) : (c.raise ev).ctxs = c.ctxs := rfl
@[simp] theorem Core.raise_dir (c : Core) (ev : Event) : (c.raise ev).dir = c.dir := rfl
@[simp] theorem Core.raise_gate (c : Core) (ev : Event) : (c.raise ev).gate = c.gate := rfl
@[simp] theorem Core.raise_mem (c : Core) (ev : Event) : (c.raise ev).mem = c.mem := rfl
@[simp] theorem Core.raise_keep (c : Core) (ev : Event) : (c.raise ev).keep = c.keep := rfl
@[simp] theorem Core.raise_ports (c : Core) (ev : Event) : (c.raise ev).ports = c.ports := rfl
@[simp] theorem Core.raise_links (c : Core) (ev : Event) : (c.raise ev).links = c.links := rfl
@[simp] theorem Core.raise_xfers (c : Core) (ev : Event) : (c.raise ev).xfers = c.xfers := rfl
@[simp] theorem Core.raise_nextXfer (c : Core) (ev : Event) : (c.raise ev).nextXfer = c.nextXfer := rfl
@[simp] theorem Core.raise_cadence (c : Core) (ev : Event) : (c.raise ev).cadence = c.cadence := rfl
@[simp] theorem Core.raise_out (c : Core) (ev : Event) : (c.raise ev).out = c.out := rfl

/-! `Core.setReg`. -/

@[simp] theorem Core.setReg_outbox (c : Core) (o v : Nat) : (c.setReg o v).outbox = c.outbox := rfl
@[simp] theorem Core.setReg_ctr (c : Core) (o v : Nat) : (c.setReg o v).ctr = c.ctr := rfl
@[simp] theorem Core.setReg_free (c : Core) (o v : Nat) : (c.setReg o v).free = c.free := rfl
@[simp] theorem Core.setReg_locks (c : Core) (o v : Nat) : (c.setReg o v).locks = c.locks := rfl
@[simp] theorem Core.setReg_clk (c : Core) (o v : Nat) : (c.setReg o v).clk = c.clk := rfl
@[simp] theorem Core.setReg_tref (c : Core) (o v : Nat) : (c.setReg o v).tref = c.tref := rfl
@[simp] theorem Core.setReg_blf (c : Core) (o v : Nat) : (c.setReg o v).blf = c.blf := rfl
@[simp] theorem Core.setReg_pow (c : Core) (o v : Nat) : (c.setReg o v).pow = c.pow := rfl
@[simp] theorem Core.setReg_prc (c : Core) (o v : Nat) : (c.setReg o v).prc = c.prc := rfl
@[simp] theorem Core.setReg_tripWord (c : Core) (o v : Nat) : (c.setReg o v).tripWord = c.tripWord := rfl
@[simp] theorem Core.setReg_segs (c : Core) (o v : Nat) : (c.setReg o v).segs = c.segs := rfl
@[simp] theorem Core.setReg_nextSeg (c : Core) (o v : Nat) : (c.setReg o v).nextSeg = c.nextSeg := rfl
@[simp] theorem Core.setReg_towers (c : Core) (o v : Nat) : (c.setReg o v).towers = c.towers := rfl
@[simp] theorem Core.setReg_ctxs (c : Core) (o v : Nat) : (c.setReg o v).ctxs = c.ctxs := rfl
@[simp] theorem Core.setReg_dir (c : Core) (o v : Nat) : (c.setReg o v).dir = c.dir := rfl
@[simp] theorem Core.setReg_gate (c : Core) (o v : Nat) : (c.setReg o v).gate = c.gate := rfl
@[simp] theorem Core.setReg_mem (c : Core) (o v : Nat) : (c.setReg o v).mem = c.mem := rfl
@[simp] theorem Core.setReg_keep (c : Core) (o v : Nat) : (c.setReg o v).keep = c.keep := rfl
@[simp] theorem Core.setReg_ports (c : Core) (o v : Nat) : (c.setReg o v).ports = c.ports := rfl
@[simp] theorem Core.setReg_links (c : Core) (o v : Nat) : (c.setReg o v).links = c.links := rfl
@[simp] theorem Core.setReg_xfers (c : Core) (o v : Nat) : (c.setReg o v).xfers = c.xfers := rfl
@[simp] theorem Core.setReg_nextXfer (c : Core) (o v : Nat) : (c.setReg o v).nextXfer = c.nextXfer := rfl
@[simp] theorem Core.setReg_cadence (c : Core) (o v : Nat) : (c.setReg o v).cadence = c.cadence := rfl
@[simp] theorem Core.setReg_out (c : Core) (o v : Nat) : (c.setReg o v).out = c.out := rfl

/-! `Core.clearCtr`. -/

@[simp] theorem Core.clearCtr_outbox (c : Core) (p : Nat → Bool) : (c.clearCtr p).outbox = c.outbox := rfl
@[simp] theorem Core.clearCtr_regs (c : Core) (p : Nat → Bool) : (c.clearCtr p).regs = c.regs := rfl
@[simp] theorem Core.clearCtr_free (c : Core) (p : Nat → Bool) : (c.clearCtr p).free = c.free := rfl
@[simp] theorem Core.clearCtr_locks (c : Core) (p : Nat → Bool) : (c.clearCtr p).locks = c.locks := rfl
@[simp] theorem Core.clearCtr_clk (c : Core) (p : Nat → Bool) : (c.clearCtr p).clk = c.clk := rfl
@[simp] theorem Core.clearCtr_tref (c : Core) (p : Nat → Bool) : (c.clearCtr p).tref = c.tref := rfl
@[simp] theorem Core.clearCtr_blf (c : Core) (p : Nat → Bool) : (c.clearCtr p).blf = c.blf := rfl
@[simp] theorem Core.clearCtr_pow (c : Core) (p : Nat → Bool) : (c.clearCtr p).pow = c.pow := rfl
@[simp] theorem Core.clearCtr_prc (c : Core) (p : Nat → Bool) : (c.clearCtr p).prc = c.prc := rfl
@[simp] theorem Core.clearCtr_tripWord (c : Core) (p : Nat → Bool) : (c.clearCtr p).tripWord = c.tripWord := rfl
@[simp] theorem Core.clearCtr_segs (c : Core) (p : Nat → Bool) : (c.clearCtr p).segs = c.segs := rfl
@[simp] theorem Core.clearCtr_nextSeg (c : Core) (p : Nat → Bool) : (c.clearCtr p).nextSeg = c.nextSeg := rfl
@[simp] theorem Core.clearCtr_towers (c : Core) (p : Nat → Bool) : (c.clearCtr p).towers = c.towers := rfl
@[simp] theorem Core.clearCtr_ctxs (c : Core) (p : Nat → Bool) : (c.clearCtr p).ctxs = c.ctxs := rfl
@[simp] theorem Core.clearCtr_dir (c : Core) (p : Nat → Bool) : (c.clearCtr p).dir = c.dir := rfl
@[simp] theorem Core.clearCtr_gate (c : Core) (p : Nat → Bool) : (c.clearCtr p).gate = c.gate := rfl
@[simp] theorem Core.clearCtr_mem (c : Core) (p : Nat → Bool) : (c.clearCtr p).mem = c.mem := rfl
@[simp] theorem Core.clearCtr_keep (c : Core) (p : Nat → Bool) : (c.clearCtr p).keep = c.keep := rfl
@[simp] theorem Core.clearCtr_ports (c : Core) (p : Nat → Bool) : (c.clearCtr p).ports = c.ports := rfl
@[simp] theorem Core.clearCtr_links (c : Core) (p : Nat → Bool) : (c.clearCtr p).links = c.links := rfl
@[simp] theorem Core.clearCtr_xfers (c : Core) (p : Nat → Bool) : (c.clearCtr p).xfers = c.xfers := rfl
@[simp] theorem Core.clearCtr_nextXfer (c : Core) (p : Nat → Bool) : (c.clearCtr p).nextXfer = c.nextXfer := rfl
@[simp] theorem Core.clearCtr_cadence (c : Core) (p : Nat → Bool) : (c.clearCtr p).cadence = c.cadence := rfl
@[simp] theorem Core.clearCtr_out (c : Core) (p : Nat → Bool) : (c.clearCtr p).out = c.out := rfl

/-! `Core.cntClear`. -/

@[simp] theorem Core.cntClear_outbox (c : Core) (p : Nat → Bool) : (c.cntClear p).outbox = c.outbox := rfl
@[simp] theorem Core.cntClear_regs (c : Core) (p : Nat → Bool) : (c.cntClear p).regs = c.regs := rfl
@[simp] theorem Core.cntClear_free (c : Core) (p : Nat → Bool) : (c.cntClear p).free = c.free := rfl
@[simp] theorem Core.cntClear_locks (c : Core) (p : Nat → Bool) : (c.cntClear p).locks = c.locks := rfl
@[simp] theorem Core.cntClear_clk (c : Core) (p : Nat → Bool) : (c.cntClear p).clk = c.clk := rfl
@[simp] theorem Core.cntClear_tref (c : Core) (p : Nat → Bool) : (c.cntClear p).tref = c.tref := rfl
@[simp] theorem Core.cntClear_blf (c : Core) (p : Nat → Bool) : (c.cntClear p).blf = c.blf := rfl
@[simp] theorem Core.cntClear_pow (c : Core) (p : Nat → Bool) : (c.cntClear p).pow = c.pow := rfl
@[simp] theorem Core.cntClear_prc (c : Core) (p : Nat → Bool) : (c.cntClear p).prc = c.prc := rfl
@[simp] theorem Core.cntClear_tripWord (c : Core) (p : Nat → Bool) : (c.cntClear p).tripWord = c.tripWord := rfl
@[simp] theorem Core.cntClear_segs (c : Core) (p : Nat → Bool) : (c.cntClear p).segs = c.segs := rfl
@[simp] theorem Core.cntClear_nextSeg (c : Core) (p : Nat → Bool) : (c.cntClear p).nextSeg = c.nextSeg := rfl
@[simp] theorem Core.cntClear_towers (c : Core) (p : Nat → Bool) : (c.cntClear p).towers = c.towers := rfl
@[simp] theorem Core.cntClear_ctxs (c : Core) (p : Nat → Bool) : (c.cntClear p).ctxs = c.ctxs := rfl
@[simp] theorem Core.cntClear_dir (c : Core) (p : Nat → Bool) : (c.cntClear p).dir = c.dir := rfl
@[simp] theorem Core.cntClear_gate (c : Core) (p : Nat → Bool) : (c.cntClear p).gate = c.gate := rfl
@[simp] theorem Core.cntClear_mem (c : Core) (p : Nat → Bool) : (c.cntClear p).mem = c.mem := rfl
@[simp] theorem Core.cntClear_keep (c : Core) (p : Nat → Bool) : (c.cntClear p).keep = c.keep := rfl
@[simp] theorem Core.cntClear_ports (c : Core) (p : Nat → Bool) : (c.cntClear p).ports = c.ports := rfl
@[simp] theorem Core.cntClear_links (c : Core) (p : Nat → Bool) : (c.cntClear p).links = c.links := rfl
@[simp] theorem Core.cntClear_xfers (c : Core) (p : Nat → Bool) : (c.cntClear p).xfers = c.xfers := rfl
@[simp] theorem Core.cntClear_nextXfer (c : Core) (p : Nat → Bool) : (c.cntClear p).nextXfer = c.nextXfer := rfl
@[simp] theorem Core.cntClear_cadence (c : Core) (p : Nat → Bool) : (c.cntClear p).cadence = c.cadence := rfl
@[simp] theorem Core.cntClear_out (c : Core) (p : Nat → Bool) : (c.cntClear p).out = c.out := rfl

/-! `Core.setTower`. -/

@[simp] theorem Core.setTower_outbox (c : Core) (t : Nat) (x : Tower) : (c.setTower t x).outbox = c.outbox := rfl
@[simp] theorem Core.setTower_regs (c : Core) (t : Nat) (x : Tower) : (c.setTower t x).regs = c.regs := rfl
@[simp] theorem Core.setTower_ctr (c : Core) (t : Nat) (x : Tower) : (c.setTower t x).ctr = c.ctr := rfl
@[simp] theorem Core.setTower_free (c : Core) (t : Nat) (x : Tower) : (c.setTower t x).free = c.free := rfl
@[simp] theorem Core.setTower_locks (c : Core) (t : Nat) (x : Tower) : (c.setTower t x).locks = c.locks := rfl
@[simp] theorem Core.setTower_clk (c : Core) (t : Nat) (x : Tower) : (c.setTower t x).clk = c.clk := rfl
@[simp] theorem Core.setTower_tref (c : Core) (t : Nat) (x : Tower) : (c.setTower t x).tref = c.tref := rfl
@[simp] theorem Core.setTower_blf (c : Core) (t : Nat) (x : Tower) : (c.setTower t x).blf = c.blf := rfl
@[simp] theorem Core.setTower_pow (c : Core) (t : Nat) (x : Tower) : (c.setTower t x).pow = c.pow := rfl
@[simp] theorem Core.setTower_prc (c : Core) (t : Nat) (x : Tower) : (c.setTower t x).prc = c.prc := rfl
@[simp] theorem Core.setTower_tripWord (c : Core) (t : Nat) (x : Tower) : (c.setTower t x).tripWord = c.tripWord := rfl
@[simp] theorem Core.setTower_segs (c : Core) (t : Nat) (x : Tower) : (c.setTower t x).segs = c.segs := rfl
@[simp] theorem Core.setTower_nextSeg (c : Core) (t : Nat) (x : Tower) : (c.setTower t x).nextSeg = c.nextSeg := rfl
@[simp] theorem Core.setTower_ctxs (c : Core) (t : Nat) (x : Tower) : (c.setTower t x).ctxs = c.ctxs := rfl
@[simp] theorem Core.setTower_dir (c : Core) (t : Nat) (x : Tower) : (c.setTower t x).dir = c.dir := rfl
@[simp] theorem Core.setTower_gate (c : Core) (t : Nat) (x : Tower) : (c.setTower t x).gate = c.gate := rfl
@[simp] theorem Core.setTower_mem (c : Core) (t : Nat) (x : Tower) : (c.setTower t x).mem = c.mem := rfl
@[simp] theorem Core.setTower_keep (c : Core) (t : Nat) (x : Tower) : (c.setTower t x).keep = c.keep := rfl
@[simp] theorem Core.setTower_ports (c : Core) (t : Nat) (x : Tower) : (c.setTower t x).ports = c.ports := rfl
@[simp] theorem Core.setTower_links (c : Core) (t : Nat) (x : Tower) : (c.setTower t x).links = c.links := rfl
@[simp] theorem Core.setTower_xfers (c : Core) (t : Nat) (x : Tower) : (c.setTower t x).xfers = c.xfers := rfl
@[simp] theorem Core.setTower_nextXfer (c : Core) (t : Nat) (x : Tower) : (c.setTower t x).nextXfer = c.nextXfer := rfl
@[simp] theorem Core.setTower_cadence (c : Core) (t : Nat) (x : Tower) : (c.setTower t x).cadence = c.cadence := rfl
@[simp] theorem Core.setTower_out (c : Core) (t : Nat) (x : Tower) : (c.setTower t x).out = c.out := rfl

/-! `Core.setSeg`. -/

@[simp] theorem Core.setSeg_outbox (c : Core) (x : Seg) : (c.setSeg x).outbox = c.outbox := rfl
@[simp] theorem Core.setSeg_regs (c : Core) (x : Seg) : (c.setSeg x).regs = c.regs := rfl
@[simp] theorem Core.setSeg_ctr (c : Core) (x : Seg) : (c.setSeg x).ctr = c.ctr := rfl
@[simp] theorem Core.setSeg_free (c : Core) (x : Seg) : (c.setSeg x).free = c.free := rfl
@[simp] theorem Core.setSeg_locks (c : Core) (x : Seg) : (c.setSeg x).locks = c.locks := rfl
@[simp] theorem Core.setSeg_clk (c : Core) (x : Seg) : (c.setSeg x).clk = c.clk := rfl
@[simp] theorem Core.setSeg_tref (c : Core) (x : Seg) : (c.setSeg x).tref = c.tref := rfl
@[simp] theorem Core.setSeg_blf (c : Core) (x : Seg) : (c.setSeg x).blf = c.blf := rfl
@[simp] theorem Core.setSeg_pow (c : Core) (x : Seg) : (c.setSeg x).pow = c.pow := rfl
@[simp] theorem Core.setSeg_prc (c : Core) (x : Seg) : (c.setSeg x).prc = c.prc := rfl
@[simp] theorem Core.setSeg_tripWord (c : Core) (x : Seg) : (c.setSeg x).tripWord = c.tripWord := rfl
@[simp] theorem Core.setSeg_nextSeg (c : Core) (x : Seg) : (c.setSeg x).nextSeg = c.nextSeg := rfl
@[simp] theorem Core.setSeg_towers (c : Core) (x : Seg) : (c.setSeg x).towers = c.towers := rfl
@[simp] theorem Core.setSeg_ctxs (c : Core) (x : Seg) : (c.setSeg x).ctxs = c.ctxs := rfl
@[simp] theorem Core.setSeg_dir (c : Core) (x : Seg) : (c.setSeg x).dir = c.dir := rfl
@[simp] theorem Core.setSeg_gate (c : Core) (x : Seg) : (c.setSeg x).gate = c.gate := rfl
@[simp] theorem Core.setSeg_mem (c : Core) (x : Seg) : (c.setSeg x).mem = c.mem := rfl
@[simp] theorem Core.setSeg_keep (c : Core) (x : Seg) : (c.setSeg x).keep = c.keep := rfl
@[simp] theorem Core.setSeg_ports (c : Core) (x : Seg) : (c.setSeg x).ports = c.ports := rfl
@[simp] theorem Core.setSeg_links (c : Core) (x : Seg) : (c.setSeg x).links = c.links := rfl
@[simp] theorem Core.setSeg_xfers (c : Core) (x : Seg) : (c.setSeg x).xfers = c.xfers := rfl
@[simp] theorem Core.setSeg_nextXfer (c : Core) (x : Seg) : (c.setSeg x).nextXfer = c.nextXfer := rfl
@[simp] theorem Core.setSeg_cadence (c : Core) (x : Seg) : (c.setSeg x).cadence = c.cadence := rfl
@[simp] theorem Core.setSeg_out (c : Core) (x : Seg) : (c.setSeg x).out = c.out := rfl

/-! `Core.dropSeg`. -/

@[simp] theorem Core.dropSeg_outbox (c : Core) (i : Nat) : (c.dropSeg i).outbox = c.outbox := rfl
@[simp] theorem Core.dropSeg_regs (c : Core) (i : Nat) : (c.dropSeg i).regs = c.regs := rfl
@[simp] theorem Core.dropSeg_ctr (c : Core) (i : Nat) : (c.dropSeg i).ctr = c.ctr := rfl
@[simp] theorem Core.dropSeg_free (c : Core) (i : Nat) : (c.dropSeg i).free = c.free := rfl
@[simp] theorem Core.dropSeg_locks (c : Core) (i : Nat) : (c.dropSeg i).locks = c.locks := rfl
@[simp] theorem Core.dropSeg_clk (c : Core) (i : Nat) : (c.dropSeg i).clk = c.clk := rfl
@[simp] theorem Core.dropSeg_tref (c : Core) (i : Nat) : (c.dropSeg i).tref = c.tref := rfl
@[simp] theorem Core.dropSeg_blf (c : Core) (i : Nat) : (c.dropSeg i).blf = c.blf := rfl
@[simp] theorem Core.dropSeg_pow (c : Core) (i : Nat) : (c.dropSeg i).pow = c.pow := rfl
@[simp] theorem Core.dropSeg_prc (c : Core) (i : Nat) : (c.dropSeg i).prc = c.prc := rfl
@[simp] theorem Core.dropSeg_tripWord (c : Core) (i : Nat) : (c.dropSeg i).tripWord = c.tripWord := rfl
@[simp] theorem Core.dropSeg_nextSeg (c : Core) (i : Nat) : (c.dropSeg i).nextSeg = c.nextSeg := rfl
@[simp] theorem Core.dropSeg_towers (c : Core) (i : Nat) : (c.dropSeg i).towers = c.towers := rfl
@[simp] theorem Core.dropSeg_ctxs (c : Core) (i : Nat) : (c.dropSeg i).ctxs = c.ctxs := rfl
@[simp] theorem Core.dropSeg_dir (c : Core) (i : Nat) : (c.dropSeg i).dir = c.dir := rfl
@[simp] theorem Core.dropSeg_gate (c : Core) (i : Nat) : (c.dropSeg i).gate = c.gate := rfl
@[simp] theorem Core.dropSeg_mem (c : Core) (i : Nat) : (c.dropSeg i).mem = c.mem := rfl
@[simp] theorem Core.dropSeg_keep (c : Core) (i : Nat) : (c.dropSeg i).keep = c.keep := rfl
@[simp] theorem Core.dropSeg_ports (c : Core) (i : Nat) : (c.dropSeg i).ports = c.ports := rfl
@[simp] theorem Core.dropSeg_links (c : Core) (i : Nat) : (c.dropSeg i).links = c.links := rfl
@[simp] theorem Core.dropSeg_xfers (c : Core) (i : Nat) : (c.dropSeg i).xfers = c.xfers := rfl
@[simp] theorem Core.dropSeg_nextXfer (c : Core) (i : Nat) : (c.dropSeg i).nextXfer = c.nextXfer := rfl
@[simp] theorem Core.dropSeg_cadence (c : Core) (i : Nat) : (c.dropSeg i).cadence = c.cadence := rfl
@[simp] theorem Core.dropSeg_out (c : Core) (i : Nat) : (c.dropSeg i).out = c.out := rfl

/-! `Core.setCtx`. -/

@[simp] theorem Core.setCtx_outbox (c : Core) (x : Nat) (v : Ctx) : (c.setCtx x v).outbox = c.outbox := rfl
@[simp] theorem Core.setCtx_regs (c : Core) (x : Nat) (v : Ctx) : (c.setCtx x v).regs = c.regs := rfl
@[simp] theorem Core.setCtx_ctr (c : Core) (x : Nat) (v : Ctx) : (c.setCtx x v).ctr = c.ctr := rfl
@[simp] theorem Core.setCtx_free (c : Core) (x : Nat) (v : Ctx) : (c.setCtx x v).free = c.free := rfl
@[simp] theorem Core.setCtx_locks (c : Core) (x : Nat) (v : Ctx) : (c.setCtx x v).locks = c.locks := rfl
@[simp] theorem Core.setCtx_clk (c : Core) (x : Nat) (v : Ctx) : (c.setCtx x v).clk = c.clk := rfl
@[simp] theorem Core.setCtx_tref (c : Core) (x : Nat) (v : Ctx) : (c.setCtx x v).tref = c.tref := rfl
@[simp] theorem Core.setCtx_blf (c : Core) (x : Nat) (v : Ctx) : (c.setCtx x v).blf = c.blf := rfl
@[simp] theorem Core.setCtx_pow (c : Core) (x : Nat) (v : Ctx) : (c.setCtx x v).pow = c.pow := rfl
@[simp] theorem Core.setCtx_prc (c : Core) (x : Nat) (v : Ctx) : (c.setCtx x v).prc = c.prc := rfl
@[simp] theorem Core.setCtx_tripWord (c : Core) (x : Nat) (v : Ctx) : (c.setCtx x v).tripWord = c.tripWord := rfl
@[simp] theorem Core.setCtx_segs (c : Core) (x : Nat) (v : Ctx) : (c.setCtx x v).segs = c.segs := rfl
@[simp] theorem Core.setCtx_nextSeg (c : Core) (x : Nat) (v : Ctx) : (c.setCtx x v).nextSeg = c.nextSeg := rfl
@[simp] theorem Core.setCtx_towers (c : Core) (x : Nat) (v : Ctx) : (c.setCtx x v).towers = c.towers := rfl
@[simp] theorem Core.setCtx_dir (c : Core) (x : Nat) (v : Ctx) : (c.setCtx x v).dir = c.dir := rfl
@[simp] theorem Core.setCtx_gate (c : Core) (x : Nat) (v : Ctx) : (c.setCtx x v).gate = c.gate := rfl
@[simp] theorem Core.setCtx_mem (c : Core) (x : Nat) (v : Ctx) : (c.setCtx x v).mem = c.mem := rfl
@[simp] theorem Core.setCtx_keep (c : Core) (x : Nat) (v : Ctx) : (c.setCtx x v).keep = c.keep := rfl
@[simp] theorem Core.setCtx_ports (c : Core) (x : Nat) (v : Ctx) : (c.setCtx x v).ports = c.ports := rfl
@[simp] theorem Core.setCtx_links (c : Core) (x : Nat) (v : Ctx) : (c.setCtx x v).links = c.links := rfl
@[simp] theorem Core.setCtx_xfers (c : Core) (x : Nat) (v : Ctx) : (c.setCtx x v).xfers = c.xfers := rfl
@[simp] theorem Core.setCtx_nextXfer (c : Core) (x : Nat) (v : Ctx) : (c.setCtx x v).nextXfer = c.nextXfer := rfl
@[simp] theorem Core.setCtx_cadence (c : Core) (x : Nat) (v : Ctx) : (c.setCtx x v).cadence = c.cadence := rfl
@[simp] theorem Core.setCtx_out (c : Core) (x : Nat) (v : Ctx) : (c.setCtx x v).out = c.out := rfl

/-! `Core.setDesc`. -/

@[simp] theorem Core.setDesc_outbox (c : Core) (i : Nat) (d : Desc) : (c.setDesc i d).outbox = c.outbox := rfl
@[simp] theorem Core.setDesc_regs (c : Core) (i : Nat) (d : Desc) : (c.setDesc i d).regs = c.regs := rfl
@[simp] theorem Core.setDesc_ctr (c : Core) (i : Nat) (d : Desc) : (c.setDesc i d).ctr = c.ctr := rfl
@[simp] theorem Core.setDesc_free (c : Core) (i : Nat) (d : Desc) : (c.setDesc i d).free = c.free := rfl
@[simp] theorem Core.setDesc_locks (c : Core) (i : Nat) (d : Desc) : (c.setDesc i d).locks = c.locks := rfl
@[simp] theorem Core.setDesc_clk (c : Core) (i : Nat) (d : Desc) : (c.setDesc i d).clk = c.clk := rfl
@[simp] theorem Core.setDesc_tref (c : Core) (i : Nat) (d : Desc) : (c.setDesc i d).tref = c.tref := rfl
@[simp] theorem Core.setDesc_blf (c : Core) (i : Nat) (d : Desc) : (c.setDesc i d).blf = c.blf := rfl
@[simp] theorem Core.setDesc_pow (c : Core) (i : Nat) (d : Desc) : (c.setDesc i d).pow = c.pow := rfl
@[simp] theorem Core.setDesc_prc (c : Core) (i : Nat) (d : Desc) : (c.setDesc i d).prc = c.prc := rfl
@[simp] theorem Core.setDesc_tripWord (c : Core) (i : Nat) (d : Desc) : (c.setDesc i d).tripWord = c.tripWord := rfl
@[simp] theorem Core.setDesc_segs (c : Core) (i : Nat) (d : Desc) : (c.setDesc i d).segs = c.segs := rfl
@[simp] theorem Core.setDesc_nextSeg (c : Core) (i : Nat) (d : Desc) : (c.setDesc i d).nextSeg = c.nextSeg := rfl
@[simp] theorem Core.setDesc_towers (c : Core) (i : Nat) (d : Desc) : (c.setDesc i d).towers = c.towers := rfl
@[simp] theorem Core.setDesc_ctxs (c : Core) (i : Nat) (d : Desc) : (c.setDesc i d).ctxs = c.ctxs := rfl
@[simp] theorem Core.setDesc_gate (c : Core) (i : Nat) (d : Desc) : (c.setDesc i d).gate = c.gate := rfl
@[simp] theorem Core.setDesc_mem (c : Core) (i : Nat) (d : Desc) : (c.setDesc i d).mem = c.mem := rfl
@[simp] theorem Core.setDesc_keep (c : Core) (i : Nat) (d : Desc) : (c.setDesc i d).keep = c.keep := rfl
@[simp] theorem Core.setDesc_ports (c : Core) (i : Nat) (d : Desc) : (c.setDesc i d).ports = c.ports := rfl
@[simp] theorem Core.setDesc_links (c : Core) (i : Nat) (d : Desc) : (c.setDesc i d).links = c.links := rfl
@[simp] theorem Core.setDesc_xfers (c : Core) (i : Nat) (d : Desc) : (c.setDesc i d).xfers = c.xfers := rfl
@[simp] theorem Core.setDesc_nextXfer (c : Core) (i : Nat) (d : Desc) : (c.setDesc i d).nextXfer = c.nextXfer := rfl
@[simp] theorem Core.setDesc_cadence (c : Core) (i : Nat) (d : Desc) : (c.setDesc i d).cadence = c.cadence := rfl
@[simp] theorem Core.setDesc_out (c : Core) (i : Nat) (d : Desc) : (c.setDesc i d).out = c.out := rfl

/-! `Core.setSlot`. -/

@[simp] theorem Core.setSlot_outbox (c : Core) (k : Nat) (x : KeySlot) : (c.setSlot k x).outbox = c.outbox := rfl
@[simp] theorem Core.setSlot_regs (c : Core) (k : Nat) (x : KeySlot) : (c.setSlot k x).regs = c.regs := rfl
@[simp] theorem Core.setSlot_ctr (c : Core) (k : Nat) (x : KeySlot) : (c.setSlot k x).ctr = c.ctr := rfl
@[simp] theorem Core.setSlot_free (c : Core) (k : Nat) (x : KeySlot) : (c.setSlot k x).free = c.free := rfl
@[simp] theorem Core.setSlot_locks (c : Core) (k : Nat) (x : KeySlot) : (c.setSlot k x).locks = c.locks := rfl
@[simp] theorem Core.setSlot_clk (c : Core) (k : Nat) (x : KeySlot) : (c.setSlot k x).clk = c.clk := rfl
@[simp] theorem Core.setSlot_tref (c : Core) (k : Nat) (x : KeySlot) : (c.setSlot k x).tref = c.tref := rfl
@[simp] theorem Core.setSlot_blf (c : Core) (k : Nat) (x : KeySlot) : (c.setSlot k x).blf = c.blf := rfl
@[simp] theorem Core.setSlot_pow (c : Core) (k : Nat) (x : KeySlot) : (c.setSlot k x).pow = c.pow := rfl
@[simp] theorem Core.setSlot_prc (c : Core) (k : Nat) (x : KeySlot) : (c.setSlot k x).prc = c.prc := rfl
@[simp] theorem Core.setSlot_tripWord (c : Core) (k : Nat) (x : KeySlot) : (c.setSlot k x).tripWord = c.tripWord := rfl
@[simp] theorem Core.setSlot_segs (c : Core) (k : Nat) (x : KeySlot) : (c.setSlot k x).segs = c.segs := rfl
@[simp] theorem Core.setSlot_nextSeg (c : Core) (k : Nat) (x : KeySlot) : (c.setSlot k x).nextSeg = c.nextSeg := rfl
@[simp] theorem Core.setSlot_towers (c : Core) (k : Nat) (x : KeySlot) : (c.setSlot k x).towers = c.towers := rfl
@[simp] theorem Core.setSlot_ctxs (c : Core) (k : Nat) (x : KeySlot) : (c.setSlot k x).ctxs = c.ctxs := rfl
@[simp] theorem Core.setSlot_dir (c : Core) (k : Nat) (x : KeySlot) : (c.setSlot k x).dir = c.dir := rfl
@[simp] theorem Core.setSlot_gate (c : Core) (k : Nat) (x : KeySlot) : (c.setSlot k x).gate = c.gate := rfl
@[simp] theorem Core.setSlot_mem (c : Core) (k : Nat) (x : KeySlot) : (c.setSlot k x).mem = c.mem := rfl
@[simp] theorem Core.setSlot_ports (c : Core) (k : Nat) (x : KeySlot) : (c.setSlot k x).ports = c.ports := rfl
@[simp] theorem Core.setSlot_links (c : Core) (k : Nat) (x : KeySlot) : (c.setSlot k x).links = c.links := rfl
@[simp] theorem Core.setSlot_xfers (c : Core) (k : Nat) (x : KeySlot) : (c.setSlot k x).xfers = c.xfers := rfl
@[simp] theorem Core.setSlot_nextXfer (c : Core) (k : Nat) (x : KeySlot) : (c.setSlot k x).nextXfer = c.nextXfer := rfl
@[simp] theorem Core.setSlot_cadence (c : Core) (k : Nat) (x : KeySlot) : (c.setSlot k x).cadence = c.cadence := rfl
@[simp] theorem Core.setSlot_out (c : Core) (k : Nat) (x : KeySlot) : (c.setSlot k x).out = c.out := rfl

/-! `Core.setPort`. -/

@[simp] theorem Core.setPort_outbox (c : Core) (p : Nat) (x : Port) : (c.setPort p x).outbox = c.outbox := rfl
@[simp] theorem Core.setPort_regs (c : Core) (p : Nat) (x : Port) : (c.setPort p x).regs = c.regs := rfl
@[simp] theorem Core.setPort_ctr (c : Core) (p : Nat) (x : Port) : (c.setPort p x).ctr = c.ctr := rfl
@[simp] theorem Core.setPort_free (c : Core) (p : Nat) (x : Port) : (c.setPort p x).free = c.free := rfl
@[simp] theorem Core.setPort_locks (c : Core) (p : Nat) (x : Port) : (c.setPort p x).locks = c.locks := rfl
@[simp] theorem Core.setPort_clk (c : Core) (p : Nat) (x : Port) : (c.setPort p x).clk = c.clk := rfl
@[simp] theorem Core.setPort_tref (c : Core) (p : Nat) (x : Port) : (c.setPort p x).tref = c.tref := rfl
@[simp] theorem Core.setPort_blf (c : Core) (p : Nat) (x : Port) : (c.setPort p x).blf = c.blf := rfl
@[simp] theorem Core.setPort_pow (c : Core) (p : Nat) (x : Port) : (c.setPort p x).pow = c.pow := rfl
@[simp] theorem Core.setPort_prc (c : Core) (p : Nat) (x : Port) : (c.setPort p x).prc = c.prc := rfl
@[simp] theorem Core.setPort_tripWord (c : Core) (p : Nat) (x : Port) : (c.setPort p x).tripWord = c.tripWord := rfl
@[simp] theorem Core.setPort_segs (c : Core) (p : Nat) (x : Port) : (c.setPort p x).segs = c.segs := rfl
@[simp] theorem Core.setPort_nextSeg (c : Core) (p : Nat) (x : Port) : (c.setPort p x).nextSeg = c.nextSeg := rfl
@[simp] theorem Core.setPort_towers (c : Core) (p : Nat) (x : Port) : (c.setPort p x).towers = c.towers := rfl
@[simp] theorem Core.setPort_ctxs (c : Core) (p : Nat) (x : Port) : (c.setPort p x).ctxs = c.ctxs := rfl
@[simp] theorem Core.setPort_dir (c : Core) (p : Nat) (x : Port) : (c.setPort p x).dir = c.dir := rfl
@[simp] theorem Core.setPort_gate (c : Core) (p : Nat) (x : Port) : (c.setPort p x).gate = c.gate := rfl
@[simp] theorem Core.setPort_mem (c : Core) (p : Nat) (x : Port) : (c.setPort p x).mem = c.mem := rfl
@[simp] theorem Core.setPort_keep (c : Core) (p : Nat) (x : Port) : (c.setPort p x).keep = c.keep := rfl
@[simp] theorem Core.setPort_links (c : Core) (p : Nat) (x : Port) : (c.setPort p x).links = c.links := rfl
@[simp] theorem Core.setPort_xfers (c : Core) (p : Nat) (x : Port) : (c.setPort p x).xfers = c.xfers := rfl
@[simp] theorem Core.setPort_nextXfer (c : Core) (p : Nat) (x : Port) : (c.setPort p x).nextXfer = c.nextXfer := rfl
@[simp] theorem Core.setPort_cadence (c : Core) (p : Nat) (x : Port) : (c.setPort p x).cadence = c.cadence := rfl
@[simp] theorem Core.setPort_out (c : Core) (p : Nat) (x : Port) : (c.setPort p x).out = c.out := rfl

/-! `Core.setFn`. -/

@[simp] theorem Core.setFn_outbox (c : Core) (f : FnId) (x : HostFn) : (c.setFn f x).outbox = c.outbox := rfl
@[simp] theorem Core.setFn_regs (c : Core) (f : FnId) (x : HostFn) : (c.setFn f x).regs = c.regs := rfl
@[simp] theorem Core.setFn_ctr (c : Core) (f : FnId) (x : HostFn) : (c.setFn f x).ctr = c.ctr := rfl
@[simp] theorem Core.setFn_free (c : Core) (f : FnId) (x : HostFn) : (c.setFn f x).free = c.free := rfl
@[simp] theorem Core.setFn_locks (c : Core) (f : FnId) (x : HostFn) : (c.setFn f x).locks = c.locks := rfl
@[simp] theorem Core.setFn_clk (c : Core) (f : FnId) (x : HostFn) : (c.setFn f x).clk = c.clk := rfl
@[simp] theorem Core.setFn_tref (c : Core) (f : FnId) (x : HostFn) : (c.setFn f x).tref = c.tref := rfl
@[simp] theorem Core.setFn_blf (c : Core) (f : FnId) (x : HostFn) : (c.setFn f x).blf = c.blf := rfl
@[simp] theorem Core.setFn_pow (c : Core) (f : FnId) (x : HostFn) : (c.setFn f x).pow = c.pow := rfl
@[simp] theorem Core.setFn_prc (c : Core) (f : FnId) (x : HostFn) : (c.setFn f x).prc = c.prc := rfl
@[simp] theorem Core.setFn_tripWord (c : Core) (f : FnId) (x : HostFn) : (c.setFn f x).tripWord = c.tripWord := rfl
@[simp] theorem Core.setFn_segs (c : Core) (f : FnId) (x : HostFn) : (c.setFn f x).segs = c.segs := rfl
@[simp] theorem Core.setFn_nextSeg (c : Core) (f : FnId) (x : HostFn) : (c.setFn f x).nextSeg = c.nextSeg := rfl
@[simp] theorem Core.setFn_towers (c : Core) (f : FnId) (x : HostFn) : (c.setFn f x).towers = c.towers := rfl
@[simp] theorem Core.setFn_ctxs (c : Core) (f : FnId) (x : HostFn) : (c.setFn f x).ctxs = c.ctxs := rfl
@[simp] theorem Core.setFn_dir (c : Core) (f : FnId) (x : HostFn) : (c.setFn f x).dir = c.dir := rfl
@[simp] theorem Core.setFn_gate (c : Core) (f : FnId) (x : HostFn) : (c.setFn f x).gate = c.gate := rfl
@[simp] theorem Core.setFn_mem (c : Core) (f : FnId) (x : HostFn) : (c.setFn f x).mem = c.mem := rfl
@[simp] theorem Core.setFn_keep (c : Core) (f : FnId) (x : HostFn) : (c.setFn f x).keep = c.keep := rfl
@[simp] theorem Core.setFn_links (c : Core) (f : FnId) (x : HostFn) : (c.setFn f x).links = c.links := rfl
@[simp] theorem Core.setFn_xfers (c : Core) (f : FnId) (x : HostFn) : (c.setFn f x).xfers = c.xfers := rfl
@[simp] theorem Core.setFn_nextXfer (c : Core) (f : FnId) (x : HostFn) : (c.setFn f x).nextXfer = c.nextXfer := rfl
@[simp] theorem Core.setFn_cadence (c : Core) (f : FnId) (x : HostFn) : (c.setFn f x).cadence = c.cadence := rfl
@[simp] theorem Core.setFn_out (c : Core) (f : FnId) (x : HostFn) : (c.setFn f x).out = c.out := rfl

/-! `Core.setPair`. -/

@[simp] theorem Core.setPair_outbox (c : Core) (f : FnId) (q : Nat) (x : Pair) : (c.setPair f q x).outbox = c.outbox := rfl
@[simp] theorem Core.setPair_regs (c : Core) (f : FnId) (q : Nat) (x : Pair) : (c.setPair f q x).regs = c.regs := rfl
@[simp] theorem Core.setPair_ctr (c : Core) (f : FnId) (q : Nat) (x : Pair) : (c.setPair f q x).ctr = c.ctr := rfl
@[simp] theorem Core.setPair_free (c : Core) (f : FnId) (q : Nat) (x : Pair) : (c.setPair f q x).free = c.free := rfl
@[simp] theorem Core.setPair_locks (c : Core) (f : FnId) (q : Nat) (x : Pair) : (c.setPair f q x).locks = c.locks := rfl
@[simp] theorem Core.setPair_clk (c : Core) (f : FnId) (q : Nat) (x : Pair) : (c.setPair f q x).clk = c.clk := rfl
@[simp] theorem Core.setPair_tref (c : Core) (f : FnId) (q : Nat) (x : Pair) : (c.setPair f q x).tref = c.tref := rfl
@[simp] theorem Core.setPair_blf (c : Core) (f : FnId) (q : Nat) (x : Pair) : (c.setPair f q x).blf = c.blf := rfl
@[simp] theorem Core.setPair_pow (c : Core) (f : FnId) (q : Nat) (x : Pair) : (c.setPair f q x).pow = c.pow := rfl
@[simp] theorem Core.setPair_prc (c : Core) (f : FnId) (q : Nat) (x : Pair) : (c.setPair f q x).prc = c.prc := rfl
@[simp] theorem Core.setPair_tripWord (c : Core) (f : FnId) (q : Nat) (x : Pair) : (c.setPair f q x).tripWord = c.tripWord := rfl
@[simp] theorem Core.setPair_segs (c : Core) (f : FnId) (q : Nat) (x : Pair) : (c.setPair f q x).segs = c.segs := rfl
@[simp] theorem Core.setPair_nextSeg (c : Core) (f : FnId) (q : Nat) (x : Pair) : (c.setPair f q x).nextSeg = c.nextSeg := rfl
@[simp] theorem Core.setPair_towers (c : Core) (f : FnId) (q : Nat) (x : Pair) : (c.setPair f q x).towers = c.towers := rfl
@[simp] theorem Core.setPair_ctxs (c : Core) (f : FnId) (q : Nat) (x : Pair) : (c.setPair f q x).ctxs = c.ctxs := rfl
@[simp] theorem Core.setPair_dir (c : Core) (f : FnId) (q : Nat) (x : Pair) : (c.setPair f q x).dir = c.dir := rfl
@[simp] theorem Core.setPair_gate (c : Core) (f : FnId) (q : Nat) (x : Pair) : (c.setPair f q x).gate = c.gate := rfl
@[simp] theorem Core.setPair_mem (c : Core) (f : FnId) (q : Nat) (x : Pair) : (c.setPair f q x).mem = c.mem := rfl
@[simp] theorem Core.setPair_keep (c : Core) (f : FnId) (q : Nat) (x : Pair) : (c.setPair f q x).keep = c.keep := rfl
@[simp] theorem Core.setPair_links (c : Core) (f : FnId) (q : Nat) (x : Pair) : (c.setPair f q x).links = c.links := rfl
@[simp] theorem Core.setPair_xfers (c : Core) (f : FnId) (q : Nat) (x : Pair) : (c.setPair f q x).xfers = c.xfers := rfl
@[simp] theorem Core.setPair_nextXfer (c : Core) (f : FnId) (q : Nat) (x : Pair) : (c.setPair f q x).nextXfer = c.nextXfer := rfl
@[simp] theorem Core.setPair_cadence (c : Core) (f : FnId) (q : Nat) (x : Pair) : (c.setPair f q x).cadence = c.cadence := rfl
@[simp] theorem Core.setPair_out (c : Core) (f : FnId) (q : Nat) (x : Pair) : (c.setPair f q x).out = c.out := rfl

/-! `Core.setLink`. -/

@[simp] theorem Core.setLink_outbox (c : Core) (k : Nat) (x : LinkS) : (c.setLink k x).outbox = c.outbox := rfl
@[simp] theorem Core.setLink_regs (c : Core) (k : Nat) (x : LinkS) : (c.setLink k x).regs = c.regs := rfl
@[simp] theorem Core.setLink_ctr (c : Core) (k : Nat) (x : LinkS) : (c.setLink k x).ctr = c.ctr := rfl
@[simp] theorem Core.setLink_free (c : Core) (k : Nat) (x : LinkS) : (c.setLink k x).free = c.free := rfl
@[simp] theorem Core.setLink_locks (c : Core) (k : Nat) (x : LinkS) : (c.setLink k x).locks = c.locks := rfl
@[simp] theorem Core.setLink_clk (c : Core) (k : Nat) (x : LinkS) : (c.setLink k x).clk = c.clk := rfl
@[simp] theorem Core.setLink_tref (c : Core) (k : Nat) (x : LinkS) : (c.setLink k x).tref = c.tref := rfl
@[simp] theorem Core.setLink_blf (c : Core) (k : Nat) (x : LinkS) : (c.setLink k x).blf = c.blf := rfl
@[simp] theorem Core.setLink_pow (c : Core) (k : Nat) (x : LinkS) : (c.setLink k x).pow = c.pow := rfl
@[simp] theorem Core.setLink_prc (c : Core) (k : Nat) (x : LinkS) : (c.setLink k x).prc = c.prc := rfl
@[simp] theorem Core.setLink_tripWord (c : Core) (k : Nat) (x : LinkS) : (c.setLink k x).tripWord = c.tripWord := rfl
@[simp] theorem Core.setLink_segs (c : Core) (k : Nat) (x : LinkS) : (c.setLink k x).segs = c.segs := rfl
@[simp] theorem Core.setLink_nextSeg (c : Core) (k : Nat) (x : LinkS) : (c.setLink k x).nextSeg = c.nextSeg := rfl
@[simp] theorem Core.setLink_towers (c : Core) (k : Nat) (x : LinkS) : (c.setLink k x).towers = c.towers := rfl
@[simp] theorem Core.setLink_ctxs (c : Core) (k : Nat) (x : LinkS) : (c.setLink k x).ctxs = c.ctxs := rfl
@[simp] theorem Core.setLink_dir (c : Core) (k : Nat) (x : LinkS) : (c.setLink k x).dir = c.dir := rfl
@[simp] theorem Core.setLink_gate (c : Core) (k : Nat) (x : LinkS) : (c.setLink k x).gate = c.gate := rfl
@[simp] theorem Core.setLink_mem (c : Core) (k : Nat) (x : LinkS) : (c.setLink k x).mem = c.mem := rfl
@[simp] theorem Core.setLink_keep (c : Core) (k : Nat) (x : LinkS) : (c.setLink k x).keep = c.keep := rfl
@[simp] theorem Core.setLink_ports (c : Core) (k : Nat) (x : LinkS) : (c.setLink k x).ports = c.ports := rfl
@[simp] theorem Core.setLink_xfers (c : Core) (k : Nat) (x : LinkS) : (c.setLink k x).xfers = c.xfers := rfl
@[simp] theorem Core.setLink_nextXfer (c : Core) (k : Nat) (x : LinkS) : (c.setLink k x).nextXfer = c.nextXfer := rfl
@[simp] theorem Core.setLink_cadence (c : Core) (k : Nat) (x : LinkS) : (c.setLink k x).cadence = c.cadence := rfl
@[simp] theorem Core.setLink_out (c : Core) (k : Nat) (x : LinkS) : (c.setLink k x).out = c.out := rfl

/-! `Core.setBase`. -/

@[simp] theorem Core.setBase_outbox (c : Core) (b : Nat) (x : Base) : (c.setBase b x).outbox = c.outbox := rfl
@[simp] theorem Core.setBase_regs (c : Core) (b : Nat) (x : Base) : (c.setBase b x).regs = c.regs := rfl
@[simp] theorem Core.setBase_ctr (c : Core) (b : Nat) (x : Base) : (c.setBase b x).ctr = c.ctr := rfl
@[simp] theorem Core.setBase_free (c : Core) (b : Nat) (x : Base) : (c.setBase b x).free = c.free := rfl
@[simp] theorem Core.setBase_locks (c : Core) (b : Nat) (x : Base) : (c.setBase b x).locks = c.locks := rfl
@[simp] theorem Core.setBase_clk (c : Core) (b : Nat) (x : Base) : (c.setBase b x).clk = c.clk := rfl
@[simp] theorem Core.setBase_tref (c : Core) (b : Nat) (x : Base) : (c.setBase b x).tref = c.tref := rfl
@[simp] theorem Core.setBase_blf (c : Core) (b : Nat) (x : Base) : (c.setBase b x).blf = c.blf := rfl
@[simp] theorem Core.setBase_pow (c : Core) (b : Nat) (x : Base) : (c.setBase b x).pow = c.pow := rfl
@[simp] theorem Core.setBase_prc (c : Core) (b : Nat) (x : Base) : (c.setBase b x).prc = c.prc := rfl
@[simp] theorem Core.setBase_tripWord (c : Core) (b : Nat) (x : Base) : (c.setBase b x).tripWord = c.tripWord := rfl
@[simp] theorem Core.setBase_segs (c : Core) (b : Nat) (x : Base) : (c.setBase b x).segs = c.segs := rfl
@[simp] theorem Core.setBase_nextSeg (c : Core) (b : Nat) (x : Base) : (c.setBase b x).nextSeg = c.nextSeg := rfl
@[simp] theorem Core.setBase_towers (c : Core) (b : Nat) (x : Base) : (c.setBase b x).towers = c.towers := rfl
@[simp] theorem Core.setBase_ctxs (c : Core) (b : Nat) (x : Base) : (c.setBase b x).ctxs = c.ctxs := rfl
@[simp] theorem Core.setBase_dir (c : Core) (b : Nat) (x : Base) : (c.setBase b x).dir = c.dir := rfl
@[simp] theorem Core.setBase_mem (c : Core) (b : Nat) (x : Base) : (c.setBase b x).mem = c.mem := rfl
@[simp] theorem Core.setBase_keep (c : Core) (b : Nat) (x : Base) : (c.setBase b x).keep = c.keep := rfl
@[simp] theorem Core.setBase_ports (c : Core) (b : Nat) (x : Base) : (c.setBase b x).ports = c.ports := rfl
@[simp] theorem Core.setBase_links (c : Core) (b : Nat) (x : Base) : (c.setBase b x).links = c.links := rfl
@[simp] theorem Core.setBase_xfers (c : Core) (b : Nat) (x : Base) : (c.setBase b x).xfers = c.xfers := rfl
@[simp] theorem Core.setBase_nextXfer (c : Core) (b : Nat) (x : Base) : (c.setBase b x).nextXfer = c.nextXfer := rfl
@[simp] theorem Core.setBase_cadence (c : Core) (b : Nat) (x : Base) : (c.setBase b x).cadence = c.cadence := rfl
@[simp] theorem Core.setBase_out (c : Core) (b : Nat) (x : Base) : (c.setBase b x).out = c.out := rfl

/-! `Core.fresh`. -/

@[simp] theorem Core.fresh_outbox (c : Core) : (c.fresh).outbox = c.outbox := rfl
@[simp] theorem Core.fresh_regs (c : Core) : (c.fresh).regs = c.regs := rfl
@[simp] theorem Core.fresh_ctr (c : Core) : (c.fresh).ctr = c.ctr := rfl
@[simp] theorem Core.fresh_locks (c : Core) : (c.fresh).locks = c.locks := rfl
@[simp] theorem Core.fresh_clk (c : Core) : (c.fresh).clk = c.clk := rfl
@[simp] theorem Core.fresh_tref (c : Core) : (c.fresh).tref = c.tref := rfl
@[simp] theorem Core.fresh_blf (c : Core) : (c.fresh).blf = c.blf := rfl
@[simp] theorem Core.fresh_pow (c : Core) : (c.fresh).pow = c.pow := rfl
@[simp] theorem Core.fresh_prc (c : Core) : (c.fresh).prc = c.prc := rfl
@[simp] theorem Core.fresh_tripWord (c : Core) : (c.fresh).tripWord = c.tripWord := rfl
@[simp] theorem Core.fresh_segs (c : Core) : (c.fresh).segs = c.segs := rfl
@[simp] theorem Core.fresh_nextSeg (c : Core) : (c.fresh).nextSeg = c.nextSeg := rfl
@[simp] theorem Core.fresh_towers (c : Core) : (c.fresh).towers = c.towers := rfl
@[simp] theorem Core.fresh_ctxs (c : Core) : (c.fresh).ctxs = c.ctxs := rfl
@[simp] theorem Core.fresh_dir (c : Core) : (c.fresh).dir = c.dir := rfl
@[simp] theorem Core.fresh_gate (c : Core) : (c.fresh).gate = c.gate := rfl
@[simp] theorem Core.fresh_mem (c : Core) : (c.fresh).mem = c.mem := rfl
@[simp] theorem Core.fresh_keep (c : Core) : (c.fresh).keep = c.keep := rfl
@[simp] theorem Core.fresh_ports (c : Core) : (c.fresh).ports = c.ports := rfl
@[simp] theorem Core.fresh_links (c : Core) : (c.fresh).links = c.links := rfl
@[simp] theorem Core.fresh_xfers (c : Core) : (c.fresh).xfers = c.xfers := rfl
@[simp] theorem Core.fresh_nextXfer (c : Core) : (c.fresh).nextXfer = c.nextXfer := rfl
@[simp] theorem Core.fresh_cadence (c : Core) : (c.fresh).cadence = c.cadence := rfl
@[simp] theorem Core.fresh_out (c : Core) : (c.fresh).out = c.out := rfl

/-! `Core.note`. -/

@[simp] theorem Core.note_outbox (c : Core) (k x a : Nat) (d : Digest) : (c.note k x a d).outbox = c.outbox := rfl
@[simp] theorem Core.note_regs (c : Core) (k x a : Nat) (d : Digest) : (c.note k x a d).regs = c.regs := rfl
@[simp] theorem Core.note_ctr (c : Core) (k x a : Nat) (d : Digest) : (c.note k x a d).ctr = c.ctr := rfl
@[simp] theorem Core.note_free (c : Core) (k x a : Nat) (d : Digest) : (c.note k x a d).free = c.free := rfl
@[simp] theorem Core.note_locks (c : Core) (k x a : Nat) (d : Digest) : (c.note k x a d).locks = c.locks := rfl
@[simp] theorem Core.note_clk (c : Core) (k x a : Nat) (d : Digest) : (c.note k x a d).clk = c.clk := rfl
@[simp] theorem Core.note_tref (c : Core) (k x a : Nat) (d : Digest) : (c.note k x a d).tref = c.tref := rfl
@[simp] theorem Core.note_blf (c : Core) (k x a : Nat) (d : Digest) : (c.note k x a d).blf = c.blf := rfl
@[simp] theorem Core.note_pow (c : Core) (k x a : Nat) (d : Digest) : (c.note k x a d).pow = c.pow := rfl
@[simp] theorem Core.note_prc (c : Core) (k x a : Nat) (d : Digest) : (c.note k x a d).prc = c.prc := rfl
@[simp] theorem Core.note_tripWord (c : Core) (k x a : Nat) (d : Digest) : (c.note k x a d).tripWord = c.tripWord := rfl
@[simp] theorem Core.note_segs (c : Core) (k x a : Nat) (d : Digest) : (c.note k x a d).segs = c.segs := rfl
@[simp] theorem Core.note_nextSeg (c : Core) (k x a : Nat) (d : Digest) : (c.note k x a d).nextSeg = c.nextSeg := rfl
@[simp] theorem Core.note_towers (c : Core) (k x a : Nat) (d : Digest) : (c.note k x a d).towers = c.towers := rfl
@[simp] theorem Core.note_ctxs (c : Core) (k x a : Nat) (d : Digest) : (c.note k x a d).ctxs = c.ctxs := rfl
@[simp] theorem Core.note_dir (c : Core) (k x a : Nat) (d : Digest) : (c.note k x a d).dir = c.dir := rfl
@[simp] theorem Core.note_gate (c : Core) (k x a : Nat) (d : Digest) : (c.note k x a d).gate = c.gate := rfl
@[simp] theorem Core.note_mem (c : Core) (k x a : Nat) (d : Digest) : (c.note k x a d).mem = c.mem := rfl
@[simp] theorem Core.note_ports (c : Core) (k x a : Nat) (d : Digest) : (c.note k x a d).ports = c.ports := rfl
@[simp] theorem Core.note_links (c : Core) (k x a : Nat) (d : Digest) : (c.note k x a d).links = c.links := rfl
@[simp] theorem Core.note_xfers (c : Core) (k x a : Nat) (d : Digest) : (c.note k x a d).xfers = c.xfers := rfl
@[simp] theorem Core.note_nextXfer (c : Core) (k x a : Nat) (d : Digest) : (c.note k x a d).nextXfer = c.nextXfer := rfl
@[simp] theorem Core.note_cadence (c : Core) (k x a : Nat) (d : Digest) : (c.note k x a d).cadence = c.cadence := rfl
@[simp] theorem Core.note_out (c : Core) (k x a : Nat) (d : Digest) : (c.note k x a d).out = c.out := rfl

/-! `Core.updCtx`. -/

@[simp] theorem Core.updCtx_outbox (c : Core) (x : Nat) (f : Ctx → Ctx) : (c.updCtx x f).outbox = c.outbox := by unfold Core.updCtx; split <;> rfl
@[simp] theorem Core.updCtx_regs (c : Core) (x : Nat) (f : Ctx → Ctx) : (c.updCtx x f).regs = c.regs := by unfold Core.updCtx; split <;> rfl
@[simp] theorem Core.updCtx_ctr (c : Core) (x : Nat) (f : Ctx → Ctx) : (c.updCtx x f).ctr = c.ctr := by unfold Core.updCtx; split <;> rfl
@[simp] theorem Core.updCtx_free (c : Core) (x : Nat) (f : Ctx → Ctx) : (c.updCtx x f).free = c.free := by unfold Core.updCtx; split <;> rfl
@[simp] theorem Core.updCtx_locks (c : Core) (x : Nat) (f : Ctx → Ctx) : (c.updCtx x f).locks = c.locks := by unfold Core.updCtx; split <;> rfl
@[simp] theorem Core.updCtx_clk (c : Core) (x : Nat) (f : Ctx → Ctx) : (c.updCtx x f).clk = c.clk := by unfold Core.updCtx; split <;> rfl
@[simp] theorem Core.updCtx_tref (c : Core) (x : Nat) (f : Ctx → Ctx) : (c.updCtx x f).tref = c.tref := by unfold Core.updCtx; split <;> rfl
@[simp] theorem Core.updCtx_blf (c : Core) (x : Nat) (f : Ctx → Ctx) : (c.updCtx x f).blf = c.blf := by unfold Core.updCtx; split <;> rfl
@[simp] theorem Core.updCtx_pow (c : Core) (x : Nat) (f : Ctx → Ctx) : (c.updCtx x f).pow = c.pow := by unfold Core.updCtx; split <;> rfl
@[simp] theorem Core.updCtx_prc (c : Core) (x : Nat) (f : Ctx → Ctx) : (c.updCtx x f).prc = c.prc := by unfold Core.updCtx; split <;> rfl
@[simp] theorem Core.updCtx_tripWord (c : Core) (x : Nat) (f : Ctx → Ctx) : (c.updCtx x f).tripWord = c.tripWord := by unfold Core.updCtx; split <;> rfl
@[simp] theorem Core.updCtx_segs (c : Core) (x : Nat) (f : Ctx → Ctx) : (c.updCtx x f).segs = c.segs := by unfold Core.updCtx; split <;> rfl
@[simp] theorem Core.updCtx_nextSeg (c : Core) (x : Nat) (f : Ctx → Ctx) : (c.updCtx x f).nextSeg = c.nextSeg := by unfold Core.updCtx; split <;> rfl
@[simp] theorem Core.updCtx_towers (c : Core) (x : Nat) (f : Ctx → Ctx) : (c.updCtx x f).towers = c.towers := by unfold Core.updCtx; split <;> rfl
@[simp] theorem Core.updCtx_dir (c : Core) (x : Nat) (f : Ctx → Ctx) : (c.updCtx x f).dir = c.dir := by unfold Core.updCtx; split <;> rfl
@[simp] theorem Core.updCtx_gate (c : Core) (x : Nat) (f : Ctx → Ctx) : (c.updCtx x f).gate = c.gate := by unfold Core.updCtx; split <;> rfl
@[simp] theorem Core.updCtx_mem (c : Core) (x : Nat) (f : Ctx → Ctx) : (c.updCtx x f).mem = c.mem := by unfold Core.updCtx; split <;> rfl
@[simp] theorem Core.updCtx_keep (c : Core) (x : Nat) (f : Ctx → Ctx) : (c.updCtx x f).keep = c.keep := by unfold Core.updCtx; split <;> rfl
@[simp] theorem Core.updCtx_ports (c : Core) (x : Nat) (f : Ctx → Ctx) : (c.updCtx x f).ports = c.ports := by unfold Core.updCtx; split <;> rfl
@[simp] theorem Core.updCtx_links (c : Core) (x : Nat) (f : Ctx → Ctx) : (c.updCtx x f).links = c.links := by unfold Core.updCtx; split <;> rfl
@[simp] theorem Core.updCtx_xfers (c : Core) (x : Nat) (f : Ctx → Ctx) : (c.updCtx x f).xfers = c.xfers := by unfold Core.updCtx; split <;> rfl
@[simp] theorem Core.updCtx_nextXfer (c : Core) (x : Nat) (f : Ctx → Ctx) : (c.updCtx x f).nextXfer = c.nextXfer := by unfold Core.updCtx; split <;> rfl
@[simp] theorem Core.updCtx_cadence (c : Core) (x : Nat) (f : Ctx → Ctx) : (c.updCtx x f).cadence = c.cadence := by unfold Core.updCtx; split <;> rfl
@[simp] theorem Core.updCtx_out (c : Core) (x : Nat) (f : Ctx → Ctx) : (c.updCtx x f).out = c.out := by unfold Core.updCtx; split <;> rfl

/-! `Core.bump`. -/

@[simp] theorem Core.bump_regs (c : Core) (o n : Nat) : (c.bump o n).regs = c.regs := by unfold Core.bump; dsimp only; split <;> rfl
@[simp] theorem Core.bump_free (c : Core) (o n : Nat) : (c.bump o n).free = c.free := by unfold Core.bump; dsimp only; split <;> rfl
@[simp] theorem Core.bump_locks (c : Core) (o n : Nat) : (c.bump o n).locks = c.locks := by unfold Core.bump; dsimp only; split <;> rfl
@[simp] theorem Core.bump_clk (c : Core) (o n : Nat) : (c.bump o n).clk = c.clk := by unfold Core.bump; dsimp only; split <;> rfl
@[simp] theorem Core.bump_tref (c : Core) (o n : Nat) : (c.bump o n).tref = c.tref := by unfold Core.bump; dsimp only; split <;> rfl
@[simp] theorem Core.bump_blf (c : Core) (o n : Nat) : (c.bump o n).blf = c.blf := by unfold Core.bump; dsimp only; split <;> rfl
@[simp] theorem Core.bump_pow (c : Core) (o n : Nat) : (c.bump o n).pow = c.pow := by unfold Core.bump; dsimp only; split <;> rfl
@[simp] theorem Core.bump_prc (c : Core) (o n : Nat) : (c.bump o n).prc = c.prc := by unfold Core.bump; dsimp only; split <;> rfl
@[simp] theorem Core.bump_tripWord (c : Core) (o n : Nat) : (c.bump o n).tripWord = c.tripWord := by unfold Core.bump; dsimp only; split <;> rfl
@[simp] theorem Core.bump_segs (c : Core) (o n : Nat) : (c.bump o n).segs = c.segs := by unfold Core.bump; dsimp only; split <;> rfl
@[simp] theorem Core.bump_nextSeg (c : Core) (o n : Nat) : (c.bump o n).nextSeg = c.nextSeg := by unfold Core.bump; dsimp only; split <;> rfl
@[simp] theorem Core.bump_towers (c : Core) (o n : Nat) : (c.bump o n).towers = c.towers := by unfold Core.bump; dsimp only; split <;> rfl
@[simp] theorem Core.bump_ctxs (c : Core) (o n : Nat) : (c.bump o n).ctxs = c.ctxs := by unfold Core.bump; dsimp only; split <;> rfl
@[simp] theorem Core.bump_dir (c : Core) (o n : Nat) : (c.bump o n).dir = c.dir := by unfold Core.bump; dsimp only; split <;> rfl
@[simp] theorem Core.bump_gate (c : Core) (o n : Nat) : (c.bump o n).gate = c.gate := by unfold Core.bump; dsimp only; split <;> rfl
@[simp] theorem Core.bump_mem (c : Core) (o n : Nat) : (c.bump o n).mem = c.mem := by unfold Core.bump; dsimp only; split <;> rfl
@[simp] theorem Core.bump_keep (c : Core) (o n : Nat) : (c.bump o n).keep = c.keep := by unfold Core.bump; dsimp only; split <;> rfl
@[simp] theorem Core.bump_ports (c : Core) (o n : Nat) : (c.bump o n).ports = c.ports := by unfold Core.bump; dsimp only; split <;> rfl
@[simp] theorem Core.bump_links (c : Core) (o n : Nat) : (c.bump o n).links = c.links := by unfold Core.bump; dsimp only; split <;> rfl
@[simp] theorem Core.bump_xfers (c : Core) (o n : Nat) : (c.bump o n).xfers = c.xfers := by unfold Core.bump; dsimp only; split <;> rfl
@[simp] theorem Core.bump_nextXfer (c : Core) (o n : Nat) : (c.bump o n).nextXfer = c.nextXfer := by unfold Core.bump; dsimp only; split <;> rfl
@[simp] theorem Core.bump_cadence (c : Core) (o n : Nat) : (c.bump o n).cadence = c.cadence := by unfold Core.bump; dsimp only; split <;> rfl
@[simp] theorem Core.bump_out (c : Core) (o n : Nat) : (c.bump o n).out = c.out := by unfold Core.bump; dsimp only; split <;> rfl

/-! `Core.failN`. -/

@[simp] theorem Core.failN_outbox (c : Core) (k : Nat) : (c.failN k).outbox = c.outbox := by unfold Core.failN; split <;> rfl
@[simp] theorem Core.failN_regs (c : Core) (k : Nat) : (c.failN k).regs = c.regs := by unfold Core.failN; split <;> rfl
@[simp] theorem Core.failN_ctr (c : Core) (k : Nat) : (c.failN k).ctr = c.ctr := by unfold Core.failN; split <;> rfl
@[simp] theorem Core.failN_free (c : Core) (k : Nat) : (c.failN k).free = c.free := by unfold Core.failN; split <;> rfl
@[simp] theorem Core.failN_locks (c : Core) (k : Nat) : (c.failN k).locks = c.locks := by unfold Core.failN; split <;> rfl
@[simp] theorem Core.failN_clk (c : Core) (k : Nat) : (c.failN k).clk = c.clk := by unfold Core.failN; split <;> rfl
@[simp] theorem Core.failN_tref (c : Core) (k : Nat) : (c.failN k).tref = c.tref := by unfold Core.failN; split <;> rfl
@[simp] theorem Core.failN_blf (c : Core) (k : Nat) : (c.failN k).blf = c.blf := by unfold Core.failN; split <;> rfl
@[simp] theorem Core.failN_pow (c : Core) (k : Nat) : (c.failN k).pow = c.pow := by unfold Core.failN; split <;> rfl
@[simp] theorem Core.failN_prc (c : Core) (k : Nat) : (c.failN k).prc = c.prc := by unfold Core.failN; split <;> rfl
@[simp] theorem Core.failN_tripWord (c : Core) (k : Nat) : (c.failN k).tripWord = c.tripWord := by unfold Core.failN; split <;> rfl
@[simp] theorem Core.failN_segs (c : Core) (k : Nat) : (c.failN k).segs = c.segs := by unfold Core.failN; split <;> rfl
@[simp] theorem Core.failN_nextSeg (c : Core) (k : Nat) : (c.failN k).nextSeg = c.nextSeg := by unfold Core.failN; split <;> rfl
@[simp] theorem Core.failN_towers (c : Core) (k : Nat) : (c.failN k).towers = c.towers := by unfold Core.failN; split <;> rfl
@[simp] theorem Core.failN_ctxs (c : Core) (k : Nat) : (c.failN k).ctxs = c.ctxs := by unfold Core.failN; split <;> rfl
@[simp] theorem Core.failN_dir (c : Core) (k : Nat) : (c.failN k).dir = c.dir := by unfold Core.failN; split <;> rfl
@[simp] theorem Core.failN_gate (c : Core) (k : Nat) : (c.failN k).gate = c.gate := by unfold Core.failN; split <;> rfl
@[simp] theorem Core.failN_mem (c : Core) (k : Nat) : (c.failN k).mem = c.mem := by unfold Core.failN; split <;> rfl
@[simp] theorem Core.failN_keep (c : Core) (k : Nat) : (c.failN k).keep = c.keep := by unfold Core.failN; split <;> rfl
@[simp] theorem Core.failN_ports (c : Core) (k : Nat) : (c.failN k).ports = c.ports := by unfold Core.failN; split <;> rfl
@[simp] theorem Core.failN_links (c : Core) (k : Nat) : (c.failN k).links = c.links := by unfold Core.failN; split <;> rfl
@[simp] theorem Core.failN_xfers (c : Core) (k : Nat) : (c.failN k).xfers = c.xfers := by unfold Core.failN; split <;> rfl
@[simp] theorem Core.failN_nextXfer (c : Core) (k : Nat) : (c.failN k).nextXfer = c.nextXfer := by unfold Core.failN; split <;> rfl
@[simp] theorem Core.failN_cadence (c : Core) (k : Nat) : (c.failN k).cadence = c.cadence := by unfold Core.failN; split <;> rfl

/-! `Core.okN`. -/

@[simp] theorem Core.okN_outbox (c : Core) (k : Nat) : (c.okN k).outbox = c.outbox := rfl
@[simp] theorem Core.okN_regs (c : Core) (k : Nat) : (c.okN k).regs = c.regs := rfl
@[simp] theorem Core.okN_ctr (c : Core) (k : Nat) : (c.okN k).ctr = c.ctr := rfl
@[simp] theorem Core.okN_free (c : Core) (k : Nat) : (c.okN k).free = c.free := rfl
@[simp] theorem Core.okN_locks (c : Core) (k : Nat) : (c.okN k).locks = c.locks := rfl
@[simp] theorem Core.okN_clk (c : Core) (k : Nat) : (c.okN k).clk = c.clk := rfl
@[simp] theorem Core.okN_tref (c : Core) (k : Nat) : (c.okN k).tref = c.tref := rfl
@[simp] theorem Core.okN_blf (c : Core) (k : Nat) : (c.okN k).blf = c.blf := rfl
@[simp] theorem Core.okN_pow (c : Core) (k : Nat) : (c.okN k).pow = c.pow := rfl
@[simp] theorem Core.okN_prc (c : Core) (k : Nat) : (c.okN k).prc = c.prc := rfl
@[simp] theorem Core.okN_tripWord (c : Core) (k : Nat) : (c.okN k).tripWord = c.tripWord := rfl
@[simp] theorem Core.okN_segs (c : Core) (k : Nat) : (c.okN k).segs = c.segs := rfl
@[simp] theorem Core.okN_nextSeg (c : Core) (k : Nat) : (c.okN k).nextSeg = c.nextSeg := rfl
@[simp] theorem Core.okN_towers (c : Core) (k : Nat) : (c.okN k).towers = c.towers := rfl
@[simp] theorem Core.okN_ctxs (c : Core) (k : Nat) : (c.okN k).ctxs = c.ctxs := rfl
@[simp] theorem Core.okN_dir (c : Core) (k : Nat) : (c.okN k).dir = c.dir := rfl
@[simp] theorem Core.okN_gate (c : Core) (k : Nat) : (c.okN k).gate = c.gate := rfl
@[simp] theorem Core.okN_mem (c : Core) (k : Nat) : (c.okN k).mem = c.mem := rfl
@[simp] theorem Core.okN_keep (c : Core) (k : Nat) : (c.okN k).keep = c.keep := rfl
@[simp] theorem Core.okN_ports (c : Core) (k : Nat) : (c.okN k).ports = c.ports := rfl
@[simp] theorem Core.okN_links (c : Core) (k : Nat) : (c.okN k).links = c.links := rfl
@[simp] theorem Core.okN_xfers (c : Core) (k : Nat) : (c.okN k).xfers = c.xfers := rfl
@[simp] theorem Core.okN_nextXfer (c : Core) (k : Nat) : (c.okN k).nextXfer = c.nextXfer := rfl
@[simp] theorem Core.okN_cadence (c : Core) (k : Nat) : (c.okN k).cadence = c.cadence := rfl

/-! `Core.fire`. -/

@[simp] theorem Core.fire_outbox (c : Core) (f : FnId) (v : Nat) : (c.fire f v).outbox = c.outbox := by unfold Core.fire; dsimp only; split <;> first | rfl | (split <;> rfl)
@[simp] theorem Core.fire_regs (c : Core) (f : FnId) (v : Nat) : (c.fire f v).regs = c.regs := by unfold Core.fire; dsimp only; split <;> first | rfl | (split <;> rfl)
@[simp] theorem Core.fire_ctr (c : Core) (f : FnId) (v : Nat) : (c.fire f v).ctr = c.ctr := by unfold Core.fire; dsimp only; split <;> first | rfl | (split <;> rfl)
@[simp] theorem Core.fire_free (c : Core) (f : FnId) (v : Nat) : (c.fire f v).free = c.free := by unfold Core.fire; dsimp only; split <;> first | rfl | (split <;> rfl)
@[simp] theorem Core.fire_locks (c : Core) (f : FnId) (v : Nat) : (c.fire f v).locks = c.locks := by unfold Core.fire; dsimp only; split <;> first | rfl | (split <;> rfl)
@[simp] theorem Core.fire_clk (c : Core) (f : FnId) (v : Nat) : (c.fire f v).clk = c.clk := by unfold Core.fire; dsimp only; split <;> first | rfl | (split <;> rfl)
@[simp] theorem Core.fire_tref (c : Core) (f : FnId) (v : Nat) : (c.fire f v).tref = c.tref := by unfold Core.fire; dsimp only; split <;> first | rfl | (split <;> rfl)
@[simp] theorem Core.fire_blf (c : Core) (f : FnId) (v : Nat) : (c.fire f v).blf = c.blf := by unfold Core.fire; dsimp only; split <;> first | rfl | (split <;> rfl)
@[simp] theorem Core.fire_pow (c : Core) (f : FnId) (v : Nat) : (c.fire f v).pow = c.pow := by unfold Core.fire; dsimp only; split <;> first | rfl | (split <;> rfl)
@[simp] theorem Core.fire_prc (c : Core) (f : FnId) (v : Nat) : (c.fire f v).prc = c.prc := by unfold Core.fire; dsimp only; split <;> first | rfl | (split <;> rfl)
@[simp] theorem Core.fire_tripWord (c : Core) (f : FnId) (v : Nat) : (c.fire f v).tripWord = c.tripWord := by unfold Core.fire; dsimp only; split <;> first | rfl | (split <;> rfl)
@[simp] theorem Core.fire_segs (c : Core) (f : FnId) (v : Nat) : (c.fire f v).segs = c.segs := by unfold Core.fire; dsimp only; split <;> first | rfl | (split <;> rfl)
@[simp] theorem Core.fire_nextSeg (c : Core) (f : FnId) (v : Nat) : (c.fire f v).nextSeg = c.nextSeg := by unfold Core.fire; dsimp only; split <;> first | rfl | (split <;> rfl)
@[simp] theorem Core.fire_towers (c : Core) (f : FnId) (v : Nat) : (c.fire f v).towers = c.towers := by unfold Core.fire; dsimp only; split <;> first | rfl | (split <;> rfl)
@[simp] theorem Core.fire_ctxs (c : Core) (f : FnId) (v : Nat) : (c.fire f v).ctxs = c.ctxs := by unfold Core.fire; dsimp only; split <;> first | rfl | (split <;> rfl)
@[simp] theorem Core.fire_dir (c : Core) (f : FnId) (v : Nat) : (c.fire f v).dir = c.dir := by unfold Core.fire; dsimp only; split <;> first | rfl | (split <;> rfl)
@[simp] theorem Core.fire_gate (c : Core) (f : FnId) (v : Nat) : (c.fire f v).gate = c.gate := by unfold Core.fire; dsimp only; split <;> first | rfl | (split <;> rfl)
@[simp] theorem Core.fire_mem (c : Core) (f : FnId) (v : Nat) : (c.fire f v).mem = c.mem := by unfold Core.fire; dsimp only; split <;> first | rfl | (split <;> rfl)
@[simp] theorem Core.fire_keep (c : Core) (f : FnId) (v : Nat) : (c.fire f v).keep = c.keep := by unfold Core.fire; dsimp only; split <;> first | rfl | (split <;> rfl)
@[simp] theorem Core.fire_links (c : Core) (f : FnId) (v : Nat) : (c.fire f v).links = c.links := by unfold Core.fire; dsimp only; split <;> first | rfl | (split <;> rfl)
@[simp] theorem Core.fire_xfers (c : Core) (f : FnId) (v : Nat) : (c.fire f v).xfers = c.xfers := by unfold Core.fire; dsimp only; split <;> first | rfl | (split <;> rfl)
@[simp] theorem Core.fire_nextXfer (c : Core) (f : FnId) (v : Nat) : (c.fire f v).nextXfer = c.nextXfer := by unfold Core.fire; dsimp only; split <;> first | rfl | (split <;> rfl)
@[simp] theorem Core.fire_cadence (c : Core) (f : FnId) (v : Nat) : (c.fire f v).cadence = c.cadence := by unfold Core.fire; dsimp only; split <;> first | rfl | (split <;> rfl)

/-! `Core.dma`. -/

@[simp] theorem Core.dma_regs (c : Core) (f : FnId) (a : Nat) (bs : List Byte) : (c.dma f a bs).regs = c.regs := by unfold Core.dma; split <;> simp
@[simp] theorem Core.dma_free (c : Core) (f : FnId) (a : Nat) (bs : List Byte) : (c.dma f a bs).free = c.free := by unfold Core.dma; split <;> simp
@[simp] theorem Core.dma_locks (c : Core) (f : FnId) (a : Nat) (bs : List Byte) : (c.dma f a bs).locks = c.locks := by unfold Core.dma; split <;> simp
@[simp] theorem Core.dma_clk (c : Core) (f : FnId) (a : Nat) (bs : List Byte) : (c.dma f a bs).clk = c.clk := by unfold Core.dma; split <;> simp
@[simp] theorem Core.dma_tref (c : Core) (f : FnId) (a : Nat) (bs : List Byte) : (c.dma f a bs).tref = c.tref := by unfold Core.dma; split <;> simp
@[simp] theorem Core.dma_blf (c : Core) (f : FnId) (a : Nat) (bs : List Byte) : (c.dma f a bs).blf = c.blf := by unfold Core.dma; split <;> simp
@[simp] theorem Core.dma_pow (c : Core) (f : FnId) (a : Nat) (bs : List Byte) : (c.dma f a bs).pow = c.pow := by unfold Core.dma; split <;> simp
@[simp] theorem Core.dma_prc (c : Core) (f : FnId) (a : Nat) (bs : List Byte) : (c.dma f a bs).prc = c.prc := by unfold Core.dma; split <;> simp
@[simp] theorem Core.dma_tripWord (c : Core) (f : FnId) (a : Nat) (bs : List Byte) : (c.dma f a bs).tripWord = c.tripWord := by unfold Core.dma; split <;> simp
@[simp] theorem Core.dma_segs (c : Core) (f : FnId) (a : Nat) (bs : List Byte) : (c.dma f a bs).segs = c.segs := by unfold Core.dma; split <;> simp
@[simp] theorem Core.dma_nextSeg (c : Core) (f : FnId) (a : Nat) (bs : List Byte) : (c.dma f a bs).nextSeg = c.nextSeg := by unfold Core.dma; split <;> simp
@[simp] theorem Core.dma_towers (c : Core) (f : FnId) (a : Nat) (bs : List Byte) : (c.dma f a bs).towers = c.towers := by unfold Core.dma; split <;> simp
@[simp] theorem Core.dma_ctxs (c : Core) (f : FnId) (a : Nat) (bs : List Byte) : (c.dma f a bs).ctxs = c.ctxs := by unfold Core.dma; split <;> simp
@[simp] theorem Core.dma_dir (c : Core) (f : FnId) (a : Nat) (bs : List Byte) : (c.dma f a bs).dir = c.dir := by unfold Core.dma; split <;> simp
@[simp] theorem Core.dma_gate (c : Core) (f : FnId) (a : Nat) (bs : List Byte) : (c.dma f a bs).gate = c.gate := by unfold Core.dma; split <;> simp
@[simp] theorem Core.dma_mem (c : Core) (f : FnId) (a : Nat) (bs : List Byte) : (c.dma f a bs).mem = c.mem := by unfold Core.dma; split <;> simp
@[simp] theorem Core.dma_keep (c : Core) (f : FnId) (a : Nat) (bs : List Byte) : (c.dma f a bs).keep = c.keep := by unfold Core.dma; split <;> simp
@[simp] theorem Core.dma_ports (c : Core) (f : FnId) (a : Nat) (bs : List Byte) : (c.dma f a bs).ports = c.ports := by unfold Core.dma; split <;> simp
@[simp] theorem Core.dma_links (c : Core) (f : FnId) (a : Nat) (bs : List Byte) : (c.dma f a bs).links = c.links := by unfold Core.dma; split <;> simp
@[simp] theorem Core.dma_xfers (c : Core) (f : FnId) (a : Nat) (bs : List Byte) : (c.dma f a bs).xfers = c.xfers := by unfold Core.dma; split <;> simp
@[simp] theorem Core.dma_nextXfer (c : Core) (f : FnId) (a : Nat) (bs : List Byte) : (c.dma f a bs).nextXfer = c.nextXfer := by unfold Core.dma; split <;> simp
@[simp] theorem Core.dma_cadence (c : Core) (f : FnId) (a : Nat) (bs : List Byte) : (c.dma f a bs).cadence = c.cadence := by unfold Core.dma; split <;> simp

/-! `Core.writePost`. -/

@[simp] theorem Core.writePost_regs (c : Core) (x : Post) : (c.writePost x).regs = c.regs := by simp [Core.writePost]; split <;> split <;> simp
@[simp] theorem Core.writePost_free (c : Core) (x : Post) : (c.writePost x).free = c.free := by simp [Core.writePost]; split <;> split <;> simp
@[simp] theorem Core.writePost_locks (c : Core) (x : Post) : (c.writePost x).locks = c.locks := by simp [Core.writePost]; split <;> split <;> simp
@[simp] theorem Core.writePost_clk (c : Core) (x : Post) : (c.writePost x).clk = c.clk := by simp [Core.writePost]; split <;> split <;> simp
@[simp] theorem Core.writePost_tref (c : Core) (x : Post) : (c.writePost x).tref = c.tref := by simp [Core.writePost]; split <;> split <;> simp
@[simp] theorem Core.writePost_blf (c : Core) (x : Post) : (c.writePost x).blf = c.blf := by simp [Core.writePost]; split <;> split <;> simp
@[simp] theorem Core.writePost_pow (c : Core) (x : Post) : (c.writePost x).pow = c.pow := by simp [Core.writePost]; split <;> split <;> simp
@[simp] theorem Core.writePost_prc (c : Core) (x : Post) : (c.writePost x).prc = c.prc := by simp [Core.writePost]; split <;> split <;> simp
@[simp] theorem Core.writePost_tripWord (c : Core) (x : Post) : (c.writePost x).tripWord = c.tripWord := by simp [Core.writePost]; split <;> split <;> simp
@[simp] theorem Core.writePost_segs (c : Core) (x : Post) : (c.writePost x).segs = c.segs := by simp [Core.writePost]; split <;> split <;> simp
@[simp] theorem Core.writePost_nextSeg (c : Core) (x : Post) : (c.writePost x).nextSeg = c.nextSeg := by simp [Core.writePost]; split <;> split <;> simp
@[simp] theorem Core.writePost_towers (c : Core) (x : Post) : (c.writePost x).towers = c.towers := by simp [Core.writePost]; split <;> split <;> simp
@[simp] theorem Core.writePost_ctxs (c : Core) (x : Post) : (c.writePost x).ctxs = c.ctxs := by simp [Core.writePost]; split <;> split <;> simp
@[simp] theorem Core.writePost_dir (c : Core) (x : Post) : (c.writePost x).dir = c.dir := by simp [Core.writePost]; split <;> split <;> simp
@[simp] theorem Core.writePost_gate (c : Core) (x : Post) : (c.writePost x).gate = c.gate := by simp [Core.writePost]; split <;> split <;> simp
@[simp] theorem Core.writePost_mem (c : Core) (x : Post) : (c.writePost x).mem = c.mem := by simp [Core.writePost]; split <;> split <;> simp
@[simp] theorem Core.writePost_keep (c : Core) (x : Post) : (c.writePost x).keep = c.keep := by simp [Core.writePost]; split <;> split <;> simp
@[simp] theorem Core.writePost_links (c : Core) (x : Post) : (c.writePost x).links = c.links := by simp [Core.writePost]; split <;> split <;> simp
@[simp] theorem Core.writePost_xfers (c : Core) (x : Post) : (c.writePost x).xfers = c.xfers := by simp [Core.writePost]; split <;> split <;> simp
@[simp] theorem Core.writePost_nextXfer (c : Core) (x : Post) : (c.writePost x).nextXfer = c.nextXfer := by simp [Core.writePost]; split <;> split <;> simp
@[simp] theorem Core.writePost_cadence (c : Core) (x : Post) : (c.writePost x).cadence = c.cadence := by simp [Core.writePost]; split <;> split <;> simp

/-! `Core.post`. -/

@[simp] theorem Core.post_regs (c : Core) (x : Post) : (c.post x).regs = c.regs := by unfold Core.post; split <;> [skip; split] <;> simp
@[simp] theorem Core.post_free (c : Core) (x : Post) : (c.post x).free = c.free := by unfold Core.post; split <;> [skip; split] <;> simp
@[simp] theorem Core.post_locks (c : Core) (x : Post) : (c.post x).locks = c.locks := by unfold Core.post; split <;> [skip; split] <;> simp
@[simp] theorem Core.post_clk (c : Core) (x : Post) : (c.post x).clk = c.clk := by unfold Core.post; split <;> [skip; split] <;> simp
@[simp] theorem Core.post_tref (c : Core) (x : Post) : (c.post x).tref = c.tref := by unfold Core.post; split <;> [skip; split] <;> simp
@[simp] theorem Core.post_blf (c : Core) (x : Post) : (c.post x).blf = c.blf := by unfold Core.post; split <;> [skip; split] <;> simp
@[simp] theorem Core.post_pow (c : Core) (x : Post) : (c.post x).pow = c.pow := by unfold Core.post; split <;> [skip; split] <;> simp
@[simp] theorem Core.post_prc (c : Core) (x : Post) : (c.post x).prc = c.prc := by unfold Core.post; split <;> [skip; split] <;> simp
@[simp] theorem Core.post_tripWord (c : Core) (x : Post) : (c.post x).tripWord = c.tripWord := by unfold Core.post; split <;> [skip; split] <;> simp
@[simp] theorem Core.post_segs (c : Core) (x : Post) : (c.post x).segs = c.segs := by unfold Core.post; split <;> [skip; split] <;> simp
@[simp] theorem Core.post_nextSeg (c : Core) (x : Post) : (c.post x).nextSeg = c.nextSeg := by unfold Core.post; split <;> [skip; split] <;> simp
@[simp] theorem Core.post_towers (c : Core) (x : Post) : (c.post x).towers = c.towers := by unfold Core.post; split <;> [skip; split] <;> simp
@[simp] theorem Core.post_ctxs (c : Core) (x : Post) : (c.post x).ctxs = c.ctxs := by unfold Core.post; split <;> [skip; split] <;> simp
@[simp] theorem Core.post_dir (c : Core) (x : Post) : (c.post x).dir = c.dir := by unfold Core.post; split <;> [skip; split] <;> simp
@[simp] theorem Core.post_mem (c : Core) (x : Post) : (c.post x).mem = c.mem := by unfold Core.post; split <;> [skip; split] <;> simp
@[simp] theorem Core.post_keep (c : Core) (x : Post) : (c.post x).keep = c.keep := by unfold Core.post; split <;> [skip; split] <;> simp
@[simp] theorem Core.post_links (c : Core) (x : Post) : (c.post x).links = c.links := by unfold Core.post; split <;> [skip; split] <;> simp
@[simp] theorem Core.post_xfers (c : Core) (x : Post) : (c.post x).xfers = c.xfers := by unfold Core.post; split <;> [skip; split] <;> simp
@[simp] theorem Core.post_nextXfer (c : Core) (x : Post) : (c.post x).nextXfer = c.nextXfer := by unfold Core.post; split <;> [skip; split] <;> simp
@[simp] theorem Core.post_cadence (c : Core) (x : Post) : (c.post x).cadence = c.cadence := by unfold Core.post; split <;> [skip; split] <;> simp

/-! `Core.complete`. -/

@[simp] theorem Core.complete_regs (c : Core) (r : Req) (a b : Nat) : (c.complete r a b).regs = c.regs := by simp [Core.complete]
@[simp] theorem Core.complete_free (c : Core) (r : Req) (a b : Nat) : (c.complete r a b).free = c.free := by simp [Core.complete]
@[simp] theorem Core.complete_locks (c : Core) (r : Req) (a b : Nat) : (c.complete r a b).locks = c.locks := by simp [Core.complete]
@[simp] theorem Core.complete_clk (c : Core) (r : Req) (a b : Nat) : (c.complete r a b).clk = c.clk := by simp [Core.complete]
@[simp] theorem Core.complete_tref (c : Core) (r : Req) (a b : Nat) : (c.complete r a b).tref = c.tref := by simp [Core.complete]
@[simp] theorem Core.complete_blf (c : Core) (r : Req) (a b : Nat) : (c.complete r a b).blf = c.blf := by simp [Core.complete]
@[simp] theorem Core.complete_pow (c : Core) (r : Req) (a b : Nat) : (c.complete r a b).pow = c.pow := by simp [Core.complete]
@[simp] theorem Core.complete_prc (c : Core) (r : Req) (a b : Nat) : (c.complete r a b).prc = c.prc := by simp [Core.complete]
@[simp] theorem Core.complete_tripWord (c : Core) (r : Req) (a b : Nat) : (c.complete r a b).tripWord = c.tripWord := by simp [Core.complete]
@[simp] theorem Core.complete_segs (c : Core) (r : Req) (a b : Nat) : (c.complete r a b).segs = c.segs := by simp [Core.complete]
@[simp] theorem Core.complete_nextSeg (c : Core) (r : Req) (a b : Nat) : (c.complete r a b).nextSeg = c.nextSeg := by simp [Core.complete]
@[simp] theorem Core.complete_towers (c : Core) (r : Req) (a b : Nat) : (c.complete r a b).towers = c.towers := by simp [Core.complete]
@[simp] theorem Core.complete_ctxs (c : Core) (r : Req) (a b : Nat) : (c.complete r a b).ctxs = c.ctxs := by simp [Core.complete]
@[simp] theorem Core.complete_dir (c : Core) (r : Req) (a b : Nat) : (c.complete r a b).dir = c.dir := by simp [Core.complete]
@[simp] theorem Core.complete_mem (c : Core) (r : Req) (a b : Nat) : (c.complete r a b).mem = c.mem := by simp [Core.complete]
@[simp] theorem Core.complete_keep (c : Core) (r : Req) (a b : Nat) : (c.complete r a b).keep = c.keep := by simp [Core.complete]
@[simp] theorem Core.complete_links (c : Core) (r : Req) (a b : Nat) : (c.complete r a b).links = c.links := by simp [Core.complete]
@[simp] theorem Core.complete_xfers (c : Core) (r : Req) (a b : Nat) : (c.complete r a b).xfers = c.xfers := by simp [Core.complete]
@[simp] theorem Core.complete_nextXfer (c : Core) (r : Req) (a b : Nat) : (c.complete r a b).nextXfer = c.nextXfer := by simp [Core.complete]
@[simp] theorem Core.complete_cadence (c : Core) (r : Req) (a b : Nat) : (c.complete r a b).cadence = c.cadence := by simp [Core.complete]

/-! `Core.refuse`. -/

@[simp] theorem Core.refuse_regs (c : Core) (r : Req) (a b : Nat) : (c.refuse r a b).regs = c.regs := by simp [Core.refuse]
@[simp] theorem Core.refuse_free (c : Core) (r : Req) (a b : Nat) : (c.refuse r a b).free = c.free := by simp [Core.refuse]
@[simp] theorem Core.refuse_locks (c : Core) (r : Req) (a b : Nat) : (c.refuse r a b).locks = c.locks := by simp [Core.refuse]
@[simp] theorem Core.refuse_clk (c : Core) (r : Req) (a b : Nat) : (c.refuse r a b).clk = c.clk := by simp [Core.refuse]
@[simp] theorem Core.refuse_tref (c : Core) (r : Req) (a b : Nat) : (c.refuse r a b).tref = c.tref := by simp [Core.refuse]
@[simp] theorem Core.refuse_blf (c : Core) (r : Req) (a b : Nat) : (c.refuse r a b).blf = c.blf := by simp [Core.refuse]
@[simp] theorem Core.refuse_pow (c : Core) (r : Req) (a b : Nat) : (c.refuse r a b).pow = c.pow := by simp [Core.refuse]
@[simp] theorem Core.refuse_prc (c : Core) (r : Req) (a b : Nat) : (c.refuse r a b).prc = c.prc := by simp [Core.refuse]
@[simp] theorem Core.refuse_tripWord (c : Core) (r : Req) (a b : Nat) : (c.refuse r a b).tripWord = c.tripWord := by simp [Core.refuse]
@[simp] theorem Core.refuse_segs (c : Core) (r : Req) (a b : Nat) : (c.refuse r a b).segs = c.segs := by simp [Core.refuse]
@[simp] theorem Core.refuse_nextSeg (c : Core) (r : Req) (a b : Nat) : (c.refuse r a b).nextSeg = c.nextSeg := by simp [Core.refuse]
@[simp] theorem Core.refuse_towers (c : Core) (r : Req) (a b : Nat) : (c.refuse r a b).towers = c.towers := by simp [Core.refuse]
@[simp] theorem Core.refuse_ctxs (c : Core) (r : Req) (a b : Nat) : (c.refuse r a b).ctxs = c.ctxs := by simp [Core.refuse]
@[simp] theorem Core.refuse_dir (c : Core) (r : Req) (a b : Nat) : (c.refuse r a b).dir = c.dir := by simp [Core.refuse]
@[simp] theorem Core.refuse_mem (c : Core) (r : Req) (a b : Nat) : (c.refuse r a b).mem = c.mem := by simp [Core.refuse]
@[simp] theorem Core.refuse_keep (c : Core) (r : Req) (a b : Nat) : (c.refuse r a b).keep = c.keep := by simp [Core.refuse]
@[simp] theorem Core.refuse_links (c : Core) (r : Req) (a b : Nat) : (c.refuse r a b).links = c.links := by simp [Core.refuse]
@[simp] theorem Core.refuse_xfers (c : Core) (r : Req) (a b : Nat) : (c.refuse r a b).xfers = c.xfers := by simp [Core.refuse]
@[simp] theorem Core.refuse_nextXfer (c : Core) (r : Req) (a b : Nat) : (c.refuse r a b).nextXfer = c.nextXfer := by simp [Core.refuse]
@[simp] theorem Core.refuse_cadence (c : Core) (r : Req) (a b : Nat) : (c.refuse r a b).cadence = c.cadence := by simp [Core.refuse]

/-! Delivery. -/

@[simp] theorem State.deliver_regs (s : State) (st : Stamp) : (s.deliver st).core.regs = s.core.regs := by
  unfold State.deliver; dsimp only; split <;> split <;> simp
@[simp] theorem State.deliver_ctr (s : State) (st : Stamp) : (s.deliver st).core.ctr = s.core.ctr := by
  unfold State.deliver; dsimp only; split <;> split <;> simp
@[simp] theorem State.deliver_free (s : State) (st : Stamp) : (s.deliver st).core.free = s.core.free := by
  unfold State.deliver; dsimp only; split <;> split <;> simp
@[simp] theorem State.deliver_locks (s : State) (st : Stamp) : (s.deliver st).core.locks = s.core.locks := by
  unfold State.deliver; dsimp only; split <;> split <;> simp
@[simp] theorem State.deliver_clk (s : State) (st : Stamp) : (s.deliver st).core.clk = s.core.clk := by
  unfold State.deliver; dsimp only; split <;> split <;> simp
@[simp] theorem State.deliver_tref (s : State) (st : Stamp) : (s.deliver st).core.tref = s.core.tref := by
  unfold State.deliver; dsimp only; split <;> split <;> simp
@[simp] theorem State.deliver_blf (s : State) (st : Stamp) : (s.deliver st).core.blf = s.core.blf := by
  unfold State.deliver; dsimp only; split <;> split <;> simp
@[simp] theorem State.deliver_pow (s : State) (st : Stamp) : (s.deliver st).core.pow = s.core.pow := by
  unfold State.deliver; dsimp only; split <;> split <;> simp
@[simp] theorem State.deliver_prc (s : State) (st : Stamp) : (s.deliver st).core.prc = s.core.prc := by
  unfold State.deliver; dsimp only; split <;> split <;> simp
@[simp] theorem State.deliver_tripWord (s : State) (st : Stamp) : (s.deliver st).core.tripWord = s.core.tripWord := by
  unfold State.deliver; dsimp only; split <;> split <;> simp
@[simp] theorem State.deliver_segs (s : State) (st : Stamp) : (s.deliver st).core.segs = s.core.segs := by
  unfold State.deliver; dsimp only; split <;> split <;> simp
@[simp] theorem State.deliver_nextSeg (s : State) (st : Stamp) : (s.deliver st).core.nextSeg = s.core.nextSeg := by
  unfold State.deliver; dsimp only; split <;> split <;> simp
@[simp] theorem State.deliver_towers (s : State) (st : Stamp) : (s.deliver st).core.towers = s.core.towers := by
  unfold State.deliver; dsimp only; split <;> split <;> simp
@[simp] theorem State.deliver_ctxs (s : State) (st : Stamp) : (s.deliver st).core.ctxs = s.core.ctxs := by
  unfold State.deliver; dsimp only; split <;> split <;> simp
@[simp] theorem State.deliver_dir (s : State) (st : Stamp) : (s.deliver st).core.dir = s.core.dir := by
  unfold State.deliver; dsimp only; split <;> split <;> simp
@[simp] theorem State.deliver_gate (s : State) (st : Stamp) : (s.deliver st).core.gate = s.core.gate := by
  unfold State.deliver; dsimp only; split <;> split <;> simp
@[simp] theorem State.deliver_mem (s : State) (st : Stamp) : (s.deliver st).core.mem = s.core.mem := by
  unfold State.deliver; dsimp only; split <;> split <;> simp
@[simp] theorem State.deliver_keep (s : State) (st : Stamp) : (s.deliver st).core.keep = s.core.keep := by
  unfold State.deliver; dsimp only; split <;> split <;> simp
@[simp] theorem State.deliver_links (s : State) (st : Stamp) : (s.deliver st).core.links = s.core.links := by
  unfold State.deliver; dsimp only; split <;> split <;> simp
@[simp] theorem State.deliver_xfers (s : State) (st : Stamp) : (s.deliver st).core.xfers = s.core.xfers := by
  unfold State.deliver; dsimp only; split <;> split <;> simp
@[simp] theorem State.deliver_nextXfer (s : State) (st : Stamp) : (s.deliver st).core.nextXfer = s.core.nextXfer := by
  unfold State.deliver; dsimp only; split <;> split <;> simp
@[simp] theorem State.deliver_cadence (s : State) (st : Stamp) : (s.deliver st).core.cadence = s.core.cadence := by
  unfold State.deliver; dsimp only; split <;> split <;> simp
@[simp] theorem State.deliver_trim (s : State) (st : Stamp) : (s.deliver st).trim = s.trim := rfl
@[simp] theorem State.deliver_dram (s : State) (st : Stamp) : (s.deliver st).dram = s.dram := rfl
@[simp] theorem State.deliver_pending (s : State) (st : Stamp) : (s.deliver st).pending = s.pending := rfl
@[simp] theorem State.deliver_evr (s : State) (st : Stamp) : (s.deliver st).evr = (s.evr.takeAll st s.core.outbox).1 := rfl
@[simp] theorem State.deliver_outbox (s : State) (st : Stamp) : (s.deliver st).core.outbox = [] := by
  unfold State.deliver; dsimp only; split <;> split <;> simp

/-! `State.after`. -/

@[simp] theorem State.after_regs (s : State) (c : Core) : (s.after c).core.regs = c.regs := by simp [State.after]
@[simp] theorem State.after_ctr (s : State) (c : Core) : (s.after c).core.ctr = c.ctr := by simp [State.after]
@[simp] theorem State.after_free (s : State) (c : Core) : (s.after c).core.free = c.free := by simp [State.after]
@[simp] theorem State.after_locks (s : State) (c : Core) : (s.after c).core.locks = c.locks := by simp [State.after]
@[simp] theorem State.after_clk (s : State) (c : Core) : (s.after c).core.clk = c.clk := by simp [State.after]
@[simp] theorem State.after_tref (s : State) (c : Core) : (s.after c).core.tref = c.tref := by simp [State.after]
@[simp] theorem State.after_blf (s : State) (c : Core) : (s.after c).core.blf = c.blf := by simp [State.after]
@[simp] theorem State.after_pow (s : State) (c : Core) : (s.after c).core.pow = c.pow := by simp [State.after]
@[simp] theorem State.after_prc (s : State) (c : Core) : (s.after c).core.prc = c.prc := by simp [State.after]
@[simp] theorem State.after_tripWord (s : State) (c : Core) : (s.after c).core.tripWord = c.tripWord := by simp [State.after]
@[simp] theorem State.after_segs (s : State) (c : Core) : (s.after c).core.segs = c.segs := by simp [State.after]
@[simp] theorem State.after_nextSeg (s : State) (c : Core) : (s.after c).core.nextSeg = c.nextSeg := by simp [State.after]
@[simp] theorem State.after_towers (s : State) (c : Core) : (s.after c).core.towers = c.towers := by simp [State.after]
@[simp] theorem State.after_ctxs (s : State) (c : Core) : (s.after c).core.ctxs = c.ctxs := by simp [State.after]
@[simp] theorem State.after_dir (s : State) (c : Core) : (s.after c).core.dir = c.dir := by simp [State.after]
@[simp] theorem State.after_gate (s : State) (c : Core) : (s.after c).core.gate = c.gate := by simp [State.after]
@[simp] theorem State.after_mem (s : State) (c : Core) : (s.after c).core.mem = c.mem := by simp [State.after]
@[simp] theorem State.after_keep (s : State) (c : Core) : (s.after c).core.keep = c.keep := by simp [State.after]
@[simp] theorem State.after_links (s : State) (c : Core) : (s.after c).core.links = c.links := by simp [State.after]
@[simp] theorem State.after_xfers (s : State) (c : Core) : (s.after c).core.xfers = c.xfers := by simp [State.after]
@[simp] theorem State.after_nextXfer (s : State) (c : Core) : (s.after c).core.nextXfer = c.nextXfer := by simp [State.after]
@[simp] theorem State.after_cadence (s : State) (c : Core) : (s.after c).core.cadence = c.cadence := by simp [State.after]
@[simp] theorem State.after_trim (s : State) (c : Core) : (s.after c).trim = s.trim := rfl
@[simp] theorem State.after_dram (s : State) (c : Core) : (s.after c).dram = s.dram := rfl
@[simp] theorem State.after_pending (s : State) (c : Core) : (s.after c).pending = s.pending := rfl
@[simp] theorem State.after_evr (s : State) (c : Core) : (s.after c).evr = (s.evr.takeAll s.core.stamp c.outbox).1 := rfl
@[simp] theorem State.after_outbox (s : State) (c : Core) : (s.after c).core.outbox = [] := by simp [State.after]

/-- A meaning on the die answers the state after it. -/
theorem State.act_next (s : State) (f : Core → Core) : s.act f = .next (s.after (f s.core)) := rfl

/-- The same for a meaning that reads the trim. -/
theorem State.actT_next (s : State) (f : Trim → Core → Core) : s.actT f = .next (s.after (f s.trim s.core)) := rfl

/-- The same for a meaning that acts on external memory as well. -/
theorem State.actM_next (s : State) (f : Core → Dram → Core × Dram) :
    s.actM f = .next (s.afterM (f s.core s.dram).1 (f s.core s.dram).2) := rfl

/-- The same for a meaning that acts on the recorder as well. -/
theorem State.actE_next (s : State) (f : Trim → Core → Evr → Core × Evr) :
    s.actE f = .next (s.afterE (f s.trim s.core s.evr).1 (f s.trim s.core s.evr).2) := rfl

end Sys2Proof.Machine
end

