-- ==== Sys2Proof/Tests/Slice0.lean ====
section
/-! SUPPORT. Small tests of single commands on the module powered and READY; the commands that are not well formed; and for each
statement with hypotheses a state and operands that meet them, one set of operands for each clause. -/

namespace Sys2Proof.Tests

open Sys2Proof.Machine

/- One theorem after another: the kernel evaluations are long, and side by side they hold one stack each. -/
set_option Elab.async false

/-! Helpers. -/

/-- A change of the die. -/
def on (f : Core → Core) (s : State) : State := { s with core := f s.core }

/-- The module powered, booted and READY, in the operating band, at nominal beat 64. -/
def live : State :=
  on (fun c => { c with
    prc := { c.prc with powered := true, pwrgd := true, band := 2, vin := 5000, energy := 3100 }
    gate := { c.gate with ready := true, run := List.replicate 4 true }
    keep := { c.keep with bootStage := 4, open_ := true }
    clk := { c.clk with total := 64, nominal := 64 }, out := ⟨[], [], []⟩ }) State.reset

/-- The state a command answers; itself for a command that answers none. -/
def State.go (i : Instr) (s : State) : State :=
  match exec i s with
  | .next t => t
  | _ => s

/-- The administration PF, and a function that is not. -/
def pf : FnId := ⟨0, 0⟩
def vf : FnId := ⟨0, 1⟩

/-- A request of the administration PF on no stream. -/
def pfReq : HostReq := ⟨pf, none⟩

/-- Little-endian fields in order: (bytes, value). -/
def fields (fs : List (Nat × Nat)) : List Byte := fs.flatMap (fun f => if f.2 = 0 then List.replicate f.1 0 else leBytes f.1 f.2)

/-! Commands that are not well formed. -/

theorem test_wf_function : Instr.wf (.lock ⟨2, 0⟩ 0) = false := by decide
theorem test_wf_access : Instr.wf (.registerWrite pfReq 1 0 8 0) = false ∧ Instr.wf (.registerWrite pfReq 0 0 1 256) = false := by decide
theorem test_wf_transport : Instr.wf (.getVersion (.doe ⟨0, 64⟩)) = false := by decide
theorem test_wf_host_command : Instr.wf (.submitSegment ⟨pf, 0, List.replicate 63 0, none, .clean⟩) = false := by decide
theorem test_wf_frame : Instr.wf (.linkCtl 0 ⟨256, false, true, 0, 0, 0, 0, 0, 0, 0, [], true⟩) = false := by decide
theorem test_wf_tower : Instr.wf (.nop 64) = false := by decide
theorem test_wf_queue : Instr.wf (.writeAccepted 0 16) = false := by decide
theorem test_wf_context : Instr.wf (.release 256) = false := by decide
theorem test_wf_link : Instr.wf (.linkDown 36) = false := by decide
theorem test_wf_channel : Instr.wf (.refresh 128) = false := by decide
theorem test_wf_descriptor : Instr.wf (.writebackDone 16384) = false := by decide
theorem test_wf_slot : Instr.wf (.zeroization 4160) = false := by decide
theorem test_wf_region : Instr.wf (.droop 16 0) = false := by decide
theorem test_wf_port : Instr.wf (.perst 2) = false := by decide
theorem test_wf_pair : Instr.wf (.qEnableSet pfReq 64) = false := by decide
theorem test_wf_unit : Instr.wf (.retireBroadcast 0 (.memory 16)) = false ∧ Instr.wf (.retireBroadcast 0 (.link 36)) = false := by decide
theorem test_wf_session : Instr.wf (.keyInstall ⟨.doe ⟨2, 0⟩, 0, []⟩) = false := by decide
theorem test_wf_numbers : ([.coreHalt 4, .cadencePulse 3 true, .tier0Copy 0 2 0, .memLineRead 16643 0 0 0 0 .clean,
    .memLineWrite 0 0 64 0 0 0, .refreshForced 0 16, .pkgTempChange 16 0, .memoryInitDone 0 256, .getCertificate .mctp 8,
    .hstSqTail pfReq 0 4096, .msixUnmask pfReq 64, .baseLoadDone 2 none, .ideKm pf 256 0 true, .pcieLinkTrained 0 0 1,
    .pcieLinkTrained 0 1 17, .vfEnableChange 0 64, .linkTrained 0 3, .kepLogSel pf 4096, .bootStage 0, .bootStage 5, .orderlyStop 3,
    .regionFence 0 0 0, .regionFence 0 4 0, .evrTime pf ⟨0, 4, 2 ^ 32⟩, .hstCqHead ⟨pf, some 256⟩ 0 0] : List Instr).all (fun i => !i.wf) = true := by decide

/-! The machine. -/

theorem witness_IdleBeat : live.pending = [] ∧ live.core.prc.powered = true ∧
    State.reset.pending = [] ∧ State.reset.core.prc.powered = false := by decide +kernel

theorem witness_RecorderBounded : State.reset.evr.ok ∧ ∃ t, step State.reset = .next t :=
  ⟨⟨by decide +kernel, by decide +kernel, by decide +kernel⟩, _, rfl⟩

theorem witness_RecordsKept : (∃ t, exec .tier0Reclaim live = .next t) ∧ Instr.losesPower .tier0Reclaim = false ∧
    ∀ f, Instr.tier0Reclaim ≠ .evrClear f := ⟨⟨_, rfl⟩, rfl, fun _ h => nomatch h⟩

theorem witness_DramCanonical : State.reset.dram.wf = true ∧ ∃ t, step State.reset = .next t := ⟨rfl, _, rfl⟩

theorem witness_StateFormed : State.reset.formed ∧ ∃ t, step State.reset = .next t := ⟨by unfold State.formed; decide +kernel, _, rfl⟩

theorem witness_FrameClocksAndSupply : (∃ t, exec .tier0Reclaim live = .next t) ∧
    (let i := Instr.tier0Reclaim; i.movesClocks = false ∧ i.movesBelfry = false ∧ i.movesCadence = false ∧ i.movesEnvelope = false ∧
      i.movesSupply = false ∧ i.movesRegisters = false ∧ i.movesLocks = false ∧ i.movesCounters = false ∧ i.movesRecorder = false) :=
  ⟨⟨_, rfl⟩, by decide⟩

theorem witness_FrameTowersAndSegments : (∃ t, exec (.refresh 0) live = .next t) ∧
    (let i := Instr.refresh 0; i.movesTowers = false ∧ i.movesSegments = false ∧ i.movesContexts = false ∧ i.movesDirectory = false ∧
      i.movesGatehouse = false) := ⟨⟨_, rfl⟩, by decide⟩

theorem witness_FrameMemoryKeepAndLinks : (∃ t, exec .tier0Reclaim live = .next t) ∧
    (let i := Instr.tier0Reclaim; i.movesMemory = false ∧ i.movesDram = false ∧ i.movesKeep = false ∧ i.movesLinks = false ∧
      i.movesTransfers = false ∧ i.movesFunctions = false) ∧ ∀ p ∈ live.core.ports, p.fns.rising = true :=
  ⟨⟨_, rfl⟩, by decide, by decide +kernel⟩

theorem witness_AdministrationOnly : Instr.adminOnly (.cold vf) = true ∧ Instr.sender (.cold vf) = some vf ∧ vf ≠ live.trim.admin := by
  decide +kernel

/-! Registers. -/

/-- TIER1 (0x410): all its fields are RWL; a write with HIGH_WATER not above LOW_WATER is dropped. -/
theorem witness_RegisterWriteStores : (8 = 4 ∨ 8 = 8) ∧ 0x410 % 8 = 0 ∧ regRow 0x410 = some ⟨0, fieldMask 0 48⟩ ∧
    (let m (off size : Nat) := fieldMask 0 48 &&& lanes off size
     let new (off size v : Nat) := mergeBits (m off size) (live.core.reg 0x410) (placed off size v)
     m 0x410 8 ≠ 0 ∧ live.core.regOk 0x410 (live.core.reg 0x410) 0x1000200010 (new 0x410 8 0x1000200010) = true ∧
     live.core.regOk 0x410 (live.core.reg 0x410) 0x1000100010 (new 0x410 8 0x1000100010) = false ∧ m 0x414 4 ≠ 0) ∧
    live.core.regs.rising = true := by decide +kernel

/-- VF 0 with its TDI in RUN, on stream 5. -/
def bound : State :=
  on (fun c => { c with ports := [{ Port.reset with fns := [(1, { HostFn.reset false with enable := true, tdi := .run, stream := some 5 })] },
    Port.reset] }) live

theorem witness_BlockControls : accessOk 0x410 1 = false ∧ accessOk 0x411 4 = false ∧
    lockable 0x10_0000 = true ∧ (∀ x ∈ live.core.locks, x.1 ≠ 0x10_0000) ∧ live.core.ownStream vf none = true ∧
    bound.core.ownStream vf (some 6) = false ∧ bound.core.ownStream vf (some 5) = true ∧ bound.core.bar2 vf = true ∧ clearable 0x20_0000 = true ∧ clearable 0x40_0000 = true ∧
    live.quiet ∧ live.core.ctr.rising = true ∧ isCounter 0x440 = true ∧ (live.core.ctr.get .zero 0x440).ovf = false ∧
    0 + (2 ^ 48 - 2) < 2 ^ 48 - 1 ∧ 2 ^ 48 - 1 ≤ 0 + (2 ^ 48 - 1) ∧
    ((on (fun c => { c with ctr := [(0x440, ⟨2 ^ 48 - 1, true, 0, 1⟩)] }) live).core.ctr.get .zero 0x440).ovf = true ∧
    (let s := on (fun c => { c with clk := { c.clk with nominal := 9 }, ctr := [(0x20_0038, ⟨7, false, 4, 2⟩), (0x20_0040, ⟨7, false, 9, 2⟩)] }) live
     (s.core.ctr.get .zero 0x20_0038).beat ≠ s.core.clk.nominal ∧ (s.core.ctr.get .zero 0x20_0040).beat = s.core.clk.nominal ∧
     (blockAt 0x20_0038).2.1 = 0x20_0000 ∧ (blockAt 0x20_0040).2.1 = 0x20_0000 ∧ s.evr.filtered.beat ≠ s.core.clk.nominal) := by
  unfold State.quiet; decide +kernel

/-! Time. -/

/-- Source 0 first, nominal period 1 µs (1,250 nominal beats), in a reference state. -/
def timed (st : TrefSt) (took : Nat) : State :=
  on (fun c => { c with
    regs := [(offTref, 0x10000 + 0x24)], blf := { c.blf with run := true }
    clk := { c.clk with nominal := 10000 }
    tref := { c.tref with st := st, active := 0, lastPulse := 10000 - took, train := 10000 - took, period := 1250 } }) live

theorem witness_CadencePulses : (timed .search 0).core.edgeOk 0 true = true ∧ 0 ∈ (timed .search 0).core.sourceOrder ∧
    0 ∈ (timed .freeRun 0).core.sourceOrder ∧
    (timed .locking 1250).core.tref.st = .locking ∧ (timed .locking 1250).core.tref.active = 0 ∧
    (let p := (timed .locked 1250).core.period
     p * 99 ≤ 1238 * 100 ∧ 1262 * 100 ≤ p * 101 ∧ 1237 * 100 < p * 99 ∧ p * 101 < 1263 * 100) := by decide +kernel

theorem witness_PulsesAndWraps :
    ([TrefSt.freeRun, .search, .locking].all (fun st => (timed st 1250).core.tref.st = st &&
      decide ((timed st 1250).core.tref.train + (timed st 1250).core.trainPeriod ≤ (timed st 1250).core.clk.nominal)) = true) ∧
    (3 * (timed .locked 1876).core.period < 1876 * 2) ∧
    (on (fun c => { c with clk := { c.clk with total := 2 ^ 64 } }) live).core.blf.wraps < 2 ^ 64 / 2 ^ 64 ∧
    2 ^ 40 ≤ (on (fun c => { c with blf := { c.blf with pulses := 2 ^ 40 } }) live).core.blf.pulses ∧
    (let s := on (fun c => { c with clk := { c.clk with cal := 10 * 2 ^ 64 } }) live
     10 * 2 ^ 64 ≤ s.core.clk.calNow ∧ s.core.clk.cal < 20 * 2 ^ 64 ∧ s.quiet) ∧
    ((2 ^ 64 - 1 : Nat) < 2 ^ 64) := by unfold State.quiet; decide +kernel

/-- At beat 65,536 with code `a` applied since the reset and request `r` of the PRC. -/
def stretched (a r : Nat) : State :=
  on (fun c => { c with clk := { c.clk with total := 65536 }, blf := { c.blf with applied := a, reqOverdraw := r } }) live

theorem witness_BelfryRuns :
    (let c := (stretched 0 3).core
     c.clk.total % 32 = 0 ∧ c.blf.hold = 0 ∧ c.blf.applied < c.request ∧ c.request ≤ 5) ∧
    (let c := (stretched 3 0).core
     c.request < c.blf.applied ∧ c.blf.lastClear + 65536 ≤ c.clk.total ∧ c.blf.lastStep + 65536 ≤ c.clk.total ∧
     c.fits c.loads (factorEighths (c.blf.applied - 1)) = true) ∧
    (let c := (on (fun c => { c with pow := { c.pow with envPower := 0 } }) (stretched 3 0)).core
     c.fits c.loads (factorEighths (c.blf.applied - 1)) = false) ∧
    (let c := live.core
     c.blf.run = false ∧ ¬(c.tref.st = .locked ∨ bit (c.reg offTref) 7 = true) ∧ c.blf.segAdmit = false ∧ c.pow.apply = false) ∧
    (timed .locked 0).core.pow.apply = false ∧ (timed .locked 0).core.tref.st = .locked ∧
    (on (fun c => { c with pow := { c.pow with apply := true } }) (timed .locked 0)).core.pow.apply = true ∧
    (timed .locked 0).core.blf.run = true ∧ (∃ t ∈ (timed .locked 0).core.towers, t.fenced = false) ∧
    (∀ t ∈ (on (fun c => { c with towers := c.towers.map (fun t => { t with fenced := true }) }) (timed .locked 0)).core.towers,
      t.fenced = true) := by decide +kernel

/-! The event recorder. -/

/-- An event that waits to be written. -/
def waiting : EvRecord := ⟨0, 0, ⟨0x0311, 0xFFFF, 0, 1, 0, 0xFFFF, 0⟩, 2, 60⟩

/-- The recorder with one event queued and `n` records written. -/
def recorded (n : Nat) : State :=
  { live with evr := { live.evr with queue := [waiting], records := List.replicate n waiting, full := n == 65536 } }

theorem witness_RecorderRuns : (recorded 3).quiet ∧ (recorded 3).evr.ok ∧ (recorded 3).evr.queue = [waiting] ∧
    (recorded 3).evr.records.length < 65535 ∧ (recorded 65535).evr.ok ∧ (recorded 65535).evr.records.length = 65535 ∧
    (recorded 65536).evr.ok ∧ (recorded 65536).evr.full = true ∧ (recorded 65536).evr.lost.ovf = false ∧
    (recorded 65536).evr.lost.count + 1 < 2 ^ 48 - 1 ∧ (recorded 65536).evr.buckets.rising = true := by
  have h (n : Nat) : (recorded n).evr.records.length = n := List.length_replicate
  have ok (n : Nat) (hn : n ≤ 65536) : (recorded n).evr.ok :=
    ⟨(h n).symm ▸ hn, (by decide : 1 ≤ 1024), by rw [h]; exact beq_iff_eq⟩
  exact ⟨rfl, ok 3 (by decide), rfl, by rw [h]; decide, ok 65535 (by decide), h _, ok 65536 (by decide), rfl, rfl, by decide, rfl⟩

/-- A bucket of 0x0311 (16 tokens a second) that misses two tokens since beat 0, and time enough for one. -/
def emptied : State :=
  { on (fun c => { c with clk := { c.clk with nominal := 78_125_000 } }) live with evr := { live.evr with buckets := [(0x0311, ⟨2, 1, 0, 0⟩)] } }

/-- The recorder with its time set. -/
def dated : State := { live with evr := { live.evr with timeSet := true } }

theorem witness_RecorderRuns_control :
    (let r := emptied.evr.rate 0x0311 % 2 ^ 16
     let b := emptied.evr.buckets.get .full 0x0311
     emptied.quiet ∧ emptied.evr.buckets.rising = true ∧ r ≠ 0 ∧ b.missing ≠ 0 ∧
     1_250_000_000 * (b.added + 1) ≤ (emptied.core.clk.nominal - b.since) * r) ∧
    emptied.evr.lost.beat ≠ emptied.core.clk.nominal ∧
    (let s := { emptied with evr := { emptied.evr with lost := ⟨3, false, 78_125_000, 1⟩ } }
     s.evr.lost.beat = s.core.clk.nominal ∧ s.evr.lost.part < 2 ^ 48 - 1) ∧
    live.evr.enable = false ∧ live.evr.timeSet = false ∧ dated.evr.enable = false ∧ dated.evr.timeSet = true ∧
    (∀ w ∈ dated.evr.filters, w.2 < 2 ^ 50) ∧ bit dated.evr.irq 8 = false ∧
    ({ dated with evr := { dated.evr with enable := true } } : State).evr.enable = true := by unfold State.quiet; decide +kernel

/-! Segments.  The image: tower 0 alone, one member (context 5, adaptation 7, slot 9), its program's bundles and descriptors. -/

/-- A segment image: FLAGS, length in beats, barrier words, bundles, descriptors; energy and plan of one window. -/
def picture (flags len : Nat) (bars bs ds : List Nat) : List Byte :=
  let n := 0x3E8 + 32 * bs.length + 64 * ds.length
  fields ([(4, 0x5A56_4953), (2, 1), (2, 0x100), (8, n), (8, len), (8, 1), (16, 0), (4, flags), (1, 0xFF), (1, 0), (2, 1), (4, bars.length),
      (4, 0), (4, 1), (4, 1), (8, 0x100), (8, n), (8, 0x108), (8, 0x2E0), (8, 0x118), (8, 0x120), (136, 0),
      (8, 5 + 7 * 2 ^ 16 + 9 * 2 ^ 32)] ++ ((bars ++ [0, 0]).take 2).map (fun w => (8, w)) ++
    [(8, 1 + 10 * 2 ^ 32), (8, 0), (8, bs.length + ds.length * 2 ^ 32), (8, 0x3E8), (8, 0x3E8 + 32 * bs.length), (8, 0x160), (8, 0x1E0), (16, 0),
      (384, 0), (4, 1), (260, 0)] ++ bs.map (fun w => (32, w)) ++ ds.map (fun d => (64, d)))

/-- The request of a segment: the administration PF's pair 0. -/
def req : Req := ⟨pf, 0, 0, 77, 0, 0⟩

def seg (raw : List Byte) (st : SegSt) : Seg :=
  { id := 1, ctx := 5, req := req, raw := raw, stepEnd := false, resupport := false, st := st, parkCp := none, parkNominal := 0, overAt := none
    granted := false, steps := [], pooled := 0, pinned := [], latches := [⟨0, 0, List.replicate 16 0, ⟨0, 0, 0, false⟩, false, [⟨0, 1, 0, []⟩]⟩], chain := [], rules := []
    own := ⟨0, 0, 0, false⟩, start := 0, startNominal := 0, saved := [], saveAt := 0, used := [], contention := 0
    out := .none_, elapsed := 0, stall := 0, wait := 0, slip := 0
    endTime := 0, endCp := 0, energy := 0, due := 0, left := [], committed := 0, heldCount := 0, status := 0 }

/-- Context 5 with its FLAGS: key slot 9, of the administration PF, adaptation 7, one Dome unit. -/
def ctx (flags : Nat) : Ctx :=
  { enable := true, raw := fields [(4, flags), (4, 9), (4, 7 + 2 ^ 16), (116, 0)], commit := .zero, record := .idle, later := [], prog := [], running := none, chain := []
    rules := [], groups := [⟨0, 1, 0, []⟩], sched := [], endMode := 0, loopRow := 0, hashes := [], allowed := [], dome := [], transient := false
    poisoned := false, starts := false }

/-- Adaptation 7: RESIDENT in training form, key slot 9, one page of a two-page run, tier-2 source in host memory. -/
def desc : Desc :=
  { Desc.free with st := .resident, training := true, keySlot := 9, gen := 1, pages := 1, slots := 1, tpn := 0x1000, tier2 := 2 }

/-- The module with one segment `x`, tower 0 at `t`, context 5 and adaptation 7 there, slot 9 ACTIVE, and room on pair 0. -/
def seated (x : Seg) (t : Tower) : State :=
  on (fun c => { c with
    segs := [x], nextSeg := 2, towers := c.towers.set 0 t, ctxs := [(5, ctx 0)], dir := [(7, desc)]
    keep := { c.keep with slots := [(9, { KeySlot.reset with st := .active, gen := 1 })] }
    ports := [{ Port.reset with fns := [(0, { HostFn.reset true with pairs := [(0, { Pair.reset with
      st := .running, cfg := 1 + 4 * 2 + 4 * 32, sqBase := 0x10000, cqBase := 0x20000, sqTail := 1, taken := 1, phase := true })] })] }, Port.reset] }) live

/-- A bundle of END, and the smallest image: two beats, END in the second. -/
def endWord : Nat := 1 + 3 * 2 ^ 16
def small (flags : Nat) : List Byte := picture flags 2 [] [endWord] []

/-- A segment handed over with segments admitted or not, its image's hash in its context's list. -/
def judged (ok : Bool) (flags : Nat) : State :=
  on (fun c => { c with blf := { c.blf with segAdmit := ok }, ctxs := [(5, { ctx 2 with hashes := [(0, Config.sha384 (small flags))] })] })
    (seated (seg (small flags) .handed) (.reset 0))

theorem admits (c : Core) (x : Seg) (v : Ctx) (h1 : c.blf.segAdmit = true) (h2 : c.ctx? x.ctx = some v)
    (h3 : v.hashes.any (fun h => h.2 = Config.sha384 x.raw) = true)
    (h4 : checkImage x.raw x.raw.length v.heritage v.chain = 0 ∧
      (let im := x.img
       (towersOf im.towerSet).any (fun t => (c.tower t).fenced || (c.prc.regions.getD (t / 4) .reset).fenced) = false ∧
       (atOrAfter im.deadline im.earliest && near im.deadline c.cp && near im.earliest c.cp) = true ∧ planOk im = true ∧
       c.profileOk im = true) ∧
      ¬(c.segs.filter (fun y => y.st = .queued || y.st = .running || y.st = .swapped)).length ≥ 1024) : c.admitCode x = (0, 0) := by
  obtain ⟨h4, ⟨h5, h6, h7, h8⟩, h9⟩ := h4
  simp only [Core.admitCode, h1, h2, Option.map_some, Option.getD_some, h3, h4, h5, h6, h7, h8, h9]
  rfl

theorem judged_passes (flags : Nat) (h : flags = 0 ∨ flags = 4) : (judged true flags).core.admitCode (seg (small flags) .handed) = (0, 0) := by
  refine admits _ _ { ctx 2 with hashes := [(0, Config.sha384 (small flags))] } rfl rfl (by simp [seg]) ?_
  rcases h with rfl | rfl <;> decide +kernel

theorem witness_SegmentsAdmitted :
    (let c := (judged false 0).core
     c.segs.find? (fun y => y.st = .handed) = some (seg (small 0) .handed) ∧ c.blf.stopped = false ∧
     ¬(c.keep.fwState = 2 ∧ c.keep.fwKind = 4) ∧ c.admitCode (seg (small 0) .handed) = (0x0309, 0) ∧ c.answers req) ∧
    (judged true 0).core.admitCode (seg (small 0) .handed) = (0, 0) ∧ (seg (small 0) .handed).img.training = false ∧
    (judged true 4).core.admitCode (seg (small 4) .handed) = (0, 0) ∧ (seg (small 4) .handed).img.training = true :=
  ⟨⟨rfl, rfl, by decide +kernel, by decide +kernel, by unfold Core.answers; decide +kernel⟩, judged_passes 0 (.inl rfl), by decide +kernel,
    judged_passes 4 (.inr rfl), by decide +kernel⟩

theorem witness_SegmentsWaitAndExpire :
    (let c := (seated (seg (small 0) .waiting) (.reset 0)).core
     c.coreUp 3 = true ∧ c.handCode (seg (small 0) .waiting) = 0 ∧ c.segs.find? (fun y => y.st = .waiting && decide (c.poolUsed + c.unitsFor y.raw.length ≤ 1120)
       && c.segs.all (fun z => !(z.ctx = y.ctx && (z.st = .parked || z.st = .waiting) && decide (z.id < y.id)))) = some (seg (small 0) .waiting)) ∧
    (let c := (on (fun c => { c with blf := { c.blf with pulses := 1 } }) (seated (seg (small 1) .queued) (.reset 0))).core
     c.segs.find? (fun y => y.st = .queued && y.img.dropLate && decide (overrun c.cp y.img.deadline ≠ 0)) =
       some (seg (small 1) .queued) ∧ c.answers req) ∧
    live.core.gate.halted.getD 3 true = false ∧
    (let x := { seg (small 0) .parked with overAt := some 63 }
     let c := (seated x (.reset 0)).core
     c.coreUp 2 = true ∧ c.segs.find? (fun y => y.st = .parked && !y.granted &&
       (y.overAt.elim false (fun b => decide (b < c.clk.total)))) = some x ∧ c.answers req) := by
  unfold Core.answers
  decide +kernel

/-- A tower that passed its self-test. -/
def tested : Tower := { Tower.reset 0 with testDone := true, testPass := true }

/-- The Belfry releasing at the first beat of a window. -/
def releasing (x : Seg) : State := on (fun c => { c with blf := { c.blf with run := true } }) (seated x tested)

/-- The segment of the small image swapped out, tower 0's registers saved at bundle 1. -/
def swappedSeg : Seg := { seg (small 0) .swapped with saved := [(0, { tested with pc := 1, loops := [⟨0, 2, 1⟩] })] }

theorem witness_SegmentsReleased :
    (let c := (releasing (seg (small 0) .queued)).core
     c.nextRelease c.byDefault = some (seg (small 0) .queued, [(0, 0)]) ∧
     (0 ∈ towersOf (seg (small 0) .queued).img.towerSet ∧ 0 < c.towers.length ∧ ((seg (small 0) .queued).img.prog 0).isSome = true ∧
       1 ∉ towersOf (seg (small 0) .queued).img.towerSet)) ∧
    (let c := (releasing swappedSeg).core
     c.nextRelease c.byDefault = some (swappedSeg, [(0, 0)]) ∧
     swappedSeg.saved.find? (fun z => z.1 = 0) = some (0, { tested with pc := 1, loops := [⟨0, 2, 1⟩] })) := by
  decide +kernel

/-- A tower that has issued its segment's last bundle. -/
def doneTower : Tower := { tested with st := .running, seg := some 1, ctx := 5, done := true, doneAt := 63 }

/-- A TRAINING segment that closes its context's step. -/
def closing : Seg := { seg (small 4) .running with stepEnd := true, steps := [5] }

theorem witness_SegmentsEnd :
    (let c := (seated (seg (small 0) .running) doneTower).core
     c.segs.find? (fun y => y.st = .running && c.allTowers y.img (y.over c.clk.total)) =
       some (seg (small 0) .running) ∧ (c.tower 0).seg = some 1 ∧ (c.tower 1).seg ≠ some 1 ∧
     c.answers req ∧ (seg (small 0) .running).stepEnd = false) ∧
    (let c := (seated closing doneTower).core
     c.segs.find? (fun y => y.st = .running && c.allTowers y.img (y.over c.clk.total)) = some closing ∧
     closing.stepEnd = true ∧ closing.img.training = true ∧ ∃ z ∈ closing.img.ctxs, z ∈ closing.steps) := by
  unfold Core.answers
  decide +kernel

/-! Release programs. -/

/-- Context 5 at operation `w` of its program, its loop taken `n` times; queued segments `xs`. -/
def atOp (w n : Nat) (xs : List Seg) : State :=
  on (fun c => { c with segs := xs, ctxs := [(5, { ctx 0 with prog := [w, 0], running := some ⟨0, 0, if n = 0 then [] else [(0, n)], none⟩ })] })
    (releasing (seg (small 0) .queued))

/-- The operation stands to run. -/
def opReady (w n : Nat) (op : Nat) : Bool :=
  match (atOp w n []).core.ctx? 5 with
  | some v => match v.running with
    | some r => v.enable && r.waitEnd.isNone && pOp (v.prog.getD r.idx 0) = op
    | none => false
  | none => false

theorem opReady_standsAt (w n op : Nat) (h : opReady w n op = true) : ∃ v r, (atOp w n []).core.standsAt 5 op v r := by
  unfold opReady at h
  split at h
  · split at h
    · next v hv _ r hr =>
      simp only [Bool.and_eq_true, decide_eq_true_eq, Option.isNone_iff_eq_none] at h
      exact ⟨v, r, hv, hr, h.1.1, h.1.2, h.2⟩
    · cases h
  · cases h

theorem witness_ProgramsRun :
    opReady (2 * 2 ^ 60) 0 2 = true ∧ atOrAfter live.core.cp 0 = true ∧ opReady (2 * 2 ^ 60 + 1) 0 2 = true ∧ atOrAfter live.core.cp 1 = false ∧
    opReady (3 * 2 ^ 60 + 1) 0 3 = true ∧
    (let c := (on (fun c => { c with blf := { c.blf with pulses := 1 } }) live).core
     atOrAfter c.cp (1 * 2 ^ 24) = true ∧ c.inSlot = true) ∧
    opReady (7 * 2 ^ 60) 0 7 = true ∧ opReady (6 * 2 ^ 60) 0 6 = true ∧ opReady (6 * 2 ^ 60 + 3 * 2 ^ 48) 2 6 = true ∧
    opReady (6 * 2 ^ 60 + 3 * 2 ^ 48) 3 6 = true ∧ opReady 0 0 0 = true ∧ opReady (4 * 2 ^ 60 + 2 ^ 24) 0 4 = true ∧
    opReady (5 * 2 ^ 60 + 2 ^ 24) 0 5 = true := by decide +kernel

theorem witness_ProgramsRun_reserve :
    (let fit (w : Nat) : Bool :=
       let c := (atOp w 0 []).core
       let c' : Core := { c with pow := { c.pow with reservations := [⟨5, bits w 40 16, c.window, bits w 24 16⟩] } }
       c.prc.state != .holdover && c'.fits c'.loads c'.eighths
     fit (4 * 2 ^ 60 + 2 ^ 24) = true ∧ fit (4 * 2 ^ 60 + 2000 * 2 ^ 40 + 2 ^ 24) = false) ∧
    (let x := seg (small 0) .queued
     let c := (atOp (2 ^ 60) 0 [x]).core
     opReady (2 ^ 60) 0 1 = true ∧ c.segs.find? (fun z => z.ctx = 5 && z.st = .queued) = some x ∧ x.img.releaseIndex = 0xFF ∧
     c.nextRelease (fun z => z.id = x.id) = some (x, [(0, 0)])) := by
  decide +kernel

/-! Towers. -/

/-- Tower 0 at the first bundle of `bs`, whose segment, of two beats, runs; `f` says how the tower stands. -/
def issuing (f : Tower → Tower) (bs ds : List Nat) : State :=
  seated (seg (picture 4 1 [0 + 2 ^ 40] bs ds) .running) (f { tested with st := .running, seg := some 1, ctx := 5 })

/-- The tower's bundle may issue now. -/
def canIssue (s : State) (k : Nat) : Bool :=
  match s.core.env k with
  | some (sg, e) => let x := s.core.tower k
    decide (sg.out.fault = 0) && decide (s.core.blf.hold = 0) && e.isDue x && !e.waits x && decide (issueFault e (e.bundle x) x = none) &&
      (match queueOps e (e.bundle x) x with
      | .ok _ _ _ => true
      | _ => false)
  | none => false

theorem canIssue_mayIssue (s : State) (k : Nat) (h : canIssue s k = true) :
    ∃ sg e y loads, s.core.mayIssue k sg e y loads := by
  unfold canIssue at h
  split at h
  · next sg e he =>
    simp only [Bool.and_eq_true, decide_eq_true_eq, Bool.not_eq_true'] at h
    obtain ⟨⟨⟨⟨⟨h0, h1⟩, h2⟩, h3⟩, h4⟩, h5⟩ := h
    split at h5
    · next y loads p hq => exact ⟨sg, e, y, loads, he, h0, h1, h2, h3, h4, p, hq⟩
    · cases h5
  · cases h

/-- A queue whose oldest entry of ring position 0 stands so. -/
def queued (st : EntSt) (t : Tower) : Tower :=
  { t with queues := t.queues.set 0 { Queue.empty with entries := Queue.empty.entries.set 0 { QEntry.free with st := st } } }

/-- One bundle of each operation: LOOP of two bundles; BARRIER; END; the register operations on register 3; LOAD of plane 0; PASS;
FORWARD; SAMPLE; MERGE; DRAIN; STREAM; REDUCE; RULE; ZERO; SAVE; RESTORE; COPY of group 0 to 1. -/
def bundles : List Nat :=
  [0, 2 ^ 16 + 2 * 2 ^ 20 + 2 ^ 40, 2 * 2 ^ 16, 3 * 2 ^ 16, 4 * 2 ^ 16 + 3 * 2 ^ 20 + 9 * 2 ^ 25, 5 * 2 ^ 16 + 3 * 2 ^ 20 + 9 * 2 ^ 25,
    6 * 2 ^ 16 + 3 * 2 ^ 20 + 9 * 2 ^ 25, 2 ^ 48 + 2 ^ 80, 2 * 2 ^ 48, 2 * 2 ^ 48 + 2 ^ 79, 2 * 2 ^ 48 + 2 ^ 96, 2 * 2 ^ 48 + 2 * 2 ^ 96, 3 * 2 ^ 96, 2 ^ 128,
    2 * 2 ^ 128, 3 * 2 ^ 128, 4 * 2 ^ 128, 2 ^ 176, 2 * 2 ^ 176, 3 * 2 ^ 176, 4 * 2 ^ 176 + 2 ^ 182]

/-- Past the yield point at beat 0. -/
def past (t : Tower) : Tower := { t with barriers := 1 }

/-- One of `bundles` alone may issue, END behind the barrier. -/
theorem bundles_issue : bundles.all (fun b => canIssue (issuing (if bCtl b = 3 then past else id) [b] []) 0) = true := by
  decide +kernel

/-- Each of the four queue sub-ops with an entry to act on. -/
theorem queue_ops_issue : ([(EntSt.present, 1), (.inUse, 2), (.free, 3), (.opened, 4)].all (fun p =>
    canIssue (issuing (queued p.1) [p.2 * 2 ^ 208] []) 0)) = true := by decide +kernel

theorem witness_BundlesIssue : (∃ sg e y loads, (issuing id [0] []).core.mayIssue 0 sg e y loads) ∧
    bundles.all (fun b => bEmpty b || bCtl b != 0 || bMop b != 0 || bDop b != 0 || bVop b != 0 || bAop b != 0) = true ∧
    ((issuing id [1] []).core.env 0).any (fun p => !p.2.isDue ((issuing id [1] []).core.tower 0)) = true ∧
    ((issuing id [2 ^ 208] []).core.env 0).any (fun p => p.2.waits ((issuing id [2 ^ 208] []).core.tower 0)) = true ∧
    ((on (fun c => { c with blf := { c.blf with hold := 4 } }) (issuing id [0] [])).core.env 0).isSome = true :=
  ⟨canIssue_mayIssue _ _ (by decide +kernel), by decide +kernel⟩

theorem witness_ControlAndQueueBundles : let b (i : Nat) := bundles.getD i 0
    bEmpty (b 0) = true ∧ bCtl (b 1) = 1 ∧ 1 < bLoopBody (b 1) ∧ bCtl (b 2) = 2 ∧ bBarrier (b 2) = 0 ∧
    ((seg (picture 4 1 [2 ^ 40] [b 2] []) .running).img.barriers[0]?).map (·.2) = some true ∧ bCtl (b 3) = 3 ∧ bCtl (b 4) = 4 ∧
    bCReg (b 4) = 3 ∧ 3 < tested.aregs.length ∧ bCtl (b 5) = 5 ∧ bMop (b 5) = 0 ∧ bDop (b 5) = 0 ∧ bVop (b 5) = 0 ∧ bAop (b 5) = 0 ∧
    bCtl (b 6) = 6 ∧ tested.loops.any (fun l => l.first = tested.pc) = false ∧
    (∀ op, 1 ≤ op ∧ op < 5 → bQop (op * 2 ^ 208) 0 = op ∧ bQop (op * 2 ^ 208) 1 = 0 ∧ bCtl (op * 2 ^ 208) = 0 ∧ bQReg (op * 2 ^ 208) 0 < 32) := by
  refine ⟨?_, ?_, ?_, ?_, ?_, ?_, ?_, ?_, ?_, ?_, ?_, ?_, ?_, ?_, ?_, ?_, ?_, ?_⟩
  case refine_18 =>
    intro op h
    have : op = 1 ∨ op = 2 ∨ op = 3 ∨ op = 4 := by omega
    rcases this with rfl | rfl | rfl | rfl <;> decide +kernel
  all_goals decide +kernel

/-- A RULE on a group that the member's latch holds frozen. -/
def freezing : State :=
  on (fun c => { c with segs := c.segs.map (fun x => { x with latches := x.latches.map (fun l => { l with frozen := 1 }) }) })
    (issuing id [bundles.getD 16 0] [])

theorem witness_ArrayAndVectorBundles : let b (i : Nat) := bundles.getD i 0
    bMop (b 7) = 1 ∧ bCtl (b 7) ≠ 2 ∧ tested.shadow.length = 4 ∧ bit (bMask (b 7)) 0 = true ∧ bit (bMask (b 7)) 3 = false ∧
    bMop (b 8) = 2 ∧ bSwap (b 8) = false ∧ bSwap (b 9) = true ∧ bDop (b 10) = 1 ∧ bDop (b 11) = 2 ∧ bDop (b 12) = 3 ∧ bVop (b 13) = 1 ∧
    bVop (b 14) = 2 ∧ bVop (b 15) = 3 ∧ bVop (b 16) = 4 ∧ bAop (b 17) = 1 ∧ bAGroup (b 17) < tested.groups.length ∧ bAop (b 18) = 2 ∧
    bAop (b 19) = 3 ∧ bAop (b 20) = 4 ∧ bGroup2 (b 20) < tested.groups.length ∧ (seg (picture 4 1 [] [0] []) .running).img.spire = false ∧
    ((issuing id [b 16] []).core.env 0).any (fun p => (p.2.ruleCtx (b 16) ((issuing id [b 16] []).core.tower 0)).any (fun rc =>
      !bit rc.latch.frozen 0)) = true ∧
    (freezing.core.env 0).any (fun p => (p.2.ruleCtx (b 16) (freezing.core.tower 0)).any (fun rc => bit rc.latch.frozen 0)) = true := by
  decide +kernel

/-! The fetch engine. -/

/-- A repeat of one row of 64 bytes between the Dome and queue 0: inbound (kind 2) or outbound (kind 3). -/
def dome (kind : Nat) : Nat := kind + 3 * 2 ^ 16 + 2 ^ 32 + 64 * 2 ^ 160 + 2 ^ 384

/-- The tower's queue 0 with a sealed entry in a state, with a poison code. -/
def sealed (st : EntSt) (p : Nat) (t : Tower) : Tower :=
  { t with queues := t.queues.set 0 { Queue.empty with entries := Queue.empty.entries.set 0 ⟨st, p, 0, 1, true, 0⟩ } }

/-- A repeat of descriptor 0, the LAST of its entry, on its way. -/
def aloft : Flight := ⟨0, 0, 0, 0, 64, 0, false, (0, []), [], [], 0, [], 0⟩

theorem witness_FetchEngine :
    (let c := (issuing past [0] [dome 2]).core
     let x := c.tower 0
     (c.env 0).any (fun p => let ds := p.2.prog.descs
       let n := nextDesc ds true x.inPtr.1
       n = 0 && decide (n < ds.length) && decide (x.st = .running) && x.startIn = 0 && decide (dIssueAt (ds.getD n 0) 0 ≤ x.sched) &&
       (let w := (x.queue (dQueue (ds.getD n 0))).entry 0
        w.st = .free && decide (w.freeAt ≤ c.clk.total)) && !fullFlight x.flightIn && !x.done && x.swapLeft = 0 &&
       !yieldAhead p.2.im x.barriers (dIssueAt (ds.getD n 0) 0) && c.repeatFault p.1 (ds.getD n 0) 0 = 0) = true) ∧
    (let c := (issuing (fun t => past (queued .pushed t)) [0] [dome 3]).core
     let x := c.tower 0
     (c.env 0).any (fun p => let ds := p.2.prog.descs
       let n := nextDesc ds false x.outPtr.1
       n = 0 && decide (n < ds.length) && decide (x.st = .running) && x.startIn = 0 && decide (dIssueAt (ds.getD n 0) 0 ≤ x.sched) &&
       decide (((x.queue (dQueue (ds.getD n 0))).entry 0).st = .pushed) && !fullFlight x.flightOut && x.checks = [] && x.swapLeft = 0 &&
       c.repeatFault p.1 (ds.getD n 0) 0 = 0) = true) ∧
    (let c := (issuing (sealed .filling 0x0402) [0] []).core
     let w := (c.tower 0).queue 0
     (c.env 0).isSome = true ∧ 0 < (c.tower 0).queues.length ∧ w.entries.length = 16 ∧
     ((List.range 16).map (fun j => (w.mid + j) % 16)).find? (fun j => decide ((w.entry j).st = .filling)) = some 0 ∧
     (w.entry 0).sealed = true ∧ c.xfers = [] ∧ (w.entry 0).poison ≠ 0 ∧
     (c.env 0).any (fun p => (c.tower 0).turned p.2.prog.descs 0 0 c.clk.total) = true) ∧
    (let c := (issuing (sealed .writing 0) [0] []).core
     let w := (c.tower 0).queue 0
     (c.env 0).isSome = true ∧
     ((List.range 16).map (fun j => (w.tail + 1 + j) % 16)).find? (fun j => (w.entry j).st = .writing && (w.entry j).sealed) = some 0) := by
  decide +kernel

theorem witness_FetchEngine_waits :
    (let c := (issuing (fun t => past { t with done := true }) [0] [dome 2]).core
     (c.env 0).isSome = true ∧ (c.tower 0).done = true) ∧
    (let c := (issuing (fun t => past { t with flightIn := List.replicate 8 aloft }) [0] [dome 18]).core
     (c.env 0).any (fun p => fullFlight (c.makeFlight p.2.prog.descs 0 (c.tower 0).flightIn)) = true) ∧
    ((issuing (fun t => { t with checks := [⟨0, 0, 1, 0, 0, 0, 0⟩] }) [0] [dome 3]).core.env 0).isSome = true := by
  decide +kernel

/-- A POP that waits on an empty queue, past TWR_STALL_LIMIT; a tower whose segment another tower's fault has stopped; a row check of
a member that row 0 does not map to, and one of no rows. -/
def stuck : State := issuing (fun t => { t with wait := 2 ^ 32 }) [2 ^ 208] []
def halted : State :=
  on (fun c => { c with segs := c.segs.map (fun x => { x with out := { x.out with fault := 0x010A } }) }) (issuing id [0] [])
def checking (rows : Nat) : State := issuing (fun t => { t with checks := [⟨0, 0, rows, 0, 0, 0, 0⟩] }) [0] []

theorem witness_TowersFault :
    (let x := stuck.core.tower 0
     (stuck.core.env 0).any (fun p => p.2.isDue x && p.2.waits x) = true ∧ bits (stuck.core.reg (twrBase 0 + 0x30)) 0 32 < x.wait) ∧
    ((checking 1).core.env 0).any (fun p => !(List.range' 0 1).all (fun r => p.2.im.memberOf r = some 0)) = true ∧
    ((checking 0).core.env 0).isSome = true ∧ ((checking 0).core.tower 0).checks = [⟨0, 0, 0, 0, 0, 0, 0⟩] ∧
    (let x := halted.core.tower 0
     (halted.core.env 0).any (fun p => p.1.out.fault ≠ 0 && p.2.isDue x && bEmpty (p.2.bundle x)) = true ∧ halted.core.blf.hold = 0 ∧
     x.st = .running ∧ ((checking 1).core.tower 0).st ≠ .faulted) := by decide +kernel

/-- The segment's tower at its yield point in an orderly stop; and with the port below its share and a segment of another context that
needs the tower. -/
def yielding : State :=
  on (fun c => { c with prc := { c.prc with state := .stopping } }) (issuing (fun t => { t with atBarrier := true, barriers := 1 }) [0] [])

theorem witness_TowersSwapAndTest :
    (let c := yielding.core
     let x := seg (picture 4 1 [2 ^ 40] [0] []) .running
     (c.tower 0).seg.bind c.seg? = some x ∧ x.st = .running ∧ c.coreUp 3 = true ∧ c.swappable x = true ∧
     ((c.evictFor yielding.trim yielding.dram x.saveFrames).saveSpace x).isSome = true ∧ c.prc.state = .stopping ∧
     (c.tower 1).seg ≠ some x.id) ∧
    (0 < 512 ∧ (Group.empty.words).rising = true ∧ entryClean (Group.empty.words.get 0 0) = Group.empty.words.get 0 0) ∧
    (0 < live.core.towers.length ∧ (live.core.tower 0).testDone = false ∧ (live.core.tower 0).testEnd ≤ live.core.clk.nominal) := by
  decide +kernel

/-! Settlement, residency, memory. -/

/-- A TRAINING segment that has ended and settles context 5's step. -/
def settling : Seg := { seg (small 4) .ended with due := 1, left := [5], stepEnd := true }

/-- The step's one part wrote its page, or faulted with `code`; `step` steps have committed. -/
def settlingAt (code step : Nat) : State :=
  on (fun c => { c with dir := [(7, { desc with trainCtx := 5 })], ctxs := [(5, { ctx 2 with
    commit := ⟨step, 0, 0, 0⟩
    record := { StepRec.idle with st := 1, closing := some 1, segs := [1], parts := [(1, ⟨code, [], [(0, 0, 1)], [], []⟩, 0)] } })] })
    (seated settling (.reset 0))

theorem witness_StepsSettle :
    (let c := (settlingAt 0 0).core
     c.segs.find? (fun y => y.st = .ended && decide (y.due ≠ 0 ∧ y.due ≤ c.clk.total)) = some settling ∧
     ¬(c.keep.fwState = 2 ∧ c.keep.fwKind = 4) ∧ c.dir.rising = true ∧ c.answers settling.req ∧
     (c.ctx? 5).any (fun v => v.record.closing = some 1 && v.outcome.1 = 0 && v.commit.step != 2 ^ 32 - 1 && v.training &&
       decide ((c.desc v.adapt).trainCtx = 5)) = true ∧ settling.left = [5] ∧ c.usesTransient 5 = false) ∧
    ((settlingAt 0 (2 ^ 32 - 1)).core.ctx? 5).any (fun v => v.outcome.1 = 0 && v.commit.step = 2 ^ 32 - 1) = true ∧
    (let c := (settlingAt 0x0321 0).core
     c.segs.find? (fun y => y.st = .ended && decide (y.due ≠ 0 ∧ y.due ≤ c.clk.total)) = some settling ∧
     (c.ctx? 5).any (fun v => v.record.closing = some 1 && v.outcome.1 != 0) = true ∧ settling.status = 0 ∧
     c.answers settling.req) := by unfold Core.answers; decide +kernel

/-- Adaptation 7 as `d`, with frames for `pages` run pages from frame 0 of package 0; slot 9's policy. -/
def holding (d : Desc) (runs : SMap RunEnt) (policy : Nat) : State :=
  on (fun c => { c with
    dir := [(7, d)], mem := { c.mem with runs := runs }, regs := [(offTier1, 100 + 200 * 2 ^ 16)]
    keep := { c.keep with slots := [(9, { KeySlot.reset with st := .active, gen := 1, policy := policy })] } })
    (seated (seg (small 0) .queued) (.reset 0))

/-- Adaptation 7's fetch is under way for the request, its tag list let pass or not. -/
def fetching (ok : Bool) (policy : Nat) : State :=
  holding { desc with st := .fetching, claimant := 1, kind := 1, fetch := some ⟨true, false, [req], ok, []⟩ } [] policy


/-- Run pages 0 to 15 of adaptation 7 in frames of package 0. -/
def oneRun (tagged : Bool) : SMap RunEnt := [(7, ⟨9, 1, 0x1000, 16, tagged, [⟨0, 0, 1⟩]⟩)]

/-- The write-back of its serving form is under way for the request. -/
def writingBack : State := holding { desc with training := false, dirty := true, wb := some (some req) } (oneRun false) 0

/-- The version path of a frame verifies while the tree is as the fill left it. -/
theorem pathOk_fresh (c : Core) (d : Dram) (pfn : Nat) (h1 : d.digests = []) (h2 : d.versions = [])
    (h3 : c.mem.badRoots.contains (rootAt pfn / 64) = false) : c.pathOk d pfn = true := by
  have dg (k : Key) (o l i : Nat) : d.digest k o l i = zeroDigest k o l i := by rw [Dram.digest, h1]; rfl
  have n0 (k : Key) (o i : Nat) : d.node k o 0 i = 0 := by
    have h0 (m : Nat) : d.versions.get 0 m = 0 := by rw [h2]; rfl
    simp only [Dram.node, h0]
    decide +kernel
  have n1 (k : Key) (o l i : Nat) : Config.treeMac k o (l + 1) i (d.node k o (l + 1) i) = zeroDigest k o (l + 1) i := by
    simp only [Dram.node, dg, zeroDigest]
  simp only [Core.pathOk, h3, List.all_cons, List.all_nil, dg, n0]
  rw [decide_eq_true (n1 _ _ 0 _), decide_eq_true (n1 _ _ 1 _)]
  simp [zeroDigest]

theorem writingBack_moves : (writingBack.core.moveOut writingBack.dram 7).2 = 0 := by
  have h : (writingBack.core.readStored writingBack.dram 7 [0]).2 = 0 := by
    unfold Core.readStored
    rw [List.foldl_cons, List.foldl_nil, if_neg (by simp),
      show writingBack.core.frameOf 7 0 = some (⟨9, 1, 0x1000, 16, false, [⟨0, 0, 1⟩]⟩, 0) by decide +kernel]
    dsimp only
    rw [show writingBack.core.slotCode (0 % 16) 9 1 = 0 by decide +kernel]
    rw [show ((writingBack.core.countLines (0 % 16) 0 (List.range 64)).countTag (0 % 16) 0 (0 / 16)).badLines 0 (List.range 64) = [] by decide +kernel]
    rw [if_pos (pathOk_fresh _ _ _ rfl rfl (by decide +kernel))]
    rfl
  have hm : writingBack.core.movedPages 7 = [0] := by decide +kernel
  unfold Core.moveOut
  dsimp only
  rw [if_neg (by decide +kernel), if_neg (by decide +kernel), hm]
  rcases hh : writingBack.core.readStored writingBack.dram 7 [0] with ⟨c', n⟩
  rw [hh] at h
  subst h
  rfl

theorem witness_FetchesAndWritebacks :
    live.core.coreUp 2 = true ∧ (let c := (fetching true 0).core
     (c.desc 7).fetch = some ⟨true, false, [req], true, []⟩ ∧ c.stands (c.desc 7) = true ∧ c.dir.rising = true ∧
     c.xfers.any (fun x => decide (x.role = .fetch 7) && !x.ended) = false ∧ c.answers req) ∧
    (let c := (fetching false 0).core
     (c.desc 7).fetch = some ⟨true, false, [req], false, []⟩ ∧ (c.desc 7).claimant ≠ 0 ∧ (c.desc 7).sealBad = false ∧
     (c.desc 7).sealSt = 0 ∧ (∀ b, sealAct 0 (bit (c.slot 9).policy 2) b = .adopt) ∧ (c.allocRun 7 true).isSome = true) ∧
    (let c := (fetching false 4).core
     (c.desc 7).sealSt = 0 ∧ (c.desc 7).keySlot = 9 ∧ (∀ b, sealAct 0 (bit (c.slot 9).policy 2) b = .fail 0x050C) ∧ c.answers req) ∧
    (let c := writingBack.core
     (c.desc 7).wb = some (some req) ∧ c.stands (c.desc 7) = true ∧ c.dir.rising = true ∧ (c.desc 7).st = .resident ∧ c.answers req) ∧
    (writingBack.core.moveOut writingBack.dram 7).2 = 0 := by
  unfold Core.answers
  refine ⟨?_, ?_, ?_, ?_, ?_, writingBack_moves⟩ <;> decide +kernel


/-- All of tier 1 but one block is in use by another run, below LOW_WATER. -/
def crowded (dirty : Bool) : State :=
  holding { desc with dirty := dirty } [(7, ⟨9, 1, 0x1000, 16, true, [⟨0, 0, 1⟩]⟩), (8, ⟨9, 1, 0x2000, 16, true, [⟨0, 1, 22_282_577⟩]⟩)] 0

theorem witness_TierZeroAndEviction :
    (∀ b, let c := (crowded b).core
     c.coreUp 2 = true ∧ c.freeFrames < bits (c.reg offTier1) 0 16 * 2 ^ 18 ∧ c.comingFrames < bits (c.reg offTier1) 16 16 * 2 ^ 18 ∧
     c.candidates = [7] ∧ c.dir.rising = true ∧ (c.desc 7).dirty = b ∧ bits (c.desc 7).tier2 0 2 = 2 ∧
     c.serves (c.desc 7) 0 = true) ∧
    (on (fun c => { c with gate := { c.gate with halted := c.gate.halted.set 2 true } }) live).core.coreUp 2 = false ∧
    (let s := holding desc (oneRun false) 0
     let c := s.core
     let d := c.desc 7
     d.st = .resident ∧ d.kind ≤ 1 ∧ 0 < d.pages ∧ bankFor (c.groupsOf 7) d.commit.bank 0 = 0 ∧ c.freeUnits.head? = some 0 ∧
     c.gate.copies.any (fun k => k.idx = 7 && k.bank = 0 && k.page = 0 && !k.dead) = false ∧
     (match (c.readPage s.dram 7 (d.pageAt 0 0 0) (List.range 64)).2 with
      | .ok _ => true
      | .error _ => false) = true) := by decide +kernel

theorem tagOk_of (c : Core) (d : Dram) (e : RunEnt) (u pfn : Nat)
    (h : d.tags.get 0 pfn = pageTag (c.slot e.slot).root (e.first + u) (d.versions.get 0 pfn) e.gen (d.page pfn)) (hp : c.pathOk d pfn = true) :
    c.tagOk d e u pfn = true := by
  simp only [Core.tagOk, hp, h, decide_true, Bool.and_self]

/-- External memory with the tag of frame 0 as page 0 of adaptation 7's run has it, and its version. -/
def tagged (version : Nat) : State :=
  { holding desc (oneRun true) 0 with dram := ⟨[], if version = 0 then [] else [(0, version)], [(0, pageTag 0 0x1000 version 1 (Dram.page ⟨[], [], [], []⟩ 0))], []⟩ }

theorem witness_LinesReadAndWritten :
    (let c := (holding desc (oneRun false) 0).core
     c.lineAt ⟨7, 0, 63, 9, 1⟩ = .ok (⟨9, 1, 0x1000, 16, false, [⟨0, 0, 1⟩]⟩, 0) ∧ c.mem.bad.get 0 63 = 0 ∧ c.slotCode 0 9 1 = 0 ∧
     c.lineAt ⟨7, 0, 63, 9, 2⟩ = .error 0x0505 ∧ c.lineAt ⟨7, 16, 0, 9, 1⟩ = .error 0x0505) ∧
    (let s := tagged 0
     s.core.lineAt ⟨7, 0, 0, 9, 1⟩ = .ok (⟨9, 1, 0x1000, 16, true, [⟨0, 0, 1⟩]⟩, 0) ∧ (∀ i, i < 64 → s.core.mem.bad.get 0 i = 0) ∧
     s.dram.versions.get 0 0 < 2 ^ 32 - 1 ∧ systemEntry 7 = false) ∧
    (tagged 0).core.tagOk (tagged 0).dram ⟨9, 1, 0x1000, 16, true, [⟨0, 0, 1⟩]⟩ 0 0 = true ∧
    (tagged (2 ^ 32 - 1)).dram.versions.get 0 0 = 2 ^ 32 - 1 ∧
    (let p : PageSnap := ⟨0, [(63, 0)], 0, 0, true, []⟩
     let s := on (fun c => { c with mem := { c.mem with retries := [⟨⟨7, 0, 63, 9, 1⟩, p⟩] } }) (holding desc (oneRun false) 0)
     let c := s.core
     c.mem.retries = [⟨⟨7, 0, 63, 9, 1⟩, p⟩] ∧ c.storedLine s.dram 7 0 0 63 = p.line 63 ∧ c.slotCode (0 % 16) 9 1 = 0 ∧ c.lineAt ⟨7, 0, 63, 9, 1⟩ = .ok (⟨9, 1, 0x1000, 16, false, [⟨0, 0, 1⟩]⟩, 0) ∧
     c.mem.bad.get 0 63 = 0) ∧
    (on (fun c => { c with mem := { c.mem with badRoots := [rootAt 0 / 64] } }) (tagged 0)).core.tagOk (tagged 0).dram
      ⟨9, 1, 0x1000, 16, true, [⟨0, 0, 1⟩]⟩ 0 0 = false := by
  refine ⟨by decide +kernel, by decide +kernel, tagOk_of _ _ _ _ _ ?_ (pathOk_fresh _ _ _ rfl rfl (by decide +kernel)), by decide +kernel,
    by decide +kernel, by decide +kernel⟩
  rfl

theorem witness_ControllersWork : (127 : Nat) < 128 ∧
    (let c := (on (fun c => { c with regs := [(memBase 15, 4)] }) live).core
     c.badGroup 127 3 = false ∧ (on (fun c => { c with mem := { c.mem with bad := [(64 * (16 * 3 + 15) + 56, 1)] } }) live).core.badGroup 127 3 = true ∧
     bit (c.reg (memBase (127 / 8))) 2 = true ∧ c.noMemory = false ∧ c.prc.state ≠ .holdover ∧ c.prc.state ≠ .pfSafe ∧ c.ctr.rising = true) ∧
    (let m := live.core.mem.ctls.getD 15 .reset
     decide (85 ≤ 84) = m.hot ∧ decide (85 ≤ 85) ≠ m.hot ∧ live.core.prc.powered = true ∧ m.init = false ∧ m.trainFail = 0 ∧
     15 < live.core.mem.ctls.length) := by decide +kernel

/-! Key slots and sessions. -/

/-- Slot `n` selected, as `k`. -/
def slotted (n : Nat) (k : KeySlot) : State :=
  on (fun c => { c with regs := [(0x20_0010, n)], keep := { c.keep with slots := [(n, k)] } }) live

/-- Slot 9 of the module with segment `x` as `k`; adaptation 7 of it with a write-back under way or none. -/
def leaving (x : SegSt) (k : KeySlot) (wb : Bool) : State :=
  on (fun c => { c with keep := { c.keep with slots := [(9, k)] }, dir := [(7, { desc with wb := if wb then some none else none })] })
    (seated (seg (small 0) x) (.reset 0))

def retiring : KeySlot := { KeySlot.reset with st := .retiring, gen := 1 }

theorem witness_SlotsEnableRetireAndFree :
    (∀ n, n = 0 ∨ n = 4095 → (slotted n .reset).core.selSlot = n ∧ n < 4096) ∧
    (let c := (slotted 4095 { KeySlot.reset with floor := 0xFFFE }).core
     (c.slot 4095).st = .free ∧ (c.fn (c.slot 4095).fn).enable = true ∧ (c.slot 4095).floor < 0xFFFF) ∧
    (((slotted 0 { KeySlot.reset with st := .dead }).core.slot 0).st = .dead) ∧
    (let c := (slotted 0 { KeySlot.reset with fn := vf }).core
     (c.slot 0).st = .free ∧ (c.fn (c.slot 0).fn).enable = false) ∧
    (let c := (slotted 0 { KeySlot.reset with floor := 0xFFFF }).core
     (c.slot 0).st = .free ∧ (c.fn (c.slot 0).fn).enable = true ∧ 0xFFFF ≤ (c.slot 0).floor) ∧
    (∀ st, st = .enabled ∨ st = .active → ((slotted 0 { KeySlot.reset with st := st }).core.slot 0).st = st) ∧
    ¬(live.core.keep.fwState = 2 ∧ live.core.keep.fwKind = 1) ∧
    (let c := (leaving .parked retiring false).core
     (c.slot 9).st = .retiring ∧ (c.slot 9).told = [] ∧ c.segs = [seg (small 0) .parked] ∧ c.segSlot 9 (seg (small 0) .parked) = true ∧
     c.answers req ∧ 35 < c.links.length) ∧
    (let c := (leaving .ended { retiring with told := List.range 55 } false).core
     (c.slot 9).told.length = 55 ∧ c.inflight 9 = 0 ∧ c.dir.rising = true ∧ c.ctxs.rising = true) ∧
    (let c := (leaving .ended { retiring with deadline := 64 } true).core
     (c.slot 9).deadline ≤ c.clk.nominal ∧ c.inflight 9 ≠ 0 ∧ c.dir.rising = true ∧ c.ctxs.rising = true) ∧
    (∀ g, g = 1 ∨ g = 0xFFFE → let c := (slotted 9 { KeySlot.reset with st := .zeroizing, gen := g }).core
     (c.slot 9).st = .zeroizing ∧ c.keep.slots.rising = true) := by
  refine ⟨?_, by decide +kernel, by decide +kernel, by decide +kernel, by decide +kernel, ?_, by decide +kernel,
    by unfold Core.answers; decide +kernel, by decide +kernel, by decide +kernel, ?_⟩
  · rintro n (rfl | rfl) <;> decide +kernel
  · rintro st (rfl | rfl) <;> decide +kernel
  · rintro g (rfl | rfl) <;> decide +kernel

/-- Session 1 of `via` (alias key), slot 9 in state `st` with adaptation 7, an event of the slot recorded. -/
def inSession (via : Via) (st : SlotSt) : State :=
  { on (fun c => { c with keep := { c.keep with sessions := [(1, ⟨via, 1, true, 64, 0⟩)] } })
      (leaving .queued { KeySlot.reset with st := st, gen := 1 } false) with
    evr := { live.evr with records := [⟨0, 0, ⟨0x0506, 9, 9, 0, 0, 0xFFFF, 0⟩, 2, 60⟩, waiting] } }

/-- A session operation: OPCODE, SLOT and its body's fields. -/
def sop (via : Via) (op slot : Nat) (body : List (Nat × Nat)) : SessOp :=
  ⟨via, 1, fields ([(1, op), (1, 0), (2, slot), (4, (body.map (·.1)).sum)] ++ body)⟩

/-- The header and the session pass. -/
def passesHeader (s : State) (o : SessOp) (op len : Nat) : Bool :=
  s.core.keep.open_ && s.core.viaUp o.via && (s.core.session? o.session).any (fun x => x.open_ && decide (x.via = o.via)) && !s.core.busy &&
    decide (o.payload.length = 8 + len ∧ fieldLE o.payload 0 1 = op ∧ fieldLE o.payload 1 1 = 0 ∧ fieldLE o.payload 4 4 = len)

theorem inSessionOp_of (s : State) (o : SessOp) (op len : Nat) (h : passesHeader s o op len = true) :
    ∃ x, s.core.inSessionOp o x op len := by
  simp only [passesHeader, Bool.and_eq_true, Option.any_eq_true, decide_eq_true_eq, Bool.not_eq_true'] at h
  obtain ⟨⟨⟨⟨h1, h0⟩, x, h2, h3, h4⟩, h5⟩, h6⟩ := h
  exact ⟨x, h2, h1, h3, h4, h0, h5, h6⟩

theorem witness_TenantOperations :
    (∀ g, g = 1 ∨ g = 0xFFFE → let s := inSession (.doe pf) .enabled
     let o := sop (.doe pf) 1 9 [(2, g), (2, 7), (4, 0), (32, 5)]
     let b := o.payload.drop 8
     passesHeader s o 1 40 = true ∧ (s.core.session? 1).any (fun x => s.core.tenantOk x 9) = true ∧ (s.core.slot 9).st = .enabled ∧
     (s.core.slot 9).floor ≤ fieldLE b 0 2 ∧ fieldLE b 0 2 ≤ 0xFFFE ∧ fieldLE b 2 2 < 8 ∧ fieldLE b 4 4 = 0) ∧
    (let s := inSession (.doe pf) .active
     passesHeader s (sop (.doe pf) 2 9 []) 2 0 = true ∧ (s.core.slot 9).st = .active ∧
     (s.core.session? 1).any (fun x => s.core.tenantOk x 9) = true ∧
     passesHeader s (sop (.doe pf) 3 9 [(8, 0x1000), (48, 5)]) 3 56 = true ∧
     fieldLE ((sop (.doe pf) 3 9 [(8, 0x1000), (48, 5)]).payload.drop 8) 0 8 = 0x1000 ∧ s.core.descOf 9 0x1000 = some 7 ∧
     s.core.dir.rising = true ∧ passesHeader s (sop (.doe pf) 4 9 [(8, 0x1000)]) 4 8 = true ∧
     (let b := (sop (.doe pf) 5 9 [(1, 1), (1, 0), (2, 5), (4, 0), (48, 5)]).payload.drop 8
      passesHeader s (sop (.doe pf) 5 9 [(1, 1), (1, 0), (2, 5), (4, 0), (48, 5)]) 5 56 = true ∧ fieldLE b 0 1 = 1 ∧ fieldLE b 1 1 = 0 ∧
      fieldLE b 4 4 = 0 ∧ (s.core.ctx? (fieldLE b 2 2)).any (fun v => decide (v.owner = (s.core.slot 9).fn) && v.keySlot = 9 &&
        decide (v.emptyHash = some 0)) = true) ∧
     passesHeader s (sop (.doe pf) 6 9 []) 6 0 = true) ∧
    (∀ bs, bs = 0 ∨ bs = 1 → let s := inSession .mctp .active
     let o := sop .mctp 0x10 (4096 + bs) [(1, bs), (1, 0), (2, 0xFFFE), (4, 0), (32, 5)]
     let b := o.payload.drop 8
     passesHeader s o 0x10 40 = true ∧ operatorVia s.trim o.via = true ∧ fieldLE b 0 1 ≤ 1 ∧ fieldLE o.payload 2 2 = 4096 + fieldLE b 0 1 ∧
     fieldLE b 1 1 = 0 ∧ fieldLE b 4 4 = 0 ∧ (s.core.base bs).st = .empty ∧ (s.core.slot (4096 + bs)).st = .free ∧
     (s.core.slot (4096 + bs)).floor ≤ fieldLE b 2 2 ∧ fieldLE b 2 2 ≤ 0xFFFE ∧
     ((on (fun c => c.setSlot (4096 + bs) { KeySlot.reset with st := .active, gen := 1 }) s).core.slot (4096 + bs)).st ≠ .free) := by
  refine ⟨?_, by decide +kernel, ?_⟩
  · rintro g (rfl | rfl) <;> decide +kernel
  · rintro bs (rfl | rfl) <;> decide +kernel

theorem witness_ExtractOwnRecords : ∀ n, n = 1 ∨ n = 64 →
    let s := inSession (.doe pf) .active
    let o := sop (.doe pf) 7 9 [(4, 0), (4, 0), (2, n), (6, 0), (32, 5)]
    let b := o.payload.drop 8
    passesHeader s o 7 48 = true ∧ (s.core.session? 1).any (fun x => s.core.tenantOk x 9) = true ∧ (s.core.slot 9).st = .active ∧
    1 ≤ fieldLE b 8 2 ∧ fieldLE b 8 2 ≤ 64 ∧ allZero (slice b 0xA 6) = true ∧ fieldLE b 4 4 = s.evr.epoch ∧
    (extractScan 9 0 0 n s.evr.records).1.length = 1 := by rintro n (rfl | rfl) <;> decide +kernel

/-- A certificate chain in slot 2, an activation window open or not, `n` sessions of MCTP. -/
def responding (window : Bool) (n : Nat) (open_ : Bool) : State :=
  on (fun c => { c with keep := { c.keep with
    cert2 := [1, 2, 3], fwState := if window then 2 else 0, nextSession := n + 1
    sessions := (List.range n).map (fun i => (i + 1, ⟨.mctp, 1, open_, 64, 0⟩)) } }) live

theorem witness_ResponderAnswers :
    (∀ code, (responding false 0 true).core.responds .mctp code ∧ (responding false 0 true).core.responds (.doe pf) code) ∧
    (responding false 0 true).core.chain 2 = some [1, 2, 3] ∧ (responding false 0 true).core.chain 3 = none ∧
    (responding true 0 true).core.keep.open_ = true ∧ (responding true 0 true).core.keep.fwState = 2 := by
  refine ⟨fun code => ⟨⟨by decide +kernel, by decide +kernel, by decide +kernel, .inl (by decide +kernel), nofun⟩,
    ⟨by decide +kernel, by decide +kernel, by decide +kernel, .inl (by decide +kernel), nofun⟩⟩, ?_⟩
  decide +kernel

theorem witness_ResponderSessions :
    (let c := (responding false 3 false).core
     c.chain 2 = some [1, 2, 3] ∧ c.sessions .mctp < sessionLimit .mctp ∧ c.session? 1 = some ⟨.mctp, 1, false, 64, 0⟩ ∧
     c.keep.sessions.rising = true ∧ 64 + 150_000_000_000 > c.clk.nominal) ∧
    sessionLimit .mctp ≤ (responding false 4 true).core.sessions .mctp ∧
    ((64 : Nat) + 150_000_000_000 ≤ (on (fun c => { c with clk := { c.clk with nominal := 150_000_000_064 } }) (responding false 1 true)).core.clk.nominal) ∧
    (let s := responding false 1 true
     s.core.session? 1 = some ⟨.mctp, 1, true, 64, 0⟩ ∧ operatorVia s.trim .mctp = true) ∧
    (∀ n b code, (responding false n b).core.responds .mctp code) := by
  refine ⟨by decide +kernel, by decide +kernel, by decide +kernel, by decide +kernel,
    fun n b code => ⟨rfl, rfl, by unfold Core.busy; rfl, .inl rfl, nofun⟩⟩

/-! Host commands. -/

/-- An entry of the administration PF's pair 0: OPCODE, FLAGS, CONTEXT, PARK, DATA_BYTES, ARGS from offset 0x20. -/
def entry (op flags ctx park bytes : Nat) (args : List (Nat × Nat)) : List Byte :=
  fields ([(1, op), (1, flags), (2, 77), (2, ctx), (2, park), (8, if bytes = 0 then 0 else 0x1000), (4, bytes), (12, 0)] ++ args ++
    [(32 - (args.map (·.1)).sum, 0)])

def cmd (e : List Byte) (d : List Byte) : HostCmd := ⟨pf, 0, e, if d = [] then none else some d, .clean⟩

/-- The module with context 5 as `v`, its entry in the queue, adaptation 7 as `d`, slot 9 under `policy` and slot 8 ACTIVE. -/
def hosted (v : Option Ctx) (d : Desc) (segs : List Seg) (policy : Nat) : State :=
  on (fun c => { c with
    ctxs := (v.map (fun v => (5, v))).toList, dir := [(7, d)], segs := segs
    keep := { c.keep with slots := [(8, { KeySlot.reset with st := .active, gen := 1 }), (9, { KeySlot.reset with st := .active, gen := 1, policy := policy })] } })
    (seated (seg (small 0) .queued) (.reset 0))

/-- A core takes the command's entry and passes the checks before its own. -/
def accepted (i : Instr) (s : State) (slots : List Nat) : Bool :=
  match i.hostForm with
  | some (x, k) => s.core.takes x.f x.q && decide (hOp x.entry = k.op) && !malformed x.entry k && !slots.any s.core.leaving &&
    (opCores k.op).all s.core.coreUp && (!k.reads || hBytes x.entry = 0 || x.data.isSome)
  | none => false

theorem passes_of (i : Instr) (s : State) (slots : List Nat) (h : accepted i s slots = true) :
    ∃ x k, i.hostForm = some (x, k) ∧ s.core.passes x k slots := by
  unfold accepted at h
  split at h
  · next x k hf =>
    simp only [Bool.and_eq_true, decide_eq_true_eq, Bool.not_eq_true', Bool.or_eq_true] at h
    obtain ⟨⟨⟨⟨⟨h1, h2⟩, h3⟩, h4⟩, h6⟩, h5⟩ := h
    refine ⟨x, k, hf, h1, h2, h3, h4, h6, fun hr hb => ?_⟩
    rcases h5 with (h5 | h5) | h5
    · exact absurd hr (by simp [h5])
    · exact absurd h5 hb
    · exact h5
  · cases h

/-- It comes from the OWNER of context 5. -/
def owned (i : Instr) (s : State) : Bool := accepted i s [9] && (s.core.ctx? 5).any (fun v => v.keySlot = 9 && decide (v.owner = pf))

/-- It comes from the owner of adaptation 7. -/
def ownedDesc (i : Instr) (s : State) : Bool := accepted i s (s.core.descSlots 7) && s.core.ownsDesc pf 7

theorem witness_QueuePairs : live.core.bar2 pf = true ∧ live.core.ownStream pf none = true ∧ (63 : Nat) < 64 ∧ accessOk 0 8 = true ∧
    bound.core.bar2 vf = true ∧ bound.core.ownStream vf (some 6) = false ∧ bound.core.ownStream vf (some 5) = true ∧
    (let p := live.core.pair pf 63
     bit p.cfg 0 = false ∧ p.st = .disabled) ∧
    (let c := (hosted none desc [] 0).core
     let p := c.pair pf 0
     bit p.cfg 0 = true ∧ p.st = .running ∧ p.sqSize = 16 ∧ p.cqSize = 16 ∧ (0 + p.cqSize - p.cqHead) % p.cqSize ≤ p.unread ∧
     p.unread < (15 + p.cqSize - p.cqHead) % p.cqSize) ∧
    (let s := on (fun c => c.setPair pf 63 { Pair.reset with cfg := 1 * 2 + 1 * 32 + 63 * 512 }) live
     let p := s.core.pair pf 63
     bit p.cfg 0 = false ∧ p.st = .disabled ∧ cfgOk p.cfg (s.core.fn pf).vectors = true) ∧
    (let s := on (fun c => (c.setPair pf 63 { Pair.reset with pend := 1, cfg := 5 * 2 ^ 24 }).setFn pf { HostFn.reset true with
        pairs := [(63, { Pair.reset with pend := 1, cfg := 5 * 2 ^ 24 })], msix := [(0, ⟨0, 0, false, false⟩), (63, ⟨0, 0, true, true⟩)] })
        (on (fun c => { c with clk := { c.clk with nominal := 6250 } }) live)
     let p := s.core.pair pf 63
     p.pend ≠ 0 ∧ bits p.cfg 24 8 ≠ 0 ∧ p.pendAt + 1250 * bits p.cfg 24 8 ≤ s.core.clk.nominal ∧
     ((s.core.fn pf).msix.get .reset (bits p.cfg 9 6)).mask = false ∧ 63 < (s.core.fn pf).vectors ∧
     ((s.core.fn pf).msix.get .reset 63).pend = true ∧ ((s.core.fn pf).msix.get .reset 1).pend = false) := by decide +kernel

/-- Slot 9 RETIRING, or bound to another function, or context 5 of another OWNER. -/
def slotLeaving (s : State) : State := on (fun c => c.setSlot 9 { c.slot 9 with st := .retiring }) s
def slotElsewhere (s : State) : State := on (fun c => c.setSlot 9 { c.slot 9 with fn := vf }) s
def ctxElsewhere (v : Ctx) : Ctx := { v with raw := fields [(4, 0), (2, 9), (2, 1), (4, 7 + 2 ^ 16), (116, 0)] }

/-- The command has its turn, with its own opcode, and is well formed or not. -/
def turn (i : Instr) (s : State) (bad : Bool) : Bool :=
  match i.hostForm with
  | some (x, k) => s.core.takes x.f x.q && decide (hOp x.entry = k.op) && malformed x.entry k == bad
  | none => false

def cSubmit (park : Nat) : Instr := .submitSegment (cmd (entry 1 0 5 park (small 0).length []) (small 0))
def cBaseFree (f : FnId) : Instr := .baseFree { cmd (entry 0x31 0 0xFFFF 0 0 [(2, 1)]) [] with f := f }
def cRead (i : Nat) : Instr := .adaptRead (cmd (entry 0x21 0 0xFFFF 0 128 [(2, i)]) [])

theorem witness_HostChecks :
    (∃ x k, (cSubmit 0).hostForm = some (x, k) ∧ live.core.takes x.f x.q = false) ∧
    (let s := hosted (some (ctx 0)) desc [] 0
     (∃ x k, (cSubmit 0).hostForm = some (x, k) ∧ s.core.takes x.f x.q = true) ∧
     (∃ x k, (Instr.adaptRead (cmd (entry 0x22 0 0xFFFF 0 0 [(2, 7)]) [])).hostForm = some (x, k) ∧
       knownOps.contains (hOp x.entry) = true ∧ hOp x.entry ≠ k.op) ∧
     (∃ x k, (Instr.adaptRead (cmd (entry 0x99 0 0xFFFF 0 0 [(2, 7)]) [])).hostForm = some (x, k) ∧
       s.core.takes x.f x.q = true ∧ knownOps.contains (hOp x.entry) = false) ∧
     turn (.adaptRead (cmd (entry 0x21 0 5 0 128 [(2, 7)]) [])) s true = true ∧ turn (cSubmit 0) s false = true ∧
     s.core.ctx? 5 = some (ctx 0) ∧ (ctx 0).owner = pf ∧ (ctx 0).enable = true ∧ s.core.leaving 9 = false ∧
     turn (.submitSegment (cmd (entry 1 0 5 0 100 []) [])) s false = true ∧
     (s.core.desc 7).st ≠ .free ∧ (s.core.desc 8).st = .free ∧ turn (cRead 7) s false = true ∧ turn (cRead 8) s false = true) ∧
    turn (cBaseFree vf) (on (fun c => c.setFn vf { HostFn.reset false with enable := true, pairs := [(0, { Pair.reset with
      st := .running, cfg := 1 + 4 * 2 + 4 * 32, sqTail := 1 })] }) live) false = true ∧ vf ≠ live.trim.admin ∧
    (hosted none desc [] 0).core.ctx? 5 = none ∧ (slotLeaving (hosted none desc [] 0)).core.leaving 9 = true ∧
    (ctxElsewhere (ctx 0)).owner ≠ pf ∧ (ctxElsewhere (ctx 0)).keySlot = 9 ∧
    (slotElsewhere (hosted none desc [] 0)).core.slot 9 = { KeySlot.reset with st := .active, gen := 1, fn := vf } := by
  refine ⟨⟨_, _, rfl, by decide +kernel⟩, ⟨⟨_, _, rfl, by decide +kernel⟩, ⟨_, _, rfl, by decide +kernel⟩, ⟨_, _, rfl, by decide +kernel⟩,
    by decide +kernel⟩, by decide +kernel⟩

/-- The segment that `cSubmit` describes and the die on which it is judged. -/
def submitted (s : State) : Core × Seg :=
  match (cSubmit 0).hostForm with
  | some (x, k) =>
    let c1 := (s.core.entered x k).ctxRead 5 x.dome
    (c1, newSeg c1.nextSeg 5 (s.core.take x).2 (hData x) false false)
  | none => (s.core, seg [] .parked)

/-- What the conditions on members and room give: the code, unplaceable, ready. -/
def judgement (s : State) : Nat × Bool × Bool :=
  let p := submitted s
  (p.1.memberCode pf 5 p.2.img p.2.resupport, p.1.unplaceable (small 0).length, p.1.ready p.2)

def cHash : Instr := .imageHash (cmd (entry 2 0 5 0 48 [(2, 63)]) (fields [(48, 5)]))

theorem witness_SegmentsSubmitted :
    (let s := hosted (some (ctx 0)) desc [] 2
     owned (cSubmit 0) s = true ∧ (ctx 0).enable = true ∧ judgement s = (0, false, true) ∧ owned cHash s = true ∧
     s.core.hostImages (ctx 0) = true ∧ (hosted (some (ctx 0)) desc [] 0).core.hostImages (ctx 0) = false ∧
     owned (.imageHashClear (cmd (entry 2 1 5 0 0 [(2, 63)]) [])) s = true) ∧
    (judgement (hosted (some (ctx 0)) .free [] 0)).1 = 0x0A1E ∧
    judgement (hosted (some (ctx 0)) { desc with st := .remote } [] 0) = (0, false, false) ∧
    hPark (entry 1 0 5 0xFFFF 1 []) = 0xFFFF ∧ hPark (entry 1 0 5 0 1 []) = 0 ∧
    (hosted none desc (List.replicate 4096 (seg [] .parked)) 0).core.parked = 4096 ∧
    judgement (hosted (some (ctx 0)) desc [seg (small 0) .waiting] 0) = (0, false, true) := by decide +kernel

/-- A segment too large to place beside a context that holds every unit. -/
theorem witness_SegmentsSubmitted_room :
    (let s := on (fun c => { c with gate := { c.gate with units := (List.range 1120).map (fun u => (u, .ctx 6)) } }) (hosted (some (ctx 0)) desc [] 0)
     s.core.unplaceable (25 * 2 ^ 20 + 1) = true ∧ s.core.unplaceable (25 * 2 ^ 20) = false) := by decide +kernel

/-- Commands on context 5. -/
def cCreate (fl : Nat) : Instr := .contextCreate (cmd (entry 0x10 0 5 0 128 []) (fields [(4, fl), (4, 9), (4, 7), (116, 0)]))
def cWrite : Instr := .contextWrite (cmd (entry 0x11 0 5 0 128 []) (fields [(4, 0), (4, 9), (4, 8), (116, 0)]))
def cEnable (e : Nat) : HostCmd := cmd (entry 0x12 0 5 0 0 [(1, e)]) []
def onlyCtx (op : Nat) (bytes : Nat) : HostCmd := cmd (entry op 0 5 0 bytes []) []

theorem witness_HostChecks_create :
    (let s := hosted (some (ctx 0)) desc [] 0
     turn (cCreate 0) s false = true ∧ (s.core.ctx? 5).isSome = true) := by decide +kernel

/-- Context 5, disabled, training adaptation 7, and one that trains none, with or without a program; a base READY. -/
def enabling (fl adapt tag : Nat) (prog : List Nat) : State :=
  on (fun c => c.setBase 0 ⟨.ready, tag, 4096, 0, none, false⟩)
    (hosted (some { ctx 0 with enable := false, raw := fields [(4, fl), (4, 9), (2, adapt), (2, 1), (116, 0)], prog := prog }) desc [] 0)

/-- The first check of R269 that context 5 fails there. -/
def enableCheck (s : State) : Option Nat :=
  match (Instr.contextEnable (cEnable 1)).hostForm with
  | some (x, k) => (s.core.ctx? 5).map (fun v => ((s.core.entered x k).ctxRead 5 x.dome).enableCode 5 (v.readBy x.dome))
  | none => none

theorem witness_ContextsManaged :
    (let s := hosted none desc [] 0
     accepted (cCreate 0) s [] = true ∧ s.core.leaving 9 = false ∧ s.core.ctx? 5 = none ∧
     (Ctx.fresh (rawCtx (fields [(4, 0), (4, 9), (4, 7), (116, 0)]))).keySlot = 9 ∧
     (Ctx.fresh (rawCtx (fields [(4, 0), (4, 9), (4, 7), (116, 0)]))).owner = pf ∧ accepted (cCreate 1) s [] = true ∧
     (slotLeaving s).core.leaving 9 = true ∧ accepted (cCreate 0) (slotLeaving s) [] = true) ∧
    (let s := hosted (some { ctx 0 with commit := ⟨2 ^ 32 - 1, 0, 0, 0⟩ }) desc [] 0
     accepted (cCreate 0) s [] = true ∧ owned cWrite s = true ∧ owned (.contextDelete (onlyCtx 0x13 0)) s = true ∧
     owned (.contextRead (onlyCtx 0x14 256)) s = true ∧ owned (.advanceStep (onlyCtx 0x19 0)) s = true ∧
     owned (.contextEnable (cEnable 1)) s = true ∧ owned (.contextDisable (cEnable 0)) s = true ∧ (ctx 0).stepOpen = false ∧
     { ctx 0 with record := { StepRec.idle with st := 1 } }.stepOpen = true) ∧
    (let s := enabling 2 7 0 [0]
     owned cWrite s = true ∧ owned (.contextDelete (onlyCtx 0x13 0)) s = true ∧ owned (.contextEnable (cEnable 1)) s = true ∧
     owned (.contextDisable (cEnable 0)) s = true ∧ enableCheck s = some 0 ∧ s.core.ctxs.rising = true ∧ s.core.segs = []) ∧
    enableCheck (enabling 0 0xFFFF 0 []) = some 0 ∧ enableCheck (enabling 2 7 1 []) = some 0x0A05 := by decide +kernel

/-- Tables of context 5: 32 chain words of zeros; rules of LDM, STM and END; a group of one page; a schedule of one row; a program of END. -/
def chainBytes : List Byte := fields [(1024, 0)]
def ruleBlock : List Byte := fields [(4, 1), (4, 0x18), (120, 0)]
def ruleBytes : List Byte := (List.replicate 32 ruleBlock).flatten

def groupBytes (pages : Nat) : List Byte := fields [(4, 0), (4, pages), (24, 0)]
def schedBytes (mode : Nat) : List Byte := fields [(2, 0x5354), (2, 1), (1, mode), (59, 0), (64, 0)]
def cChain (d : List Byte) : Instr := .loadChain (cmd (entry 0x15 0 5 0 1024 []) d)
def cRules (d : List Byte) : Instr := .loadRules (cmd (entry 0x16 0 5 0 4096 []) d)
def cGroups (d : List Byte) : Instr := .loadGroups (cmd (entry 0x17 0 5 0 32 [(2, 1)]) d)
def cSched (d : List Byte) : Instr := .loadSchedule (cmd (entry 0x18 0 5 0 128 [(2, 0)]) d)
def cRelease (w : Nat) : Instr := .loadRelease (cmd (entry 0x1A 0 5 0 8 [(2, 1)]) (fields [(8, w)]))

/-- Each of the 32 programs passes. -/
theorem rules_pass : (List.range 32).all (fun j => (ruleBad 0 0 0 [] (((words ruleBytes 0 4 1024).drop (32 * j)).take 32)).isNone) = true := by
  have hl : ruleBlock.length = 128 := by decide +kernel
  have hd (n m : Nat) (h : m ≤ n) : (List.replicate n ruleBlock).flatten.drop (128 * m) = (List.replicate (n - m) ruleBlock).flatten := by
    induction m generalizing n with
    | zero => rw [Nat.mul_zero, List.drop_zero, Nat.sub_zero]
    | succ m ih =>
      obtain ⟨n, rfl⟩ : ∃ k, n = k + 1 := ⟨n - 1, by omega⟩
      rw [List.replicate_succ, List.flatten_cons, Nat.mul_succ, Nat.add_comm, ← List.drop_drop, List.drop_left' hl, ih n (by omega),
        Nat.add_sub_add_right]
  have hw (j : Nat) (hj : j < 32) : ((words ruleBytes 0 4 1024).drop (32 * j)).take 32 = words ruleBlock 0 4 32 := by
    apply List.ext_getElem
    · simp [words]; omega
    · intro i h1 h2
      have hi : i < 32 := by simpa [words] using h2
      obtain ⟨k, hk⟩ : ∃ k, 32 - j = k + 1 := ⟨31 - j, by omega⟩
      simp only [words, List.getElem_take, List.getElem_drop, List.getElem_map, List.getElem_range, fieldLE, slice]
      rw [show 0 + 4 * (32 * j + i) = 128 * j + 4 * i by omega, ← List.drop_drop, ruleBytes, hd 32 j (by omega), hk, List.replicate_succ,
        List.flatten_cons, List.drop_append_of_le_length (by omega), List.take_append_of_le_length (by rw [List.length_drop]; omega), Nat.zero_add]
  rw [List.all_eq_true]
  intro j hj
  rw [hw j (List.mem_range.1 hj)]
  decide +kernel
theorem witness_TablesLoaded :
    (let s := hosted (some (ctx 2)) desc [] 2
     [cChain chainBytes, cRules ruleBytes, cGroups (groupBytes 1), cSched (schedBytes 1), cRelease 0].all (fun i => owned i s) = true ∧
     s.core.tableAllowed (ctx 2) 2 chainBytes = true ∧ s.core.tableAllowed (ctx 2) 3 ruleBytes = true ∧ s.core.inFlight 5 = false ∧
     (ctx 2).stepOpen = false ∧ (ctx 2).training = true ∧ (s.core.desc 7).pages = 1) ∧
    (hosted (some (ctx 2)) desc [seg (small 0) .queued] 2).core.inFlight 5 = true ∧
    (words chainBytes 0 32 32).all chainWordOk = true ∧ (words (fields [(8, 2 ^ 60), (1016, 0)]) 0 32 32).all chainWordOk = false ∧
    (List.range 32).all (fun j => (ruleBad 0 0 0 [] (((words (fields [(4096, 0)]) 0 4 1024).drop (32 * j)).take 32)).isNone) = false ∧
    ruleBad 0 0 0 [] (((words (fields [(4096, 0)]) 0 4 1024).drop (32 * 0)).take 32) = some 0 ∧ groupsBad 1 0 0 (parseGroups (groupBytes 1) 1) = none ∧ groupsBad 1 0 0 (parseGroups (groupBytes 2) 1) ≠ none ∧
    schedOk (schedBytes 1) 0 = true ∧ schedOk (schedBytes 3) 0 = false ∧ progBad [0] = none ∧ progBad [8 * 2 ^ 60] ≠ none := by decide +kernel

/-- A table that the tenant does not allow: HOST_IMAGES is clear, and the hash last allowed is another. -/
theorem witness_TablesLoaded_hash :
    (hosted (some { ctx 2 with allowed := [(2, Config.sha384 chainBytes + 1)] }) desc [] 0).core.tableAllowed
      { ctx 2 with allowed := [(2, Config.sha384 chainBytes + 1)] } 2 chainBytes = false := by
  have h : SMap.get 0 [(2, Config.sha384 chainBytes + 1)] 2 = Config.sha384 chainBytes + 1 := rfl
  have n (x : Digest) : x ≠ x + 1 := by
    intro e
    have := congrArg (· - x) e
    simp at this
  have g : (hosted (some { ctx 2 with allowed := [(2, Config.sha384 chainBytes + 1)] }) desc [] 0).core.hostImages
      { ctx 2 with allowed := [(2, Config.sha384 chainBytes + 1)] } = false := by decide +kernel
  unfold Core.tableAllowed
  simp only [g, h, Bool.false_or, decide_eq_false_iff_not]
  exact n _

/-- Commands on adaptation 7. -/
def cRegister (fl tpn : Nat) : HostCmd :=
  cmd (entry 0x20 fl 0xFFFF 0 8192 [(2, 9), (6, 0), (8, 0), (8, tpn), (8, 2)]) (fields [(2, 1), (2, 1), (2, 1), (8186, 0)])
def onAdapt (op bytes more : Nat) : HostCmd := cmd (entry op 0 0xFFFF 0 bytes [(2, 7), (2, more)]) []

/-- What a registration would write, and whether it is in range. -/
def registered (x : HostCmd) (s : State) : Bool := s.core.descOk (s.core.newDesc x (hData x))

theorem full_get (d : Desc) (n : Nat) : ∀ s i, s ≤ i → i < s + n → SMap.get .free ((List.range' s n).map (fun j => (j, d))) i = d := by
  induction n with
  | zero => intro s i h1 h2; omega
  | succ n ih =>
    intro s i h1 h2
    rw [List.range'_succ, List.map_cons, SMap.get]
    split
    · rfl
    · rw [if_neg (by omega)]
      exact ih (s + 1) i (by omega) (by omega)

/-- Every descriptor in use: no index is FREE. -/
theorem witness_full : (on (fun c => { c with dir := (List.range' 0 16384).map (fun j => (j, desc)) }) live).core.freeIndex = none := by
  unfold Core.freeIndex
  refine List.find?_eq_none.2 fun i hi => ?_
  have h : (on (fun c => { c with dir := (List.range' 0 16384).map (fun j => (j, desc)) }) live).core.desc i = desc :=
    full_get desc 16384 0 i (Nat.zero_le i) ((List.mem_range.1 hi).trans_eq (Nat.zero_add _).symm)
  rw [h]; decide

/-- Adaptation 7's whole run in frames of package 0, under slot 9's generation or another. -/
def wholeRun (gen : Nat) : State :=
  on (fun c => { c with mem := { c.mem with runs := [(7, ⟨9, gen, 0x1000, 96, false, [⟨0, 0, 6⟩]⟩)] } }) (hosted none desc [] 0)

theorem witness_AdaptationsManaged :
    (let s := hosted none desc [] 0
     [Instr.adaptRegister (cRegister 0 0x2000), .adaptRegister (cRegister 1 0x2000)].all (fun i => accepted i s [9]) = true ∧
     s.core.activeFor 9 pf = true ∧ s.core.freeIndex = some 0 ∧ registered (cRegister 0 0x2000) s = true ∧
     registered (cRegister 0 0x1000) s = false ∧ s.core.noMemory = false ∧ s.core.dir.rising = true ∧
     [Instr.adaptRead (onAdapt 0x21 128 0), .adaptRemove (onAdapt 0x22 0 0), .adaptPrefetch (onAdapt 0x23 0 1),
       .adaptWriteback (onAdapt 0x24 0 0)].all (fun i => ownedDesc i s) = true ∧
     (s.core.desc 7).st = .resident ∧ (s.core.desc 7).claimant = 0 ∧ (s.core.desc 7).fetch = none ∧ (s.core.desc 7).wb = none ∧
     bits (s.core.desc 7).tier2 0 2 = 2 ∧ s.core.serves (s.core.desc 7) 0 = true) ∧
    (let s := hosted none { desc with gen := 2 } [] 0
     ownedDesc (.adaptWriteback (onAdapt 0x24 0 0)) s = true ∧ s.core.serves (s.core.desc 7) 0 = false) ∧
    (slotElsewhere (hosted none desc [] 0)).core.activeFor 9 pf = false ∧
    (let s := hosted none { desc with st := .remote, training := false } [] 0
     ownedDesc (.adaptPrefetch (onAdapt 0x23 0 0)) s = true ∧ (s.core.desc 7).st = .remote ∧ (s.core.desc 7).claimant = 0) ∧
    (let s := hosted none { desc with claimant := 1, tier2 := 0, fetch := some ⟨false, false, [], false, []⟩ } [] 0
     ownedDesc (.adaptPrefetch (onAdapt 0x23 0 1)) s = true ∧ ownedDesc (.adaptRemove (onAdapt 0x22 0 0)) s = true ∧
     ownedDesc (.adaptWriteback (onAdapt 0x24 0 0)) s = true ∧ (s.core.desc 7).claimant ≠ 0 ∧
     (s.core.desc 7).fetch = some ⟨false, false, [], false, []⟩ ∧ bits (s.core.desc 7).tier2 0 2 = 0) ∧
    ((hosted none { desc with claimant := 1, st := .evicting } [] 0).core.desc 7).claimant ≠ 0 ∧
    (∀ g, g = 1 ∨ g = 2 → let s := wholeRun g
     accepted (.adaptRewrap (onAdapt 0x25 0 8)) s (s.core.descSlots 7 ++ [8]) = true ∧ s.core.ownsDesc pf 7 = true ∧
     s.core.rewrapCode pf 7 8 = 0 ∧ s.core.rewrapCode pf 7 10 ≠ 0 ∧
     (match ((s.core.dropCopies 7).readAll s.dram 7 ((s.core.desc 7).statePages (s.core.groupsOf 7) true)).2 with
      | .ok _ => 1
      | .error _ => 2) = g) := by
  refine ⟨by decide +kernel, by decide +kernel, by decide +kernel, by decide +kernel, by decide +kernel, by decide +kernel, ?_⟩
  rintro g (rfl | rfl) <;> decide +kernel

/-- Base slot 1 as `x` with its key slot ACTIVE; one run of one page for base slot `b`. -/
def based (b : Nat) (x : Base) : State :=
  on (fun c => { (c.setBase b x).setSlot (4096 + b) { KeySlot.reset with st := .active, gen := 1 } with
    dir := [], mem := { c.mem with runs := [(16640 + b, ⟨4096 + b, 1, 0, 1, false, [⟨0, 0, 1⟩]⟩)] } }) (hosted none desc [] 0)

def cBaseLoad (b tag bytes : Nat) : Instr := .baseLoad (cmd (entry 0x30 0 0xFFFF 0 0 [(2, b), (6, 0), (8, tag), (8, bytes)]) [])

theorem witness_BaseSlots : ∀ b, b = 0 ∨ b = 1 →
    (let s := based b .empty
     accepted (cBaseLoad b 3 4096) s [4096 + b] = true ∧ accepted (cBaseLoad b 3 0) s [4096 + b] = true ∧ (s.core.base b).st = .empty ∧
     s.core.gate.bases.length = 2 ∧ pf = s.trim.admin ∧ 3 ≠ (s.core.base (1 - b)).tag ∧ (s.core.slot (4096 + b)).st = .active ∧
     s.core.noMemory = false ∧ roundUp (ceilDiv 4096 4096) 16 ≤ s.core.comingFrames) ∧
    ((on (fun c => { c with mem := { c.mem with ctls := c.mem.ctls.set 0 { MemCtl.reset with trainFail := 1 } } }) (based b .empty)).core.noMemory = true) ∧
    (let s := based b ⟨.ready, 3, 4096, 0, none, false⟩
     accepted (cBaseLoad b 4 4096) s [4096 + b] = true ∧ (s.core.base b).st ≠ .empty ∧
     accepted (.baseFree (cmd (entry 0x31 0 0xFFFF 0 0 [(2, b)]) [])) s [4096 + b] = true ∧ (s.core.base b).st = .ready ∧
     s.core.dir.any (fun d => d.2.st != .free && d.2.baseTag = 3) = false ∧ ¬(s.core.keep.fwState = 2 ∧ s.core.keep.fwKind = 1)) ∧
    (on (fun c => { c with dir := [(7, { desc with baseTag := 3 })] }) (based b ⟨.ready, 3, 4096, 0, none, false⟩)).core.dir.any
      (fun d => d.2.st != .free && d.2.baseTag = 3) = true ∧
    (let s := based b ⟨.loading, 3, 4096, 0, some req, false⟩
     (s.core.base b).st = .loading ∧ (s.core.base b).req = some req ∧ s.core.answers req ∧ (s.core.runEnt (16640 + b)).isSome = true ∧
     (let y := Core.landBase b [1, 2, 3] s.core s.dram
      match (y.1.readAll y.2 (16640 + b) (List.range 1)).2 with
      | .ok _ => true
      | .error _ => false) = true) := by
  unfold Core.answers
  rintro b (rfl | rfl) <;> decide +kernel

/-! Functions, trusted interfaces, ports. -/

/-- Port 1 with VFs 1 to `n` enabled with 64 vectors each, VF 63 as `x` and selected, `m` VFs granted. -/
def granted (n m : Nat) (x : HostFn) : State :=
  on (fun c => { c with
    regs := [(hstBase 1 + 0x20, 63)]
    ports := [Port.reset, { Port.reset with numVfs := m, fns := (List.range' 1 n).map (fun k => (k, { HostFn.reset false with enable := true, vectors := 64 })) ++ [(63, x)] }]
    keep := { c.keep with slots := [(9, { KeySlot.reset with st := .active, gen := 1, fn := ⟨1, 63⟩ }), (10, { KeySlot.reset with st := .enabled, fn := ⟨1, 63⟩ })] } }) live

theorem witness_FunctionsResetAndServed :
    (let c := (granted 31 63 { HostFn.reset false with vectors := 1, flr := true }).core
     c.ports.length = 2 ∧ (∀ p ∈ c.ports, p.fns.rising = true) ∧ c.segs = [] ∧ (c.fn ⟨1, 63⟩).flr = true ∧ (c.fn ⟨1, 0⟩).flr = false ∧
     c.selFn 1 = ⟨1, 63⟩ ∧ (c.fn ⟨1, 63⟩).enable = false ∧ 63 ≤ (c.port 1).numVfs ∧ 2048 < c.vectorsOf 1 + (c.fn ⟨1, 63⟩).vectors) ∧
    (let c := (granted 30 63 { HostFn.reset false with vectors := 64 }).core
     c.vectorsOf 1 + (c.fn ⟨1, 63⟩).vectors ≤ 2048 ∧ (c.fn ⟨1, 63⟩).enable = false) ∧
    (granted 1 62 (.reset false)).core.selFn 1 = ⟨1, 63⟩ ∧ ((granted 1 62 (.reset false)).core.port 1).numVfs < 63 ∧
    (let c := (granted 1 63 { HostFn.reset false with enable := true }).core
     (c.fn (c.selFn 1)).enable = true ∧ c.keep.slots.rising = true ∧ ¬(c.keep.fwState = 2 ∧ c.keep.fwKind = 1) ∧
     (c.slot 9).fn = c.selFn 1 ∧ (c.slot 9).st = .active ∧ (c.slot 10).fn = c.selFn 1 ∧ (c.slot 10).st = .enabled) := by decide +kernel

/-- The PF of port 0 bound to stream `b`, stream 5 Secure, its TDI in state `st`; an activation window open or not. -/
def interface (st : TdiSt) (b : Nat) (window : Bool) : State :=
  on (fun c => { c with
    ports := [{ Port.reset with secure := [5], fns := [(0, { HostFn.reset true with tdi := st, stream := some b })] }, .reset]
    keep := { c.keep with fwState := if window then 2 else 0 } }) live

theorem witness_TrustedInterfaces :
    (∀ st b, let c := (interface st b false).core
      c.ports.length = 2 ∧ (c.port 0).fns.rising = true ∧ c.keep.open_ = true ∧ c.busy = false ∧ (c.fn pf).tdi = st ∧
      (c.port 0).secure.contains 5 = true ∧ (c.fn pf).stream = some b) ∧
    (interface .unlocked 5 false).core.streamSecure pf = true ∧ (interface .run 5 false).core.streamSecure pf = true ∧
    (interface .unlocked 63 false).core.streamSecure pf = false ∧
    (let c := (interface .unlocked 5 true).core
     c.ports.length = 2 ∧ (c.port 0).fns.rising = true ∧ c.keep.open_ = true ∧ c.busy = true ∧ (c.port 0).full 255 = false ∧
     ({ c.port 0 with secure := List.range 64 } : Port).full 255 = true ∧ ({ c.port 0 with linkIde := true } : Port).linkIde = true) :=
  ⟨fun st b => ⟨rfl, rfl, rfl, by unfold Core.busy; rfl, rfl, rfl, rfl⟩, by decide +kernel⟩

/-! Links. -/

/-- Links as given, every other at reset; registers set in order. -/
def linked (ls : List (Nat × LinkS)) (regs : List (Nat × Nat)) : State :=
  on (fun c => { c with
    regs := regs.foldl (fun m r => SMap.insert m r.1 r.2) []
    links := ls.foldl (fun xs l => xs.set l.1 l.2) c.links }) live

/-- A link that is UP; one that its state names. -/
def upLink : LinkS := { LinkS.reset with enable := true, st := .up, lanes := 2, partner := 7 }
def inState (st : LinkSt) (since : Nat) : LinkS := { LinkS.reset with enable := true, st := st, since := since }

/-- Nominal beat `n`. -/
def atNominal (n : Nat) (s : State) : State := on (fun c => { c with clk := { c.clk with nominal := n } }) s

/-- LNK_CTL.NEIGHBOUR of a link. -/
def nb (k n : Nat) : Nat × Nat := (lnkBase k, n * 2 ^ 8)

/-- A frame sent `n` times. -/
def sent (n seq : Nat) : Sent := ⟨{ localFrame 0x01 [] with seq := seq }, n, 0xFFFF⟩

theorem witness_LinksComeUpAndFall :
    (let c := (linked [] [nb 35 12]).core
     c.links.length = 36 ∧ (c.link 35).enable = false ∧ 11 < c.neighbour 35) ∧
    (let c := (linked ((List.range 6).map (fun k => (k, upLink))) ((List.range 6).map (nb · 11) ++ [nb 35 11])).core
     (c.link 35).enable = false ∧ c.neighbour 35 ≤ 11 ∧ 6 ≤ c.mates 35) ∧
    (let c := (linked ((List.range 5).map (fun k => (k, upLink))) ((List.range 6).map (nb · 11) ++ [nb 35 11])).core
     (c.link 35).enable = false ∧ c.neighbour 35 ≤ 11 ∧ c.mates 35 < 6) ∧
    (let c := (atNominal 25_000_000 (linked [(35, inState .training 0), (0, inState .training 1)] [])).core
     (c.link 35).st = .training ∧ (c.link 35).enable = true ∧ (c.link 35).since + 25_000_000 ≤ c.clk.nominal ∧
     (c.link 0).st = .training ∧ c.clk.nominal < (c.link 0).since + 25_000_000) ∧
    (let c := (atNominal 12_500_000 (linked [(35, inState .keying 0), (0, upLink)] [nb 0 3, nb 35 3, (lnkBase 35 + 8, 7)])).core
     (c.link 35).st = .keying ∧ c.linkWindow = false ∧ (c.link 35).since + 12_500_000 ≤ c.clk.nominal ∧ c.reg (lnkBase 35 + 8) ≠ 0 ∧
     c.reg (lnkBase 35 + 8) ≠ 8 ∧ c.reg (lnkBase 35 + 8) = 7 ∧
     (c.bundle (c.neighbour 35)).any (fun j => (c.link j).partner != 7) = false) ∧
    (let c := (linked [(35, inState .keying 0), (0, upLink)] [nb 0 3, nb 35 3]).core
     c.reg (lnkBase 35 + 8) = 0 ∧ (c.bundle (c.neighbour 35)).any (fun j => (c.link j).partner != 8) = true) ∧
    (let l := { upLink with replay := [sent 8 0], txCount := 2 ^ 63 - 2 ^ 20 }
     let c := (linked [(35, l), (0, { upLink with replay := [sent 7 0], txCount := 2 ^ 63 - 2 ^ 20 - 1 })] []).core
     (c.link 35).st = .up ∧ (c.link 35).replay.any (fun x => decide (8 ≤ x.times)) = true ∧ 2 ^ 63 - 2 ^ 20 ≤ (c.link 35).txCount ∧
     (c.link 0).replay.any (fun x => decide (8 ≤ x.times)) = false ∧ (c.link 0).txCount < 2 ^ 63 - 2 ^ 20) := by decide +kernel

/-- A transfer record for adaptation 7's fetch, or a relay's. -/
def xfer (role : XferRole) (frames : Nat) : Xfer :=
  { origin := 0, transfer := 3, slot := 9, gen := 1, links := [0, 35], deadline := 0, role := role, frames := frames, data := []
    out := none, back := some 2, retired := false, ended := false, total := none }

/-- Link 35 UP at nominal beat 65,536, with CAD_OUT or not, past its rekey threshold or not; the link image's window open or not. -/
def running (cad thr : Nat) (window : Bool) (l : LinkS) : State :=
  on (fun c => { c with
    blf := { c.blf with run := true }, tref := { c.tref with st := .locked }
    keep := { c.keep with fwState := if window then 2 else 0, fwKind := 3 } })
    (atNominal 65536 (linked [(35, l)] [(lnkBase 35, cad * 8), (lnkBase 35 + 0x38, thr)]))

theorem witness_LinksRun :
    (let c := (running 1 5 false { upLink with seqRx := 1, txCount := 5 }).core
     (c.link 35).st = .up ∧ c.clear 35 ∧ (c.link 35).unacked ≠ 0 ∧ (c.link 35).ackAt + 1250 ≤ c.clk.nominal ∧ c.linkWindow = false ∧
     (c.link 35).delayAt + 65536 ≤ c.clk.nominal ∧ c.reg (lnkBase 35 + 0x38) ≤ (c.link 35).txCount ∧ (c.link 35).rekeyWait = false ∧
     c.cadOut 35 = true ∧ c.blf.run = true ∧ c.tref.st = .locked) ∧
    (running 0 5 true { upLink with seqRx := 128 }).core.cadOut 35 = false ∧ 128 ≤ ((running 0 5 true { upLink with seqRx := 128 }).core.link 35).unacked ∧
    (running 0 5 true upLink).core.linkWindow = true ∧ ((running 0 5 true upLink).core.link 35).unacked = 0 ∧
    (let c := (on (fun c => { c with xfers := [xfer (.fetch 7) 0] }) (fetching true 0)).core
     (xfer (.fetch 7) 0).deadline ≤ c.clk.nominal ∧ (c.desc 7).fetch = some ⟨true, false, [req], true, []⟩ ∧ c.dir.rising = true ∧
     c.answers req) ∧
    (on (fun c => { c with segs := [] }) (fetching true 0)).core.segs = [] ∧
    (xfer .relay 0).deadline + 1_250_000 ≤ (atNominal 1_250_000 live).core.clk.nominal := by
  unfold Core.clear Core.answers; decide +kernel

/-- A frame of a type, its tag good or not, with the next SEQ or not. -/
def frame (type : Nat) (ok : Bool) (seq : Nat) (payload : List Byte) : Frame := { localFrame type payload with tagOk := ok, seq := seq }

/-- Link 35 UP that asked for its next frame already, or not. -/
def hearing (nak : Bool) : State := linked [(35, { upLink with nak := nak })] []

/-- Link 35 accepts the frame in state `s`, and has nothing to add. -/
def heardWell (s : State) (fr : Frame) : Bool :=
  let c := s.core
  let c1 := c.heard 35 fr
  decide ((c.link 35).st = .up) && fr.tagOk && decide (fr.seq = (c.link 35).seqRx) && (c1.link 35).queue.isEmpty &&
    decide ((c1.link 35).unacked < 128) && (c1.link 35).canSend && decide (c1.prc.state ≠ .holdover)

theorem hears_of (s : State) (fr : Frame) (h : heardWell s fr = true) :
    s.core.hears 35 fr.type fr ∧ (s.core.heard 35 fr).settled 35 ∧ (s.core.heard 35 fr).clear 35 := by
  simp only [heardWell, Bool.and_eq_true, decide_eq_true_eq, List.isEmpty_iff] at h
  obtain ⟨⟨⟨⟨⟨⟨h1, h2⟩, h3⟩, h4⟩, h5⟩, h6⟩, h7⟩ := h
  exact ⟨⟨h1, rfl, h2, h3⟩, ⟨h4, h5⟩, ⟨h6, h4, h7⟩⟩

/-- Two frames in the replay buffer, of which a NAK of SEQ 1 asks for the second. -/
def nakked : State := linked [(35, { upLink with replay := [sent 1 0, sent 1 1], seqTx := 2 })] []

def nakFrame : Frame := { frame 0x01 true 0 (ctlPayload true 1) with ack := 0xFFFF }

theorem witness_FramesHeard :
    (live.core.link 35).st ≠ .up ∧ live.core.links.length = 36 ∧ (hearing true).core.clear 35 ∧ ((hearing true).core.link 35).nak = true ∧
    (hearing false).core.clear 35 ∧ ((hearing false).core.link 35).nak = false ∧ (frame 0x10 false 0 []).tagOk = false ∧
    (frame 0x10 true 1 []).seq ≠ ((hearing true).core.link 35).seqRx ∧
    [0x01, 0x10, 0x09, 0x0A, 0x08, 0x0C, 0x0D, 0x0E].all (fun t => heardWell (hearing false) (frame t true 0 []) && (frame t true 0 []).type == t) = true ∧
    bit (fieldLE (frame 0x01 true 0 []).payload 0 1) 0 = false ∧
    (let l1 := (nakked.core.heard 35 nakFrame).link 35
     heardWell nakked nakFrame = true ∧ bit (fieldLE nakFrame.payload 0 1) 0 = true ∧ fieldLE nakFrame.payload 2 2 = 1 ∧
     l1.replay.any (fun x => ackedBy x.fr.seq 1 && decide (8 ≤ x.times)) = false ∧ l1.txCount + l1.replay.length ≤ 2 ^ 63 - 2 ^ 20 ∧
     l1.replay.any (fun x => ackedBy x.fr.seq 1) = true ∧ l1.replay.length = 2 ∧ nakked.core.segs = []) ∧
    fieldLE (frame 0x0A true 0 []).payload 0 8 = ((hearing false).core.link 35).delayT1 ∧
    fieldLE (frame 0x0A true 0 [1]).payload 0 8 ≠ ((hearing false).core.link 35).delayT1 ∧
    (let s := linked [(35, { upLink with samples := List.replicate 16 0 })] [(offTref, 35 * 2 ^ 8 + 2)]
     heardWell s (frame 0x08 true 0 []) = true ∧ bits (s.core.reg offTref) 8 6 = 35 ∧ 16 ≤ (s.core.link 35).samples.length ∧
     s.core.tref.st = .search ∧ 2 ∈ s.core.sourceOrder) ∧
    bits ((hearing false).core.reg offTref) 8 6 ≠ 35 ∧
    (let s := linked [(35, upLink)] [(offFwd 1, 2)]
     let fr := { frame 0x0C true 0 [] with route := 1, last := true, transfer := 3 }
     heardWell s fr = true ∧ fKind (s.core.fwd 1) = 2 ∧ fr.index < 256 ∧ s.core.keep.relayParts = []) ∧
    fieldLE (frame 0x0E true 0 (leBytes 8 live.trim.moduleId)).payload 0 8 = live.trim.moduleId := by
  unfold Core.clear
  decide +kernel

/-! Transfers: frames come on link 0 of neighbour 1; label 1 leads on by link 35 of neighbour 2, label 2 back by link 35, label 3 here. -/

def moving (x : Option Xfer) (s : State) : State :=
  let t := linked [(0, upLink), (35, upLink)] [nb 0 1, nb 35 2, (offFwd 1, 1 + 2 * 4), (offFwd 2, 1 + 2 * 4), (offFwd 3, 2)]
  on (fun c => { c with links := t.core.links, regs := t.core.regs, xfers := x.toList, segs := [] }) s

/-- A request of TRANSFER 3 by label `route`: OBJECT, descriptor 7's run, one page, its budget. -/
def reqFrame (route : Nat) (r : ReqF) : Frame :=
  { frame 0x02 true 0 r.bytes with route := route, ret := 2, transfer := 3 }

def ask (object budget mac : Nat) : ReqF := ⟨4, 9, 1, object, 7, 0x1000, budget, 0, mac, 0, 1, 0, 0⟩

/-- Link 0 accepts the frame, and link 35 can carry one on. -/
def carried (s : State) (fr : Frame) (type kind : Nat) : Bool :=
  let c := s.core
  decide ((c.link 0).st = .up ∧ fr.type = type ∧ fr.seq = (c.link 0).seqRx ∧ fKind (c.fwd fr.route) = kind ∧ c.links.length = 36) && fr.tagOk &&
    (c.link 35).canSend && (c.link 35).queue.isEmpty && decide (c.prc.state ≠ .holdover)

theorem carried_of (s : State) (fr : Frame) (type kind : Nat) (h : carried s fr type kind = true) :
    s.core.hears 0 type fr ∧ s.core.clear 35 ∧ fKind (s.core.fwd fr.route) = kind ∧ s.core.links.length = 36 := by
  simp only [carried, Bool.and_eq_true, decide_eq_true_eq, List.isEmpty_iff] at h
  obtain ⟨⟨⟨⟨⟨h1, h2, h3, h4, h5⟩, h6⟩, h7⟩, h8⟩, h9⟩ := h
  exact ⟨⟨h1, h2, h6, h3⟩, ⟨h7, h8, h9⟩, h4, h5⟩

theorem witness_TransfersMove :
    (let s := moving none live
     let c := s.core
     carried s (reqFrame 1 (ask 1 10 0)) 0x02 1 = true ∧ c.route 1 = [35] ∧ c.route 2 = [35] ∧ c.deduct 35 450_000 = 10 ∧
     (parseReq (ask 1 10 0).bytes).1.budget = 10 ∧ (parseReq (ask 1 9 0).bytes).1.budget = 9 ∧ c.tableFull = false ∧
     carried s (reqFrame 3 (ask 1 10 0)) 0x02 2 = true ∧
     (c.heard 0 (reqFrame 3 (ask 1 10 0))).refusal (parseReq (ask 1 10 0).bytes).1 (parseReq (ask 1 10 0).bytes).2 = 0x070A ∧
     carried s { reqFrame 3 (ask 1 10 0) with type := 0x03 } 0x03 2 = true ∧ c.record 0 3 = none ∧
     (c.heard 0 (reqFrame 3 (ask 1 10 0))).settled 0) ∧
    (let s := moving (some (xfer .relay 0)) live
     s.core.record 0 3 = some (xfer .relay 0) ∧ carried s { reqFrame 1 (ask 1 10 0) with type := 0x03 } 0x03 1 = true ∧
     carried s { reqFrame 1 (ask 1 10 0) with type := 0x04 } 0x04 1 = true) ∧
    (let s := moving (some (xfer (.fetch 7) 2)) (fetching true 0)
     s.core.record 0 3 = some (xfer (.fetch 7) 2) ∧ carried s { reqFrame 3 (ask 1 10 0) with type := 0x03 } 0x03 2 = true ∧
     carried s { reqFrame 3 (ask 1 10 0) with type := 0x04, payload := endPayload 0 2 } 0x04 2 = true ∧
     fieldLE (endPayload 0 2) 0 2 = 0 ∧ fieldLE (endPayload 0 2) 4 4 = 2 ∧ fieldLE (endPayload 0 3) 4 4 = 3) ∧
    (let s := moving (some (xfer (.source 7 4 0 1) 16)) (wholeRun 1)
     s.core.record 0 3 = some (xfer (.source 7 4 0 1) 16) ∧
     carried s { reqFrame 3 (ask 1 10 0) with type := 0x05 } 0x05 2 = true ∧ writeFrames 1 = 17 ∧ s.core.dir.rising = true ∧
     s.core.segs = [] ∧ (s.core.desc 7).st ≠ .free) := by
  unfold Core.settled
  decide +kernel

/-- A table with no room: 16,384 records that have not ended. -/
theorem witness_TransfersMove_full (c : Core) (n : Nat) (h : 16384 ≤ n) :
    ({ c with xfers := List.replicate n (xfer .relay 0) } : Core).tableFull = true := by
  simp [Core.tableFull, xfer, h]

theorem leNat_leBytes (n v : Nat) (h : v < 256 ^ n) : leNat (leBytes n v) = v := by
  induction n generalizing v with
  | zero => simp_all [leNat, leBytes]
  | succ n ih =>
    have h1 : v / 256 < 256 ^ n := by rw [Nat.div_lt_iff_lt_mul (by decide)]; rwa [Nat.pow_succ] at h
    have h2 : (BitVec.ofNat 8 v).toNat = v % 256 := by simp
    rw [leBytes, leNat, ih _ h1, h2]
    omega

theorem leBytes_length (n v : Nat) : (leBytes n v).length = n := by
  induction n generalizing v with
  | zero => rfl
  | succ n ih => simp [leBytes, ih]

theorem fieldLE_mid (a b : List Byte) (o n v : Nat) (ha : a.length = o) (h : v < 256 ^ n) : fieldLE (a ++ leBytes n v ++ b) o n = v := by
  have h1 : ((a ++ leBytes n v ++ b).drop o).take n = leBytes n v := by
    rw [List.append_assoc, List.drop_left' ha, List.take_left' (leBytes_length n v)]
  simp only [fieldLE, slice, h1, leBytes_length, Nat.sub_self, List.replicate_zero, List.append_nil, leNat_leBytes n v h]

/-- The first case of R375 that a write-back's request meets is none. -/
theorem serves (c : Core) (r : ReqF) (h1 : r.inside = true) (h2 : ¬ r.budget * 100 < 8 * r.frames) (h3 : r.object = 4)
    (h4 : (c.desc r.desc).st = .resident ∧ (c.desc r.desc).tpn = r.name ∧ (c.desc r.desc).gen = r.gen)
    (h5 : (c.objectPages r).2.length = r.count ∧ c.present? (c.objectPages r).1 (c.objectPages r).2 = true)
    (h6 : r.mac = r.macOf (c.slot (c.desc r.desc).keySlot).root)
    (h7 : (c.desc r.desc).pins = 0 ∧ (c.desc r.desc).trainCtx = 0xFFFF ∧ (c.desc r.desc).claimant = 0) (h8 : c.tableFull = false)
    (h9 : c.leaving (c.desc r.desc).keySlot = false) : c.refusal r true = 0 := by
  obtain ⟨h4a, h4b, h4c⟩ := h4
  obtain ⟨h5a, h5b⟩ := h5
  obtain ⟨h7a, h7b, h7c⟩ := h7
  have h2' : ¬ r.budget * 100 < 8 * r.frames := h2
  unfold Core.refusal
  simp only [h1, h2', h3, h4a, h4b, h4c, h5a, h5b, ← h6, h7a, h7b, h7c, h8, h9]
  simp

/-- The MAC of the request under slot 9's root, and the request. -/
def goodMac : Nat := (ask 4 10000 0).macOf 0
def good : ReqF := ask 4 10000 goodMac

theorem goodMac_lt : goodMac < 256 ^ 16 := by
  unfold goodMac ReqF.macOf
  rw [if_neg (by decide +kernel)]
  exact BitVec.isLt _

theorem good_mac : (parseReq good.bytes).1.mac = goodMac := by
  have h : good.bytes = good.head good.budget ++ leBytes 16 goodMac ++ (good.tail ++ leBytes 184 0) := by
    show good.head good.budget ++ leBytes 16 goodMac ++ good.tail ++ leBytes 184 0 = _
    simp only [List.append_assoc]
  show fieldLE good.bytes 0x20 16 = goodMac
  rw [h]
  exact fieldLE_mid _ _ _ _ _ (by decide +kernel) goodMac_lt

theorem witness_TransfersMove_source :
    (let s := moving none (wholeRun 1)
     let c1 := s.core.heard 0 (reqFrame 3 good)
     let p := parseReq (reqFrame 3 good).payload
     carried s (reqFrame 3 good) 0x02 2 = true ∧ c1.refusal p.1 p.2 = 0 ∧ p.1.object = 4) := by
  have hz : (parseReq (reqFrame 3 good).payload).2 = true := by decide +kernel
  refine ⟨by decide +kernel, ?_, by decide +kernel⟩
  rw [hz]
  refine serves _ _ (by decide +kernel) (by decide +kernel) (by decide +kernel) (by decide +kernel) (by decide +kernel) ?_ (by decide +kernel)
    (by decide +kernel) (by decide +kernel)
  have e : (parseReq (reqFrame 3 good).payload).1.mac = goodMac := good_mac
  rw [e]
  have o : (parseReq (reqFrame 3 good).payload).1.object = 4 := by decide +kernel
  have n : (parseReq (reqFrame 3 good).payload).1.origin = 4 := by decide +kernel
  have m : (parseReq (reqFrame 3 good).payload).1.nonce = 0 := by decide +kernel
  have hd : (parseReq (reqFrame 3 good).payload).1.head 0 = (ask 4 10000 0).head 0 := by decide +kernel
  have tl : (parseReq (reqFrame 3 good).payload).1.tail = (ask 4 10000 0).tail := by decide +kernel
  have root : ∀ c : Core, c = (moving none (wholeRun 1)).core.heard 0 (reqFrame 3 good) →
      (c.slot (c.desc (parseReq (reqFrame 3 good).payload).1.desc).keySlot).root = 0 := by rintro c rfl; decide +kernel
  rw [root _ rfl]
  unfold ReqF.macOf
  rw [o, n, m, hd, tl]
  rfl

/-! Firmware and boot. -/

/-- Kind 1 selected; every kind as `k`; staging, a window, or neither. -/
def flashed (k : FwKind) (st kind stage : Nat) : State :=
  on (fun c => { c with
    regs := [(0x20_0100, 1)]
    keep := { c.keep with fws := List.replicate 4 k, fwState := st, fwKind := kind, bootStage := stage, open_ := decide (stage = 4) }
    gate := { c.gate with ready := decide (stage = 4) } }) live

def image (svn : Nat) : FwImage := ⟨1, svn, 1, 5⟩
def bothFw (staged : Bool) : FwKind := ⟨some (image 3), some (image 4), false, staged, false, 2⟩
def oneFw : FwKind := ⟨some (image 1), some (image 2), false, false, false, 2⟩
def noFw : FwKind := ⟨some (image 1), some (image 0), false, false, false, 2⟩

theorem witness_FirmwareImages :
    (let c := (flashed (bothFw true) 0 0 4).core
     c.fwSel = 1 ∧ c.keep.fws.length = 4 ∧ c.keep.fwState = 0 ∧ (c.fw 1).staged = true) ∧
    ((flashed (bothFw false) 0 0 4).core.fw 1).staged = false ∧ (flashed (bothFw false) 1 4 4).core.keep.fwState = 1 ∧
    (flashed (bothFw false) 1 4 4).core.keep.fwKind = 4 ∧ (flashed (bothFw true) 2 1 4).core.keep.fwState = 2 ∧
    imageCode live.trim 2 1 [] = 0x0510 := by decide +kernel

theorem witness_BootStages :
    (∀ k, let c := (flashed k 0 0 0).core
      c.prc.powered = true ∧ c.keep.basic = false ∧ c.keep.fws.length = 4 ∧ c.keep.bootStage = 0 ∧ c.fw 1 = k) ∧
    (bothFw false).passes (bothFw false).active = true ∧ oneFw.passes oneFw.active = false ∧ oneFw.passes oneFw.other = true ∧
    noFw.passes noFw.active = false ∧ noFw.passes noFw.other = false ∧ (flashed oneFw 0 0 1).core.keep.bootStage = 1 ∧
    (flashed (bothFw false) 0 0 2).core.keep.bootStage = 2 ∧
    (∀ k, 2 ≤ k → k ≤ 4 → ((flashed (bothFw false) 0 0 2).core.fw k).passes ((flashed (bothFw false) 0 0 2).core.fw k).active = true) ∧
    (∃ k, 2 ≤ k ∧ k ≤ 4 ∧ ((flashed noFw 0 0 2).core.fw k).passes ((flashed noFw 0 0 2).core.fw k).active = false ∧
      ((flashed noFw 0 0 2).core.fw k).passes ((flashed noFw 0 0 2).core.fw k).other = false) ∧
    (let c := (on (fun c => { c with mem := { c.mem with ctls := c.mem.ctls.map (fun m => { m with init := true }) } }) (flashed (bothFw false) 0 0 3)).core
     c.keep.bootStage = 3 ∧ c.gate.ready = false ∧ c.mem.ctls.all (fun m => m.init || m.trainFail != 0) = true) ∧
    (flashed (bothFw false) 0 0 3).core.mem.ctls.all (fun m => m.init || m.trainFail != 0) = false := by
  refine ⟨fun k => ⟨rfl, rfl, rfl, rfl, rfl⟩, by decide +kernel, by decide +kernel, by decide +kernel, by decide +kernel, by decide +kernel,
    by decide +kernel, by decide +kernel, ?_, ⟨4, by decide +kernel⟩, by decide +kernel, by decide +kernel⟩
  intro k h1 h2
  have : k = 2 ∨ k = 3 ∨ k = 4 := by omega
  rcases this with rfl | rfl | rfl <;> decide +kernel

/-! The supply, the envelope, the regions, the resets. -/

/-- The PRC as `f` has it. -/
def prc (f : Prc → Prc) : State := on (fun c => { c with prc := f c.prc }) live
def unready (s : State) : State := on (fun c => { c with gate := { c.gate with ready := false } }) s

theorem witness_PowerAndInput :
    State.reset.core.prc.powered = false ∧
    (let p := live.core.prc
     p.powered = true ∧ live.core.gate.ready = true ∧ p.state = .normal ∧ p.band = 2 ∧ bandOf 5000 = 2 ∧
     [4399, 4400, 4599, 4600, 6000, 6001, 6400, 6401].map bandOf = [0, 1, 1, 2, 2, 3, 3, 4] ∧ p.bandLeft.getD 1 0 = 0 ∧ p.rippleAt = none) ∧
    (prc (fun p => { p with state := .low, band := 1 })).core.prc.state = .low ∧ (unready live).core.gate.ready = false ∧
    (prc (fun p => { p with state := .pfSafe })).core.prc.state = .pfSafe ∧
    (let c := (on (fun c => { c with blf := { c.blf with reqHoldover := 5 } }) (prc (fun p => { p with state := .holdover }))).core
     c.blf.reqHoldover ≠ 0 ∧ c.inputGood = true ∧ c.prc.state = .holdover ∧ c.gate.ready = true) ∧
    (let c := (atNominal 12_500_000_064 (prc (fun p => { p with rippleAt := some 64 }))).core
     c.prc.rippleAt = some 64 ∧ 64 + 12_500_000_000 ≤ c.clk.nominal) ∧
    (atNominal 12_500_000_063 (prc (fun p => { p with rippleAt := some 64 }))).core.clk.nominal < 64 + 12_500_000_000 := by decide +kernel

/-- 1 ms into an orderly stop, the small image's segment on tower 0. -/
def stopped (n : Nat) : State :=
  atNominal n (on (fun c => { c with prc := { c.prc with state := .stopping } })
    (seated (seg (small 0) .running) { tested with st := .running, seg := some 1, ctx := 5 }))

theorem witness_OrderlyStops :
    (let c := (prc (fun p => { p with vin := 3999, pwrgd := false })).core
     c.prc.powered = true ∧ c.gate.ready = true ∧ c.prc.state ≠ .stopping ∧ c.prc.state ≠ .pfSafe ∧ c.prc.vin < 4000 ∧ c.prc.pwrgd = false) ∧
    (prc (fun p => { p with state := .holdover })).core.prc.state = .holdover ∧
    (let c := (stopped 1_250_000).core
     let x := seg (small 0) .running
     c.prc.state = .stopping ∧ c.prc.stopAt + 1_250_000 ≤ c.clk.nominal ∧ c.segs = [x] ∧ x.st = .running ∧ c.towers.length = 64 ∧
     towersOf x.img.towerSet = [0] ∧ (c.tower 0).seg = some x.id ∧ (c.tower 0).st = .running ∧ c.answers x.req ∧ c.links.length = 36) ∧
    (stopped 1_249_999).core.clk.nominal < (stopped 1_249_999).core.prc.stopAt + 1_250_000 ∧ live.core.prc.state ≠ .stopping ∧
    (let p := (prc (fun p => { p with state := .pfSafe })).core.prc
     p.state = .pfSafe ∧ p.band = 2 ∧ p.pwrgd = true) := by unfold Core.answers; decide +kernel

/-- An envelope of 200 W accepted or staged at a window's first beat, a reservation of `w` W for the present window. -/
def enveloped (w : Nat) : State :=
  on (fun c => { c with
    clk := { c.clk with total := 4096, nominal := 4096 }
    pow := { c.pow with pending := some (200 + 10 * 2 ^ 16 + 10 * 2 ^ 32, 1), reservations := [⟨5, w, 1, 1⟩] }
    regs := [(0x30_0010, 200 + 10 * 2 ^ 16 + 10 * 2 ^ 32), (0x30_0018, 1)] }) live

theorem witness_EnvelopeApplied :
    (let c := (enveloped 300).core
     let q := 200 + 10 * 2 ^ 16 + 10 * 2 ^ 32
     let d : Core := { c with pow := { c.pow with envPower := q, envPhase := 1, pending := none } }
     envelopeOk (c.reg 0x30_0010) (c.reg 0x30_0018) = true ∧ c.pow.pending = some (q, 1) ∧ c.clk.first = true ∧ c.pow.since < c.window ∧
     bits q 0 16 < c.pow.maxPower ∧ d.exceeds d.eighths = true ∧ c.blf.reqOverdraw = 0 ∧ c.pow.maxPower < c.pow.maxPower + 1 ∧
     c.pow.maxPower + 1 < 2 ^ 16) ∧
    (let c := (enveloped 0).core
     let d : Core := { c with pow := { c.pow with envPower := 200 + 10 * 2 ^ 16 + 10 * 2 ^ 32, envPhase := 1, pending := none } }
     d.exceeds d.eighths = false) ∧
    envelopeOk 0 0 = false ∧ live.core.pow.pending = none ∧ (stretched 0 3).core.blf.reqOverdraw ≠ 0 := by decide +kernel

/-- Region 15 as `x`. -/
def regional (x : Region) : State := on (fun c => c.setRegion 15 x) live

theorem witness_RegionsGuarded :
    live.core.prc.regions.length = 16 ∧ live.core.towers.length = 64 ∧ (live.core.region 15).fenced = false ∧
    (let lv := live.core.level live.trim 15
     45 ≤ lv ∧ lv < 2 ^ 16 ∧ (lv - (lv - 24) = 24 ∧ lv - (lv - 25) = 25 ∧ lv - (lv - 45) = 45) ∧ lv ≤ (lv - 15) + 15 ∧ lv > (lv - 16) + 15) ∧
    (live.core.region 15).droop = 0 ∧ ((regional { Region.reset with droop := 2 }).core.region 15).droop = 2 ∧
    live.core.prc.powered = true ∧ ((regional { Region.reset with hot := 3 }).core.region 15).hot + 1 = 4 ∧ (live.core.region 15).hot + 1 < 4 ∧
    (live.core.region 15).thermal < thermalCode (live.core.region 15).thermal 95 ∧
    neighbours 14 15 = true ∧ neighbours 11 15 = true ∧ (live.core.region 14).fenced = false ∧ (live.core.region 11).fenced = false := by
  decide +kernel

/-- Region 15's reset asked for, under way or not, in an activation window or not. -/
def resetting (busy : Option Nat) (fw : Nat) : State :=
  on (fun c => { c with
    prc := { c.prc with busy := busy }, regs := [(0x30_0070, 15 * 2 ^ 8)], keep := { c.keep with fwState := fw, fwKind := 1 } }) live

theorem witness_ResetsTaken :
    (let c := (resetting none 0).core
     c.prc.regions.length = 16 ∧ c.towers.length = 64 ∧ c.takesReset = true ∧ c.prc.busy = none ∧ c.keep.fwState ≠ 2 ∧
     bits (c.reg 0x30_0070) 8 4 = 15 ∧ c.gate.ready = true ∧ c.keep.waiting = []) ∧
    (resetting none 2).core.takesReset = true ∧ (resetting none 2).core.keep.fwState = 2 ∧
    (let c := (resetting (some 15) 0).core
     c.prc.busy = some 15 ∧ [0, 0, 7, 0].length = 4 ∧
     (∀ i, i < 4 → (c.tower (4 * 15 + i)).testDone = false ∧ (c.tower (4 * 15 + i)).testEnd ≤ c.clk.nominal)) ∧
    (prc (fun p => { p with state := .stopping })).core.takesReset = false := by decide +kernel

/-! Facts of the spec's own tables and words. -/

/-- R57: of LOOPs at operations 1, 2 and 3 whose bodies begin at 0, the first is the one within two others. -/
theorem test_three_loops : progBad [3 * 2 ^ 60 + 1, 6 * 2 ^ 60 + 2 ^ 48, 6 * 2 ^ 60 + 2 ^ 48, 6 * 2 ^ 60 + 2 ^ 48, 0] = some 1 := by decide +kernel

/-- R209: of groups at pages 0 to 999 and 1,000 to 1,004 of a ten-page adaptation, the first is bad. -/
theorem test_first_bad_group :
    groupsBad 10 0 0 (parseGroups (fields [(4, 0), (4, 1000), (24, 0), (4, 1000), (4, 5), (24, 0)]) 2) = some 0 := by decide +kernel

/-- R12, R14: no register stands between the last memory controller and the memory of the links. -/
theorem test_block_map : regRow 0x90_0000 = none ∧ regRow 0xFF_FFF8 = none := by decide +kernel

/-- R96: TWR_STALL_LIMIT of tower 63 at reset, read whole and by halves. -/
theorem test_stall_limit_reset :
    [(0, 8), (0, 4), (4, 4)].map (fun p => State.reset.readReg ⟨State.reset.trim.admin, none⟩ 0 (twrBase 63 + 0x30 + p.1) p.2) =
      [some 0x100_0000, some 0x100_0000, some 0] := by decide +kernel

/-- R67, R93: a word of the register table holds START in bits 22 to 0 and STEP in bits 46 to 24. -/
theorem test_register_table :
    (((Tower.reset 0).start (seg [] .queued) { ((seg (small 0) .queued).img.prog 0).get (by decide +kernel) with
      regs := [5 + 2 ^ 22 * 2 ^ 24] } 0).areg 0) = ⟨5, 2 ^ 22⟩ := by decide +kernel

/-- R468: a LOCK set now leaves this beat's writes alone and drops the next beat's. -/
theorem test_lock_next_beat :
    (let c := (State.go (.lock pf 0x10_0000) live).core
     c.locked 0x10_0000 = false ∧ ({ c with clk := { c.clk with nominal := 65 } } : Core).locked 0x10_0000 = true) := by decide +kernel

end Sys2Proof.Tests
end

/-! The commands of time (02): what SYNTHETIC_PULSE, SOURCE_LOST and the wraps leave, in every case they act in, and the
modular order of cadence positions (R45). -/

namespace Sys2Proof.Machine

/-! The meanings as commands. -/

theorem exec_syntheticPulse (s : State) : exec .syntheticPulse s = .next (s.after s.core.syntheticPulse) := rfl

theorem exec_sourceLost (s : State) : exec .sourceLost s = .next (s.after s.core.sourceLost) := rfl

/-! Pulses of the synthetic train (R41 to R43). -/

theorem Core.countPulse_blf (c : Core) (late : Nat) : (c.countPulse late).blf =
    if c.blf.run then { c.blf with pulses := c.blf.pulses + 1, elapsed := late, fracP := c.period } else c.blf := by
  unfold Core.countPulse
  split <;> rfl

/-- Counting a pulse moves the Belfry's part alone, and P, the only part of the reference it reads, is not the train's. -/
theorem Core.countPulse_of_train (c : Core) (r : Tref) (late : Nat) (hp : r.period = c.tref.period) :
    ({ c with tref := r } : Core).countPulse late = { c with tref := r, blf := (c.countPulse late).blf } := by
  have hperiod : ({ c with tref := r } : Core).period = c.period := by
    unfold Core.period Tref.p
    rw [hp]
    rfl
  rw [Core.countPulse_blf, ← hperiod]
  unfold Core.countPulse
  split <;> rfl

/-- The pulse that is due while no source is LOCKED. -/
theorem Core.syntheticPulse_of_due (c : Core) (hst : c.tref.st ≠ .locked) (hdue : c.tref.train + c.trainPeriod ≤ c.clk.nominal) :
    c.syntheticPulse = { c with
      tref := { c.tref with
        train := c.tref.train + c.trainPeriod
        trainP := if c.tref.st = .locking then c.slewed (c.tref.train + c.trainPeriod) else c.tref.trainP }
      blf := (c.countPulse (c.clk.nominal - (c.tref.train + c.trainPeriod))).blf } := by
  have hact : ¬ (c.tref.st = .locked ∨ c.clk.nominal < c.tref.train + c.trainPeriod) := by
    rintro (h | h)
    · exact hst h
    · omega
  unfold Core.syntheticPulse
  rw [if_neg hact]
  exact Core.countPulse_of_train c _ _ rfl

/-- In LOCKING the train's period changes by at most 1/1,000 (R42). -/
theorem Core.slewed_bounds (c : Core) (due : Nat) :
    c.trainPeriod - c.trainPeriod / 1000 ≤ c.slewed due ∧ c.slewed due ≤ c.trainPeriod + c.trainPeriod / 1000 := by
  unfold Core.slewed
  exact ⟨le_max_left _ _, max_le (by omega) (min_le_left _ _)⟩

/-! A lost source (R41). -/

theorem Core.nextSource_iff (c : Core) (src : Nat) :
    c.nextSource src = true ↔ ∃ k ∈ c.sourceOrder, k < 3 ∧ k ≠ src := by
  simp [Core.nextSource]

/-- A LOCKED source past 1.5 tracked periods: the train goes on from the edge that was due, which is counted. -/
theorem Core.sourceLost_of_locked (c : Core) (hst : c.tref.st = .locked)
    (hlate : 3 * c.period < (c.clk.nominal - c.tref.lastPulse) * 2) :
    c.sourceLost = ({ c with
      tref := { c.tref with
        st := .freeRun, active := 3, train := c.tref.lastPulse + c.period, trainP := c.period, good := 0 }
      blf := (c.countPulse (c.clk.nominal - (c.tref.lastPulse + c.period))).blf } : Core).raise
        ⟨0x0312, 0xFFFF, 0, 0, 0, 0xFFFF, 0⟩ := by
  unfold Core.sourceLost
  simp only [hst, if_neg (not_le.mpr hlate)]
  exact congrArg (Core.raise · _) (Core.countPulse_of_train c _ _ rfl)

/-- A source lost while LOCKING: the reference goes back to FREE_RUN only from there and with another source configured
(log 22). -/
theorem Core.sourceLost_of_locking (c : Core) (hst : c.tref.st = .locking)
    (hlate : 3 * c.period < (c.clk.nominal - c.tref.lastPulse) * 2) :
    c.sourceLost = { c with tref := { c.tref with
      st := if c.tref.wasFree = true ∧ (∃ k ∈ c.sourceOrder, k < 3 ∧ k ≠ c.tref.active) then .freeRun else .search
      active := 3, good := 0 } } := by
  have hback : (c.tref.wasFree && c.nextSource c.tref.active) = true ↔
      c.tref.wasFree = true ∧ ∃ k ∈ c.sourceOrder, k < 3 ∧ k ≠ c.tref.active := by
    rw [Bool.and_eq_true, Core.nextSource_iff]
  unfold Core.sourceLost
  simp only [hst, if_neg (not_le.mpr hlate), if_congr hback rfl rfl]

/-! The wraps (R34, R45, R448). -/

theorem exec_beatCounterWrap_of_passed (s : State) (h : s.core.blf.wraps < s.core.clk.total / 2 ^ 64) :
    exec .beatCounterWrap s = .next (s.after
      ({ s.core with blf := { s.core.blf with wraps := s.core.blf.wraps + 1 } }.raise ⟨0x0315, 0xFFFF, 0, 0, 0, 0xFFFF, 0⟩)) := by
  change s.act _ = _
  rw [State.act_next, if_pos h]
  rfl

theorem exec_cpWrap_of_passed (s : State) (h : 2 ^ 40 ≤ s.core.blf.pulses) :
    exec .cpWrap s = .next (s.after
      ({ s.core with blf := { s.core.blf with pulses := s.core.blf.pulses % 2 ^ 40 } }.raise
        ⟨0x0315, 0xFFFF, 0, 0, 0, 0xFFFF, 0⟩)) := by
  change s.act _ = _
  rw [State.act_next, if_pos h]
  rfl

theorem exec_calendarWrap_of_passed (s : State) (hnow : 10 * 2 ^ 64 ≤ s.core.clk.calNow) (hcal : 10 * 2 ^ 64 ≤ s.core.clk.cal) :
    exec .calendarWrap s =
      .next (s.after { s.core with clk := { s.core.clk with cal := s.core.clk.cal % (10 * 2 ^ 64) } }) := by
  change s.act _ = _
  rw [State.act_next, if_pos ⟨hnow, hcal⟩]

/-- With the slew on top the calendar still stands one whole turn lower after its wrap. -/
theorem Clock.calNow_wrapped (k : Clock) (hcal : 10 * 2 ^ 64 ≤ k.cal) (htwo : k.cal < 20 * 2 ^ 64) :
    ({ k with cal := k.cal % (10 * 2 ^ 64) } : Clock).calNow = k.calNow - 10 * 2 ^ 64 := by
  have hmod : k.cal % (10 * 2 ^ 64) = k.cal - 10 * 2 ^ 64 := by omega
  simp only [Clock.calNow, hmod]
  generalize k.slewD * (min k.slewE k.slewN : Nat) / (max k.slewN 1 : Nat) = slew
  omega

/-- A wrap of the calendar leaves calendar time, which is read modulo 2^64 ns, as it was (R448). -/
theorem Clock.time_wrapped (k : Clock) (hnow : 10 * 2 ^ 64 ≤ k.calNow) (hcal : 10 * 2 ^ 64 ≤ k.cal) (htwo : k.cal < 20 * 2 ^ 64) :
    ({ k with cal := k.cal % (10 * 2 ^ 64) } : Clock).time = k.time := by
  unfold Clock.time
  rw [Clock.calNow_wrapped k hcal htwo]
  omega

/-- A meaning that sends nothing, on a state with nothing waiting, leaves the recorder as it is. -/
theorem State.after_evr_of_quiet (s : State) (c : Core) (hout : c.outbox = s.core.outbox) (hq : s.quiet) :
    (s.after c).evr = s.evr := by
  have hnone : c.outbox = [] := hout.trans hq
  rw [State.after_evr, hnone]
  rfl

/-! The order of cadence positions (R45). -/

/-- `atOrAfter` decides the spec's comparison: the difference modulo 2^64, taken over the integers, is below 2^63. -/
theorem atOrAfter_iff (a b : Nat) (hb : b < 2 ^ 64) :
    atOrAfter a b = true ↔ ((a : Int) - (b : Int)) % 2 ^ 64 < 2 ^ 63 := by
  unfold atOrAfter
  rw [decide_eq_true_iff]
  omega

/-! The statement, one theorem for each command's clause. -/

theorem syntheticPulse_advances (s : State) (hdue : s.core.tref.train + s.core.trainPeriod ≤ s.core.clk.nominal) :
    let c := s.core
    let due := c.tref.train + c.trainPeriod
    let blf := if c.blf.run then { c.blf with pulses := c.blf.pulses + 1, elapsed := c.clk.nominal - due, fracP := c.period } else c.blf
    ((c.tref.st = .search ∨ c.tref.st = .freeRun) →
      exec .syntheticPulse s = .next (s.after { c with tref := { c.tref with train := due }, blf := blf })) ∧
    (c.tref.st = .locking → ∃ t, exec .syntheticPulse s = .next t ∧ t.core.tref.train = due ∧ t.core.blf = blf ∧
      c.trainPeriod - c.trainPeriod / 1000 ≤ t.core.tref.trainP ∧
      t.core.tref.trainP ≤ c.trainPeriod + c.trainPeriod / 1000) := by
  intro c due blf
  constructor
  · intro hst
    have hlocked : c.tref.st ≠ .locked := by rcases hst with h | h <;> simp [h]
    have hlocking : c.tref.st ≠ .locking := by rcases hst with h | h <;> simp [h]
    rw [exec_syntheticPulse, Core.syntheticPulse_of_due _ hlocked hdue, if_neg hlocking, Core.countPulse_blf]
  · intro hst
    have hlocked : c.tref.st ≠ .locked := by simp [hst]
    refine ⟨_, exec_syntheticPulse s, ?_⟩
    rw [Core.syntheticPulse_of_due _ hlocked hdue, if_pos hst, Core.countPulse_blf, State.after_tref, State.after_blf]
    exact ⟨rfl, rfl, c.slewed_bounds due⟩

theorem calendarWrap_keeps_time (s : State) (hnow : 10 * 2 ^ 64 ≤ s.core.clk.calNow) (hcal : 10 * 2 ^ 64 ≤ s.core.clk.cal)
    (htwo : s.core.clk.cal < 20 * 2 ^ 64) :
    ∃ t, exec .calendarWrap s = .next t ∧ t.core.clk.cal = s.core.clk.cal % (10 * 2 ^ 64) ∧ t.core.clk.time = s.core.clk.time ∧
      t.core.blf = s.core.blf ∧ t.core.tref = s.core.tref ∧ (s.quiet → t.evr = s.evr) := by
  refine ⟨_, exec_calendarWrap_of_passed s hnow hcal, ?_, ?_, ?_, ?_, State.after_evr_of_quiet s _ rfl⟩
  · rw [State.after_clk]
  · rw [State.after_clk]
    exact Clock.time_wrapped s.core.clk hnow hcal htwo
  · rw [State.after_blf]
  · rw [State.after_tref]

/-- Settles O17: each command's meaning in the case it acts in, the calendar's reading after its wrap, and the comparison of
R45 by arithmetic modulo 2^64. -/
theorem pulsesAndWraps : Obligations.PulsesAndWraps := by
  unfold Obligations.PulsesAndWraps
  refine ⟨⟨syntheticPulse_advances, fun s hst hlate => ?_, fun s hst hlate => ?_, fun c => rfl⟩,
    exec_beatCounterWrap_of_passed, exec_cpWrap_of_passed, calendarWrap_keeps_time, fun a b _ hb => atOrAfter_iff a b hb⟩
  · rw [exec_sourceLost, Core.sourceLost_of_locked _ hst hlate, Core.countPulse_blf]
  · rw [exec_sourceLost, Core.sourceLost_of_locking _ hst hlate]

end Sys2Proof.Machine

/-! The life of a key slot (11): what enabling, retirement and its broadcast leave, and that zeroization leaves nothing of the
slot (R303, R306, R320 to R326). -/

namespace Sys2Proof.Machine

/-! The meanings as commands. -/

/-- What the administration PF asks for is done (R334). -/
theorem adminAct_admin (s : State) (g : Core → Core) : adminAct s.trim.admin g s = .next (s.after (g s.core)) := by
  unfold adminAct
  rw [State.actT_next, if_pos rfl]

theorem exec_slotEnableSet_admin (s : State) : exec (.slotEnableSet s.trim.admin) s = .next (s.after s.core.slotEnable) :=
  adminAct_admin s _

theorem exec_slotEnableClear_admin (s : State) : exec (.slotEnableClear s.trim.admin) s = .next (s.after s.core.retireSel) :=
  adminAct_admin s _

theorem exec_slotRetire_admin (s : State) : exec (.slotRetire s.trim.admin) s = .next (s.after s.core.retireSel) :=
  exec_slotEnableClear_admin s

theorem exec_retireBroadcast (s : State) (k : Nat) (u : RetireUnit) :
    exec (.retireBroadcast k u) s = .next (s.after (s.core.broadcast k u s.trim)) := rfl

theorem exec_zeroization (s : State) (k : Nat) : exec (.zeroization k) s = .next (s.after (s.core.zeroization k s.trim)) := rfl

theorem exec_drainTimeout (s : State) (k : Nat) : exec (.drainTimeout k) s = .next (s.after (s.core.drainTimeout k s.trim)) := rfl

theorem exec_slotFreed (s : State) (k : Nat) : exec (.slotFreed k) s = .next (s.after (s.core.slotFreed k)) := rfl

/-! SLOT_ENABLE and the retirement of the selected slot (R303, R306, R320). -/

theorem Core.slotEnable_of_free (c : Core) (hi : c.selSlot < 4096) (hst : (c.slot c.selSlot).st = .free) :
    c.slotEnable =
      if (c.fn (c.slot c.selSlot).fn).enable = false then c.keepRefuse 0x0502 c.selSlot
      else if 0xFFFF ≤ (c.slot c.selSlot).floor then c.keepRefuse 0x0503 c.selSlot
      else c.setSlot c.selSlot { c.slot c.selSlot with st := .enabled } := by
  unfold Core.slotEnable
  simp only [hst, SlotSt.reads, Bool.false_eq_true, false_and, if_false]
  rw [if_neg (by simpa using hi)]
  simp

theorem Core.slotEnable_of_spent (c : Core) (hst : (c.slot c.selSlot).st = .zeroizing ∨ (c.slot c.selSlot).st = .dead) :
    c.slotEnable = c.keepRefuse 0x0501 c.selSlot := by
  unfold Core.slotEnable
  rcases hst with h | h <;> simp [h, SlotSt.reads]

/-- Outside the Keep's activation window the selected tenant slot is retired at once (R320, R407). -/
theorem Core.retireSel_of_open (c : Core) (hi : c.selSlot < 4096) (hw : ¬ (c.keep.fwState = 2 ∧ c.keep.fwKind = 1)) :
    c.retireSel = c.retireNow c.selSlot := by
  unfold Core.retireSel Core.retire
  rw [if_pos hi, if_neg hw]

theorem Core.retireNow_of_enabled (c : Core) (i : Nat) (hst : (c.slot i).st = .enabled) :
    c.retireNow i = c.setSlot i { c.slot i with st := .free } := by
  unfold Core.retireNow
  simp only [hst]

theorem Core.retireNow_of_active (c : Core) (i : Nat) (hst : (c.slot i).st = .active) :
    c.retireNow i = c.setSlot i { c.slot i with st := .retiring, deadline := c.clk.nominal + 62_500_000, told := [] } := by
  unfold Core.retireNow
  simp only [hst, drainBeats]

/-! What a slot reads after a write that is not its reset value: such a write is never an erasure. -/

theorem SMap.get_set_of_ne {α : Type} [DecidableEq α] (d : α) (m : SMap α) (k j : Nat) (v : α) (hv : v ≠ d) :
    SMap.get d (SMap.set d m k v) j = if j = k then v else SMap.get d m j := by
  unfold SMap.set
  rw [if_neg hv]
  exact SMap.get_insert d m k j v

theorem Core.slot_setSlot_of_ne (c : Core) (k j : Nat) (x : KeySlot) (hx : x ≠ .reset) :
    (c.setSlot k x).slot j = if j = k then x else c.slot j :=
  SMap.get_set_of_ne KeySlot.reset c.keep.slots k j x hx

/-! The broadcast (R321). -/

theorem Core.broadcast_of_silent (c : Core) (k : Nat) (u : RetireUnit) (tr : Trim) (hst : (c.slot k).st = .retiring)
    (hu : unitNum u ∉ (c.slot k).told) (hsilent : u = .host ∨ ∃ m, u = .memory m) :
    c.broadcast k u tr = c.setSlot k { c.slot k with told := (c.slot k).told ++ [unitNum u] } := by
  have hgo : ¬ ((c.slot k).st ≠ .retiring ∨ (c.slot k).told.contains (unitNum u) = true) := by simp [hst, hu]
  unfold Core.broadcast
  rw [if_neg hgo]
  obtain rfl | ⟨m, rfl⟩ := hsilent <;> rfl

/-- A unit acts, and then counts as told, whatever it did. -/
theorem Core.broadcast_of_untold (c : Core) (k : Nat) (u : RetireUnit) (tr : Trim) (hst : (c.slot k).st = .retiring)
    (hu : unitNum u ∉ (c.slot k).told) :
    ∃ d : Core, c.broadcast k u tr = d.setSlot k { d.slot k with told := (c.slot k).told ++ [unitNum u] } ∧
      (u = .gatehouse → d = c.tellGate tr k) := by
  have hgo : ¬ ((c.slot k).st ≠ .retiring ∨ (c.slot k).told.contains (unitNum u) = true) := by simp [hst, hu]
  unfold Core.broadcast
  rw [if_neg hgo]
  exact ⟨_, rfl, by rintro rfl; rfl⟩

theorem Core.slot_told_of_ne_nil (d : Core) (k : Nat) (told : List Nat) (h : told ≠ []) :
    ((d.setSlot k { d.slot k with told := told }).slot k).told = told := by
  rw [Core.slot_setSlot_of_ne, if_pos rfl]
  exact fun he => h (congrArg KeySlot.told he)

theorem Core.broadcast_told (c : Core) (k : Nat) (u : RetireUnit) (tr : Trim) (hst : (c.slot k).st = .retiring)
    (hu : unitNum u ∉ (c.slot k).told) : ((c.broadcast k u tr).slot k).told = (c.slot k).told ++ [unitNum u] := by
  obtain ⟨d, hd, -⟩ := c.broadcast_of_untold k u tr hst hu
  rw [hd]
  exact d.slot_told_of_ne_nil k _ (by simp)

@[simp] theorem State.after_slot (s : State) (c : Core) (k : Nat) : (s.after c).core.slot k = c.slot k := by simp [Core.slot]

@[simp] theorem State.after_desc (s : State) (c : Core) (i : Nat) : (s.after c).core.desc i = c.desc i := by simp [Core.desc]

theorem exec_retireBroadcast_told (s : State) (k : Nat) (u : RetireUnit) (hst : (s.core.slot k).st = .retiring)
    (hu : unitNum u ∉ (s.core.slot k).told) :
    ∃ t, exec (.retireBroadcast k u) s = .next t ∧ (t.core.slot k).told = (s.core.slot k).told ++ [unitNum u] := by
  refine ⟨_, exec_retireBroadcast s k u, ?_⟩
  rw [State.after_slot, Core.broadcast_told _ _ _ _ hst hu]

/-! What the Gatehouse and the Belfry do to requests never gives a slot anything: the relation their operations keep. -/

/-- From `c` to `d` nothing comes to any key slot: each slot keeps its state and its root, no descriptor is filled or passes to
another slot, no context is added or passes to another slot, and what waits for the recorder still does. -/
structure Core.NoGain (c d : Core) : Prop where
  slot : ∀ j, (d.slot j).st = (c.slot j).st ∧ (d.slot j).root = (c.slot j).root
  dirRising : c.dir.rising = true → d.dir.rising = true
  desc : c.dir.rising = true → ∀ j, (d.desc j).st ≠ .free → (c.desc j).st ≠ .free ∧ (d.desc j).keySlot = (c.desc j).keySlot
  ctxsRising : c.ctxs.rising = true → d.ctxs.rising = true
  ctxs : ∀ e ∈ d.ctxs, ∃ b ∈ c.ctxs, b.1 = e.1 ∧ b.2.keySlot = e.2.keySlot
  outbox : c.outbox <+: d.outbox

namespace Core.NoGain

theorem refl (c : Core) : c.NoGain c :=
  ⟨fun _ => ⟨rfl, rfl⟩, id, fun _ _ h => ⟨h, rfl⟩, id, fun e he => ⟨e, he, rfl, rfl⟩, List.prefix_rfl⟩

theorem trans {c d e : Core} (h : c.NoGain d) (g : d.NoGain e) : c.NoGain e where
  slot j := ⟨(g.slot j).1.trans (h.slot j).1, (g.slot j).2.trans (h.slot j).2⟩
  dirRising hr := g.dirRising (h.dirRising hr)
  desc hr j hj := by
    obtain ⟨hj', hk'⟩ := g.desc (h.dirRising hr) j hj
    obtain ⟨hj'', hk''⟩ := h.desc hr j hj'
    exact ⟨hj'', hk'.trans hk''⟩
  ctxsRising hr := g.ctxsRising (h.ctxsRising hr)
  ctxs e he := by
    obtain ⟨b, hb, hb1, hb2⟩ := g.ctxs e he
    obtain ⟨a, ha, ha1, ha2⟩ := h.ctxs b hb
    exact ⟨a, ha, ha1.trans hb1, ha2.trans hb2⟩
  outbox := h.outbox.trans g.outbox

/-- An operation that touches none of the four parts, but may send events. -/
theorem of_frame {c d : Core} (hk : d.keep.slots = c.keep.slots) (hd : d.dir = c.dir) (hx : d.ctxs = c.ctxs)
    (ho : c.outbox <+: d.outbox) : c.NoGain d where
  slot j := by simp only [Core.slot, hk, and_self]
  dirRising hr := by rwa [hd]
  desc _ j hj := by
    have hj' : d.desc j = c.desc j := by simp only [Core.desc, hd]
    rw [hj'] at hj ⊢
    exact ⟨hj, rfl⟩
  ctxsRising hr := by rwa [hx]
  ctxs e he := ⟨e, hx ▸ he, rfl, rfl⟩
  outbox := ho

/-- An operation that touches none of the four parts. -/
theorem of_eq {c d : Core} (hk : d.keep.slots = c.keep.slots) (hd : d.dir = c.dir) (hx : d.ctxs = c.ctxs)
    (ho : d.outbox = c.outbox) : c.NoGain d :=
  of_frame hk hd hx (ho ▸ List.prefix_rfl)

theorem ite {c d e : Core} {p : Prop} [Decidable p] (hd : c.NoGain d) (he : c.NoGain e) : c.NoGain (if p then d else e) := by
  split
  · exact hd
  · exact he

theorem foldl {α : Type} (f : Core → α → Core) (hf : ∀ (c : Core) (x : α), c.NoGain (f c x)) (xs : List α) :
    ∀ c : Core, c.NoGain (xs.foldl f c) := by
  induction xs with
  | nil => exact refl
  | cons x xs ih => exact fun c => (hf c x).trans (ih _)

/-- The same of acts that answer something besides the die. -/
theorem foldl_fst {α β : Type} (f : Core × β → α → Core × β) (hf : ∀ (r : Core × β) (x : α), r.1.NoGain (f r x).1)
    (xs : List α) :
    ∀ r : Core × β, r.1.NoGain (xs.foldl f r).1 := by
  induction xs with
  | nil => exact fun r => refl r.1
  | cons x xs ih => exact fun r => (hf r x).trans (ih _)

end Core.NoGain

/-! The accessors. -/

namespace Core

theorem noGain_raise (c : Core) (ev : Event) : c.NoGain (c.raise ev) :=
  .of_frame rfl rfl rfl (List.prefix_append _ _)

theorem noGain_bump (c : Core) (o n : Nat) : c.NoGain (c.bump o n) := by
  refine .of_frame (by simp) (by simp) (by simp) ?_
  rcases c.bump_outbox o n with h | h <;> rw [h]
  exact List.prefix_append _ _

theorem noGain_setSlot (c : Core) (k : Nat) (x : KeySlot) (hst : x.st = (c.slot k).st) (hroot : x.root = (c.slot k).root)
    (hx : x ≠ .reset) : c.NoGain (c.setSlot k x) := by
  refine { NoGain.refl c with slot := fun j => ?_ }
  rw [c.slot_setSlot_of_ne k j x hx]
  split
  case isTrue h => exact h ▸ ⟨hst, hroot⟩
  case isFalse => exact ⟨rfl, rfl⟩

theorem noGain_setDesc (c : Core) (i : Nat) (x : Desc)
    (hx : x.st ≠ .free → (c.desc i).st ≠ .free ∧ x.keySlot = (c.desc i).keySlot) : c.NoGain (c.setDesc i x) := by
  refine { NoGain.refl c with dirRising := SMap.rising_set i x, desc := fun hr j => ?_ }
  rw [c.desc_setDesc i j x hr]
  split
  case isTrue h => exact h ▸ hx
  case isFalse => exact fun h => ⟨h, rfl⟩

/-- The same after operations that left the descriptor alone. -/
theorem NoGain.setDesc {c d : Core} {i : Nat} {x : Desc} (h : c.NoGain d) (hi : d.desc i = c.desc i)
    (hx : x.st ≠ .free → (c.desc i).st ≠ .free ∧ x.keySlot = (c.desc i).keySlot) : c.NoGain (d.setDesc i x) :=
  h.trans (d.noGain_setDesc i x (hi ▸ hx))

/-- A change of a descriptor that leaves its state and its slot alone. -/
theorem noGain_updDesc (c : Core) (i : Nat) (f : Desc → Desc) (hf : ∀ d, (f d).st = d.st ∧ (f d).keySlot = d.keySlot) :
    c.NoGain (c.updDesc i f) :=
  c.noGain_setDesc i _ fun h => ⟨(hf _).1 ▸ h, (hf _).2⟩

theorem mem_ctxs_of_ctx {c : Core} {x : Nat} {v : Ctx} (h : c.ctx? x = some v) : (x, v) ∈ c.ctxs := by
  obtain ⟨e, he, rfl⟩ := Option.map_eq_some_iff.1 h
  have hx : e.1 = x := by simpa using List.find?_some he
  exact hx ▸ List.mem_of_find?_eq_some he

theorem noGain_setCtx (c : Core) {x : Nat} {v : Ctx} (w : Ctx) (hv : c.ctx? x = some v) (hw : w.keySlot = v.keySlot) :
    c.NoGain (c.setCtx x w) := by
  refine { NoGain.refl c with ctxsRising := SMap.rising_insert x w, ctxs := fun e he => ?_ }
  obtain rfl | he := SMap.mem_insert he
  · exact ⟨(x, v), mem_ctxs_of_ctx hv, rfl, hw.symm⟩
  · exact ⟨e, he, rfl, rfl⟩

/-- A change of a context that leaves its slot alone. -/
theorem noGain_updCtx (c : Core) (x : Nat) (f : Ctx → Ctx) (hf : ∀ v, (f v).keySlot = v.keySlot) : c.NoGain (c.updCtx x f) := by
  unfold Core.updCtx
  split
  case h_1 v hv => exact c.noGain_setCtx _ hv (hf v)
  case h_2 => exact .refl c

/-! Completions (R342, R347). -/

theorem noGain_fire (c : Core) (f : FnId) (v : Nat) : c.NoGain (c.fire f v) :=
  .of_eq (by simp) (by simp) (by simp) (by simp)

theorem noGain_dma (c : Core) (f : FnId) (a : Nat) (bs : List Byte) : c.NoGain (c.dma f a bs) := by
  unfold Core.dma
  split
  · exact .refl c
  · refine .trans ?_ (noGain_bump _ _ _)
    exact .of_eq rfl rfl rfl rfl

theorem noGain_setPair (c : Core) (f : FnId) (q : Nat) (x : Pair) : c.NoGain (c.setPair f q x) := .of_eq rfl rfl rfl rfl

theorem noGain_writePost (c : Core) (x : Post) : c.NoGain (c.writePost x) := by
  unfold Core.writePost
  refine .ite (.trans ?pair (noGain_fire _ _ _)) ?pair
  refine .trans ?_ (noGain_setPair _ _ _ _)
  refine .trans ?_ (noGain_dma _ _ _ _)
  exact .ite (noGain_dma _ _ _ _) (.refl c)

theorem noGain_post (c : Core) (x : Post) : c.NoGain (c.post x) := by
  unfold Core.post
  split
  · exact .refl c
  · split
    · exact .of_eq rfl rfl rfl rfl
    · exact c.noGain_writePost x

theorem noGain_complete (c : Core) (r : Req) (status result : Nat) : c.NoGain (c.complete r status result) := noGain_post _ _

theorem noGain_completeAll (c : Core) (rs : List Req) (status result : Nat) : c.NoGain (c.completeAll rs status result) :=
  .foldl _ (fun c r => c.noGain_complete r status result) rs c

/-! Segments. -/

theorem noGain_dropSeg (c : Core) (i : Nat) : c.NoGain (c.dropSeg i) := .of_eq rfl rfl rfl rfl

theorem noGain_releaseUnits (c : Core) (p : UnitClaim) : c.NoGain (c.releaseUnits p) := .of_eq rfl rfl rfl rfl

theorem noGain_dropClaim (c : Core) (s : Seg) : c.NoGain (c.dropClaim s) := by
  unfold Core.dropClaim
  split
  · refine .foldl _ (fun c i => c.noGain_updDesc i _ fun d => ?_) _ c
    split <;> exact ⟨rfl, rfl⟩
  · exact .refl c

theorem noGain_dropSave (c : Core) (s : Seg) : c.NoGain (c.dropSave s) := by
  unfold Core.dropSave
  split
  · exact .refl c
  · dsimp only
    split
    · exact .refl c
    · exact .of_eq rfl rfl rfl rfl

theorem noGain_finishSeg (tr : Trim) (c : Core) (s : Seg) (status arg : Nat) : c.NoGain (c.finishSeg tr s status arg) := by
  unfold Core.finishSeg
  refine .trans ?_ (noGain_dropSeg _ _)
  refine .trans ?_ (noGain_post _ _)
  refine .trans ?_ (noGain_dropSave _ s)
  refine .trans ?_ (noGain_dropClaim _ s)
  refine .trans ?_ (noGain_releaseUnits _ _)
  refine .foldl _ (fun c i => ?_) _ c
  exact c.noGain_updDesc i _ fun d => ⟨rfl, rfl⟩

theorem noGain_cancelSeg (tr : Trim) (c : Core) (s : Seg) (status arg : Nat) : c.NoGain (c.cancelSeg tr s status arg) :=
  noGain_finishSeg _ _ _ _ _

theorem noGain_refuseSeg (tr : Trim) (c : Core) (s : Seg) (code arg : Nat) : c.NoGain (c.refuseSeg tr s code arg) :=
  (c.noGain_bump _ _).trans (noGain_cancelSeg _ _ _ _ _)

theorem noGain_dueSettle (c : Core) : c.NoGain c.dueSettle := .of_eq rfl rfl rfl rfl

theorem noGain_leaveSteps (c : Core) (s : Seg) : c.NoGain (c.leaveSteps s) := by
  unfold Core.leaveSteps
  refine .trans (.foldl _ (fun c x => ?_) _ c) (noGain_dueSettle _)
  exact c.noGain_updCtx x _ fun _ => rfl

theorem noGain_withdraw (c : Core) (tr : Trim) (p : Seg → Bool) (code : Nat) : c.NoGain (c.withdraw tr p code) := by
  refine .foldl _ (fun c s0 => ?_) _ c
  split
  · split
    · exact (c.noGain_leaveSteps _).trans (noGain_cancelSeg _ _ _ _ _)
    · exact .refl c
  · exact .refl c

/-! Steps and programs (R60, R207, R238, R239). -/

theorem closeStep_keySlot (v : Ctx) : v.closeStep.keySlot = v.keySlot := by
  unfold Ctx.closeStep
  split <;> rfl

theorem noGain_withoutReservations (c : Core) (x : Nat) : c.NoGain (c.withoutReservations x) := .of_eq rfl rfl rfl rfl

theorem noGain_endProg (c : Core) (x : Nat) : c.NoGain (c.endProg x) := by
  refine .trans ?_ (noGain_withoutReservations _ _)
  exact c.noGain_updCtx x _ fun _ => rfl

theorem noGain_freeTransient (c : Core) (x : Nat) : c.NoGain (c.freeTransient x) := by
  unfold Core.freeTransient
  refine .ite (.refl c) (.trans (c.noGain_updCtx x (fun v => { v with transient := false }) fun _ => rfl) ?_)
  exact .of_eq rfl rfl rfl rfl

theorem noGain_updCommit (c : Core) (x : Nat) (f : CommitLine → CommitLine) : c.NoGain (c.updCommit x f) := by
  unfold Core.updCommit
  split
  case h_1 => exact .refl c
  case h_2 v hv =>
    have hset := c.noGain_setCtx { v with commit := f v.commit } hv rfl
    exact .ite (.trans hset (noGain_updDesc _ _ _ fun _ => ⟨rfl, rfl⟩)) hset

theorem noGain_holdStep (c : Core) (x code a0 a1 a2 : Nat) : c.NoGain (c.holdStep x code a0 a1 a2) := by
  unfold Core.holdStep
  split
  · exact .refl c
  · refine .trans ?_ (noGain_freeTransient _ _)
    refine .ite (.trans ?closed (noGain_raise _ _)) ?closed
    exact (c.noGain_updCommit x _).trans (noGain_updCtx _ _ _ closeStep_keySlot)

theorem noGain_abandon (c : Core) (x : Nat) : c.NoGain (c.abandon x) := by
  unfold Core.abandon
  split
  case h_1 v hv =>
    refine .ite (.trans ?_ (noGain_holdStep _ _ _ _ _ _)) (.refl c)
    exact c.noGain_setCtx _ hv rfl
  case h_2 => exact .refl c

/-! Links (R362, R369, R378). -/

theorem noGain_setLink (c : Core) (k : Nat) (x : LinkS) : c.NoGain (c.setLink k x) := .of_eq rfl rfl rfl rfl

theorem noGain_emit (c : Core) (k : Nat) (x : Sent) : c.NoGain (c.emit k x) :=
  .trans (noGain_setLink _ _ _) (noGain_bump _ _ _)

theorem noGain_send (c : Core) (k : Nat) (fr : Frame) (slot : Nat) : c.NoGain (c.send k fr slot) :=
  .ite (noGain_emit _ _ _) (noGain_setLink _ _ _)

theorem noGain_sendBy (c : Core) (label : Nat) (fr : Frame) (slot : Nat) : c.NoGain (c.sendBy label fr slot) := by
  unfold Core.sendBy
  dsimp only
  split
  · exact noGain_send _ _ _ _
  · exact .refl c

/-- A request counts itself in its slot's NONCE, and so leaves that slot in use. -/
theorem noGain_originate (c : Core) (tr : Trim) (label : Nat) (r : ReqF) (role : XferRole) :
    c.NoGain (c.originate tr label r role).1 := by
  unfold Core.originate
  split
  · exact .refl c
  · split
    · exact .refl c
    · split
      · exact .refl c
      · refine .trans ?_ (noGain_sendBy _ _ _ _)
        refine .trans (noGain_setSlot c _ _ ?_ ?_ ?_) (.of_eq rfl rfl rfl rfl)
        · rfl
        · rfl
        · exact fun h => Nat.succ_ne_zero _ (congrArg KeySlot.nonce h)

/-! Fetches (R255 to R259). -/

theorem noGain_setRun (c : Core) (k : Nat) (e : RunEnt) : c.NoGain (c.setRun k e) := .of_eq rfl rfl rfl rfl

theorem noGain_dropRun (c : Core) (k : Nat) : c.NoGain (c.dropRun k) := .of_eq rfl rfl rfl rfl

theorem noGain_completeFetch (c : Core) (i : Nat) (f : Fetch) (code : Nat) : c.NoGain (c.completeFetch i f code) := by
  unfold Core.completeFetch
  split
  · exact (c.noGain_complete _ _ _).trans (noGain_completeAll _ _ _ _)
  · exact c.noGain_completeAll _ _ _

theorem noGain_xfers (c : Core) (xs : List Xfer) : c.NoGain { c with xfers := xs } := .of_eq rfl rfl rfl rfl

/-- A fetch that fails leaves a FREE entry FREE. -/
theorem noGain_fetchFail (c : Core) (tr : Trim) (i code : Nat) : c.NoGain (c.fetchFail tr i code) := by
  unfold Core.fetchFail
  dsimp only
  split
  case h_1 => exact .refl c
  case h_2 =>
    refine .trans ?_ (.foldl _ (fun c s => noGain_cancelSeg tr c s code 0) _ _)
    refine .trans ?_ (noGain_completeFetch _ _ _ _)
    refine .trans ?_ (noGain_xfers _ _)
    refine .setDesc ?run ?same ?entry
    case run =>
      refine .ite (noGain_dropRun _ _) ?_
      split
      · exact noGain_setRun _ _ _
      · exact .refl c
    case same =>
      split
      · rfl
      · split <;> rfl
    case entry =>
      dsimp only
      split
      case isTrue h => exact fun _ => ⟨by simp [h], rfl⟩
      case isFalse => exact fun h => ⟨h, rfl⟩

/-- Only an entry that is not FREE is fetched. -/
theorem noGain_startFetch (c : Core) (tr : Trim) (i : Nat) (training keepLocal : Bool) (req : Option Req)
    (hi : (c.desc i).st ≠ .free) : c.NoGain (c.startFetch tr i training keepLocal req) := by
  have hclaim : ∀ x : Desc, x.keySlot = (c.desc i).keySlot → c.NoGain (c.setDesc i x) :=
    fun x hx => c.noGain_setDesc i x fun _ => ⟨hi, hx⟩
  unfold Core.startFetch
  dsimp only
  refine .ite (.trans ?_ (noGain_fetchFail _ _ _ _)) (.ite (.ite (.trans ?requests (noGain_fetchFail _ _ _ _)) ?requests) ?_)
  · exact hclaim _ rfl
  case requests =>
    refine .trans ?_ (.foldl_fst _ (fun r p => ?_) _ _)
    · exact hclaim _ rfl
    · split
      · exact .refl _
      · exact noGain_originate _ _ _ _ _
  · exact hclaim _ rfl

theorem noGain_kick (c : Core) (tr : Trim) : c.NoGain (c.kick tr) := by
  refine .ite (.refl c) (.foldl _ (fun c s => ?_) _ c)
  split
  case h_1 s _ =>
    refine .ite (.foldl _ (fun c i => ?_) _ c) (.refl c)
    split
    case isTrue h =>
      refine c.noGain_startFetch tr i _ _ _ fun hfree => ?_
      simp [Core.needsFetch, hfree] at h
    case isFalse => exact .refl c
  case h_2 => exact .refl c

/-! Claims, pins and placement (R181, R253, R267). -/

theorem noGain_setSeg (c : Core) (s : Seg) : c.NoGain (c.setSeg s) := .of_eq rfl rfl rfl rfl

theorem noGain_pinAll (c : Core) (is : List Nat) : c.NoGain (c.pinAll is) := by
  refine .foldl _ (fun c i => ?_) is c
  exact c.noGain_updDesc i _ fun _ => ⟨rfl, rfl⟩

theorem noGain_pinParked (c : Core) : c.NoGain c.pinParked := by
  refine .foldl _ (fun c s => ?_) _ c
  split
  · exact .trans (noGain_setSeg _ _) (noGain_pinAll _ _)
  · exact .refl c

theorem noGain_dropCopies (c : Core) (i : Nat) : c.NoGain (c.dropCopies i) := .of_eq rfl rfl rfl rfl

theorem noGain_claimResupport (c : Core) (s : Seg) : c.NoGain (c.claimResupport s) := by
  refine .ite (.refl c) (.foldl _ (fun c i => ?_) _ c)
  refine .trans ?_ (noGain_dropCopies _ i)
  exact c.noGain_updDesc i _ fun _ => ⟨rfl, rfl⟩

theorem noGain_allocUnits (c : Core) (p : UnitClaim) (n : Nat) : c.NoGain (c.allocUnits p n) := .of_eq rfl rfl rfl rfl

theorem noGain_placeImage (tr : Trim) (c : Core) (s : Seg) : c.NoGain (c.placeImage tr s) := by
  unfold Core.placeImage
  split
  · refine .trans (c.noGain_claimResupport s) ?_
    exact .ite (.trans (noGain_setSeg _ _) (noGain_allocUnits _ _ _)) (noGain_setSeg _ _)
  · exact noGain_refuseSeg _ _ _ _ _

theorem noGain_unpark (c : Core) (tr : Trim) : c.NoGain (c.unpark tr) := by
  refine .ite (.refl c) (.trans (d := c.grant) (.of_eq rfl rfl rfl rfl) (.foldl _ (fun c s => ?_) _ _))
  split
  · exact .ite (noGain_placeImage _ _ _) (.refl c)
  · exact .refl c

theorem noGain_wake (c : Core) (tr : Trim) : c.NoGain (c.wake tr) :=
  (c.noGain_kick tr).trans ((noGain_pinParked _).trans (noGain_unpark _ tr))

/-! Contexts and descriptors that go (R250, R352). -/

theorem noGain_noteReset (c : Core) (kind which : Nat) : c.NoGain (c.noteReset kind which) := .of_eq rfl rfl rfl rfl

theorem noGain_disableCtx (c : Core) (tr : Trim) (x : Nat) : c.NoGain (c.disableCtx tr x) := by
  unfold Core.disableCtx
  split
  · exact .refl c
  · refine .ite (.refl c) ?_
    dsimp only
    refine .trans ?_ (noGain_wake _ tr)
    refine .ite (.trans (.trans ?swept (noGain_dueSettle _)) (noGain_noteReset _ _ _)) (.trans ?swept (noGain_dueSettle _))
    refine .trans ?_ (noGain_updCtx _ _ _ fun _ => rfl)
    refine .trans ?_ (noGain_freeTransient _ _)
    refine .trans ?_ (noGain_abandon _ _)
    refine .trans ?_ (noGain_withdraw _ _ _ _)
    refine .trans ?_ (noGain_withdraw _ _ _ _)
    refine .trans ?_ (noGain_endProg _ _)
    refine .trans ?_ (noGain_releaseUnits _ _)
    exact c.noGain_updCtx _ _ fun _ => rfl

theorem noGain_dropTraining (c : Core) (x i : Nat) : c.NoGain (c.dropTraining x i) :=
  .ite (c.noGain_updDesc i (fun d => { d with trainCtx := 0xFFFF }) fun _ => ⟨rfl, rfl⟩) (.refl c)

theorem noGain_eraseCtx (c : Core) (x : Nat) : c.NoGain { c with ctxs := c.ctxs.erase x } :=
  { NoGain.refl c with ctxsRising := SMap.rising_erase x, ctxs := fun e he => ⟨e, SMap.mem_erase he, rfl, rfl⟩ }

theorem noGain_deleteCtx (c : Core) (x : Nat) : c.NoGain (c.deleteCtx x) := by
  unfold Core.deleteCtx
  split
  · exact .refl c
  · refine .trans ?_ (noGain_eraseCtx _ x)
    refine .trans ?_ (noGain_freeTransient _ _)
    exact .ite (c.noGain_dropTraining _ _) (.refl c)

theorem noGain_setDesc_free (c : Core) (i : Nat) : c.NoGain (c.setDesc i .free) :=
  c.noGain_setDesc i _ fun h => absurd rfl h

theorem noGain_freeDesc (c : Core) (i code : Nat) : c.NoGain (c.freeDesc i code) := by
  have hfreed : ∀ xs rs,
      c.NoGain ((({ (c.dropCopies i).dropRun i with xfers := xs } : Core).setDesc i .free).completeAll rs code 0) := by
    intro xs rs
    refine .trans ?_ (noGain_completeAll _ _ _ _)
    refine .trans ?_ (noGain_setDesc_free _ _)
    exact .trans (.trans (noGain_dropCopies _ _) (noGain_dropRun _ _)) (noGain_xfers _ _)
  unfold Core.freeDesc
  dsimp only
  split
  · exact .trans (hfreed _ _) (noGain_complete _ _ _ _)
  · exact hfreed _ _

end Core

/-! Zeroization (R325): a fold that erases each of a list's members leaves none of them. -/

/-- Of acts that keep `I` and keep `Q`, one that brings `Q` about where `I` holds suffices. -/
theorem foldl_reaches {α : Type} {I Q : Core → Prop} (f : Core → α → Core) (x : α) (hI : ∀ c y, I c → I (f c y))
    (hQ : ∀ c y, I c → Q c → Q (f c y)) (hx : ∀ c, I c → Q (f c x)) (xs : List α) (hmem : x ∈ xs) :
    ∀ c, I c → Q (xs.foldl f c) := by
  have hkeep : ∀ (ys : List α) (c : Core), I c → Q c → Q (ys.foldl f c) := by
    intro ys
    induction ys with
    | nil => exact fun _ _ h => h
    | cons y ys ih => exact fun c hc h => ih _ (hI c y hc) (hQ c y hc h)
  induction xs with
  | nil => cases hmem
  | cons y ys ih =>
    intro c hc
    obtain rfl | hmem := List.mem_cons.1 hmem
    · exact hkeep ys _ (hI c x hc) (hx c hc)
    · exact ih hmem _ (hI c y hc)

theorem SMap.mem_of_get_ne {α : Type} {d : α} {m : SMap α} {k : Nat} (h : SMap.get d m k ≠ d) : (k, SMap.get d m k) ∈ m := by
  induction m with
  | nil => exact absurd rfl h
  | cons e m ih =>
    obtain ⟨i, v⟩ := e
    simp only [SMap.get] at h ⊢
    split
    case isTrue hi => simp [hi]
    case isFalse hi =>
      rw [if_neg hi] at h
      split
      case isTrue hlt => exact absurd (if_pos hlt) h
      case isFalse hlt =>
        rw [if_neg hlt] at h
        exact List.mem_cons_of_mem _ (ih h)

theorem SMap.ne_of_mem_erase {α : Type} {m : SMap α} {k : Nat} (hr : m.rising = true) : ∀ e ∈ SMap.erase m k, e.1 ≠ k := by
  induction m with
  | nil => exact fun e he => nomatch he
  | cons a m ih =>
    obtain ⟨i, v⟩ := a
    obtain ⟨habove, hr'⟩ := SMap.rising_cons.1 hr
    intro e he
    simp only [SMap.erase] at he
    split at he
    case isTrue hi => exact fun h => by have := habove e he; omega
    case isFalse hi =>
      split at he
      case isTrue hlt =>
        obtain rfl | he := List.mem_cons.1 he
        · exact hi
        · have := habove e he
          omega
      case isFalse =>
        obtain rfl | he := List.mem_cons.1 he
        · exact hi
        · exact ih hr' e he

namespace Core

theorem completeAll_dir (c : Core) (rs : List Req) (status result : Nat) : (c.completeAll rs status result).dir = c.dir := by
  unfold Core.completeAll
  induction rs generalizing c with
  | nil => rfl
  | cons r rs ih => rw [List.foldl_cons, ih, complete_dir]

theorem setDesc_dir (c : Core) (i : Nat) (d : Desc) : (c.setDesc i d).dir = c.dir.set .free i d := rfl

theorem freeDesc_dir (c : Core) (i code : Nat) : (c.freeDesc i code).dir = c.dir.set .free i .free := by
  unfold Core.freeDesc
  dsimp only
  split
  · rw [complete_dir, completeAll_dir, setDesc_dir]
    rfl
  · rw [completeAll_dir, setDesc_dir]
    rfl

theorem desc_freeDesc (c : Core) (i code : Nat) (hr : c.dir.rising = true) : ((c.freeDesc i code).desc i).st = .free := by
  unfold Core.desc
  rw [freeDesc_dir, SMap.get_set _ _ _ _ _ hr, if_pos rfl]
  rfl

/-- An entry freed with others stays FREE. -/
theorem desc_freeDescs (code i : Nat) (is : List Nat) (hi : i ∈ is) (c : Core) (hr : c.dir.rising = true) :
    ((is.foldl (fun (c : Core) j => c.freeDesc j code) c).desc i).st = .free := by
  refine foldl_reaches (I := fun c => c.dir.rising = true) (Q := fun c => (c.desc i).st = .free) _ i
    (fun c j hc => (c.noGain_freeDesc j code).dirRising hc) (fun c j hc hfree => ?_) (fun c hc => c.desc_freeDesc i code hc) is hi c hr
  by_contra hne
  exact ((c.noGain_freeDesc j code).desc hc i hne).1 hfree

theorem ctxs_deleteCtx (c : Core) (x : Nat) (hr : c.ctxs.rising = true) : ∀ e ∈ (c.deleteCtx x).ctxs, e.1 ≠ x := by
  unfold Core.deleteCtx
  split
  case h_1 hnone =>
    intro e he hx
    have hno := List.find?_eq_none.1 (Option.map_eq_none_iff.1 hnone) e he
    simp [hx] at hno
  case h_2 v _ =>
    refine SMap.ne_of_mem_erase ?_
    refine NoGain.ctxsRising (.trans ?_ (noGain_freeTransient _ _)) hr
    exact .ite (c.noGain_dropTraining _ _) (.refl c)

/-- A context disabled and deleted with others is gone. -/
theorem ctxs_deleteCtxs (tr : Trim) (x : Nat) (xs : List Nat) (hx : x ∈ xs) (c : Core) (hr : c.ctxs.rising = true) :
    ∀ e ∈ (xs.foldl (fun (c : Core) y => (c.disableCtx tr y).deleteCtx y) c).ctxs, e.1 ≠ x := by
  have hstep : ∀ (c : Core) y, c.NoGain ((c.disableCtx tr y).deleteCtx y) :=
    fun c y => (c.noGain_disableCtx tr y).trans (noGain_deleteCtx _ y)
  refine foldl_reaches (I := fun c => c.ctxs.rising = true) (Q := fun c => ∀ e ∈ c.ctxs, e.1 ≠ x) _ x
    (fun c y hc => (hstep c y).ctxsRising hc) (fun c y _ hgone e he => ?_)
    (fun c hc => ctxs_deleteCtx _ x ((c.noGain_disableCtx tr x).ctxsRising hc)) xs hx c hr
  obtain ⟨b, hb, hkey, -⟩ := (hstep c y).ctxs e he
  exact hkey ▸ hgone b hb

/-- Nothing of slot `k` is left: its root is gone, and no context and no descriptor is its own (R325). -/
structure Erased (c : Core) (k : Nat) : Prop where
  st : (c.slot k).st = .zeroizing
  root : (c.slot k).root = 0
  ctxs : ∀ e ∈ c.ctxs, e.2.keySlot ≠ k
  desc : ∀ j, (c.desc j).st ≠ .free → (c.desc j).keySlot ≠ k

/-- Zeroization erases the slot, and the recorder still gets what waited for it. -/
theorem zeroize_erases (c : Core) (tr : Trim) (k : Nat) (hd : c.dir.rising = true) (hx : c.ctxs.rising = true) :
    (c.zeroize tr k).Erased k ∧ c.outbox <+: (c.zeroize tr k).outbox := by
  unfold Core.zeroize
  extract_lets s c1 ds c2 m c3
  have h12 : c1.NoGain c2 := .foldl _ (fun c i => c.noGain_freeDesc i 0x0505) ds c1
  have h23 : c2.NoGain c3 := .of_eq rfl rfl rfl rfl
  have hdel : c3.NoGain ((c3.slotCtxs k).foldl (fun (c : Core) x => (c.disableCtx tr x).deleteCtx x) c3) :=
    .foldl _ (fun c x => (c.noGain_disableCtx tr x).trans (noGain_deleteCtx _ x)) _ c3
  have hall := (h12.trans h23).trans hdel
  have hslot : c1.slot k = { s with st := .zeroizing, root := 0, told := [] } := by
    refine (Core.slot_setSlot_of_ne _ _ _ _ fun h => ?_).trans (if_pos rfl)
    exact nomatch (congrArg KeySlot.st h)
  refine ⟨⟨?_, ?_, fun e he hk => ?_, fun j hj hk => ?_⟩, hall.outbox⟩
  · rw [(hall.slot k).1, hslot]
  · rw [(hall.slot k).2, hslot]
  · obtain ⟨b, hb, hkey, hslotb⟩ := hdel.ctxs e he
    have hmem : e.1 ∈ c3.slotCtxs k :=
      List.mem_map.2 ⟨b, List.mem_filter.2 ⟨hb, by simp [hslotb, hk]⟩, hkey⟩
    exact ctxs_deleteCtxs tr e.1 _ hmem c3 ((h12.trans h23).ctxsRising hx) e he rfl
  · obtain ⟨hj1, hk1⟩ := hall.desc hd j hj
    obtain ⟨hj2, -⟩ := (h23.trans hdel).desc (h12.dirRising hd) j hj
    have hmem : j ∈ ds := by
      refine List.mem_map.2 ⟨(j, c1.desc j), List.mem_filter.2 ⟨SMap.mem_of_get_ne fun h => hj1 ?_, ?_⟩, rfl⟩
      · exact congrArg Desc.st h
      · simp [hj1, ← hk1, hk]
    exact hj2 (desc_freeDescs 0x0505 j ds hmem c1 hd)

end Core

/-! A completion written to its pair (R342, R347), and where a state's delivery leaves it. -/

/-- What a completion depends on and changes: the functions, the halted cores, the Keep, the DMA writes; and the segments. -/
def Core.hostSide (c : Core) : List Port × List Bool × Keep × List DmaWrite × List Seg :=
  (c.ports, c.gate.halted, c.keep, c.out.dma, c.segs)

namespace Core

theorem hostSide_eq_iff {c d : Core} : d.hostSide = c.hostSide ↔
    d.ports = c.ports ∧ d.gate.halted = c.gate.halted ∧ d.keep = c.keep ∧ d.out.dma = c.out.dma ∧ d.segs = c.segs := by
  simp only [hostSide, Prod.mk.injEq]

theorem segs_of_hostSide {c d : Core} (h : d.hostSide = c.hostSide) : d.segs = c.segs := by
  obtain ⟨-, -, -, -, hsegs⟩ := hostSide_eq_iff.1 h
  exact hsegs

theorem hostSide_foldl {α : Type} (f : Core → α → Core) (hf : ∀ c x, (f c x).hostSide = c.hostSide) (xs : List α) :
    ∀ c, (xs.foldl f c).hostSide = c.hostSide := by
  induction xs with
  | nil => exact fun _ => rfl
  | cons x xs ih => exact fun c => (ih _).trans (hf c x)

theorem fn_of_ports {c d : Core} (h : d.ports = c.ports) (f : FnId) : d.fn f = c.fn f := by
  simp only [fn, port, h]

theorem pair_of_ports {c d : Core} (h : d.ports = c.ports) (f : FnId) (q : Nat) : d.pair f q = c.pair f q := by
  simp only [pair, fn_of_ports h]

theorem answers_of_hostSide {c d : Core} {r : Req} (h : d.hostSide = c.hostSide) (ha : c.answers r) : d.answers r := by
  obtain ⟨hports, hhalted, hkeep, -, -⟩ := hostSide_eq_iff.1 h
  unfold answers gateWindow
  rw [pair_of_ports hports, fn_of_ports hports, hhalted, hkeep]
  exact ha

theorem dma_dma (c : Core) (f : FnId) (a : Nat) (bs : List Byte) (h : (c.fn f).tdi ≠ .error) :
    (c.dma f a bs).out.dma = c.out.dma ++ [⟨f, a, bs⟩] := by
  unfold dma
  rw [if_neg h, bump_out]

theorem fire_dma (c : Core) (f : FnId) (v : Nat) : (c.fire f v).out.dma = c.out.dma := by
  unfold fire
  dsimp only
  split
  · rfl
  · split <;> rfl

/-- The entry is the last thing written: a result record goes before it. -/
theorem writePost_dma (c : Core) (x : Post) (h : (c.fn x.req.f).tdi ≠ .error) :
    let p := c.pair x.req.f x.req.q
    ∃ before, (c.writePost x).out.dma =
      c.out.dma ++ before ++ [⟨x.req.f, p.cqBase + 16 * p.cqTail, completionBytes p x.req.q x⟩] := by
  have hrecord : ∃ (c1 : Core) (before : List DmaWrite),
      (if x.req.result ≠ 0 ∧ x.record ≠ [] then c.dma x.req.f x.req.result x.record else c) = c1 ∧ c1.ports = c.ports ∧
        c1.out.dma = c.out.dma ++ before := by
    split
    · exact ⟨_, _, rfl, dma_ports _ _ _ _, dma_dma _ _ _ _ h⟩
    · exact ⟨_, [], rfl, rfl, (List.append_nil _).symm⟩
  obtain ⟨c1, before, hc1, hports, hdma⟩ := hrecord
  have hentry := c1.dma_dma x.req.f ((c.pair x.req.f x.req.q).cqBase + 16 * (c.pair x.req.f x.req.q).cqTail)
    (completionBytes (c.pair x.req.f x.req.q) x.req.q x) (by rwa [fn_of_ports hports])
  refine ⟨before, ?_⟩
  rw [← hdma, ← hentry]
  unfold writePost
  dsimp only
  rw [hc1]
  split
  · rw [fire_dma, setPair_out]
  · rw [setPair_out]

theorem post_of_answers (c : Core) (x : Post) (h : c.answers x.req) : c.post x = c.writePost x := by
  obtain ⟨hepoch, hhalted, hwindow, -⟩ := h
  have hgo : ¬ ((c.pair x.req.f x.req.q).epoch ≠ x.req.epoch ∨ c.gate.halted.getD x.req.f.port false = true) := by
    rw [hepoch, hhalted]
    simp
  unfold post
  rw [if_neg hgo, if_neg (by simp [hwindow])]

end Core

theorem State.after_dma (s : State) (c : Core) : (s.after c).core.out.dma = c.out.dma := by
  have hfail : ∀ (d : Core) n, (d.failN n).out.dma = d.out.dma := by
    intro d n
    unfold Core.failN
    split <;> rfl
  unfold State.after State.deliver
  dsimp only
  split <;> split <;> simp only [hfail, Core.fire_dma]

/-! The Gatehouse, told of a slot's retirement, completes the slot's one waiting request (R32, R321). -/

namespace Core

theorem updDesc_hostSide (c : Core) (i : Nat) (f : Desc → Desc) : (c.updDesc i f).hostSide = c.hostSide := rfl

theorem updCtx_hostSide (c : Core) (x : Nat) (f : Ctx → Ctx) : (c.updCtx x f).hostSide = c.hostSide := by
  simp [hostSide]

theorem dropClaim_hostSide (c : Core) (s : Seg) : (c.dropClaim s).hostSide = c.hostSide := by
  unfold dropClaim
  split
  · exact hostSide_foldl _ (fun c i => c.updDesc_hostSide i _) _ c
  · rfl

theorem dropSave_hostSide (c : Core) (s : Seg) : (c.dropSave s).hostSide = c.hostSide := by
  unfold dropSave
  split
  · rfl
  · dsimp only
    split <;> rfl

/-- A segment's completion is posted over an unchanged host side, and then the segment is forgotten. -/
theorem finishSeg_posts (tr : Trim) (c : Core) (s : Seg) (status arg : Nat) :
    ∃ (c1 : Core) (result : Nat) (record : List Byte), c1.hostSide = c.hostSide ∧
      c.finishSeg tr s status arg = (c1.post ⟨s.req, status, result, record⟩).dropSeg s.id := by
  refine ⟨_, _, _, ?_, rfl⟩
  rw [dropSave_hostSide, dropClaim_hostSide]
  exact hostSide_foldl _ (fun c i => c.updDesc_hostSide i _) s.pinned c

theorem dueSettle_hostSide (c : Core) (h : ∀ s ∈ c.segs, s.st ≠ .ended) : c.dueSettle.hostSide = c.hostSide := by
  refine hostSide_eq_iff.2 ⟨rfl, rfl, rfl, rfl, ?_⟩
  unfold dueSettle
  refine (List.map_congr_left fun s hs => ?_).trans (List.map_id _)
  simp [h s hs]

theorem leaveSteps_hostSide (c : Core) (s : Seg) (h : ∀ s ∈ c.segs, s.st ≠ .ended) : (c.leaveSteps s).hostSide = c.hostSide := by
  have hfold : ∀ f : Ctx → Ctx, (s.steps.foldl (fun (c : Core) x => c.updCtx x f) c).hostSide = c.hostSide :=
    fun f => hostSide_foldl _ (fun c x => c.updCtx_hostSide x f) _ c
  refine (dueSettle_hostSide _ ?_).trans (hfold _)
  rw [segs_of_hostSide (hfold _)]
  exact h

theorem withdraw_of_single (c : Core) (tr : Trim) (p : Seg → Bool) (code : Nat) (y : Seg) (hsegs : c.segs = [y]) (hp : p y = true) :
    c.withdraw tr p code = (c.leaveSteps y).cancelSeg tr y code 0 := by
  have hfind : c.seg? y.id = some y := by simp [seg?, hsegs]
  unfold withdraw
  simp only [hsegs, List.foldl_cons, List.foldl_nil, hfind, hp, if_true]

theorem wake_of_no_segs (c : Core) (tr : Trim) (h : c.segs = []) : c.wake tr = c := by
  have hkick : c.kick tr = c := by simp [kick, h]
  have hpin : c.pinParked = c := by simp [pinParked, h]
  have hgrant : c.grant = c := by
    unfold grant
    rw [h, List.map_nil, ← h]
  unfold wake
  rw [hkick, hpin]
  unfold unpark
  rw [hgrant, h]
  simp

theorem tellGate_of_single (c : Core) (tr : Trim) (k : Nat) (y : Seg) (hsegs : c.segs = [y]) (hk : c.segSlot k y = true)
    (hst : y.st = .parked ∨ y.st = .waiting) (ha : c.answers y.req) :
    let p := c.pair y.req.f y.req.q
    (c.tellGate tr k).segs = [] ∧ ∃ before result, (c.tellGate tr k).out.dma = c.out.dma ++ before ++
      [⟨y.req.f, p.cqBase + 16 * p.cqTail, completionBytes p y.req.q ⟨y.req, 0x0504, result, []⟩⟩] := by
  have hended : ∀ s ∈ c.segs, s.st ≠ .ended := by
    rw [hsegs]
    rcases hst with h | h <;> simp [h]
  have hp : (c.segSlot k y && (decide (y.st = .parked) || decide (y.st = .waiting))) = true := by
    rcases hst with h | h <;> simp [hk, h]
  unfold tellGate
  rw [withdraw_of_single c tr _ _ y hsegs hp]
  unfold cancelSeg
  obtain ⟨c1, result, record, hsame, heq⟩ := finishSeg_posts tr (c.leaveSteps y) { y with
    elapsed := 0, stall := 0, wait := 0, slip := 0, energy := 0, committed := 0, heldCount := 0
    endTime := (c.leaveSteps y).clk.time, endCp := (c.leaveSteps y).cp } 0x0504 0
  dsimp only at heq ⊢
  rw [heq]
  replace hsame := hsame.trans (c.leaveSteps_hostSide y hended)
  obtain ⟨hports, -, -, hdma, hsegs1⟩ := hostSide_eq_iff.1 hsame
  have ha1 := answers_of_hostSide hsame ha
  have hnone : ((c1.post ⟨y.req, 0x0504, result, record⟩).dropSeg y.id).segs = [] := by
    simp [dropSeg, hsegs1, hsegs]
  rw [wake_of_no_segs _ tr hnone]
  refine ⟨hnone, ?_⟩
  rw [dropSeg_out, post_of_answers _ _ ha1]
  obtain ⟨-, -, -, htdi⟩ := ha1
  obtain ⟨before, hbefore⟩ := c1.writePost_dma ⟨y.req, 0x0504, result, record⟩ htdi
  refine ⟨before, result, ?_⟩
  rw [hbefore, hdma, pair_of_ports hports]
  rfl

end Core

/-! The statement, one theorem for each command's clauses. -/

/-- The selected tenant slot is retired alike by clearing SLOT_ENABLE and by RETIRE (R303, R320, R324). -/
theorem slotRetire_retires (s : State) (hi : s.core.selSlot < 4096) (hw : ¬ (s.core.keep.fwState = 2 ∧ s.core.keep.fwKind = 1)) :
    let c := s.core
    let i := c.selSlot
    let k := c.slot i
    let leaving := s.after (c.setSlot i { k with st := .retiring, deadline := c.clk.nominal + 62_500_000, told := [] })
    (k.st = .enabled → exec (.slotEnableClear s.trim.admin) s = .next (s.after (c.setSlot i { k with st := .free })) ∧
      exec (.slotRetire s.trim.admin) s = .next (s.after (c.setSlot i { k with st := .free }))) ∧
    (k.st = .active → exec (.slotEnableClear s.trim.admin) s = .next leaving ∧ exec (.slotRetire s.trim.admin) s = .next leaving) := by
  intro c i k leaving
  rw [exec_slotEnableClear_admin, exec_slotRetire_admin, c.retireSel_of_open hi hw, and_self, and_self]
  exact ⟨fun hst => by rw [c.retireNow_of_enabled _ hst], fun hst => by rw [c.retireNow_of_active _ hst]⟩

/-- The Gatehouse counts as told, and the slot's one waiting request is completed RETIRED (R321). -/
theorem retireBroadcast_gatehouse (s : State) (k : Nat) (hst : (s.core.slot k).st = .retiring) (hu : 53 ∉ (s.core.slot k).told) :
    ∃ t, exec (.retireBroadcast k .gatehouse) s = .next t ∧ (t.core.slot k).told = (s.core.slot k).told ++ [53] ∧
      ∀ y, s.core.segs = [y] → s.core.segSlot k y = true → (y.st = .parked ∨ y.st = .waiting) → s.core.answers y.req →
        t.core.segs = [] ∧ State.completes s t y.req 0x0504 := by
  refine ⟨_, exec_retireBroadcast s k .gatehouse, ?_, fun y hsegs hk hy ha => ?_⟩
  · rw [State.after_slot, Core.broadcast_told _ _ .gatehouse _ hst hu]
    rfl
  · obtain ⟨d, hd, hgate⟩ := s.core.broadcast_of_untold k .gatehouse s.trim hst hu
    obtain ⟨hnone, before, result, hdma⟩ := s.core.tellGate_of_single s.trim k y hsegs hk hy ha
    rw [hd, hgate rfl]
    refine ⟨by rw [State.after_segs, Core.setSlot_segs, hnone], before, [], result, ?_⟩
    rw [State.after_dma, Core.setSlot_out, hdma]
    exact (List.append_nil _).symm

theorem State.after_erased (s : State) {c : Core} {k : Nat} (h : c.Erased k) :
    ((s.after c).core.slot k).st = .zeroizing ∧ ((s.after c).core.slot k).root = 0 ∧
      (∀ e ∈ (s.after c).core.ctxs, e.2.keySlot ≠ k) ∧
      (∀ j, ((s.after c).core.desc j).st ≠ .free → ((s.after c).core.desc j).keySlot ≠ k) := by
  simpa only [State.after_slot, State.after_desc, State.after_ctxs] using ⟨h.st, h.root, h.ctxs, h.desc⟩

/-- Once all 55 units are told and INFLIGHT is zero, zeroization erases the slot (R325). -/
theorem Core.zeroization_erases (c : Core) (tr : Trim) (k : Nat) (hst : (c.slot k).st = .retiring) (htold : (c.slot k).told.length = 55)
    (hin : c.inflight k = 0) (hd : c.dir.rising = true) (hx : c.ctxs.rising = true) : (c.zeroization k tr).Erased k := by
  unfold Core.zeroization
  rw [if_pos ⟨hst, htold, hin⟩]
  exact (c.zeroize_erases tr k hd hx).1

/-- Past the drain deadline the slot is erased all the same, and 0x0506 says what was left (R326). -/
theorem Core.drainTimeout_erases (c : Core) (tr : Trim) (k : Nat) (hst : (c.slot k).st = .retiring)
    (hdue : (c.slot k).deadline ≤ c.clk.nominal) (hin : c.inflight k ≠ 0) (hd : c.dir.rising = true) (hx : c.ctxs.rising = true) :
    (c.drainTimeout k tr).Erased k ∧
      c.outbox ++ [slotEvent 0x0506 k k (min (c.inflight k) 0xFFFF)] <+: (c.drainTimeout k tr).outbox := by
  unfold Core.drainTimeout
  dsimp only
  rw [if_pos ⟨hst, hdue, hin⟩]
  obtain ⟨hgone, hout⟩ := ((c.raise (slotEvent 0x0506 k k (min (c.inflight k) 0xFFFF))).bump 0x20_0038 1).zeroize_erases tr k
    (by simpa using hd) (by simpa using hx)
  exact ⟨hgone, (Core.noGain_bump _ _ _).outbox.trans hout⟩

/-- A zeroized slot is FREE again, or DEAD, with its floor past its generation; no other slot changes (R304, R321 step 6). -/
theorem Core.slot_slotFreed (c : Core) (k j : Nat) (hst : (c.slot k).st = .zeroizing) (hr : c.keep.slots.rising = true) :
    (c.slotFreed k).slot j = if j = k then { c.slot k with
      st := if (c.slot k).gen + 1 = 0xFFFF then .dead else .free, floor := (c.slot k).gen + 1, gen := 0, policy := 0, deadline := 0
      nonce := 0, activeAt := 0 } else c.slot j := by
  rw [← c.slot_setSlot k j _ hr]
  unfold Core.slotFreed
  dsimp only
  rw [if_neg (not_not.2 hst)]
  split <;> rfl

/-- Settles O36: each command's meaning on the slot; that zeroization leaves nothing of it follows from `Core.NoGain`, which every
operation of the Gatehouse and the Belfry on the way keeps. -/
theorem slotsEnableRetireAndFree : Obligations.SlotsEnableRetireAndFree := by
  unfold Obligations.SlotsEnableRetireAndFree
  constructor
  · intro s c i k a refused
    have hset : exec (.slotEnableSet a) s = .next (s.after c.slotEnable) := exec_slotEnableSet_admin s
    refine ⟨fun hi hst hen hfl => ?_, fun _ hst => ?_, fun hi hst hen => ?_, fun hi hst hen hfl => ?_, slotRetire_retires s⟩
    · rw [hset, c.slotEnable_of_free hi hst, if_neg (ne_false_of_eq_true hen), if_neg (not_le.2 hfl)]
    · rw [hset, c.slotEnable_of_spent hst]
      rfl
    · rw [hset, c.slotEnable_of_free hi hst, if_pos hen]
      rfl
    · rw [hset, c.slotEnable_of_free hi hst, if_neg (ne_false_of_eq_true hen), if_pos hfl]
      rfl
  · intro s k c x gone
    refine ⟨fun u hst hu hsilent => ?_, retireBroadcast_gatehouse s k, exec_retireBroadcast_told s k .belfry, fun l hst hl hu _ => ?_,
      fun hst htold hin hd hx => ?_, fun hst hdue hin hd hx => ?_, fun hst hr => ?_⟩
    · rw [exec_retireBroadcast, Core.broadcast_of_silent _ _ _ _ hst hu hsilent]
    · have hnum : unitNum (.link l) = 17 + l := congrArg (17 + ·) (Nat.mod_eq_of_lt hl)
      rw [← hnum] at hu ⊢
      exact exec_retireBroadcast_told s k (.link l) hst hu
    · exact ⟨_, exec_zeroization s k, s.after_erased (Core.zeroization_erases c s.trim k hst htold hin hd hx)⟩
    · obtain ⟨hgone, more, hmore⟩ := Core.drainTimeout_erases c s.trim k hst hdue hin hd hx
      refine ⟨_, exec_drainTimeout s k, s.after_erased hgone, more, ?_⟩
      rw [State.after_evr, ← hmore, List.append_assoc]
      rfl
    · refine ⟨_, exec_slotFreed s k, ?_, fun j hj => ?_⟩
      · rw [State.after_slot, Core.slot_slotFreed _ _ _ hst hr, if_pos rfl]
      · rw [State.after_slot, Core.slot_slotFreed _ _ _ hst hr, if_neg hj]

end Sys2Proof.Machine

/-! The supply (15, 17): what power-up, a change of the input, holdover and the ripple measurement leave (R412, R413, R415, R419,
R456, R457). -/

namespace Sys2Proof.Machine

/-! The recorder, as far as arriving events leave it alone: only RECORD_WRITE writes a record, and filters act only while the
recorder is enabled (R446, R451). -/

/-- Whether the recorder is enabled, and what stands written in it. -/
def Evr.written (e : Evr) : Bool × List EvRecord × Bool := (e.enable, e.records, e.full)

namespace Evr

theorem written_eq_iff {e e' : Evr} :
    e'.written = e.written ↔ e'.enable = e.enable ∧ e'.records = e.records ∧ e'.full = e.full := by
  simp [written]

theorem limit_written (e : Evr) (code now : Nat) : (e.limit code now).1.written = e.written := by
  unfold limit
  dsimp only
  split
  · rfl
  · split <;> rfl

theorem arrive_written (e : Evr) (st : Stamp) (ev : Event) : (e.arrive st ev).1.written = e.written := by
  rw [← e.limit_written ev.code st.nominal]
  unfold arrive
  split
  next e' h => rw [h]
  next e' n h =>
    rw [h]
    dsimp only
    generalize (if e'.enable then filterAction e'.liveFilters ev else 0) = act
    split
    · rfl
    · split <;> rfl

theorem take_written (e : Evr) (st : Stamp) (ev : Event) : (e.take st ev).1.written = e.written := by
  unfold take
  dsimp only
  split
  · rw [arrive_written, arrive_written]
  · rw [arrive_written]

theorem takeAll_written (st : Stamp) (evs : List Event) (e : Evr) : (e.takeAll st evs).1.written = e.written := by
  induction evs generalizing e with
  | nil => rfl
  | cons ev evs ih => exact (ih _).trans (take_written e st ev)

theorem arrive_silent {e : Evr} (h : e.enable = false) (st : Stamp) (ev : Event) : (e.arrive st ev).2.1 = ⟨false, false⟩ := by
  unfold arrive
  split
  next => rfl
  next e' n hlimit =>
    have hw : e'.written = e.written := by rw [← e.limit_written ev.code st.nominal, hlimit]
    have hoff : e'.enable = false := (written_eq_iff.1 hw).1.trans h
    dsimp only
    rw [hoff, if_neg Bool.false_ne_true]
    split
    · rfl
    · split <;> rfl

theorem take_silent {e : Evr} (h : e.enable = false) (st : Stamp) (ev : Event) : (e.take st ev).2 = ⟨false, false⟩ := by
  have hnext : (e.arrive st ev).1.enable = false := (written_eq_iff.1 (e.arrive_written st ev)).1.trans h
  unfold take
  dsimp only
  split
  · rw [arrive_silent h, arrive_silent hnext]
    rfl
  · exact arrive_silent h st ev

theorem takeAll_silent (st : Stamp) (evs : List Event) {e : Evr} (h : e.enable = false) :
    (e.takeAll st evs).2 = ⟨false, false⟩ := by
  induction evs generalizing e with
  | nil => rfl
  | cons ev evs ih =>
    have hnext : (e.take st ev).1.enable = false := (written_eq_iff.1 (e.take_written st ev)).1.trans h
    unfold takeAll
    dsimp only
    rw [take_silent h, ih hnext]
    rfl

end Evr

/-- With the recorder disabled delivery neither interrupts nor asserts FAIL_N. -/
theorem State.deliver_out_of_disabled (s : State) (st : Stamp) (h : s.evr.enable = false) : (s.deliver st).core.out = s.core.out := by
  unfold State.deliver
  simp [Evr.takeAll_silent st s.core.outbox h]

/-- An event of the system with arguments that fit their fields. -/
theorem sysEvent_of_lt (code inst : Nat) {a0 a1 : Nat} (h0 : a0 < 2 ^ 16) (h1 : a1 < 2 ^ 16) :
    sysEvent code a0 a1 0 inst = ⟨code, 0xFFFF, a0, a1, 0, 0xFFFF, inst⟩ := by
  unfold sysEvent
  rw [Nat.mod_eq_of_lt h0, Nat.mod_eq_of_lt h1, Nat.zero_mod]

/-! What leaves the supply and the Belfry alone: counting, sending, and the events that go with them. -/

/-- From `c` to `d` the PRC and the Belfry stand, and the events of `c` wait before any other. -/
structure Core.SupplyKept (c d : Core) : Prop where
  prc : d.prc = c.prc
  blf : d.blf = c.blf
  outbox : c.outbox <+: d.outbox

namespace Core

theorem SupplyKept.refl (c : Core) : c.SupplyKept c := ⟨rfl, rfl, List.prefix_rfl⟩

theorem SupplyKept.trans {c d e : Core} (h : c.SupplyKept d) (g : d.SupplyKept e) : c.SupplyKept e :=
  ⟨g.prc.trans h.prc, g.blf.trans h.blf, h.outbox.trans g.outbox⟩

theorem SupplyKept.foldl {α : Type} (f : Core → α → Core) (hf : ∀ (c : Core) (x : α), c.SupplyKept (f c x)) (xs : List α) :
    ∀ c : Core, c.SupplyKept (xs.foldl f c) := by
  induction xs with
  | nil => exact SupplyKept.refl
  | cons x xs ih => exact fun c => (hf c x).trans (ih (f c x))

theorem supplyKept_raise (c : Core) (ev : Event) : c.SupplyKept (c.raise ev) := ⟨rfl, rfl, (c.noGain_raise ev).outbox⟩

theorem supplyKept_bump (c : Core) (o n : Nat) : c.SupplyKept (c.bump o n) :=
  ⟨bump_prc c o n, bump_blf c o n, (c.noGain_bump o n).outbox⟩

theorem supplyKept_setLink (c : Core) (k : Nat) (x : LinkS) : c.SupplyKept (c.setLink k x) := ⟨rfl, rfl, List.prefix_rfl⟩

theorem supplyKept_emit (c : Core) (k : Nat) (x : Sent) : c.SupplyKept (c.emit k x) :=
  (supplyKept_setLink c k _).trans (supplyKept_bump _ _ _)

theorem supplyKept_pump (k n : Nat) (c : Core) : c.SupplyKept (c.pump k n) := by
  induction n generalizing c with
  | zero => exact .refl c
  | succ n ih =>
    unfold pump
    dsimp only
    split
    · split
      · exact ((supplyKept_setLink c k _).trans (supplyKept_emit _ k _)).trans (ih _)
      · exact .refl c
    · exact .refl c

theorem supplyKept_unfilled (c : Core) (before after : Nat) : c.SupplyKept (c.unfilled before after) := by
  unfold unfilled
  dsimp only
  split
  · exact (supplyKept_raise c _).trans (supplyKept_bump _ _ _)
  · exact .refl c

end Core

/-! Entering a band (R412). -/

/-- The state of the supply in band `b`: a module that runs is LOW below 46.0 V and NORMAL from there. -/
def SupplySt.inBand (x : SupplySt) (b : Nat) : SupplySt :=
  match x with
  | .normal | .low => if b = 1 then .low else if b = 2 ∨ b = 3 then .normal else x
  | x => x

/-- The PRC once the input has come to `vin`, in another band than before, at nominal beat `now`. -/
def Prc.entered (p : Prc) (vin now : Nat) : Prc :=
  { p with
    vin := vin, band := bandOf vin, bandLeft := p.bandLeft.set p.band (now + 1), state := p.state.inBand (bandOf vin)
    switchOpen := if bandOf vin = 4 then some now else p.switchOpen }

/-- The event of a band, none for the sag and the operating band. -/
def bandEvents (b : Nat) : List Event := if bandCode b ≠ 0 then [sysEvent (bandCode b) 0 0 0 0] else []

namespace Core

theorem enterBand_of_same (c : Core) {vin : Nat} (h : bandOf vin = c.prc.band) :
    c.enterBand vin = { c with prc := { c.prc with vin := vin } } :=
  if_pos h

/-- A change of band moves the PRC, and tells of a band that was never left before. -/
theorem enterBand_of_change (c : Core) {vin : Nat} (h : bandOf vin ≠ c.prc.band) :
    ∃ evs, (c.prc.bandLeft.getD (bandOf vin) 0 = 0 → evs = bandEvents (bandOf vin)) ∧
      c.enterBand vin = { c with prc := c.prc.entered vin c.clk.nominal, outbox := c.outbox ++ evs } := by
  unfold enterBand
  dsimp only
  rw [if_neg h]
  split
  next hcode => exact ⟨_, fun _ => (if_pos hcode.1).symm, rfl⟩
  next hcode =>
    refine ⟨[], fun hleft => (if_neg fun hne => hcode ⟨hne, .inl hleft⟩).symm, ?_⟩
    rw [List.append_nil]
    rfl

/-- Below 44.0 V the supply's state is left to holdover, and besides the PRC only events change. -/
theorem enterBand_of_sag (c : Core) {vin : Nat} (hvin : vin < 4400) :
    ∃ p evs, p.state = c.prc.state ∧ c.enterBand vin = { c with prc := p, outbox := c.outbox ++ evs } := by
  have hsag : bandOf vin = 0 := by
    unfold bandOf
    rw [if_neg (by omega), if_neg (by omega), if_neg (by omega), if_neg (by omega)]
  by_cases h : bandOf vin = c.prc.band
  · refine ⟨{ c.prc with vin := vin }, [], rfl, ?_⟩
    rw [enterBand_of_same c h, List.append_nil]
  · obtain ⟨evs, -, henter⟩ := enterBand_of_change c h
    refine ⟨_, evs, ?_, henter⟩
    dsimp only [Prc.entered]
    rw [hsag]
    cases c.prc.state <;> rfl

end Core

/-! A change of the input as a command. -/

theorem Core.inputLost_iff (c : Core) (vin : Nat) : c.inputLost vin = true ↔
    c.prc.powered = true ∧ ((c.gate.ready = false ∧ bandOf vin ≠ 2) ∨ (c.prc.state = .pfSafe ∧ bandOf vin = 0)) := by
  simp [Core.inputLost]

theorem State.input_of_lost (s : State) {vin : Nat} (h : s.core.inputLost vin = true) : s.input vin =
    .next (s.lose (Core.dark { s.core with prc := { s.core.prc with vin := vin, band := bandOf vin } } s.core.tripWord)) := by
  unfold State.input
  rw [if_pos h]

theorem State.input_of_on (s : State) {vin : Nat} (hon : s.core.prc.powered = true) (hready : s.core.gate.ready = true)
    (hsafe : s.core.prc.state ≠ .pfSafe ∨ bandOf vin ≠ 0) : s.input vin = .next (s.after (s.core.enterBand vin)) := by
  have hkept : ¬ s.core.inputLost vin = true := by
    rw [Core.inputLost_iff]
    rintro ⟨-, ⟨hnot, -⟩ | ⟨hst, hband⟩⟩
    · simp [hready] at hnot
    · exact hsafe.elim (· hst) (· hband)
  unfold State.input
  rw [if_neg hkept, if_pos hon]
  exact State.act_next s _

theorem State.input_of_off (s : State) {vin : Nat} (hoff : s.core.prc.powered = false) :
    s.input vin = .next (s.after { s.core with prc := { s.core.prc with vin := vin, band := bandOf vin } }) := by
  have hkept : ¬ s.core.inputLost vin = true := by simp [Core.inputLost_iff, hoff]
  unfold State.input
  rw [if_neg hkept, if_neg (by simp [hoff])]
  exact State.act_next s _

theorem exec_inputBandChange (s : State) (vin : Nat) : exec (.inputBandChange vin) s = s.input vin := rfl

theorem exec_overVoltage_of_over (s : State) {vin : Nat} (h : 6400 < vin) : exec (.overVoltage vin) s = s.input vin := if_pos h

theorem exec_overVoltage_of_not_over (s : State) {vin : Nat} (h : vin ≤ 6400) :
    exec (.overVoltage vin) s = .next (s.after s.core) := if_neg (not_lt.2 h)

theorem inputBandChange_enters (s : State) (vin : Nat) (hon : s.core.prc.powered = true) (hready : s.core.gate.ready = true)
    (hsafe : s.core.prc.state ≠ .pfSafe) (hband : bandOf vin ≠ s.core.prc.band) :
    ∃ t, exec (.inputBandChange vin) s = .next t ∧ t.core.prc.band = bandOf vin ∧ t.core.prc.vin = vin ∧
      (s.core.prc.state = .normal → bandOf vin = 1 → t.core.prc.state = .low) ∧
      (s.core.prc.state = .low → (bandOf vin = 2 ∨ bandOf vin = 3) → t.core.prc.state = .normal) ∧
      (s.core.prc.bandLeft.getD (bandOf vin) 0 = 0 →
        t.evr = (s.evr.takeAll s.core.stamp (s.core.outbox ++ bandEvents (bandOf vin))).1) := by
  obtain ⟨evs, hevs, henter⟩ := s.core.enterBand_of_change hband
  refine ⟨_, s.input_of_on hon hready (.inl hsafe), ?_⟩
  rw [State.after_prc, State.after_evr, henter]
  refine ⟨rfl, rfl, fun hst hlow => ?_, fun hst hup => ?_, fun hleft => by rw [hevs hleft]⟩
  · simp [Prc.entered, SupplySt.inBand, hst, hlow]
  · have hnot : bandOf vin ≠ 1 := by omega
    simp [Prc.entered, SupplySt.inBand, hst, hup, hnot]

theorem inputBandChange_loses (s : State) (vin : Nat) (hon : s.core.prc.powered = true)
    (h : (s.core.gate.ready = false ∧ bandOf vin ≠ 2) ∨ (s.core.prc.state = .pfSafe ∧ bandOf vin = 0)) :
    ∃ t, exec (.inputBandChange vin) s = .next t ∧ t.core.prc.powered = false ∧ t.core.prc.vin = vin ∧ t.core.segs = [] ∧
      t.dram = ⟨[], [], [], []⟩ ∧ t.core.keep.fws = s.core.keep.fws :=
  ⟨_, s.input_of_lost ((s.core.inputLost_iff vin).2 ⟨hon, h⟩), rfl, rfl, rfl, rfl, rfl⟩

theorem overVoltage_opens_switch (s : State) (vin : Nat) (hvin : 6400 < vin) (hon : s.core.prc.powered = true)
    (hready : s.core.gate.ready = true) (hband : s.core.prc.band ≠ 4) :
    ∃ t, exec (.overVoltage vin) s = .next t ∧ t.core.prc.band = 4 ∧ t.core.prc.switchOpen = some s.core.clk.nominal ∧
      t.core.switchIsOpen = true := by
  have hover : bandOf vin = 4 := if_pos hvin
  obtain ⟨evs, -, henter⟩ := s.core.enterBand_of_change (hover.trans_ne hband.symm)
  refine ⟨_, (exec_overVoltage_of_over s hvin).trans (s.input_of_on hon hready (.inr (by simp [hover]))), ?_⟩
  rw [henter]
  simp [Core.switchIsOpen, Prc.entered, hover]

/-! Power on and off (R456, R457). -/

theorem State.lose_core (s : State) (c : Core) : (s.lose c).core = c := rfl

theorem exec_pwrgdInDeasserted_of_unready (s : State) (hon : s.core.prc.powered = true) (hready : s.core.gate.ready = false) :
    exec .pwrgdInDeasserted s =
      .next (s.lose (Core.dark { s.core with prc := { s.core.prc with pwrgd := false } } s.core.tripWord)) :=
  if_pos (by simp [hon, hready])

theorem exec_pwrgdInDeasserted_of_governed_or_off (s : State) (h : s.core.prc.powered = false ∨ s.core.gate.ready = true) :
    exec .pwrgdInDeasserted s = .next (s.after { s.core with prc := { s.core.prc with pwrgd := false } }) :=
  if_neg (by rcases h with h | h <;> simp [h])

theorem exec_powerUp_of_off (s : State) (h : s.core.prc.powered = false) :
    exec .powerUp s = .next ((s.lose s.core.wakeUp).deliver s.core.wakeUp.stamp) := if_neg (by simp [h])

theorem exec_powerUp_of_on (s : State) (h : s.core.prc.powered = true) :
    exec .powerUp s = .next (s.after { s.core with
      free := s.core.free + 1
      prc := { s.core.prc with
        pwrgd := true, band := 2
        vin := if 4600 ≤ s.core.prc.vin ∧ s.core.prc.vin ≤ 6000 then s.core.prc.vin else 4600 + Config.freeNat s.core.free % 1401 } }) := by
  refine (if_pos h).trans ?_
  rw [State.act_next]
  simp only [within, decide_eq_true_eq]
  rfl

/-- The die at power-up: after a loss of everything, the supply in the operating band over a charged store, the towers in their
self-test, and at most the report of a thermal trip on its way. -/
theorem Core.wakeUp_eq (c : Core) : ∃ vin evs, 4600 ≤ vin ∧ vin ≤ 6000 ∧ c.wakeUp = { (c.dark none).fresh with
    prc := { Prc.reset with vin := vin, band := 2, pwrgd := true, powered := true, energy := 3100 }
    towers := List.replicate 64 (.reset selfTestBeats), outbox := evs } := by
  have hvin : ∀ n, let vin := if within 4600 6000 c.prc.vin then c.prc.vin else 4600 + n % 1401
      4600 ≤ vin ∧ vin ≤ 6000 := by
    intro n
    dsimp only
    split
    next h => simpa [within] using h
    next => omega
  unfold wakeUp
  dsimp only
  split
  · exact ⟨_, _, (hvin _).1, (hvin _).2, rfl⟩
  · exact ⟨_, _, (hvin _).1, (hvin _).2, rfl⟩

theorem powerUp_starts (s : State) (hoff : s.core.prc.powered = false) :
    ∃ t, exec .powerUp s = .next t ∧ t.core.prc.powered = true ∧ t.core.prc.pwrgd = true ∧ t.core.prc.band = 2 ∧
      t.core.prc.energy = 3100 ∧ t.core.prc.state = .normal ∧ 4600 ≤ t.core.prc.vin ∧ t.core.prc.vin ≤ 6000 ∧
      t.core.gate.ready = false ∧ t.core.out.failN = [0] ∧ t.core.keep.bootStage = 0 ∧ t.core.keep.fws = s.core.keep.fws ∧
      t.core.towers.length = 64 ∧ (∀ y ∈ t.core.towers, y.testDone = false ∧ y.fenced = false) ∧ t.core.segs = [] ∧
      t.core.regs = [] ∧ t.dram = ⟨[], [], [], []⟩ ∧ t.evr.records = [] ∧ t.evr.full = false ∧ t.pending = s.pending := by
  obtain ⟨vin, evs, hlow, hhigh, hwake⟩ := s.core.wakeUp_eq
  obtain ⟨-, hrecords, hfull⟩ := Evr.written_eq_iff.1 (Evr.takeAll_written s.core.wakeUp.stamp s.core.wakeUp.outbox .reset)
  have htested : ∀ y ∈ List.replicate 64 (Tower.reset selfTestBeats), y.testDone = false ∧ y.fenced = false := by
    intro y hy
    rw [List.eq_of_mem_replicate hy]
    exact ⟨rfl, rfl⟩
  refine ⟨_, exec_powerUp_of_off s hoff, ?_⟩
  rw [State.deliver_prc, State.deliver_gate, State.deliver_out_of_disabled _ _ rfl, State.deliver_keep, State.deliver_towers,
    State.deliver_segs, State.deliver_regs, State.lose_core, hwake]
  rw [hwake] at hrecords hfull
  exact ⟨rfl, rfl, rfl, rfl, rfl, hlow, hhigh, rfl, rfl, rfl, rfl, List.length_replicate, htested, rfl, rfl, rfl, hrecords, hfull, rfl⟩

/-! Holdover (R413, R415). -/

theorem exec_holdoverEntry (s : State) (vin : Nat) : exec (.holdoverEntry vin) s = .next (s.after (s.core.holdoverEntry vin)) := rfl

theorem exec_holdoverExit (s : State) (energy : Nat) :
    exec (.holdoverExit energy) s = .next (s.after (s.core.holdoverExit energy)) := rfl

namespace Core

/-- A running module whose input stays below 44.0 V: the request for code 5 and its event, on the die that has entered the band
and counted the holdover. -/
theorem holdoverEntry_of_sag (c : Core) {vin : Nat} (hgov : c.governed = true)
    (hrun : c.prc.state = .normal ∨ c.prc.state = .low) (hvin : vin < 4400) :
    ∃ d : Core, c.outbox <+: d.outbox ∧ d.prc.state = .holdover ∧ d.prc.holdSince = c.clk.nominal ∧
      d.blf = { c.blf with reqHoldover := 5 } ∧
      (d.raise ⟨0x0802, 0xFFFF, vin / 10, 0, 0, 0xFFFF, 0⟩).SupplyKept (c.holdoverEntry vin) := by
  obtain ⟨p, evs, hst, henter⟩ := c.enterBand_of_sag hvin
  have hcounted := supplyKept_bump (c.enterBand vin) 0x30_0080 1
  have hbox := hcounted.outbox
  have hrunning : ((c.enterBand vin).bump 0x30_0080 1).running = true := by
    rw [running, hcounted.prc, henter]
    simpa [hst] using hrun
  have hgo : ¬ (!(decide (vin < 4400) || (c.enterBand vin).switchIsOpen)) = true := by simp [hvin]
  have hevent : sysEvent 0x0802 (vin / 10) 0 0 0 = ⟨0x0802, 0xFFFF, vin / 10, 0, 0, 0xFFFF, 0⟩ :=
    sysEvent_of_lt _ _ (by omega) (by decide)
  unfold holdoverEntry
  rw [if_neg (by simp [hgov])]
  dsimp only
  rw [if_neg hgo, if_pos hrunning, hevent]
  refine ⟨_, ?_, ?_, ?_, ?_, supplyKept_unfilled _ _ _⟩
  · rw [henter] at hbox ⊢
    exact (List.prefix_append _ _).trans hbox
  · rfl
  · simp only [bump_clk, henter]
  · simp only [bump_blf, henter]

/-- The input is good and the store charged: the request is withdrawn, the event recorded, and the links send. -/
theorem holdoverExit_of_good (c : Core) {energy : Nat} (hgov : c.governed = true) (hreq : c.blf.reqHoldover ≠ 0)
    (hgood : c.inputGood = true) (henergy : 3100 ≤ energy) :
    (raise (cleared { c with
      prc := { c.prc with energy := energy, state := if c.prc.state = .holdover then .normal else c.prc.state }
      blf := { c.blf with reqHoldover := 0 } } c.request)
        ⟨0x0803, 0xFFFF, min 0xFFFF ((c.clk.nominal - c.prc.holdSince) / 1250), 0, 0, 0xFFFF, 0⟩).SupplyKept
      (c.holdoverExit energy) := by
  have hgo : ¬ (c.blf.reqHoldover = 0 ∨ (!c.governed) = true ∨ (!c.inputGood) = true ∨ energy < 3100) := by
    simp [hreq, hgov, hgood, henergy]
  have hevent := sysEvent_of_lt 0x0803 0 (a0 := min 0xFFFF ((c.clk.nominal - c.prc.holdSince) / 1250)) (a1 := 0)
    (by omega) (by decide)
  unfold holdoverExit
  rw [if_neg hgo, ← hevent]
  exact (supplyKept_bump _ _ _).trans (.foldl _ (fun d k => supplyKept_pump k _ d) _ _)

theorem holdoverExit_of_low (c : Core) {energy : Nat} (h : energy < 3100) : c.holdoverExit energy = c := by
  unfold holdoverExit
  rw [if_pos (by simp [h])]

theorem cleared_prc (c : Core) (before : Nat) : (c.cleared before).prc = c.prc := by
  unfold cleared
  split <;> rfl

theorem cleared_outbox (c : Core) (before : Nat) : (c.cleared before).outbox = c.outbox := by
  unfold cleared
  split <;> rfl

theorem cleared_reqHoldover (c : Core) (before : Nat) : (c.cleared before).blf.reqHoldover = c.blf.reqHoldover := by
  unfold cleared
  split <;> rfl

end Core

theorem holdoverEntry_enters (s : State) (vin : Nat) (hon : s.core.prc.powered = true) (hready : s.core.gate.ready = true)
    (hrun : s.core.prc.state = .normal ∨ s.core.prc.state = .low) (hvin : vin < 4400) :
    ∃ (t : State) (pre more : List Event), exec (.holdoverEntry vin) s = .next t ∧ t.core.prc.state = .holdover ∧
      t.core.prc.holdSince = s.core.clk.nominal ∧ t.core.blf = { s.core.blf with reqHoldover := 5 } ∧
      t.evr = (s.evr.takeAll s.core.stamp
        (s.core.outbox ++ pre ++ ⟨0x0802, 0xFFFF, vin / 10, 0, 0, 0xFFFF, 0⟩ :: more)).1 := by
  obtain ⟨d, ⟨pre, hpre⟩, hst, hsince, hreq, hprc, hblf, more, hmore⟩ :=
    s.core.holdoverEntry_of_sag (by simp [Core.governed, hon, hready]) hrun hvin
  rw [Core.raise_prc] at hprc
  refine ⟨_, pre, more, exec_holdoverEntry s vin, ?_, ?_, ?_, ?_⟩
  · rw [State.after_prc, hprc, hst]
  · rw [State.after_prc, hprc, hsince]
  · rw [State.after_blf, hblf, Core.raise_blf, hreq]
  · rw [State.after_evr, ← hmore, Core.raise, hpre, List.append_assoc]
    rfl

theorem holdoverExit_leaves (s : State) (energy : Nat) (hon : s.core.prc.powered = true) (hready : s.core.gate.ready = true)
    (hreq : s.core.blf.reqHoldover ≠ 0) (hgood : s.core.inputGood = true) (henergy : 3100 ≤ energy) :
    ∃ (t : State) (more : List Event), exec (.holdoverExit energy) s = .next t ∧ t.core.blf.reqHoldover = 0 ∧
      t.core.prc.energy = energy ∧ (s.core.prc.state = .holdover → t.core.prc.state = .normal) ∧
      t.evr = (s.evr.takeAll s.core.stamp (s.core.outbox ++
        ⟨0x0803, 0xFFFF, min 0xFFFF ((s.core.clk.nominal - s.core.prc.holdSince) / 1250), 0, 0, 0xFFFF, 0⟩ :: more)).1 := by
  obtain ⟨hprc, hblf, more, hmore⟩ :=
    s.core.holdoverExit_of_good (by simp [Core.governed, hon, hready]) hreq hgood henergy
  rw [Core.raise_prc, Core.cleared_prc] at hprc
  refine ⟨_, more, exec_holdoverExit s energy, ?_, ?_, fun hst => ?_, ?_⟩
  · rw [State.after_blf, hblf, Core.raise_blf, Core.cleared_reqHoldover]
  · rw [State.after_prc, hprc]
  · rw [State.after_prc, hprc]
    exact if_pos hst
  · rw [State.after_evr, ← hmore, Core.raise, Core.cleared_outbox, List.append_assoc]
    rfl

/-! The ripple (R419). -/

theorem exec_rippleMeasure (s : State) (mv hz : Nat) : exec (.rippleMeasure mv hz) s = .next (s.after (s.core.ripple mv hz)) := rfl

namespace Core

theorem ripple_of_low (c : Core) {mv hz : Nat} (hmv : mv ≤ 1500) (hhz : hz < 2 ^ 16) :
    c.ripple mv hz = { c with prc := { c.prc with ripple := mv, freq := hz, rippleAt := none } } := by
  unfold ripple
  dsimp only
  rw [if_pos (.inr hmv), Nat.mod_eq_of_lt (by omega), Nat.mod_eq_of_lt hhz]

section High

variable {c : Core} {mv hz : Nat} (hmv : mv < 2 ^ 16) (hhz : hz < 2 ^ 16) (hon : c.prc.powered = true) (hhigh : 1500 < mv)
include hmv hhz hon hhigh

/-- Ripple above the limit, with its event where none was sent or the last is 10 s old. -/
theorem ripple_of_high : c.ripple mv hz =
    if ∀ b, c.prc.rippleAt = some b → b + 12_500_000_000 ≤ c.clk.nominal then
      raise { c with prc := { c.prc with ripple := mv, freq := hz, rippleAt := some c.clk.nominal } }
        ⟨0x0808, 0xFFFF, mv, hz, 0, 0xFFFF, 0⟩
    else { c with prc := { c.prc with ripple := mv, freq := hz } } := by
  have hgo : ¬ ((!c.prc.powered) = true ∨ mv ≤ 1500) := by simp [hon, hhigh]
  unfold ripple
  dsimp only
  rw [if_neg hgo, Nat.mod_eq_of_lt hmv, Nat.mod_eq_of_lt hhz, sysEvent_of_lt _ _ hmv hhz]
  cases c.prc.rippleAt <;> simp

theorem ripple_of_first (hat : c.prc.rippleAt = none) : c.ripple mv hz =
    raise { c with prc := { c.prc with ripple := mv, freq := hz, rippleAt := some c.clk.nominal } }
      ⟨0x0808, 0xFFFF, mv, hz, 0, 0xFFFF, 0⟩ := by
  rw [ripple_of_high hmv hhz hon hhigh, if_pos (by simp [hat])]

theorem ripple_of_again {b : Nat} (hat : c.prc.rippleAt = some b) (hold : b + 12_500_000_000 ≤ c.clk.nominal) :
    c.ripple mv hz = raise { c with prc := { c.prc with ripple := mv, freq := hz, rippleAt := some c.clk.nominal } }
      ⟨0x0808, 0xFFFF, mv, hz, 0, 0xFFFF, 0⟩ := by
  rw [ripple_of_high hmv hhz hon hhigh, if_pos (by simpa [hat] using hold)]

theorem ripple_of_soon {b : Nat} (hat : c.prc.rippleAt = some b) (hsoon : c.clk.nominal < b + 12_500_000_000) :
    c.ripple mv hz = { c with prc := { c.prc with ripple := mv, freq := hz } } := by
  rw [ripple_of_high hmv hhz hon hhigh, if_neg (by simpa [hat] using hsoon)]

end High

end Core

/-- Settles O56: each command's meaning in the case it acts in; what follows an event in holdover leaves the supply and the Belfry
alone (`Core.SupplyKept`), and power-up delivers to a recorder that is disabled. -/
theorem powerAndInput : Obligations.PowerAndInput := by
  unfold Obligations.PowerAndInput
  intro s c p
  refine ⟨powerUp_starts s, exec_powerUp_of_on s, fun vin => s.input_of_off, fun vin hon hready hsafe hband => ?_,
    fun vin hon hready hsafe hband => ?_, inputBandChange_loses s, overVoltage_opens_switch s, fun vin => exec_overVoltage_of_not_over s,
    fun hon hready => ⟨_, exec_pwrgdInDeasserted_of_unready s hon hready, rfl, rfl, rfl⟩, exec_pwrgdInDeasserted_of_governed_or_off s,
    holdoverEntry_enters s, holdoverExit_leaves s, fun energy hlow => ?_, fun mv hz hmv hhz hon hhigh hat => ?_,
    fun mv hz b hmv hhz hon hhigh hat => ⟨fun hsoon => ?_, fun hold => ?_⟩, fun mv hz hmv hhz => ?_⟩
  · rw [exec_inputBandChange, s.input_of_on hon hready (.inl hsafe), Core.enterBand_of_same _ hband]
  · obtain ⟨t, hexec, hb, hvin, hlow, hnormal, hevr⟩ := inputBandChange_enters s vin hon hready hsafe hband
    refine ⟨t, hexec, hb, hvin, hlow, hnormal, fun hleft => ?_⟩
    rw [hevr hleft]
    generalize bandOf vin = b
    match b with
    | 0 | 1 | 2 | 3 | 4 | n + 5 => rfl
  · rw [exec_holdoverExit, Core.holdoverExit_of_low _ hlow]
  · rw [exec_rippleMeasure, Core.ripple_of_first hmv hhz hon hhigh hat]
  · rw [exec_rippleMeasure, Core.ripple_of_soon hmv hhz hon hhigh hat hsoon]
  · rw [exec_rippleMeasure, Core.ripple_of_again hmv hhz hon hhigh hat hold]
  · rw [exec_rippleMeasure, Core.ripple_of_low _ hmv hhz]

end Sys2Proof.Machine

/-! Counters and block controls (00, 16): what an access that is no 32-bit or 64-bit one, LOCK, CNT_CLEAR and an addition to a
counter leave (R13, R15, R337, R440, R441, R468). -/

namespace Sys2Proof.Machine

/-! A performance counter (R440, R441). -/

theorem Counter.bump_of_ovf (c : Counter) (now n : Nat) (h : c.ovf = true) :
    (c.bump now n).1.count = c.count ∧ (c.bump now n).1.ovf = true := by
  by_cases hn : n = 0 <;> simp [Counter.bump, hn, h]

theorem Counter.bump_of_below (c : Counter) (now n : Nat) (h : c.ovf = false) (hlt : c.count + n < 2 ^ 48 - 1) :
    (c.bump now n).1.count = c.count + n ∧ (c.bump now n).1.ovf = false := by
  by_cases hn : n = 0
  · simp [Counter.bump, hn, h]
  · unfold Counter.bump
    rw [if_neg hn, h, if_neg Bool.false_ne_true, if_neg (not_le.mpr hlt)]
    exact ⟨rfl, rfl⟩

/-- The increment that reaches the largest value saturates the counter and is the one that is told. -/
theorem Counter.bump_of_reached (c : Counter) (now n : Nat) (h : c.ovf = false) (hn : 0 < n) (hle : 2 ^ 48 - 1 ≤ c.count + n) :
    c.bump now n = (⟨2 ^ 48 - 1, true, now, c.here now n⟩, true) := by
  unfold Counter.bump
  rw [if_neg hn.ne', h, if_neg Bool.false_ne_true, if_pos hle]

theorem Counter.cleared_of_elsewhere (c : Counter) (now : Nat) (h : c.beat ≠ now) : c.cleared now = .zero := by
  simp [Counter.cleared, Counter.here, h]

theorem Counter.cleared_zero (now : Nat) : Counter.zero.cleared now = .zero := by
  have hhere : Counter.zero.here now 0 = 0 := ite_self 0
  exact if_pos hhere

/-- The increments of the clear's own beat count after it. -/
theorem Counter.cleared_of_here (c : Counter) (now : Nat) (h : c.beat = now) (hlt : c.part < 2 ^ 48 - 1) :
    (c.cleared now).count = c.part ∧ (c.cleared now).ovf = false := by
  have hhere : c.here now 0 = c.part := by simp [Counter.here, h]
  unfold Counter.cleared
  rw [hhere]
  split
  next hnone => exact ⟨hnone.symm, rfl⟩
  next =>
    have hsum : Counter.zero.count + c.part = c.part := Nat.zero_add _
    obtain ⟨hcount, hovf⟩ := Counter.zero.bump_of_below now c.part rfl (hsum.trans_lt hlt)
    exact ⟨hcount.trans hsum, hovf⟩

/-! The map of counters. -/

/-- What a key reads after every listed value is changed by a function that keeps the default. -/
theorem SMap.get_mapV {α : Type} [DecidableEq α] (d : α) (f : Nat → α → α) (m : SMap α) (k : Nat) (hd : f k d = d)
    (h : m.rising = true) : SMap.get d (SMap.mapV d f m) k = f k (SMap.get d m k) := by
  induction m with
  | nil => exact hd.symm
  | cons e m ih =>
    obtain ⟨i, w⟩ := e
    obtain ⟨habove, hrising⟩ := SMap.rising_cons.1 h
    have hrest := ih hrising
    have hbelow : k ≤ i → SMap.get d (SMap.mapV d f m) k = d := fun hk => by
      rw [hrest, SMap.get_of_above d m k (fun e he => hk.trans_lt (habove e he)), hd]
    have hcons : SMap.mapV d f ((i, w) :: m) =
        if f i w = d then SMap.mapV d f m else (i, f i w) :: SMap.mapV d f m := by
      by_cases hw : f i w = d <;> simp [SMap.mapV, hw]
    rw [hcons]
    rcases lt_trichotomy k i with hlt | rfl | hgt
    · split <;> simp [SMap.get, hlt, hlt.ne', hbelow hlt.le, hd]
    · split
      next hw => simp [SMap.get, hbelow le_rfl, hw]
      next => simp [SMap.get]
    · split <;> simp [SMap.get, hgt.ne, hgt.not_gt, hrest]

theorem Core.cntClear_get (c : Core) (p : Nat → Bool) (o : Nat) (h : c.ctr.rising = true) :
    (c.cntClear p).ctr.get .zero o =
      if p o then (c.ctr.get .zero o).cleared c.clk.nominal else c.ctr.get .zero o := by
  refine SMap.get_mapV .zero (fun o x => if p o then x.cleared c.clk.nominal else x) c.ctr o ?_ h
  rw [Counter.cleared_zero, ite_self]

/-- The event of an addition that reaches the largest value (R440). -/
theorem Core.bump_outbox_of_reached (c : Core) (off n : Nat) (h : (c.ctr.get .zero off).ovf = false) (hn : 0 < n)
    (hle : 2 ^ 48 - 1 ≤ (c.ctr.get .zero off).count + n) :
    (c.bump off n).outbox =
      c.outbox ++ [satEvent (blockAt off).1 ((off - (blockAt off).2.1) % 2 ^ 16) (blockAt off).2.2] := by
  simp [Core.bump, Core.raise, Counter.bump_of_reached _ _ _ h hn hle]

/-! The CTL registers that have a LOCK bit (R15). -/

theorem blockAt_hstBase {p : Nat} (hp : p < 2) : blockAt (hstBase p) = (6, hstBase p, p) := by
  interval_cases p <;> rfl

theorem blockAt_memBase {k : Nat} (hk : k < 16) : blockAt (memBase k) = (4, memBase k, k) := by
  interval_cases k <;> rfl

theorem blockAt_lnkBase {k : Nat} (hk : k < 36) : blockAt (lnkBase k) = (7, lnkBase k, k) := by
  interval_cases k <;> rfl

theorem blockAt_twrBase {t : Nat} (ht : t < 64) : blockAt (twrBase t) = (1, twrBase t, t) := by
  interval_cases t <;> rfl

/-- The blocks of the map (R12): Backplane and Gatehouse, the single blocks, and the blocks that stand more than once. -/
theorem blockAt_base (off : Nat) :
    (blockAt off).1 = 2 ∨ (blockAt off).1 = 0xA ∨ (blockAt off).2.1 ∈ [0x10_0000, 0x20_0000, 0x30_0000, 0x40_0000] ∨
      (∃ p < 2, (blockAt off).2.1 = hstBase p) ∨ (∃ k < 16, (blockAt off).2.1 = memBase k) ∨
      (∃ k < 36, (blockAt off).2.1 = lnkBase k) ∨ (∃ t < 64, (blockAt off).2.1 = twrBase t) := by
  generalize hblock : blockAt off = b
  unfold blockAt at hblock
  split_ifs at hblock <;> subst hblock
  · exact .inr (.inr (.inr (.inl ⟨_, by omega, rfl⟩)))
  · exact .inr (.inl rfl)
  · exact .inr (.inr (.inl (.head _)))
  · exact .inr (.inr (.inl (.tail _ (.head _))))
  · exact .inr (.inr (.inl (.tail _ (.tail _ (.head _)))))
  · exact .inr (.inr (.inl (.tail _ (.tail _ (.tail _ (.head _))))))
  · exact .inr (.inr (.inr (.inr (.inl ⟨_, by omega, rfl⟩))))
  · exact .inr (.inr (.inr (.inr (.inr (.inl ⟨_, by omega, rfl⟩)))))
  · exact .inr (.inr (.inr (.inr (.inr (.inl ⟨0, by omega, rfl⟩)))))
  · exact .inr (.inr (.inr (.inr (.inr (.inr ⟨_, by omega, rfl⟩)))))
  · exact .inl rfl

/-- The CTL registers with a LOCK bit are the first registers of the blocks, and the link complex's own. -/
theorem lockable_cases {off : Nat} (h : lockable off = true) :
    off ∈ [0, 0x124_0000, 0x10_0000, 0x20_0000, 0x30_0000, 0x40_0000] ∨ (∃ p < 2, off = hstBase p) ∨
      (∃ k < 16, off = memBase k) ∨ (∃ k < 36, off = lnkBase k) ∨ (∃ t < 64, off = twrBase t) := by
  unfold lockable at h
  simp only [Bool.or_eq_true, Bool.and_eq_true, decide_eq_true_eq, bne_iff_ne] at h
  rcases h with (rfl | ⟨⟨hbase, htwo⟩, hten⟩) | rfl
  · exact .inl (.tail _ (.head _))
  · have hblock := blockAt_base off
    rw [hbase] at hblock
    rcases hblock with h | h | h | h
    · exact absurd h htwo
    · exact absurd h hten
    · exact .inl (List.mem_cons_of_mem _ (List.mem_cons_of_mem _ h))
    · exact .inr h
  · exact .inl (.head _)

theorem lockable_aligned {off : Nat} (h : lockable off = true) : off % 8 = 0 := by
  rcases lockable_cases h with h | ⟨p, hp, rfl⟩ | ⟨k, hk, rfl⟩ | ⟨k, hk, rfl⟩ | ⟨t, ht, rfl⟩
  · fin_cases h <;> rfl
  all_goals simp only [hstBase, memBase, lnkBase, twrBase]; omega

/-! Reading a CTL register, and a counter (R13, R15, R441). -/

@[simp] theorem packed_nil : packed [] = 0 := rfl

@[simp] theorem packed_cons (lo w v : Nat) (fs : List (Nat × Nat × Nat)) :
    packed ((lo, w, v) :: fs) = v % 2 ^ w * 2 ^ lo + packed fs := rfl

theorem Counter.word_eq (x : Counter) : x.word = x.count % 2 ^ 48 + b2n x.ovf * 2 ^ 63 := by
  have hbit : b2n x.ovf % 2 ^ 1 = b2n x.ovf := by cases x.ovf <;> rfl
  rw [Counter.word, packed_cons, packed_cons, packed_nil, hbit, pow_zero, mul_one, add_zero]

/-- The administration PF reads an aligned register of BAR0 whole. -/
theorem State.readReg_admin (s : State) (via : Option Nat) {off : Nat} (h : off % 8 = 0) :
    s.readReg ⟨s.trim.admin, via⟩ 0 off 8 = some (readBar0 s.trim s.core s.evr off) := by
  have hbase : off / 8 * 8 = off := by omega
  simp [State.readReg, accessOk, Trim.admin, readPart, h, hbase]

theorem isCounter_aligned {off : Nat} (h : isCounter off = true) : off % 8 = 0 := by
  unfold isCounter at h
  simp only [Bool.and_eq_true, decide_eq_true_eq] at h
  exact h.1

theorem readBar0_of_isCounter (tr : Trim) (c : Core) (e : Evr) {off : Nat} (h : isCounter off = true) :
    readBar0 tr c e off = (c.ctr.get .zero off).word := if_pos h

/-! The LOCK bit as a host reads it. -/

theorem isCounter_of_lockable {off : Nat} (h : lockable off = true) : isCounter off = false := by
  rcases lockable_cases h with h | ⟨p, hp, rfl⟩ | ⟨k, hk, rfl⟩ | ⟨k, hk, rfl⟩ | ⟨t, ht, rfl⟩
  · fin_cases h <;> rfl
  · simp [isCounter, blockAt_hstBase hp, within]
  · simp [isCounter, blockAt_memBase hk, within]
  · simp [isCounter, blockAt_lnkBase hk, within]
  · simp [isCounter, blockAt_twrBase ht, within]

theorem lockPlace_hstBase {p : Nat} (hp : p < 2) : lockPlace (hstBase p) = 0 := by
  interval_cases p <;> rfl

theorem lockPlace_memBase {k : Nat} (hk : k < 16) : lockPlace (memBase k) = 0 := by
  interval_cases k <;> rfl

theorem lockPlace_lnkBase {k : Nat} (hk : k < 36) : lockPlace (lnkBase k) = 1 := by
  interval_cases k <;> rfl

theorem lockPlace_twrBase {t : Nat} (ht : t < 64) : lockPlace (twrBase t) = 0 := by
  interval_cases t <;> rfl

section Reads

variable (c : Core) (tr : Trim)

theorem Core.testBit_readGate_lock (h : c.lockBit 0 = 1) : (c.readGate 0).testBit 0 = true := by
  simp [Core.readGate, h]

theorem Core.testBit_readPort_lock (p : Nat) (h : c.lockBit (hstBase p) = 1) : (c.readPort tr p 0).testBit 0 = true := by
  simp only [Core.readPort, packed_cons, packed_nil, h, Nat.testBit_eq_decide_div_mod_eq, decide_eq_true_eq]
  omega

theorem Core.testBit_readBelfry_lock (h : c.lockBit 0x10_0000 = 1) : (c.readBelfry 0).testBit 2 = true := by
  have hword : c.readBelfry 0 = packed [(0, 1, b2n c.blf.run), (1, 1, b2n c.blf.segAdmit), (2, 1, c.lockBit 0x10_0000)] := rfl
  simp only [hword, packed_cons, packed_nil, h, Nat.testBit_eq_decide_div_mod_eq, decide_eq_true_eq]
  omega

theorem Core.testBit_readKeep_lock (h : c.lockBit 0x20_0000 = 1) : (c.readKeep 0).testBit 0 = true := by
  simp [Core.readKeep, h]

theorem Core.testBit_readPrc_lock (h : c.lockBit 0x30_0000 = 1) : (c.readPrc tr 0).testBit 0 = true := by
  simp [Core.readPrc, h]

theorem testBit_readEvr_lock (e : Evr) (h : c.lockBit 0x40_0000 = 1) : (readEvr c e 0).testBit 1 = true := by
  have hword : readEvr c e 0 = packed [(0, 1, b2n e.enable), (1, 1, c.lockBit 0x40_0000)] := rfl
  simp only [hword, packed_cons, packed_nil, h, Nat.testBit_eq_decide_div_mod_eq, decide_eq_true_eq]
  omega

theorem Core.testBit_readMem_lock (k : Nat) (h : c.lockBit (memBase k) = 1) : (c.readMem k 0).testBit 0 = true := by
  simp only [Core.readMem, packed_cons, packed_nil, h, Nat.testBit_eq_decide_div_mod_eq, decide_eq_true_eq]
  omega

theorem Core.testBit_readLink_lock (k : Nat) (h : c.lockBit (lnkBase k) = 1) : (c.readLink k 0).testBit 1 = true := by
  simp only [Core.readLink, packed_cons, packed_nil, h, Nat.testBit_eq_decide_div_mod_eq, decide_eq_true_eq]
  omega

theorem Core.testBit_readTower_lock (t : Nat) (h : c.lockBit (twrBase t) = 1) : (c.readTower t 0).testBit 0 = true := by
  simp [Core.readTower, h]

/-- The bits a block gives of its own stay when the fields stored beside them are joined in. -/
theorem testBit_or_stored {own i : Nat} (stored : Nat) (row : Option RegRow) (h : own.testBit i = true) :
    (match row with
      | some row => own ||| (stored &&& (row.rw ||| row.rwl))
      | none => own).testBit i = true := by
  cases row with
  | none => exact h
  | some row => simp [Nat.testBit_or, h]

/-- A block's LOCK bit, once set, reads 1 in its CTL register. -/
theorem testBit_readBar0_lock (e : Evr) {off : Nat} (hoff : lockable off = true) (h : c.lockBit off = 1) :
    (readBar0 tr c e off).testBit (lockPlace off) = true := by
  have hctr : ¬isCounter off = true := Bool.eq_false_iff.1 (isCounter_of_lockable hoff)
  unfold readBar0
  dsimp only
  rw [if_neg hctr]
  refine testBit_or_stored _ _ ?_
  rcases lockable_cases hoff with hs | ⟨p, hp, rfl⟩ | ⟨k, hk, rfl⟩ | ⟨k, hk, rfl⟩ | ⟨t, ht, rfl⟩
  · simp only [List.mem_cons, List.not_mem_nil, or_false] at hs
    rcases hs with rfl | rfl | rfl | rfl | rfl | rfl
    · exact c.testBit_readGate_lock h
    · have hword : (c.lockBit 0x124_0000).testBit 0 = true := by rw [h]; rfl
      exact hword
    · exact c.testBit_readBelfry_lock h
    · exact c.testBit_readKeep_lock h
    · exact c.testBit_readPrc_lock tr h
    · exact testBit_readEvr_lock c e h
  · rw [lockPlace_hstBase hp, blockAt_hstBase hp]
    simpa using c.testBit_readPort_lock tr p h
  · rw [lockPlace_memBase hk, blockAt_memBase hk]
    simpa using c.testBit_readMem_lock k h
  · have hlt : lnkBase k < 0x124_0000 := by unfold lnkBase; omega
    rw [lockPlace_lnkBase hk, blockAt_lnkBase hk]
    simpa [hlt] using c.testBit_readLink_lock k h
  · rw [lockPlace_twrBase ht, blockAt_twrBase ht]
    simpa using c.testBit_readTower_lock t h

end Reads

/-! LOCK (R15, R468). -/

theorem exec_lock (s : State) (f : FnId) (off : Nat) : exec (.lock f off) s = execLock f off s := rfl

/-- LOCK by the administration PF of a register that is not locked yet. -/
theorem exec_lock_of_unlocked (s : State) {off : Nat} (hoff : lockable off = true) (hfree : ∀ x ∈ s.core.locks, x.1 ≠ off) :
    exec (.lock s.trim.admin off) s =
      .next (s.after { s.core with locks := s.core.locks ++ [(off, s.core.clk.nominal)] }) := by
  have hnone : s.core.locks.any (fun x => x.1 = off) = false := by simpa using hfree
  have hact : s.trim.admin = s.trim.admin ∧ lockable off = true ∧ (!s.core.locks.any (fun x => x.1 = off)) = true :=
    ⟨rfl, hoff, by rw [hnone]; rfl⟩
  rw [exec_lock, execLock, State.actE_next]
  dsimp only
  rw [if_pos hact]
  rfl

/-- A LOCK bit added in beat `b` applies from the next beat on (R468). -/
theorem Core.locked_of_append (c : Core) {off b : Nat} {ls : List (Nat × Nat)} (hls : c.locks = ls ++ [(off, b)])
    (hfree : ∀ x ∈ ls, x.1 ≠ off) : c.locked off = decide (b < c.clk.nominal) := by
  have hnone : ls.any (fun x => x.1 = off && decide (x.2 < c.clk.nominal)) = false := by
    simp only [List.any_eq_false, Bool.and_eq_true, decide_eq_true_eq, not_and]
    exact fun x hx h => absurd h (hfree x hx)
  rw [Core.locked, hls, List.any_append, hnone]
  simp

/-- LOCK sets the block's LOCK bit: it applies from the next beat and reads 1 at once. -/
theorem lock_sets_lock (s : State) (via : Option Nat) (off : Nat) (hoff : lockable off = true)
    (hfree : ∀ x ∈ s.core.locks, x.1 ≠ off) :
    ∃ t, exec (.lock s.trim.admin off) s = .next t ∧
      t = s.after { s.core with locks := s.core.locks ++ [(off, s.core.clk.nominal)] } ∧
      (∀ k : Clock, ({ t.core with clk := k } : Core).locked off = decide (s.core.clk.nominal < k.nominal)) ∧
      ∃ v, t.readReg ⟨s.trim.admin, via⟩ 0 off 8 = some v ∧ v.testBit (lockPlace off) = true := by
  refine ⟨_, exec_lock_of_unlocked s hoff hfree, rfl, fun k => ?_, _, State.readReg_admin _ via (lockable_aligned hoff), ?_⟩
  · exact Core.locked_of_append _ (State.after_locks s _) hfree
  · refine testBit_readBar0_lock _ _ _ hoff ?_
    simp [Core.lockBit, b2n]

/-! Accesses that reach no register (R13, R337). -/

theorem exec_unsupportedBarAccess (s : State) (f : HostReq) (bar off size : Nat) (w : Bool) :
    exec (.unsupportedBarAccess f bar off size w) s = .next (s.after
      (if bar = 2 ∧ !s.core.ownStream f.fn f.via then Core.onBar2 f.fn f.via id s.core
        else Core.badAccess f.fn off size s.core)) := rfl

theorem exec_unsupportedBarAccess_records (s : State) (f : HostReq) (bar off size : Nat) (w : Bool)
    (hbad : accessOk off size = false) (hown : bar ≠ 2 ∨ s.core.ownStream f.fn f.via = true) :
    exec (.unsupportedBarAccess f bar off size w) s = .next (s.after
      (s.core.raise ⟨0x060A, 0xFFFF, f.fn.port % 2 ^ 16, off / 2 ^ 16 % 2 ^ 16, off % 2 ^ 16, 0xFFFF, f.fn.port⟩)) := by
  have hserved : ¬(bar = 2 ∧ (!s.core.ownStream f.fn f.via) = true) := by
    rintro ⟨hbar, hoff⟩
    rcases hown with h | h
    · exact h hbar
    · rw [h] at hoff
      exact absurd hoff Bool.false_ne_true
  rw [exec_unsupportedBarAccess, if_neg hserved, Core.badAccess, hbad, if_neg Bool.false_ne_true]
  rfl

theorem exec_unsupportedBarAccess_counts (s : State) (f : HostReq) (off size : Nat) (w : Bool)
    (hown : s.core.ownStream f.fn f.via = false) (hbar2 : s.core.bar2 f.fn = true) :
    exec (.unsupportedBarAccess f 2 off size w) s = .next (s.after (s.core.bump (hstBase f.fn.port + 0x98) 1)) := by
  rw [exec_unsupportedBarAccess, if_pos ⟨rfl, by rw [hown]; rfl⟩]
  simp [Core.onBar2, hbar2, hown]

/-! CNT_CLEAR (R441). -/

/-- Offset `o` lies in the block at base `off`, the part of the map that a CNT_CLEAR at `off` reaches (R441). -/
def sameBlock (off o : Nat) : Bool := (blockAt o).2.1 = off && (blockAt o).1 = (blockAt off).1

theorem sameBlock_iff (off o : Nat) :
    sameBlock off o = true ↔ (blockAt o).1 = (blockAt off).1 ∧ (blockAt o).2.1 = off := by
  simp [sameBlock, and_comm]

theorem State.afterE_ctr (s : State) (c : Core) (e : Evr) : (s.afterE c e).core.ctr = c.ctr := State.deliver_ctr _ _

theorem exec_cntClear (s : State) (f : FnId) (off : Nat) : exec (.cntClear f off) s = execCntClear f off s := rfl

theorem exec_cntClear_of_clearable (s : State) {off : Nat} (h : clearable off = true) :
    exec (.cntClear s.trim.admin off) s = .next (s.afterE (s.core.cntClear (sameBlock off))
      (if off = 0x40_0000 then { s.evr with filtered := s.evr.filtered.cleared s.core.clk.nominal } else s.evr)) := by
  rw [exec_cntClear, execCntClear, State.actE_next]
  dsimp only
  rw [if_pos ⟨rfl, h⟩]
  rfl

theorem cntClear_clears (s : State) (off : Nat) (hoff : clearable off = true) (hr : s.core.ctr.rising = true) :
    ∃ t, exec (.cntClear s.trim.admin off) s = .next t ∧
      (∀ o, (blockAt o).1 = (blockAt off).1 → (blockAt o).2.1 = off →
        let old := s.core.ctr.get .zero o
        (old.beat ≠ s.core.clk.nominal → t.core.ctr.get .zero o = .zero) ∧
        (old.beat = s.core.clk.nominal → old.part < 2 ^ 48 - 1 →
          (t.core.ctr.get .zero o).count = old.part ∧ (t.core.ctr.get .zero o).ovf = false)) ∧
      (∀ o, ¬((blockAt o).1 = (blockAt off).1 ∧ (blockAt o).2.1 = off) → t.core.ctr.get .zero o = s.core.ctr.get .zero o) ∧
      (off = 0x40_0000 → s.quiet → s.evr.filtered.beat ≠ s.core.clk.nominal → t.evr = { s.evr with filtered := .zero }) := by
  refine ⟨_, exec_cntClear_of_clearable s hoff, fun o hblock hbase => ?_, fun o hother => ?_, fun hevr hq hbeat => ?_⟩
  · rw [State.afterE_ctr, Core.cntClear_get _ _ _ hr, if_pos ((sameBlock_iff off o).2 ⟨hblock, hbase⟩)]
    exact ⟨Counter.cleared_of_elsewhere _ _, Counter.cleared_of_here _ _⟩
  · rw [State.afterE_ctr, Core.cntClear_get _ _ _ hr, if_neg (mt (sameBlock_iff off o).1 hother)]
  · have hout : (s.core.cntClear (sameBlock off)).outbox = [] := hq
    rw [if_pos hevr, Counter.cleared_of_elsewhere _ _ hbeat, State.afterE, State.deliver_evr, hout]
    rfl

/-! COUNTER_SATURATED (R440). -/

theorem exec_counterSaturated (s : State) (off n : Nat) :
    exec (.counterSaturated off n) s = execCounterSaturated off n s := rfl

theorem exec_counterSaturated_of_isCounter (s : State) {off : Nat} (n : Nat) (h : isCounter off = true) :
    exec (.counterSaturated off n) s = .next (s.after (s.core.bump off n)) := by
  have hevr : ¬(off = 0x40_0018 ∨ off = 0x40_0040) := by
    rintro (rfl | rfl) <;> exact absurd h (by decide)
  rw [exec_counterSaturated, execCounterSaturated, State.actE_next, if_neg hevr, if_pos h]
  rfl

theorem counterSaturated_saturates (s : State) (off n : Nat) (hoff : isCounter off = true) (hr : s.core.ctr.rising = true) :
    let old := s.core.ctr.get .zero off
    ∃ t, exec (.counterSaturated off n) s = .next t ∧
      let new := t.core.ctr.get .zero off
      (old.ovf = true → new.count = old.count ∧ new.ovf = true) ∧
      (old.ovf = false → old.count + n < 2 ^ 48 - 1 → new.count = old.count + n ∧ new.ovf = false) ∧
      (old.ovf = false → 0 < n → 2 ^ 48 - 1 ≤ old.count + n → new.count = 2 ^ 48 - 1 ∧ new.ovf = true ∧
        t.evr = (s.evr.takeAll s.core.stamp (s.core.outbox ++
          [⟨0x0906, 0xFFFF, (blockAt off).1, (off - (blockAt off).2.1) % 2 ^ 16, (blockAt off).2.2, 0xFFFF, (blockAt off).2.2⟩])).1) ∧
      (∀ o, o ≠ off → t.core.ctr.get .zero o = s.core.ctr.get .zero o) := by
  intro old
  refine ⟨_, exec_counterSaturated_of_isCounter s n hoff, ?_⟩
  simp only [State.after_ctr, Core.bump_get _ _ _ _ hr, if_true]
  refine ⟨Counter.bump_of_ovf _ _ _, Counter.bump_of_below _ _ _, fun hovf hn hle => ?_, fun o ho => if_neg ho⟩
  rw [Counter.bump_of_reached _ _ _ hovf hn hle, State.after_evr, Core.bump_outbox_of_reached _ _ _ hovf hn hle]
  exact ⟨rfl, rfl, rfl⟩

/-- Settles O15: each command's meaning in the case it acts in; a clear and an addition by what the counter itself becomes. -/
theorem blockControls : Obligations.BlockControls := by
  unfold Obligations.BlockControls
  refine ⟨⟨fun s f bar off size w hbad => ⟨exec_unsupportedBarAccess_records s f bar off size w hbad, ?_⟩, lock_sets_lock,
    fun s via o ho => ?_, cntClear_clears⟩, counterSaturated_saturates⟩
  · rintro rfl
    exact exec_unsupportedBarAccess_counts s f off size w
  · rw [State.readReg_admin s via (isCounter_aligned ho), readBar0_of_isCounter _ _ _ ho, Counter.word_eq]

end Sys2Proof.Machine

/-! What a command may move: the parts of the die, and the relation that an operation moves only certain parts, keeps the form of
the banks and maps, and only adds to what waits for the recorder and to the DMA writes. -/

namespace Sys2Proof.Machine

set_option Elab.async false

/-- The parts of the die that the frames tell apart. -/
inductive Part
  | regs | ctr | free | locks | clk | tref | blf | pow | prc | trip | segs | nextSeg | towers | ctxs | dir
  | bases | pool | cores | gateRefs | posts | runs | chans | slots | sessions | fws | kout | keep
  | ports | links | xfers | cadence | failN
deriving DecidableEq

namespace Part

/-- The values of a part. -/
def Ty : Part → Type
  | .regs => SMap Nat
  | .ctr => SMap Counter
  | .free => Nat
  | .locks => List (Nat × Nat)
  | .clk => Clock
  | .tref => Tref
  | .blf => Belfry
  | .pow => Power
  | .prc => Prc
  | .trip => Option (Nat × Nat)
  | .segs => List Seg
  | .nextSeg => Nat
  | .towers => List Tower
  | .ctxs => SMap Ctx
  | .dir => SMap Desc
  | .bases => List Base
  | .pool => SMap UnitClaim × List Copy0
  | .cores => Bool × List Bool × List Bool × Bool
  | .gateRefs => Nat × Nat × FnId × Nat × Nat
  | .posts => List Post
  | .runs => SMap RunEnt
  | .chans => List MemCtl × List Retry × Option LineOut × SMap Nat × SMap Nat × List Nat
  | .slots => SMap KeySlot
  | .sessions => SMap Session × Nat
  | .fws => List FwKind × Nat × Nat × Option FwImage
  | .kout => List SpdmOut
  | .keep => Keep
  | .ports => List Port
  | .links => List LinkS
  | .xfers => List Xfer × Nat
  | .cadence => Nat × Nat × Nat
  | .failN => List Nat

/-- A part as it stands; of the Keep, what the four parts beside it leave. -/
def view : (p : Part) → Core → p.Ty
  | .regs, c => c.regs
  | .ctr, c => c.ctr
  | .free, c => c.free
  | .locks, c => c.locks
  | .clk, c => c.clk
  | .tref, c => c.tref
  | .blf, c => c.blf
  | .pow, c => c.pow
  | .prc, c => c.prc
  | .trip, c => c.tripWord
  | .segs, c => c.segs
  | .nextSeg, c => c.nextSeg
  | .towers, c => c.towers
  | .ctxs, c => c.ctxs
  | .dir, c => c.dir
  | .bases, c => c.gate.bases
  | .pool, c => (c.gate.units, c.gate.copies)
  | .cores, c => (c.gate.ready, c.gate.run, c.gate.halted, c.gate.stopping)
  | .gateRefs, c => (c.gate.refCode, c.gate.refCtx, c.gate.refFn, c.gate.refArgs)
  | .posts, c => c.gate.posts
  | .runs, c => c.mem.runs
  | .chans, c => (c.mem.ctls, c.mem.retries, c.mem.last, c.mem.bad, c.mem.banks, c.mem.badRoots)
  | .slots, c => c.keep.slots
  | .sessions, c => (c.keep.sessions, c.keep.nextSession)
  | .fws, c => (c.keep.fws, c.keep.fwState, c.keep.fwKind, c.keep.fwNew)
  | .kout, c => c.keep.out
  | .keep, c => { c.keep with
      slots := [], sessions := [], nextSession := 0, fws := [], fwState := 0, fwKind := 0, fwNew := none, out := [] }
  | .ports, c => c.ports
  | .links, c => c.links
  | .xfers, c => (c.xfers, c.nextXfer)
  | .cadence, c => c.cadence
  | .failN, c => c.out.failN

end Part

/-- The banks of the die have their sizes, and its maps list rising keys. -/
structure Core.Formed (c : Core) : Prop where
  ports : c.ports.length = 2
  links : c.links.length = 36
  towers : c.towers.length = 64
  bases : c.gate.bases.length = 2
  ctls : c.mem.ctls.length = 16
  regions : c.prc.regions.length = 16
  fws : c.keep.fws.length = 4
  regs : c.regs.rising = true
  ctr : c.ctr.rising = true
  fns : ∀ p ∈ c.ports, p.fns.rising = true
  ctxs : c.ctxs.rising = true
  dir : c.dir.rising = true
  slots : c.keep.slots.rising = true
  sessions : c.keep.sessions.rising = true

theorem State.formed_iff (s : State) : s.formed ↔ s.core.Formed ∧ s.evr.buckets.rising = true := by
  constructor
  · rintro ⟨h1, h2, h3, h4, h5, h6, h7, h8, h9, h10, h11, h12, h13, h14, h15⟩
    exact ⟨⟨h1, h2, h3, h4, h5, h6, h7, h8, h9, h10, h11, h12, h13, h14⟩, h15⟩
  · rintro ⟨⟨h1, h2, h3, h4, h5, h6, h7, h8, h9, h10, h11, h12, h13, h14⟩, h15⟩
    exact ⟨h1, h2, h3, h4, h5, h6, h7, h8, h9, h10, h11, h12, h13, h14, h15⟩

/-- From `c` to `d` only the parts of `w` move, the form is kept, and events and DMA writes are only added. -/
structure Core.Moves (w : List Part) (c d : Core) : Prop where
  frame : ∀ p, w.contains p = false → p.view d = p.view c
  formed : c.Formed → d.Formed
  outbox : c.outbox <+: d.outbox
  dma : c.out.dma <+: d.out.dma

namespace Core

theorem Moves.refl {w : List Part} (c : Core) : c.Moves w c := ⟨fun _ _ => rfl, id, List.prefix_rfl, List.prefix_rfl⟩

theorem Moves.trans {w : List Part} {c d e : Core} (h : c.Moves w d) (g : d.Moves w e) : c.Moves w e where
  frame p hp := (g.frame p hp).trans (h.frame p hp)
  formed hc := g.formed (h.formed hc)
  outbox := h.outbox.trans g.outbox
  dma := h.dma.trans g.dma

theorem Moves.mono {v w : List Part} {c d : Core} (h : c.Moves v d) (hw : v.all w.contains = true := by decide) : c.Moves w d where
  frame p hp := h.frame p (by
    by_contra hv
    rw [List.all_eq_true.1 hw p (by simpa using hv)] at hp
    exact Bool.noConfusion hp)
  formed := h.formed
  outbox := h.outbox
  dma := h.dma

/-- One more operation, which moves no part beside those that may move anyway. -/
theorem Moves.then {v w : List Part} {c d e : Core} (h : c.Moves w d) (g : d.Moves v e) (hw : v.all w.contains = true := by decide) :
    c.Moves w e :=
  h.trans (g.mono hw)

theorem Moves.ite {w : List Part} {c d e : Core} {p : Prop} [Decidable p] (hd : c.Moves w d) (he : c.Moves w e) :
    c.Moves w (if p then d else e) := by
  split
  · exact hd
  · exact he

theorem Moves.ite_fst {α : Type} {w : List Part} {c : Core} {d e : Core × α} {p : Prop} [Decidable p] (hd : c.Moves w d.1)
    (he : c.Moves w e.1) : c.Moves w (if p then d else e).1 := by
  split
  · exact hd
  · exact he

theorem Moves.ite_left {α : Type} {w : List Part} {c d : Core} {a : α} {e : Core × α} {p : Prop} [Decidable p] (hd : c.Moves w d)
    (he : c.Moves w e.1) : c.Moves w (if p then (d, a) else e).1 :=
  .ite_fst hd he

theorem Moves.ite_pair {α : Type} {w : List Part} {c d e : Core} {a b : α} {p : Prop} [Decidable p] (hd : c.Moves w d)
    (he : c.Moves w e) : c.Moves w (if p then (d, a) else (e, b)).1 :=
  .ite_fst hd he

theorem Moves.foldl {α : Type} {w : List Part} {c : Core} (f : Core → α → Core) (hf : ∀ (d : Core) (x : α), d.Moves w (f d x))
    (xs : List α) : c.Moves w (xs.foldl f c) := by
  induction xs generalizing c with
  | nil => exact .refl c
  | cons x xs ih => exact (hf c x).trans ih

/-- The same of acts that answer something besides the die. -/
theorem Moves.foldl_fst {α β : Type} {w : List Part} {r : Core × β} (f : Core × β → α → Core × β)
    (hf : ∀ (r : Core × β) (x : α), r.1.Moves w (f r x).1) (xs : List α) : r.1.Moves w (xs.foldl f r).1 := by
  induction xs generalizing r with
  | nil => exact .refl r.1
  | cons x xs ih => exact (hf r x).trans ih

/-! One field written. -/

section Fields

variable (c : Core)

theorem moves_raise (ev : Event) : c.Moves [] (c.raise ev) :=
  ⟨fun p hp => by cases p <;> cases hp <;> rfl, fun h => { h with }, List.prefix_append _ _, List.prefix_rfl⟩

theorem moves_outbox (evs : List Event) : c.Moves [] { c with outbox := c.outbox ++ evs } :=
  ⟨fun p hp => by cases p <;> cases hp <;> rfl, fun h => { h with }, List.prefix_append _ _, List.prefix_rfl⟩

theorem moves_free (x : Nat) : c.Moves [.free] { c with free := x } :=
  ⟨fun p hp => by cases p <;> cases hp <;> rfl, fun h => { h with }, List.prefix_rfl, List.prefix_rfl⟩

theorem moves_locks (x : List (Nat × Nat)) : c.Moves [.locks] { c with locks := x } :=
  ⟨fun p hp => by cases p <;> cases hp <;> rfl, fun h => { h with }, List.prefix_rfl, List.prefix_rfl⟩

theorem moves_clk (x : Clock) : c.Moves [.clk] { c with clk := x } :=
  ⟨fun p hp => by cases p <;> cases hp <;> rfl, fun h => { h with }, List.prefix_rfl, List.prefix_rfl⟩

theorem moves_tref (x : Tref) : c.Moves [.tref] { c with tref := x } :=
  ⟨fun p hp => by cases p <;> cases hp <;> rfl, fun h => { h with }, List.prefix_rfl, List.prefix_rfl⟩

theorem moves_blf (x : Belfry) : c.Moves [.blf] { c with blf := x } :=
  ⟨fun p hp => by cases p <;> cases hp <;> rfl, fun h => { h with }, List.prefix_rfl, List.prefix_rfl⟩

theorem moves_pow (x : Power) : c.Moves [.pow] { c with pow := x } :=
  ⟨fun p hp => by cases p <;> cases hp <;> rfl, fun h => { h with }, List.prefix_rfl, List.prefix_rfl⟩

theorem moves_trip (x : Option (Nat × Nat)) : c.Moves [.trip] { c with tripWord := x } :=
  ⟨fun p hp => by cases p <;> cases hp <;> rfl, fun h => { h with }, List.prefix_rfl, List.prefix_rfl⟩

theorem moves_segs (x : List Seg) : c.Moves [.segs] { c with segs := x } :=
  ⟨fun p hp => by cases p <;> cases hp <;> rfl, fun h => { h with }, List.prefix_rfl, List.prefix_rfl⟩

theorem moves_nextSeg (x : Nat) : c.Moves [.nextSeg] { c with nextSeg := x } :=
  ⟨fun p hp => by cases p <;> cases hp <;> rfl, fun h => { h with }, List.prefix_rfl, List.prefix_rfl⟩

theorem moves_cadence (x : Nat × Nat × Nat) : c.Moves [.cadence] { c with cadence := x } :=
  ⟨fun p hp => by cases p <;> cases hp <;> rfl, fun h => { h with }, List.prefix_rfl, List.prefix_rfl⟩

theorem moves_xfers (xs : List Xfer) : c.Moves [.xfers] { c with xfers := xs } :=
  ⟨fun p hp => by cases p <;> cases hp <;> rfl, fun h => { h with }, List.prefix_rfl, List.prefix_rfl⟩

theorem moves_prc (x : Prc) (hx : x.regions.length = c.prc.regions.length) : c.Moves [.prc] { c with prc := x } :=
  ⟨fun p hp => by cases p <;> cases hp <;> rfl, fun h => { h with regions := hx.trans h.regions }, List.prefix_rfl, List.prefix_rfl⟩

theorem moves_towers (xs : List Tower) (hx : xs.length = c.towers.length) : c.Moves [.towers] { c with towers := xs } :=
  ⟨fun p hp => by cases p <;> cases hp <;> rfl, fun h => { h with towers := hx.trans h.towers }, List.prefix_rfl, List.prefix_rfl⟩

theorem moves_links (xs : List LinkS) (hx : xs.length = c.links.length) : c.Moves [.links] { c with links := xs } :=
  ⟨fun p hp => by cases p <;> cases hp <;> rfl, fun h => { h with links := hx.trans h.links }, List.prefix_rfl, List.prefix_rfl⟩

theorem moves_ctxs (m : SMap Ctx) (hm : c.ctxs.rising = true → m.rising = true) : c.Moves [.ctxs] { c with ctxs := m } :=
  ⟨fun p hp => by cases p <;> cases hp <;> rfl, fun h => { h with ctxs := hm h.ctxs }, List.prefix_rfl, List.prefix_rfl⟩

theorem moves_dir (m : SMap Desc) (hm : c.dir.rising = true → m.rising = true) : c.Moves [.dir] { c with dir := m } :=
  ⟨fun p hp => by cases p <;> cases hp <;> rfl, fun h => { h with dir := hm h.dir }, List.prefix_rfl, List.prefix_rfl⟩

theorem moves_regs (m : SMap Nat) (hm : c.regs.rising = true → m.rising = true) : c.Moves [.regs] { c with regs := m } :=
  ⟨fun p hp => by cases p <;> cases hp <;> rfl, fun h => { h with regs := hm h.regs }, List.prefix_rfl, List.prefix_rfl⟩

theorem moves_ctr (m : SMap Counter) (hm : c.ctr.rising = true → m.rising = true) : c.Moves [.ctr] { c with ctr := m } :=
  ⟨fun p hp => by cases p <;> cases hp <;> rfl, fun h => { h with ctr := hm h.ctr }, List.prefix_rfl, List.prefix_rfl⟩

theorem moves_slots (m : SMap KeySlot) (hm : c.keep.slots.rising = true → m.rising = true) : c.Moves [.slots] { c with keep := { c.keep with slots := m } } :=
  ⟨fun p hp => by cases p <;> cases hp <;> rfl, fun h => { h with slots := hm h.slots }, List.prefix_rfl, List.prefix_rfl⟩

theorem moves_sessions (m : SMap Session) (n : Nat) (hm : c.keep.sessions.rising = true → m.rising = true) : c.Moves [.sessions] { c with keep := { c.keep with sessions := m, nextSession := n } } :=
  ⟨fun p hp => by cases p <;> cases hp <;> rfl, fun h => { h with sessions := hm h.sessions }, List.prefix_rfl, List.prefix_rfl⟩

theorem moves_pool (m : SMap UnitClaim) (ks : List Copy0) : c.Moves [.pool] { c with gate := { c.gate with units := m, copies := ks } } :=
  ⟨fun p hp => by cases p <;> cases hp <;> rfl, fun h => { h with }, List.prefix_rfl, List.prefix_rfl⟩

theorem moves_posts (xs : List Post) : c.Moves [.posts] { c with gate := { c.gate with posts := xs } } :=
  ⟨fun p hp => by cases p <;> cases hp <;> rfl, fun h => { h with }, List.prefix_rfl, List.prefix_rfl⟩

theorem moves_bases (xs : List Base) (hx : xs.length = c.gate.bases.length) : c.Moves [.bases] { c with gate := { c.gate with bases := xs } } :=
  ⟨fun p hp => by cases p <;> cases hp <;> rfl, fun h => { h with bases := hx.trans h.bases }, List.prefix_rfl, List.prefix_rfl⟩

theorem moves_runs (m : SMap RunEnt) : c.Moves [.runs] { c with mem := { c.mem with runs := m } } :=
  ⟨fun p hp => by cases p <;> cases hp <;> rfl, fun h => { h with }, List.prefix_rfl, List.prefix_rfl⟩

theorem moves_kout (xs : List SpdmOut) : c.Moves [.kout] { c with keep := { c.keep with out := xs } } :=
  ⟨fun p hp => by cases p <;> cases hp <;> rfl, fun h => { h with }, List.prefix_rfl, List.prefix_rfl⟩

theorem moves_failNs (xs : List Nat) : c.Moves [.failN] { c with out := { c.out with failN := xs } } :=
  ⟨fun p hp => by cases p <;> cases hp <;> rfl, fun h => { h with }, List.prefix_rfl, List.prefix_rfl⟩

theorem moves_msi (xs : List (FnId × Nat)) : c.Moves [] { c with out := { c.out with msi := xs } } :=
  ⟨fun p hp => by cases p <;> cases hp <;> rfl, fun h => { h with }, List.prefix_rfl, List.prefix_rfl⟩

theorem moves_dmas (xs : List DmaWrite) : c.Moves [] { c with out := { c.out with dma := c.out.dma ++ xs } } :=
  ⟨fun p hp => by cases p <;> cases hp <;> rfl, fun h => { h with }, List.prefix_rfl, List.prefix_append _ _⟩

end Fields

end Core
end Sys2Proof.Machine

/-! The named operations of Machine/Ops.lean. -/

namespace Sys2Proof.Machine

set_option Elab.async false

theorem SMap.mem_keep {α : Type} {m : SMap α} {p : Nat → Bool} {e : Nat × α} (h : e ∈ SMap.keep p m) : e ∈ m :=
  List.mem_of_mem_filter h

theorem SMap.rising_iff_pairwise {α : Type} (m : SMap α) : m.rising = true ↔ List.Pairwise (fun a b => a.1 < b.1) m := by
  induction m with
  | nil => simp [SMap.rising]
  | cons e m ih => rw [SMap.rising_cons, ih, List.pairwise_cons]

theorem SMap.rising_keep {α : Type} {m : SMap α} (p : Nat → Bool) (h : m.rising = true) : (SMap.keep p m).rising = true := by
  rw [SMap.rising_iff_pairwise] at h ⊢
  exact h.filter _

theorem SMap.rising_mapV {α : Type} [DecidableEq α] {m : SMap α} (d : α) (f : Nat → α → α) (h : m.rising = true) :
    (SMap.mapV d f m).rising = true := by
  rw [SMap.rising_iff_pairwise] at h ⊢
  exact (h.map (fun e : Nat × α => (e.1, f e.1 e.2)) (fun _ _ hab => hab)).filter _

namespace Core

variable (c : Core)

theorem moves_setReg (o v : Nat) : c.Moves [.regs] (c.setReg o v) := c.moves_regs _ (SMap.rising_set _ _)

theorem moves_bump (o n : Nat) : c.Moves [.ctr] (c.bump o n) := by
  unfold bump
  have hctr := fun r : Counter => c.moves_ctr (c.ctr.set .zero o r) (SMap.rising_set _ _)
  exact .ite ((hctr _).then (moves_raise _ _)) (hctr _)

theorem moves_clearCtr (p : Nat → Bool) : c.Moves [.ctr] (c.clearCtr p) := c.moves_ctr _ (SMap.rising_keep _)

theorem moves_cntClear (p : Nat → Bool) : c.Moves [.ctr] (c.cntClear p) := c.moves_ctr _ (SMap.rising_mapV _ _)

theorem moves_setTower (t : Nat) (x : Tower) : c.Moves [.towers] (c.setTower t x) := c.moves_towers _ List.length_set

theorem moves_setSeg (s : Seg) : c.Moves [.segs] (c.setSeg s) := c.moves_segs _

theorem moves_dropSeg (i : Nat) : c.Moves [.segs] (c.dropSeg i) := c.moves_segs _

theorem moves_setCtx (x : Nat) (v : Ctx) : c.Moves [.ctxs] (c.setCtx x v) := c.moves_ctxs _ (SMap.rising_insert _ _)

theorem moves_updCtx (x : Nat) (f : Ctx → Ctx) : c.Moves [.ctxs] (c.updCtx x f) := by
  unfold updCtx
  split
  · exact moves_setCtx _ _ _
  · exact .refl c

theorem moves_setDesc (i : Nat) (d : Desc) : c.Moves [.dir] (c.setDesc i d) := c.moves_dir _ (SMap.rising_set _ _)

theorem moves_updDesc (i : Nat) (f : Desc → Desc) : c.Moves [.dir] (c.updDesc i f) := c.moves_setDesc _ _

theorem moves_setSlot (k : Nat) (x : KeySlot) : c.Moves [.slots] (c.setSlot k x) := c.moves_slots _ (SMap.rising_set _ _)

theorem moves_setPort (p : Nat) (x : Port) (hx : (c.port p).fns.rising = true → x.fns.rising = true) :
    c.Moves [.ports] (c.setPort p x) := by
  refine ⟨fun q hq => by cases q <;> cases hq <;> rfl, fun h => { h with ports := ?_, fns := fun y hy => ?_ },
    List.prefix_rfl, List.prefix_rfl⟩
  · exact (List.length_set).trans h.ports
  · by_cases hp : p < c.ports.length
    · obtain hy | rfl := List.mem_or_eq_of_mem_set hy
      · exact h.fns y hy
      · exact hx (h.fns _ (by simp [port, List.getD_eq_getElem?_getD, hp]))
    · exact h.fns y (by rwa [setPort, List.set_eq_of_length_le (Nat.le_of_not_lt hp)] at hy)

theorem moves_setFn (f : FnId) (x : HostFn) : c.Moves [.ports] (c.setFn f x) := c.moves_setPort _ _ (SMap.rising_set _ _)

theorem moves_setPair (f : FnId) (q : Nat) (x : Pair) : c.Moves [.ports] (c.setPair f q x) := c.moves_setFn _ _

theorem moves_setLink (k : Nat) (x : LinkS) : c.Moves [.links] (c.setLink k x) := c.moves_links _ List.length_set

theorem moves_setBase (b : Nat) (x : Base) : c.Moves [.bases] (c.setBase b x) := c.moves_bases _ List.length_set

theorem moves_fresh : c.Moves [.free] c.fresh := c.moves_free _

theorem moves_failN (n : Nat) : c.Moves [.failN] (c.failN n) := .ite (.refl c) (c.moves_failNs _)

theorem moves_okN (n : Nat) : c.Moves [.failN] (c.okN n) := c.moves_failNs _

theorem moves_fire (f : FnId) (v : Nat) : c.Moves [.ports] (c.fire f v) :=
  .ite (.refl c) (.ite (c.moves_setFn _ _) ((c.moves_msi _).mono))

theorem moves_dma (f : FnId) (a : Nat) (bs : List Byte) : c.Moves [.ctr] (c.dma f a bs) :=
  .ite (.refl c) (((c.moves_dmas _).mono).then (moves_bump _ _ _))

theorem moves_writePost (x : Post) : c.Moves [.ctr, .ports] (c.writePost x) := by
  unfold writePost
  have hpair : ∀ d : Core, d.Moves [.ctr, .ports] (if x.req.result ≠ 0 ∧ x.record ≠ [] then d.dma x.req.f x.req.result x.record else d) :=
    fun d => .ite ((d.moves_dma _ _ _).mono) (.refl d)
  exact .ite ((((hpair c).then (moves_dma _ _ _ _)).then (moves_setPair _ _ _ _)).then (moves_fire _ _ _))
    (((hpair c).then (moves_dma _ _ _ _)).then (moves_setPair _ _ _ _))

theorem moves_post (x : Post) : c.Moves [.ctr, .ports, .posts] (c.post x) :=
  .ite (.refl c) (.ite ((c.moves_posts _).mono) ((c.moves_writePost x).mono))

theorem moves_complete (r : Req) (a b : Nat) : c.Moves [.ctr, .ports, .posts] (c.complete r a b) := c.moves_post _

theorem moves_completeAll (rs : List Req) (a b : Nat) : c.Moves [.ctr, .ports, .posts] (c.completeAll rs a b) :=
  .foldl _ (fun d r => d.moves_complete r a b) rs

theorem moves_refuse (r : Req) (a b : Nat) : c.Moves [.ctr, .ports, .posts] (c.refuse r a b) :=
  ((c.moves_bump _ _).mono).then (moves_complete _ _ _ _)

theorem moves_coreSet (ready : Bool) (run halted : List Bool) (stopping : Bool) : c.Moves [.cores] { c with gate := { c.gate with
    ready := ready, run := run, halted := halted, stopping := stopping } } :=
  ⟨fun p hp => by cases p <;> cases hp <;> rfl, fun h => { h with }, List.prefix_rfl, List.prefix_rfl⟩

theorem moves_readyCheck : c.Moves [.cores, .failN] c.readyCheck :=
  .ite (((c.moves_coreSet _ _ _ _).mono).then (moves_okN _ _)) (.refl c)

/-- A change of the Keep beside its slots, sessions, images and answers. -/
theorem moves_keepRest {refCode refSlot : Nat} {waiting : List Nat} {isOpen basic : Bool} {stage : Nat} {log : List LogEntry}
    {logSel : Nat} {logShown : Option LogEntry} {resets : ResetRecord} {cert2 cert3 : List Byte} {windowReset : Nat}
    {parts : List (Nat × Nat × List Byte)} {relayTo : Option (Nat × Nat)} : c.Moves [.keep] { c with keep := { c.keep with
      refCode := refCode, refSlot := refSlot, waiting := waiting, open_ := isOpen, basic := basic, bootStage := stage, log := log
      logSel := logSel, logShown := logShown, resets := resets, cert2 := cert2, cert3 := cert3, windowReset := windowReset
      relayParts := parts, relayTo := relayTo } } :=
  ⟨fun p hp => by cases p <;> cases hp <;> rfl, fun h => { h with }, List.prefix_rfl, List.prefix_rfl⟩

theorem moves_note (kind ctx arg : Nat) (d : Digest) : c.Moves [.keep] (c.note kind ctx arg d) :=
  c.moves_keepRest

theorem moves_noteReset (kind which : Nat) : c.Moves [.keep] (c.noteReset kind which) :=
  (c.moves_keepRest).then (moves_note _ _ _ _ _)

end Core
end Sys2Proof.Machine

/-! The plan, the pool of units and the segments (Machine/Plan.lean, Pool.lean, SegOps.lean). -/

namespace Sys2Proof.Machine

set_option Elab.async false

theorem SMap.rising_map {α : Type} {m : SMap α} {g : Nat × α → Nat × α} (hg : ∀ e, (g e).1 = e.1) (h : m.rising = true) :
    SMap.rising (m.map g) = true := by
  rw [SMap.rising_iff_pairwise] at h ⊢
  exact h.map g (fun a b hab => (hg a).symm ▸ (hg b).symm ▸ hab)

namespace Core

variable (c : Core)

theorem moves_cleared (n : Nat) : c.Moves [.blf] (c.cleared n) := .ite (c.moves_blf _) (.refl c)

theorem moves_claimUnits (p : UnitClaim) (n : Nat) : c.Moves [.pool] (c.claimUnits p n) := c.moves_pool _ _

theorem moves_releaseUnits (p : UnitClaim) : c.Moves [.pool] (c.releaseUnits p) := c.moves_pool _ _

theorem moves_dropCopiesIf (p : Copy0 → Bool) : c.Moves [.pool] (c.dropCopiesIf p) := c.moves_pool _ _

theorem moves_makeUnits (n : Nat) : c.Moves [.pool] (c.makeUnits n) := c.moves_dropCopiesIf _

theorem moves_allocUnits (p : UnitClaim) (n : Nat) : c.Moves [.pool] (c.allocUnits p n) :=
  (c.moves_makeUnits n).then (moves_claimUnits _ _ _)

/-! Segments. -/

theorem moves_dropClaim (s : Seg) : c.Moves [.dir] (c.dropClaim s) :=
  .ite (.foldl _ (fun d i => d.moves_updDesc i _) _) (.refl c)

theorem moves_dropSave (s : Seg) : c.Moves [.runs] (c.dropSave s) := by
  unfold dropSave
  split
  · exact .refl c
  · exact .ite (.refl c) (c.moves_runs _)

theorem moves_finishSeg (tr : Trim) (s : Seg) (a b : Nat) :
    c.Moves [.dir, .pool, .runs, .ctr, .ports, .posts, .segs] (finishSeg tr c s a b) :=
  .then (.then (.then (.then (.then (.foldl _ (fun d i => (d.moves_updDesc i _).mono) _) (moves_releaseUnits _ _))
    (moves_dropClaim _ _)) (moves_dropSave _ _)) (moves_post _ _)) (moves_dropSeg _ _)

theorem moves_cancelSeg (tr : Trim) (s : Seg) (a b : Nat) :
    c.Moves [.dir, .pool, .runs, .ctr, .ports, .posts, .segs] (cancelSeg tr c s a b) := c.moves_finishSeg _ _ _ _

theorem moves_refuseSeg (tr : Trim) (s : Seg) (a b : Nat) :
    c.Moves [.dir, .pool, .runs, .ctr, .ports, .posts, .segs] (refuseSeg tr c s a b) :=
  (c.moves_bump _ _).mono.then (moves_cancelSeg _ _ _ _ _)

theorem moves_freeTransient (x : Nat) : c.Moves [.ctxs, .runs] (c.freeTransient x) := by
  unfold freeTransient updCtx
  refine .ite (.refl c) ?_
  split
  · exact (c.moves_setCtx _ _).mono.then (moves_runs (c.setCtx _ _) _)
  · exact (c.moves_runs _).mono

theorem moves_updCommit (x : Nat) (f : CommitLine → CommitLine) : c.Moves [.ctxs, .dir] (c.updCommit x f) := by
  unfold updCommit
  split
  · exact .refl c
  · exact .ite ((c.moves_setCtx _ _).mono.then (moves_updDesc _ _ _)) (c.moves_setCtx _ _).mono

theorem moves_holdStep (x code a0 a1 a2 : Nat) : c.Moves [.ctxs, .dir, .runs] (c.holdStep x code a0 a1 a2) := by
  unfold holdStep
  split
  · exact .refl c
  · have hclosed := (c.moves_updCommit x (fun l => { l with last := code })).mono.then (moves_updCtx _ x Ctx.closeStep)
      (w := [.ctxs, .dir, .runs])
    exact .then (.ite (hclosed.then (moves_raise _ _)) hclosed) (moves_freeTransient _ _)

theorem moves_abandon (x : Nat) : c.Moves [.ctxs, .dir, .runs] (c.abandon x) := by
  unfold abandon
  split
  · exact .ite ((c.moves_setCtx _ _).mono.then (moves_holdStep _ _ _ _ _ _)) (.refl c)
  · exact .refl c

theorem moves_copies (ks : List Copy0) : c.Moves [.pool] { c with gate := { c.gate with copies := ks } } := c.moves_pool _ _

theorem moves_settleMember (i x : Nat) : c.Moves [.ctxs, .dir, .runs, .pool] (c.settleMember i x).1 := by
  unfold settleMember
  split
  · exact .refl c
  · exact .ite_fst (.refl c) (.ite_fst
      ((((((c.moves_updCommit _ _).mono.then (moves_updCtx _ _ _)).then (moves_copies _ _)).then (moves_updDesc _ _ _)).then
        (moves_freeTransient _ _)))
      (c.moves_holdStep _ _ _ _ _).mono)

theorem moves_dueSettle : c.Moves [.segs] c.dueSettle := c.moves_segs _

theorem moves_settle (tr : Trim) (s : Seg) :
    c.Moves [.ctxs, .dir, .runs, .pool, .ctr, .ports, .posts, .segs] (settle tr c s) := by
  unfold settle
  refine .then (.then (.foldl_fst (r := (c, _)) _ (fun r x => ?_) _) (moves_finishSeg _ _ _ _ _)) (moves_dueSettle _)
  show r.1.Moves _ (ite _ _ _ : Core × Nat × Nat × Nat).1
  split <;> exact (r.1.moves_settleMember _ _).mono

theorem moves_endBallast (s : Seg) : c.Moves [.pow] (c.endBallast s) := .ite (.refl c) (c.moves_pow _)

theorem moves_freeTowers (s : Seg) (n : Nat) : c.Moves [.towers] (c.freeTowers s n) := c.moves_towers _ (List.length_map _)

theorem moves_endSeg (tr : Trim) (s : Seg) (n : Nat) :
    c.Moves [.ctxs, .dir, .runs, .pool, .ctr, .ports, .posts, .segs, .free, .pow, .towers] (endSeg tr c s n) := by
  unfold endSeg
  refine .trans ?_ (.foldl _ (fun d x => .ite (.refl d) (d.moves_freeTransient x).mono) _)
  refine .trans ?_ (.ite ((moves_dueSettle _).mono.then (moves_finishSeg _ _ _ _ _)) ((moves_setSeg _ _).mono.then (moves_dueSettle _)))
  refine .then ?_ (moves_ctxs _ _ (SMap.rising_map (fun _ => rfl)))
  refine .trans ?_ (.foldl _ (fun d m => (d.moves_updCtx _ _).mono) _)
  refine .trans ?_ (.ite (moves_endBallast _ _).mono (.refl _))
  refine .then (.then ?_ (moves_freeTowers _ _ _)) (moves_releaseUnits _ _)
  exact .trans ((c.moves_fresh).mono.then (moves_pow _ _)) (.ite (.refl _) (moves_raise _ _).mono)

theorem moves_faultSeg (s : Seg) (n : Nat) : c.Moves [.segs, .pow] (c.faultSeg s n) :=
  .ite ((c.moves_setSeg _).mono.then (moves_endBallast _ _)) (.refl c)

theorem moves_towerFault (tw : Nat) (f : TFault) (ev : Option Nat) : c.Moves [.segs, .pow, .towers] (c.towerFault tw f ev) := by
  unfold towerFault
  cases ev with
  | none =>
    dsimp only
    split
    · exact .refl c
    · exact .ite (.refl c) ((moves_setTower _ _ _).mono.then (moves_faultSeg _ _ _))
  | some a =>
    dsimp only
    split
    · exact .refl c
    · exact .ite (.refl c) (((moves_raise _ _).mono.then (moves_setTower _ _ _)).then (moves_faultSeg _ _ _))

theorem moves_fenceTowers (r : Nat) : c.Moves [.segs, .towers] (c.fenceTowers r) := by
  refine .foldl _ (fun d tw => ?_) _
  show d.Moves _ (match (d.tower tw).seg.bind d.seg? with | none => _ | some s => _)
  split
  · exact .refl d
  · exact .ite (.ite (moves_setSeg _ _).mono (.refl d)) (.then (.ite (moves_setSeg _ _).mono (.refl d)) (moves_setTower _ _ _))

theorem moves_withoutReservations (x : Nat) : c.Moves [.pow] (c.withoutReservations x) := c.moves_pow _

theorem moves_releaseSeg (s : Seg) (offs : List (Nat × Nat)) : c.Moves [.towers, .dir, .pow, .segs] (c.releaseSeg s offs) := by
  unfold releaseSeg
  refine .then (.then (.trans (.foldl _ (fun d t => ?_) _) (.foldl _ (fun d i => (moves_updDesc _ _ _).mono) _)) (moves_pow _ _))
    (moves_setSeg _ _)
  dsimp only
  split
  · exact (moves_setTower _ _ _).mono
  · split
    · exact (moves_setTower _ _ _).mono
    · exact .refl d

end Core
end Sys2Proof.Machine

/-! The memory complex (Machine/MemOps.lean). -/

namespace Sys2Proof.Machine

set_option Elab.async false
namespace Core

theorem Moves.of_eq {α : Type} {w : List Part} {c d : Core} {a : α} {r : Core × α} (hr : r = (d, a)) (h : c.Moves w r.1) :
    c.Moves w d := by
  subst hr
  exact h

variable (c : Core)

theorem moves_setRun (k : Nat) (e : RunEnt) : c.Moves [.runs] (c.setRun k e) := c.moves_runs _

theorem moves_dropRun (k : Nat) : c.Moves [.runs] (c.dropRun k) := c.moves_runs _

theorem moves_writeSystem (d : Dram) (k u pfn : Nat) (ls : List (Nat × Line)) : c.Moves [.dir] (c.writeSystem d k u pfn ls).1 := by
  unfold writeSystem
  split_ifs
  · dsimp only
    exact c.moves_updDesc _ _
  · exact .refl c
  · exact .refl c

theorem moves_chan (pkg k r n : Nat) : c.Moves [.ctr] (c.chan pkg k r n) := c.moves_bump _ _

theorem moves_countLines (pkg r : Nat) (is : List Nat) : c.Moves [.ctr] (c.countLines pkg r is) :=
  .foldl _ (fun d _ => .ite (.refl d) (d.moves_chan _ _ _ _)) _

theorem moves_noDeadline (pkg : Nat) (is : List Nat) : c.Moves [.ctr] (c.noDeadline pkg is) := c.moves_countLines _ _ _

theorem moves_countTag (pkg r n : Nat) : c.Moves [.ctr] (c.countTag pkg r n) :=
  (c.moves_chan _ _ _ _).trans (.foldl _ (fun d _ => d.moves_chan _ _ _ _) _)

/-- The controllers, the retries, the delivered line, the bad lines, the open banks and the bad roots. -/
theorem moves_chans {ctls : List MemCtl} {retries : List Retry} {last : Option LineOut} {bad banks : SMap Nat} {badRoots : List Nat}
    (h : ctls.length = c.mem.ctls.length) : c.Moves [.chans] { c with mem := { c.mem with
      ctls := ctls, retries := retries, last := last, bad := bad, banks := banks, badRoots := badRoots } } :=
  ⟨fun p hp => by cases p <;> cases hp <;> rfl, fun hc => { hc with ctls := h.trans hc.ctls }, List.prefix_rfl, List.prefix_rfl⟩

theorem moves_errLog (pkg code ch n : Nat) : c.Moves [.chans] (c.errLog pkg code ch n) := c.moves_chans List.length_set

theorem moves_ueLine (pfn i : Nat) : c.Moves [.ctr, .chans] (c.ueLine pfn i) :=
  (((c.moves_raise _).mono.then (moves_chan _ _ _ _ _)).then (moves_errLog _ _ _ _ _))

theorem moves_retryLine (pfn i : Nat) : c.Moves [.ctr] (c.retryLine pfn i) :=
  (((c.moves_chan _ _ _ _).trans (moves_chan _ _ _ _ _)).trans (moves_chan _ _ _ _ _))

theorem moves_badLine (pfn i : Nat) : c.Moves [.ctr, .chans] (c.badLine pfn i) :=
  (c.moves_retryLine _ _).mono.then (moves_ueLine _ _ _)

theorem moves_badLines (pfn : Nat) (is : List Nat) : c.Moves [.ctr, .chans] (is.foldl (fun (c : Core) j => c.badLine pfn j) c) :=
  .foldl _ (fun d i => d.moves_badLine pfn i) is

theorem moves_lateLines (dl : Int) (k : Nat) (ps free : List (Nat × Nat)) : c.Moves [.ctr] (c.lateLines dl k ps free) := by
  unfold lateLines
  refine .ite (.refl c) ?_
  split
  · exact .refl c
  · refine .foldl _ (fun d p => ?_) _
    split
    · exact .ite (d.moves_chan _ _ _ _) (.refl d)
    · exact .refl d

theorem moves_freeTraffic (k : Nat) (us : List Nat) : c.Moves [.ctr] (c.freeTraffic k us) := by
  refine .foldl _ (fun d u => ?_) _
  split
  · exact .refl d
  · exact d.moves_noDeadline _ _

theorem moves_bad (m : SMap Nat) : c.Moves [.chans] { c with mem := { c.mem with bad := m } } := c.moves_chans rfl

theorem moves_pageTraffic (k r : Nat) (us : List Nat) : c.Moves [.ctr, .chans] (c.pageTraffic k r us) := by
  refine .foldl _ (fun d u => ?_) _
  split
  · exact .refl d
  · have hcount := fun pfn => (((d.moves_countLines (pfn % 16) r (List.range 64)).trans (moves_countTag _ (pfn % 16) r (pfn / 16))).trans
      (moves_noDeadline _ (pfn % 16) (List.range 64))).mono (w := [.ctr, .chans])
    exact .ite ((hcount _).then (moves_bad _ _)) (hcount _)

theorem moves_tagFail (pfn : Nat) : c.Moves [.ctr, .chans] (c.tagFail pfn) :=
  (((c.moves_raise _).mono.then (moves_bump _ _ _)).then (moves_errLog _ _ _ _ _))

theorem moves_verify (e : RunEnt) (pfn : Nat) (p : PageSnap) : c.Moves [.ctr, .chans] (c.verify e pfn p).1 := by
  unfold verify
  split
  · exact c.moves_badLines pfn _
  · exact .ite_fst (c.moves_tagFail _) (.refl c)

theorem moves_readSnap (k : Nat) (e : RunEnt) (pfn : Nat) (p : PageSnap) (is : List Nat) :
    c.Moves [.ctr, .chans] (c.readSnap k e pfn p is).1 := by
  unfold readSnap
  split
  · have hread := (Moves.trans (Moves.trans (c.moves_countLines (pfn % 16) 0 (p.lines.map (fun l => l.1)))
      (.ite (p := e.tagged = true) (moves_countTag _ (pfn % 16) 0 (pfn / 16)) (.refl _))).mono (moves_verify _ e pfn p))
    dsimp only
    split
    · next h => exact .of_eq h hread
    · next h => exact .of_eq h hread
  · exact .ite (c.moves_bump _ _).mono (.refl c)

theorem moves_readPage (d : Dram) (k u : Nat) (is : List Nat) : c.Moves [.ctr, .chans] (c.readPage d k u is).1 := by
  unfold readPage
  split
  · exact .refl c
  · exact c.moves_readSnap _ _ _ _ _

theorem moves_readSnaps (k : Nat) (ps : List (Nat × Nat)) (snaps : List PageSnap) :
    c.Moves [.ctr, .chans] (c.readSnaps k ps snaps).1 := by
  have hfold : c.Moves [.ctr, .chans] (snaps.foldl (fun (r : Core × Nat × List ((Nat × Nat) × Line)) p =>
      let is := linesOf ps p.u
      match (match r.1.frameOf k p.u with
        | some x => r.1.readSnap k x.1 x.2 p is
        | none => (r.1, .error 0x0505)) with
      | (c, .ok ls) => (c, r.2.1, r.2.2 ++ (is.map (fun i => (p.u, i))).zip ls)
      | (c, .error x) => (c, if r.2.1 = 0 then x else r.2.1, r.2.2)) (c, 0, [])).1 := by
    refine .foldl_fst (r := (c, _)) _ (fun r p => ?_) _
    have hpage : r.1.Moves [.ctr, .chans] (match r.1.frameOf k p.u with
        | some x => r.1.readSnap k x.1 x.2 p (linesOf ps p.u)
        | none => (r.1, .error 0x0505)).1 := by
      split
      · exact r.1.moves_readSnap _ _ _ _ _
      · exact .refl r.1
    dsimp only
    split
    · next h => exact .of_eq h hpage
    · next h => exact .of_eq h hpage
  exact .ite_fst hfold hfold

theorem moves_readLines (d : Dram) (k : Nat) (ps : List (Nat × Nat)) : c.Moves [.ctr, .chans] (c.readLines d k ps).1 :=
  c.moves_readSnaps _ _ _

theorem moves_takeSlots (s : Seg) (issue k : Nat) (ps : List (Nat × Nat)) (write : Bool) :
    c.Moves [.ctr, .segs] (c.takeSlots s issue k ps write).1 := by
  unfold takeSlots
  split
  · exact .refl c
  · refine .then (.foldl_fst (r := (c, _)) _ (fun r ch => ?_) _) (moves_setSeg _ _)
    exact .ite_fst (.refl r.1) (.ite (.refl r.1) (r.1.moves_chan _ _ _ _).mono)

theorem moves_writeCode (d : Dram) (k u : Nat) (e : RunEnt) (pfn : Nat) (ls : List (Nat × Line)) :
    c.Moves [.ctr, .chans] (c.writeCode d k u e pfn ls).1 := by
  unfold writeCode
  refine .ite_fst (c.moves_bump _ _).mono (.ite_fst (.refl c) (.ite_fst (.refl c) ?_))
  have hpart : ∀ (p : Prop) [Decidable p] (others : List Nat), c.Moves [.ctr, .chans]
      (if p then (c.countLines (pfn % 16) 0 others).countTag (pfn % 16) 0 (pfn / 16) else c) := fun p _ others =>
    .ite ((c.moves_countLines _ _ _).trans (moves_countTag _ _ _ _)).mono (.refl c)
  dsimp only
  split
  · exact ((hpart _ _).trans (moves_badLines _ _ _)).then (moves_errLog _ _ _ _ _)
  · exact .ite_fst ((hpart _ _).then (moves_errLog _ _ _ _ _)) (hpart _ _)

theorem moves_countWrite (e : RunEnt) (pfn : Nat) (ls : List (Nat × Line)) : c.Moves [.ctr, .chans] (c.countWrite e pfn ls) :=
  .then (.trans (c.moves_countLines _ _ _).mono (.ite (moves_countTag _ _ _ _).mono (.refl _))) (moves_bad _ _)

theorem moves_warnVersion (pfn v : Nat) : c.Moves [] (c.warnVersion pfn v) := .ite (c.moves_raise _) (.refl c)

theorem moves_writePage (d : Dram) (k u : Nat) (ls : List (Nat × Line)) : c.Moves [.ctr, .chans, .dir] (c.writePage d k u ls).1 := by
  unfold writePage
  split
  · exact .refl c
  · split
    · exact .refl c
    · next e _ _ pfn _ =>
      have hcode := c.moves_writeCode d k u e pfn ls
      split
      · next h =>
        have hcount := ((Moves.of_eq h hcode).then (moves_countWrite _ e pfn ls)).mono (w := [.ctr, .chans, .dir])
        exact .ite_fst (hcount.then (moves_writeSystem _ _ _ _ _ _)) (.ite_fst hcount (hcount.then (moves_warnVersion _ _ _)))
      · next h => exact (Moves.of_eq h hcode).mono

theorem moves_readStored (d : Dram) (k : Nat) (us : List Nat) : c.Moves [.ctr, .chans] (c.readStored d k us).1 := by
  refine .foldl_fst (r := (c, _)) _ (fun r u => ?_) _
  dsimp only
  refine .ite_fst (.refl r.1) ?_
  split
  · exact .refl r.1
  · next pfn _ =>
    split
    · have hcount := ((r.1.moves_countLines (pfn % 16) 0 (List.range 64)).trans (moves_countTag _ (pfn % 16) 0 (pfn / 16))).mono
        (w := [.ctr, .chans])
      generalize (r.1.countLines (pfn % 16) 0 (List.range 64)).countTag (pfn % 16) 0 (pfn / 16) = d' at hcount ⊢
      split
      · exact hcount.trans (moves_badLines d' _ _)
      · exact .ite_fst hcount (hcount.trans (moves_tagFail _ _))
    · exact .ite (r.1.moves_bump _ _).mono (.refl r.1)

theorem moves_allocTransient (n : Nat) : c.Moves [.ctxs, .runs] (c.allocTransient n) := by
  unfold allocTransient
  split
  · exact .ite (.refl c) ((c.moves_setCtx _ _).mono.then (moves_setRun _ _ _))
  · exact .refl c

end Core
end Sys2Proof.Machine

/-! The links and the residency of adaptations (Machine/LinkOps.lean, Fetch.lean). -/

namespace Sys2Proof.Machine

set_option Elab.async false
namespace Core

variable (c : Core)

theorem moves_emit (k : Nat) (x : Sent) : c.Moves [.links, .ctr] (c.emit k x) :=
  (c.moves_setLink _ _).mono.then (moves_bump _ _ _)

theorem moves_pump (k n : Nat) : c.Moves [.links, .ctr] (c.pump k n) := by
  induction n generalizing c with
  | zero => exact .refl c
  | succ n ih =>
    rw [pump]
    split
    · exact .ite (((c.moves_setLink _ _).mono.then (moves_emit _ _ _)).trans (ih _)) (.refl c)
    · exact .refl c

theorem moves_send (k : Nat) (fr : Frame) (slot : Nat) : c.Moves [.links, .ctr] (c.send k fr slot) :=
  .ite (c.moves_emit _ _) (c.moves_setLink _ _).mono

theorem moves_sendBy (label : Nat) (fr : Frame) (slot : Nat) : c.Moves [.links, .ctr] (c.sendBy label fr slot) := by
  unfold sendBy
  dsimp only
  split
  · exact c.moves_send _ _ _
  · exact .refl c

/-- The transfer records and the next number. -/
theorem moves_xferTable (xs : List Xfer) (n : Nat) : c.Moves [.xfers] { c with xfers := xs, nextXfer := n } :=
  ⟨fun p hp => by cases p <;> cases hp <;> rfl, fun h => { h with }, List.prefix_rfl, List.prefix_rfl⟩

theorem moves_dropXfer (x : Xfer) : c.Moves [.xfers] (c.dropXfer x) := c.moves_xfers _

theorem moves_setXfer (x y : Xfer) : c.Moves [.xfers] (c.setXfer x y) := c.moves_xfers _

theorem moves_originate (tr : Trim) (label : Nat) (r : ReqF) (role : XferRole) :
    c.Moves [.slots, .xfers, .links, .ctr] (c.originate tr label r role).1 := by
  unfold originate
  split
  · exact .refl c
  · exact .ite_fst (.refl c) (.ite_fst (.refl c)
      (((c.moves_setSlot _ _).mono.then (moves_xferTable (c.setSlot _ _) _ _)).then (moves_sendBy _ _ _ _)))

theorem moves_endBack (label t code frames slot : Nat) : c.Moves [.links, .ctr] (c.endBack label t code frames slot) :=
  c.moves_sendBy _ _ _

/-! Residency. -/

theorem moves_allocParts {k : Nat} {e : RunEnt} {rs : List (Nat × Nat)} {d : Core} (h : c.allocParts k e rs = some d) :
    c.Moves [.runs] d := by
  induction rs generalizing e with
  | nil =>
    cases h
    exact c.moves_setRun _ _
  | cons r rs ih =>
    rw [allocParts] at h
    split at h
    · exact ih h
    · cases h

theorem moves_allocRun {i : Nat} {training : Bool} {d : Core} (h : c.allocRun i training = some d) : c.Moves [.runs] d :=
  c.moves_allocParts h

theorem moves_dropCopies (i : Nat) : c.Moves [.pool] (c.dropCopies i) := c.moves_dropCopiesIf _

theorem moves_toRemote (i : Nat) : c.Moves [.pool, .dir, .runs] (c.toRemote i) :=
  (((c.moves_dropCopies _).mono.then (moves_updDesc _ _ _)).then (moves_dropRun _ _))

theorem moves_sendChunk (tr : Trim) (dr : Dram) (i budget : Nat) (p : Nat × Nat) :
    c.Moves [.slots, .xfers, .links, .ctr, .chans] (c.sendChunk tr dr i budget p).1 := by
  unfold sendChunk
  dsimp only
  have hread := c.moves_readStored dr i (((c.formPages i).filter (fun u => decide (p.1 ≤ u))).take p.2)
  split
  · next d h =>
    have horig := fun label r role => (Moves.of_eq h hread).mono.trans
      ((moves_originate d tr label r role).mono (w := [.slots, .xfers, .links, .ctr, .chans]))
    split
    · next h' =>
      exact .trans ((Moves.of_eq h' (horig _ _ _)).then (moves_freeTraffic _ _ _))
        (.foldl _ (fun d _ => (d.moves_sendBy _ _ _).mono) _)
    · exact horig _ _ _
  · exact hread.mono

theorem moves_startWriteback (tr : Trim) (dr : Dram) (i budget : Nat) :
    c.Moves [.slots, .xfers, .links, .ctr, .chans] (c.startWriteback tr dr i budget).1 := by
  unfold startWriteback
  refine .ite_fst (.refl c) ?_
  split
  · exact c.moves_sendChunk _ _ _ _ _
  · exact .refl c

theorem moves_writebackFail (i code : Nat) : c.Moves [.dir, .ctr, .ports, .posts] (c.writebackFail i code) := by
  unfold writebackFail
  dsimp only
  split
  · exact .refl c
  · split
    · exact (c.moves_setDesc _ _).mono.then (moves_complete _ _ _ _)
    · exact (c.moves_setDesc _ _).mono

/-- The parts that an eviction moves. -/
def evictParts : List Part := [.pool, .dir, .runs, .ctr, .slots, .xfers, .links, .chans, .ports, .posts]

theorem moves_evict (tr : Trim) (dr : Dram) (i : Nat) : c.Moves evictParts (c.evict tr dr i) := by
  unfold evict
  dsimp only
  split_ifs
  · exact (c.moves_toRemote _).mono.then (moves_bump _ _ _)
  · have hstart := fun v => ((c.moves_dropCopies i).mono.then (moves_setDesc _ i v)).then
      (moves_startWriteback _ tr dr i c.defaultBudget) (w := evictParts)
    split
    · next h => exact .of_eq h (hstart _)
    · next h => exact (Moves.of_eq h (hstart _)).then (moves_writebackFail _ _ _)

theorem moves_evictFor (tr : Trim) (dr : Dram) (n : Nat) : c.Moves evictParts (c.evictFor tr dr n) :=
  .ite (.refl c) (.foldl _ (fun d i => .ite (.refl d) (d.moves_evict tr dr i)) _)

theorem moves_makeRoom {w : List Part} {try_ : Core → Option Core} (htry : ∀ c d, try_ c = some d → c.Moves w d)
    (hw : [.pool, .dir, .runs, .ctr].all w.contains = true) {is : List Nat} {d : Core} (h : makeRoom try_ c is = some d) :
    c.Moves w d := by
  induction is generalizing c with
  | nil => exact htry c d h
  | cons i is ih =>
    rw [makeRoom] at h
    split at h
    · next hc =>
      cases h
      exact htry c _ hc
    · split at h
      · exact ih c h
      · exact (((c.moves_toRemote i).mono.then (moves_bump _ 0x450 1) (w := [.pool, .dir, .runs, .ctr])).mono hw).trans (ih _ h)

theorem moves_completeFetch (i : Nat) (f : Fetch) (code : Nat) : c.Moves [.ctr, .ports, .posts] (c.completeFetch i f code) := by
  unfold completeFetch
  split
  · exact (c.moves_complete _ _ _).trans (moves_completeAll _ _ _ _)
  · exact c.moves_completeAll _ _ _

/-- The parts that the start or the end of a fetch moves. -/
def fetchParts : List Part := [.pool, .dir, .runs, .ctr, .slots, .xfers, .links, .ports, .posts, .segs]

/-- The parts that the failure of a fetch moves. -/
def dropParts : List Part := [.pool, .dir, .runs, .ctr, .xfers, .ports, .posts, .segs]

theorem moves_fetchFail (tr : Trim) (i code : Nat) : c.Moves dropParts (c.fetchFail tr i code) := by
  unfold fetchFail
  dsimp only
  split
  · exact .refl c
  · refine .trans ?_ (.foldl _ (fun d s => (d.moves_cancelSeg _ _ _ _).mono) _)
    refine .then (.then (.then ?_ (moves_setDesc _ _ _)) (moves_xfers _ _)) (moves_completeFetch _ _ _ _)
    refine .ite (c.moves_dropRun _).mono ?_
    split
    · exact (c.moves_setRun _ _).mono
    · exact .refl c

theorem moves_startFetch (tr : Trim) (i : Nat) (training keepLocal : Bool) (req : Option Req) :
    c.Moves fetchParts (c.startFetch tr i training keepLocal req) := by
  have hclaim := fun v => (c.moves_setDesc i v).mono (w := fetchParts)
  unfold startFetch
  refine .ite ((hclaim _).then (moves_fetchFail _ _ _ _)) (.ite ?_ (hclaim _))
  have hsent := fun (d : Core) (ps : List (Nat × Nat)) (label : Nat) (req : Nat × Nat → ReqF) => Moves.foldl_fst (w := fetchParts)
    (r := (d, 0)) (fun r p => if r.2 ≠ 0 then r else r.1.originate tr label (req p) (.fetch i))
    (fun r p => .ite_fst (.refl r.1) (r.1.moves_originate _ _ _ _).mono) ps
  exact .ite (((hclaim _).trans (hsent _ _ _ _)).then (moves_fetchFail _ _ _ _)) ((hclaim _).trans (hsent _ _ _ _))

theorem moves_kick (tr : Trim) : c.Moves fetchParts (c.kick tr) := by
  refine .ite (.refl c) (.foldl _ (fun d s => ?_) _)
  split
  · exact .ite (.foldl _ (fun d i => .ite (d.moves_startFetch _ _ _ _ _) (.refl d)) _) (.refl d)
  · exact .refl d

theorem moves_domeCheck (dome : Check) (off : Nat) : c.Moves [.failN] (c.domeCheck dome off) := by
  cases dome with
  | clean => exact .refl c
  | single => exact (c.moves_raise _).mono
  | uncorrectable => exact (c.moves_raise _).mono.then (moves_failN _ _)

/-- The parts that a tag list moves. -/
def tagParts : List Part := [.pool, .dir, .runs, .ctr, .slots, .xfers, .links, .chans, .ports, .posts, .segs, .failN]

theorem moves_fetchGoOn (tr : Trim) (dr : Dram) (i : Nat) (f : Fetch) (tags : List TagEntry) :
    c.Moves tagParts (c.fetchGoOn tr dr i f tags) := by
  unfold fetchGoOn
  split
  · next h => exact (c.moves_makeRoom (fun c d hd => (c.moves_allocRun hd).mono) (by decide) h).then (moves_updDesc _ _ _)
  · split
    · exact (c.moves_evict _ _ _).mono
    · exact .ite (.refl c) (c.moves_fetchFail _ _ _).mono

theorem moves_hostRead (d : Desc) (n : Nat) : c.Moves [.ctr] (c.hostRead d n) := .ite (c.moves_bump _ _) (.refl c)

theorem moves_tagList (tr : Trim) (i : Nat) (tags : List TagEntry) (dome : Check) (dr : Dram) :
    c.Moves tagParts (tagList tr i tags dome c dr) := by
  unfold tagList
  dsimp only
  split
  · exact .refl c
  · refine .ite (.refl c) ?_
    have hread := fun d v => ((c.moves_domeCheck dome (0x1D0_0000 + 64 * i)).mono.then
      (moves_hostRead _ d (20 * tags.length))).then (moves_setDesc _ i v) (w := tagParts)
    split
    · exact ((hread _ _).then (moves_raise _ _)).then (moves_fetchFail _ _ _ _)
    · exact ((hread _ _).then (moves_updDesc _ _ _)).trans (moves_fetchGoOn _ _ _ _ _ _)
    · exact (hread _ _).trans (moves_fetchGoOn _ _ _ _ _ _)

theorem moves_fetchDone (i : Nat) (pages : List StoredPage) (dr : Dram) :
    c.Moves [.ctr, .chans, .dir, .xfers, .ports, .posts] (fetchDone i pages c dr).1 := by
  unfold fetchDone
  dsimp only
  split
  · exact .refl c
  · refine .ite_fst (((c.moves_bump _ _).mono.then (moves_setDesc _ _ _)).then (moves_completeAll _ _ _ _)) (.ite_fst (.refl c) ?_)
    exact ((((((c.moves_hostRead _ _).mono.then (moves_pageTraffic _ _ _ _)).then (moves_setDesc _ _ _)).then
      (moves_bump _ _ _)).then (moves_xfers _ _)).then (moves_completeFetch _ _ _ _))

theorem moves_moveOut (dr : Dram) (i : Nat) : c.Moves [.ctr, .chans, .free] (c.moveOut dr i).1 := by
  unfold moveOut
  dsimp only
  refine .ite_fst (.refl c) (.ite_fst (c.moves_bump _ _).mono ?_)
  have hread := c.moves_readStored dr i (c.movedPages i)
  split
  · next h =>
    have hpages := fun (d : Core) (us : List Nat) (a : Nat → Nat) (b : Nat → List Byte) (f : FnId) => Moves.foldl (w := [.ctr, .chans, .free])
      (c := d) (fun d u => d.dma f (a u) (b u)) (fun d _ => (d.moves_dma _ _ _).mono) us
    exact ((((Moves.of_eq h hread).mono.then (moves_freeTraffic _ _ _)).trans (hpages _ _ _ _ _)).then (moves_dma _ _ _ _)).then
      (moves_fresh _)
  · exact hread.mono

theorem moves_writebackDone (i : Nat) (dr : Dram) :
    c.Moves [.ctr, .chans, .free, .dir, .pool, .runs, .ports, .posts] (writebackDone i c dr) := by
  unfold writebackDone
  refine .ite (.refl c) ?_
  have hout := (c.moves_moveOut dr i).mono (w := [.ctr, .chans, .free, .dir, .pool, .runs, .ports, .posts])
  generalize c.moveOut dr i = m at hout ⊢
  dsimp only
  split
  · exact hout
  · refine .ite ?_ (.ite (hout.then (moves_writebackFail _ _ _))
      (.ite ((hout.then (moves_setDesc _ _ _)).then (moves_toRemote _ _) |>.then (moves_bump _ _ _)) ?_))
    · split
      · exact (hout.then (moves_setDesc _ _ _)).then (moves_complete _ _ _ _)
      · exact hout.then (moves_setDesc _ _ _)
    · split
      · exact (hout.then (moves_setDesc _ _ _)).then (moves_complete _ _ _ _)
      · exact hout.then (moves_setDesc _ _ _)

end Core
end Sys2Proof.Machine

/-! The towers and the beat (Machine/TowerCmd.lean, Tick.lean). -/

namespace Sys2Proof.Machine

set_option Elab.async false
namespace Core

variable (c : Core)

theorem moves_bundleEvent (s : Seg) (t : Nat) (ms : List (Nat × Nat × Nat)) (e : Nat × Nat × Nat × Nat) :
    c.Moves [] (c.bundleEvent s t ms e) := c.moves_raise _

theorem moves_issued (s : Seg) (t : Nat) (o : BOut) : c.Moves [.towers, .ctr, .segs] (c.issued s t o) := by
  have hmarks : ∀ (d : Core) (xs : List (Nat × Nat × Nat)) (n : SegOut), d.Moves [.towers, .ctr, .segs]
      (xs.foldl (fun (r : Core × SegOut) (x : Nat × Nat × Nat) =>
        if r.1.marked { s with out := r.2 } x.1 x.2.1 then r
        else (r.1.raise (r.1.ctxEvent 0x0114 (s.img.ctxs.getD x.1 s.ctx) x.2.1 (x.2.2 / 2 ^ 16) x.2.2 t),
          { r.2 with singular := r.2.singular ++ [x] })) (d, n)).1 := fun d xs n =>
    .foldl_fst (r := (d, n)) _ (fun r x => .ite_fst (.refl r.1) (r.1.moves_raise _).mono) xs
  exact (((((c.moves_setTower _ _).mono.trans (.foldl _ (fun d e => (d.moves_bundleEvent s t o.frozen e).mono) _)).trans
    (hmarks _ _ _)).then (moves_bump _ _ _)).then (moves_bump _ _ _)).then (moves_setSeg _ _)

/-- The parts that a tower's operations move. -/
def towerParts : List Part := [.towers, .segs, .pow, .ctr]

theorem moves_rowCheck (t : Nat) : c.Moves [.towers, .segs, .pow] (rowCheck t c) := by
  unfold rowCheck
  split
  · exact .ite (c.moves_setTower _ _).mono ((c.moves_setTower _ _).mono.then (moves_towerFault _ _ _ _))
  · exact .refl c

theorem moves_rowChecks (t : Nat) : c.Moves [.towers, .segs, .pow] (rowChecks t c) :=
  .foldl _ (fun d _ => d.moves_rowCheck t) _

theorem moves_follow (t : Nat) : c.Moves [.towers] (follow t c) := by
  unfold follow
  split
  · exact .refl c
  · exact .ite (c.moves_setTower _ _) (.refl c)

theorem moves_issue (sel : Nat → Bool) (t : Nat) : c.Moves towerParts (issue sel t c) := by
  unfold issue
  dsimp only
  split
  · exact .refl c
  · refine .ite (.refl c) (.ite (c.moves_follow t).mono ?_)
    split
    · exact .refl c
    · exact .refl c
    · exact (c.moves_towerFault _ _ _).mono
    · exact .ite ((c.moves_issued _ _ _).mono.then (moves_rowChecks _ _)) (c.moves_issued _ _ _).mono

theorem moves_recount (t a b n : Nat) : c.Moves [.ctr] (c.recount t a b n) :=
  (c.moves_ctr (c.ctr.set .zero _ _) (SMap.rising_set _ _)).trans (moves_bump _ _ _)

theorem moves_retryCause (e : TEnv) (t q k : Nat) : c.Moves [.ctr, .towers] (c.retryCause e t q k) := by
  unfold retryCause
  dsimp only
  split
  · exact .ite ((c.moves_recount _ _ _ _).mono.then (moves_setTower _ _ _)) (.refl c)
  · exact .refl c

theorem moves_linkRead (tr : Trim) (im : Image) (d t i entry k : Nat) :
    c.Moves [.slots, .xfers, .links, .ctr] (c.linkRead tr im d t i entry k).1 :=
  .ite_fst (.refl c) (.ite_fst (.refl c) (c.moves_originate _ _ _ _))

theorem moves_flightOf (dr : Dram) (s : Seg) (x : Tower) (k i entry d : Nat) :
    c.Moves [.ctr, .segs] (c.flightOf dr s x k i entry d).1 := c.moves_takeSlots _ _ _ _ _

theorem moves_inbound (tr : Trim) (t : Nat) (dr : Dram) :
    c.Moves [.slots, .xfers, .links, .ctr, .segs, .towers, .pow] (inbound tr t c dr) := by
  unfold inbound
  dsimp only
  split
  · exact .refl c
  · refine .ite (.refl c) (.ite (.refl c) ?_)
    split
    · exact .then (.trans (.ite_fst (c.moves_linkRead _ _ _ _ _ _ _).mono (.refl c)) (moves_flightOf _ _ _ _ _ _ _ _).mono)
        (moves_setTower _ _ _)
    · exact (c.moves_towerFault _ _ _).mono

theorem moves_outbound (t : Nat) : c.Moves [.ctr, .segs, .towers, .pow] (outbound t c) := by
  unfold outbound
  dsimp only
  split
  · exact .refl c
  · refine .ite (.refl c) ?_
    split
    · exact (c.moves_takeSlots _ _ _ _ _).mono.then (moves_setTower _ _ _)
    · exact (c.moves_towerFault _ _ _).mono

theorem moves_domeRead (dome : Check) (off : Nat) (ls : List Line) : c.Moves [] (c.domeRead dome off ls).1 := by
  cases dome with
  | clean => exact .refl c
  | single => exact c.moves_raise _
  | uncorrectable => exact c.moves_raise _

theorem moves_badRoots (xs : List Nat) : c.Moves [.chans] { c with mem := { c.mem with badRoots := xs } } := c.moves_chans rfl

theorem moves_memRead (fl : Flight) (dome : Check) : c.Moves [.ctr, .chans] (c.memRead fl dome).1 := by
  unfold memRead
  split
  · refine .ite_fst ?_ (c.moves_readSnaps _ _ _)
    cases dome with
    | clean => exact c.moves_readSnaps _ _ _
    | single => exact (c.moves_raise _).mono.trans (moves_readSnaps _ _ _ _)
    | uncorrectable => exact ((c.moves_raise _).mono.then (moves_badRoots _ _)).trans (moves_readSnaps _ _ _ _)
  · exact c.moves_readSnaps _ _ _

theorem moves_deltaLines (fl : Flight) (as : List Nat) (dome : Check) : c.Moves [.ctr, .chans] (c.deltaLines fl as dome).1 := by
  unfold deltaLines
  refine .ite_fst (c.moves_memRead _ _) ?_
  have hread := c.moves_memRead fl .clean
  split
  · next h => exact .of_eq h hread
  · next h => exact (Moves.of_eq h hread).then (moves_domeRead _ _ _ _)

theorem moves_fetchLines (s : Seg) (t : Nat) (fl : Flight) (d : Nat) (dome : Check) :
    c.Moves [.ctr, .chans] (c.fetchLines s t fl d dome).1 := by
  unfold fetchLines
  dsimp only
  split
  · exact c.moves_memRead _ _
  · exact (c.moves_domeRead _ _ _).mono
  · exact c.moves_deltaLines _ _ _
  · split
    · exact .refl c
    · exact .refl c

theorem moves_landRepeat (s : Seg) (e : TEnv) (t : Nat) (fl : Flight) (dome : Check) :
    c.Moves [.ctr, .chans, .towers] (c.landRepeat s e t fl dome).1 := by
  have hread := (c.moves_lateLines fl.deadline fl.src.1 fl.src.2 fl.free).mono.trans
    (moves_fetchLines _ s t fl (e.prog.descs.getD fl.desc 0) dome)
  unfold landRepeat
  dsimp only
  split
  · next h => exact (Moves.of_eq h hread).mono
  · next h => exact (Moves.of_eq h hread).mono.then (moves_setTower _ _ _)

theorem moves_retriedLine (fls : List Flight) : c.Moves [.ctr] (c.retriedLine fls) := by
  unfold retriedLine
  split
  · split
    · exact (c.moves_raise _).mono.trans (moves_retryLine _ _ _)
    · exact .refl c
  · exact .refl c

theorem moves_present (t q : Nat) (retried : Bool) (dome : Check) :
    c.Moves [.ctr, .chans, .towers, .xfers] (present t q retried dome c) := by
  unfold present
  dsimp only
  split
  · exact .refl c
  · next s e _ =>
    split
    · exact .refl c
    · next k _ =>
      have hcause : c.Moves [.ctr, .chans, .towers, .xfers] (if retried = true then c.retryCause e t q k else c) :=
        .ite (c.moves_retryCause _ _ _ _).mono (.refl c)
      refine .ite hcause (.then (.then (.trans (hcause.trans (.ite (moves_retriedLine _ _).mono (.refl _)))
        (.foldl_fst (r := (_, _)) _ (fun r f => ?_) _)) (moves_setTower _ _ _)) (moves_xfers _ _))
      exact (r.1.moves_landRepeat _ _ _ _ _).mono

theorem moves_writeRepeat (dr : Dram) (s : Seg) (e : TEnv) (t : Nat) (fl : Flight) :
    c.Moves [.ctr, .chans, .dir, .ctxs] (c.writeRepeat dr s e t fl).1 := by
  unfold writeRepeat
  dsimp only
  split
  · exact (c.moves_updCtx _ _).mono
  · exact .foldl_fst (r := (c, _)) _ (fun r p => .ite_fst (.refl r.1) (r.1.moves_writePage _ _ _ _).mono) _

theorem moves_accepted (t q : Nat) (dr : Dram) :
    c.Moves [.ctr, .chans, .dir, .ctxs, .towers, .segs, .pow] (accepted t q c dr).1 := by
  unfold accepted
  split
  · exact .refl c
  · next s e _ =>
    extract_lets x qu order
    split
    · exact .refl c
    · extract_lets fls r y old c'
      have hwritten : c.Moves [.ctr, .chans, .dir, .ctxs, .towers, .segs, .pow] c' := by
        refine .then (.foldl_fst (r := (c, _)) _ (fun r f => .ite_fst (.refl r.1) ?_) _) (moves_setTower _ _ _)
        dsimp only
        exact (r.1.moves_lateLines _ _ _ _).mono.then (moves_writeRepeat _ _ _ _ _ _)
      clear_value c' r
      exact .ite_pair (hwritten.then (moves_towerFault _ _ _ _)) hwritten

theorem moves_stallLimit (t : Nat) : c.Moves [.segs, .pow, .towers] (stallLimit t c) := by
  unfold stallLimit
  split
  · exact .refl c
  · exact .ite (c.moves_towerFault _ _ _) (.refl c)

/-! The beat. -/

theorem moves_swapTick (t : Nat) (x : Tower) : c.Moves [.ctr, .towers] (c.swapTick t x) :=
  (c.moves_bump _ _).mono.then (moves_setTower _ _ _)

theorem moves_towerTick (c0 : Core) (t : Nat) : c.Moves [.ctr, .towers] (c0.towerTick c t) := by
  unfold towerTick
  refine .ite (c.moves_swapTick _ _) ?_
  split
  · exact .refl c
  · have hset := fun x => (c.moves_setTower t x).mono (w := [.ctr, .towers])
    have hcount := fun x o y => ((hset x).then (moves_bump _ o 1)).then (moves_setTower _ t y)
    refine .ite (.refl c) (.ite (hset _) (.ite ?_ (.ite ?_ (.ite (hcount _ _ _) (.ite (hcount _ _ _)
      (.ite (hset _) ((hset _).then (moves_setTower _ _ _))))))))
    · exact .ite ((hset _).then (moves_setTower _ _ _)) (hcount _ _ _)
    · exact .ite (hset _) (hcount _ _ _)

theorem moves_upset : c.Moves [.towers] c.upset := by
  unfold upset
  split
  · exact .refl c
  · exact .ite (c.moves_setTower _ _) (.refl c)

theorem moves_workTick (t : Nat) : c.Moves towerParts (c.workTick t) := by
  unfold workTick
  split
  · exact .refl c
  · refine .ite (.refl c) ?_
    dsimp only
    split
    · exact (c.moves_issued _ _ _).mono
    · exact (c.moves_issued _ _ _).mono.then (moves_towerFault _ _ _ _)

theorem moves_dueChecks : c.Moves [.towers, .segs, .pow] c.dueChecks :=
  .foldl _ (fun _ t => .foldl _ (fun e _ => e.moves_rowCheck t) _) _

theorem moves_markParked : c.Moves [.segs] c.markParked := c.moves_segs _

theorem moves_startProg (x : Nat) : c.Moves [.ctxs] (c.startProg x) := c.moves_updCtx _ _

theorem moves_startProgs : c.Moves [.ctxs] c.startProgs :=
  .foldl _ (fun d _ => .ite (d.moves_startProg _) (.refl d)) _

theorem moves_windowOver : c.Moves [.pow, .ctr] c.windowOver := (c.moves_pow _).mono.then (moves_bump _ _ _)

/-- The parts that a beat moves. -/
def tickParts : List Part := [.clk, .blf, .towers, .segs, .pow, .ctr, .free, .ctxs]

theorem moves_tick : c.Moves tickParts c.tick := by
  unfold tick
  extract_lets k inc d d1 blf d2 d3
  have hwork : c.Moves tickParts d :=
    (c.moves_upset).mono.trans (.foldl _ (fun d t => (d.moves_follow t).mono.then (moves_workTick _ t)) _)
  have hticked : d.Moves tickParts d1 := .foldl _ (fun d' t => (d'.moves_towerTick d t).mono) _
  clear_value d d1
  have hclocks : c.Moves tickParts d2 := ((hwork.trans hticked).then (moves_clk _ k)).then (moves_blf { d1 with clk := k } _)
  have hwindow : c.Moves tickParts d3 := .ite (((hclocks.then (moves_bump _ _ _)).then (moves_fresh _)).then (moves_windowOver _)) hclocks
  exact ((hwindow.then (moves_markParked _)).then (moves_startProgs _)).then (moves_dueChecks _)

end Core
end Sys2Proof.Machine

/-! The commands on segments and release programs, and those of time (Machine/SegCmd.lean, TimeCmd.lean). -/

namespace Sys2Proof.Machine

set_option Elab.async false
namespace Core

variable (c : Core)

theorem moves_claimResupport (s : Seg) : c.Moves [.dir, .pool] (c.claimResupport s) :=
  .ite (.refl c) (.foldl _ (fun d i => (d.moves_updDesc i _).mono.then (moves_dropCopies _ i)) _)

/-- The parts that a hand-over moves. -/
def handParts : List Part := [.dir, .pool, .runs, .ctr, .ports, .posts, .segs]

theorem moves_placeImage (tr : Trim) (s : Seg) : c.Moves handParts (placeImage tr c s) := by
  unfold placeImage
  split
  · exact .ite (((c.moves_claimResupport s).mono.then (moves_setSeg _ _)).then (moves_allocUnits _ _ _))
      ((c.moves_claimResupport s).mono.then (moves_setSeg _ _))
  · exact (c.moves_refuseSeg _ _ _ _).mono

theorem moves_pinAll (is : List Nat) : c.Moves [.dir] (c.pinAll is) := .foldl _ (fun d i => d.moves_updDesc i _) _

theorem moves_pinParked : c.Moves [.segs, .dir] c.pinParked := by
  refine .foldl _ (fun d s => ?_) _
  split
  · exact (d.moves_setSeg _).mono.then (moves_pinAll _ _)
  · exact .refl d

theorem moves_grant : c.Moves [.segs] c.grant := c.moves_segs _

theorem moves_unpark (tr : Trim) : c.Moves handParts (c.unpark tr) := by
  refine .ite (.refl c) (.trans (c.moves_grant).mono (.foldl _ (fun d s => ?_) _))
  split
  · exact .ite (d.moves_placeImage _ _) (.refl d)
  · exact .refl d

theorem moves_imagePlacement (tr : Trim) : c.Moves handParts (imagePlacement tr c) := by
  unfold imagePlacement
  refine .ite (.refl c) ?_
  split
  · exact (c.moves_placeImage _ _).trans (moves_unpark _ _)
  · exact .refl c

theorem moves_wake (tr : Trim) : c.Moves fetchParts (c.wake tr) :=
  ((c.moves_kick tr).then (moves_pinParked _)).then (moves_unpark _ _)

theorem moves_joinSteps (s : Seg) : c.Moves [.ctxs, .runs, .segs] (c.joinSteps s) :=
  .ite (.refl c) (.then (.foldl _ (fun d x => (d.moves_updCtx x _).mono.then (moves_allocTransient _ x)) _) (moves_setSeg _ _))

theorem moves_admission (tr : Trim) : c.Moves (.ctxs :: .blf :: handParts) (admission tr c) := by
  unfold admission
  split
  · exact .refl c
  · refine .ite (.refl c) ?_
    split
    · exact (c.moves_setSeg _).mono.then (moves_joinSteps _ _)
    · exact (((c.moves_blf _).mono.then (moves_raise _ _)).then (moves_refuseSeg _ _ _ _ _)).then (moves_unpark _ _)

theorem moves_restoreSeg (dr : Dram) (s : Seg) : c.Moves [.ctr, .chans, .towers, .runs] (c.restoreSeg dr s) := by
  refine .then (.foldl _ (fun d x => ?_) _) (moves_dropSave _ _)
  exact ((d.moves_readPage _ _ _ _).mono.then (moves_noDeadline _ _ _)).then (moves_setTower _ _ _)

theorem moves_release (dr : Dram) : c.Moves [.towers, .dir, .pow, .segs, .ctr, .chans, .runs] (c.release dr) := by
  unfold release
  split
  · exact (c.moves_releaseSeg _ _).mono.then (moves_restoreSeg _ _ _)
  · exact .refl c

theorem moves_leaveSteps (s : Seg) : c.Moves [.ctxs, .segs] (c.leaveSteps s) :=
  .then (.foldl _ (fun d x => (d.moves_updCtx x _).mono) _) (moves_dueSettle _)

theorem moves_dropLate (tr : Trim) : c.Moves (.ctxs :: handParts) (dropLate tr c) := by
  unfold dropLate
  split
  · exact .refl c
  · exact (c.moves_leaveSteps _).mono.then (moves_cancelSeg _ _ _ _ _)

theorem moves_resupported (s : Seg) : c.Moves [.dir, .free] (c.resupported s) :=
  .ite (.foldl _ (fun d i => (d.moves_updDesc i _).mono.then (moves_fresh _)) _) (.refl c)

theorem moves_segmentEnd (tr : Trim) : c.Moves (.ctxs :: .free :: .pow :: .towers :: fetchParts) (segmentEnd tr c) := by
  unfold segmentEnd
  split
  · exact .refl c
  · exact ((((c.moves_resupported _).mono.then (moves_dropClaim _ _)).then (moves_endSeg _ _ _ _)).then (moves_wake _ _))

theorem moves_stepSettle (tr : Trim) : c.Moves (.ctxs :: handParts) (stepSettle tr c) := by
  unfold stepSettle
  refine .ite (.refl c) ?_
  split
  · exact (c.moves_settle _ _).mono
  · exact .refl c

theorem moves_saveSpace {s : Seg} {x : Core × Nat} (h : c.saveSpace s = some x) : c.Moves [.runs] x.1 := by
  obtain ⟨b, _, rfl⟩ := Option.map_eq_some_iff.1 h
  exact c.moves_setRun _ _

theorem moves_saveSeg (dr : Dram) (s : Seg) (ts : List (Nat × Tower)) : c.Moves [.ctr, .chans, .dir] (c.saveSeg dr s ts).1 := by
  refine .foldl_fst (r := (c, _)) _ (fun r x => ?_) _
  dsimp only
  exact (r.1.moves_writePage _ _ _ _).then (moves_noDeadline _ _ _)

theorem moves_swapSeg (dr : Dram) (s : Seg) : c.Moves [.ctr, .chans, .dir, .towers, .segs] (c.swapSeg dr s).1 :=
  ((((c.moves_saveSeg dr s _).mono.then (moves_towers (c.saveSeg dr s _).1 _ (List.length_map _))).then (moves_setSeg _ _)).then (moves_bump _ _ _))

theorem moves_swapOut (tr : Trim) (t : Nat) (dr : Dram) : c.Moves (.towers :: .segs :: evictParts) (swapOut tr t c dr).1 := by
  unfold swapOut
  split
  · refine .ite_fst ?_ (.refl c)
    dsimp only
    split
    · next h => exact ((c.moves_evictFor _ _ _).mono.trans (moves_saveSpace _ h).mono).then (moves_swapSeg _ _ _)
    · exact (c.moves_evictFor _ _ _).mono
  · exact .refl c

theorem moves_selfTest (t unit : Nat) : c.Moves [.towers] (selfTest t unit c) :=
  .ite (.refl c) (.ite (c.moves_setTower _ _) ((c.moves_setTower _ _).then (moves_raise _ _)))

/-! Release programs. -/

theorem moves_finishProg (x : Nat) : c.Moves [.ctxs] (c.finishProg x) := c.moves_updCtx _ _

theorem moves_endProg (x : Nat) : c.Moves [.ctxs, .pow] (c.endProg x) :=
  (c.moves_updCtx _ _).mono.then (moves_withoutReservations _ _)

theorem moves_goto (x : Nat) (r : ProgRun) : c.Moves [.ctxs] (c.goto x r) := c.moves_updCtx _ _

theorem moves_progOp {w : List Part} (x op : Nat) (f : Core → Ctx → ProgRun → Nat → Core)
    (hf : ∀ v r n, c.Moves w (f c v r n)) : c.Moves w (progOp x op f c) := by
  unfold progOp
  split
  · exact .refl c
  · split
    · exact .refl c
    · exact .ite (.refl c) (hf _ _ _)

/-- The parts that an operation of a release program moves. -/
def progParts : List Part := [.ctxs, .segs, .dir, .pool, .runs, .ctr, .ports, .posts, .towers, .pow]

theorem moves_progRelease (tr : Trim) (x : Nat) : c.Moves progParts (progRelease tr x c) := by
  refine c.moves_progOp x 1 _ (fun v r w => ?_)
  split
  · exact .refl c
  · refine .ite ((c.moves_leaveSteps _).mono.then (moves_cancelSeg _ _ _ _ _)) ?_
    split
    · exact .refl c
    · exact ((c.moves_releaseSeg _ _).mono.then (moves_withoutReservations _ _)).then (moves_goto _ _ _)

/-! Time. -/

theorem moves_countPulse (late : Nat) : c.Moves [.blf] (c.countPulse late) := .ite (c.moves_blf _) (.refl c)

/-- The parts that a pulse moves. -/
def pulseParts : List Part := [.clk, .tref, .blf]

theorem moves_tryPulse (edge late : Nat) : c.Moves pulseParts (c.tryPulse edge late) := by
  unfold tryPulse
  extract_lets r phase good r' c'
  have hlocked : c.Moves pulseParts c' := (c.moves_tref _).mono
  exact .ite (.then (.ite (hlocked.then (moves_countPulse _ _)) hlocked) (moves_raise _ _)) (c.moves_tref _).mono

theorem moves_startLocking (src edge late : Nat) : c.Moves pulseParts (c.startLocking src edge late) :=
  (c.moves_tref _).mono.then (moves_tryPulse _ _ _)

theorem moves_acceptPulse (edge late : Nat) : c.Moves pulseParts (c.acceptPulse edge late) := by
  unfold acceptPulse
  extract_lets r took ps r'
  split
  · exact .then (.then (.ite (c.moves_clk _).mono (.refl c)) (moves_tref _ _)) (moves_countPulse _ _)
  · exact (c.moves_tref r').mono.then (moves_tryPulse _ _ _)

theorem moves_pulse (src late : Nat) : c.Moves pulseParts (c.pulse src late) := by
  unfold pulse
  extract_lets edge
  have hstart := c.moves_startLocking src edge late
  split
  · exact .ite hstart (.refl c)
  · exact .ite hstart (.refl c)
  · exact .ite (.ite hstart (.refl c)) (.ite (c.moves_acceptPulse _ _) ((c.moves_tref _).mono.then (moves_raise _ _)))

theorem moves_cadencePulse (src : Nat) (rising : Bool) : c.Moves pulseParts (cadencePulse src rising c) :=
  .ite (c.moves_pulse _ _) (.refl c)

theorem moves_syntheticPulse : c.Moves [.tref, .blf] c.syntheticPulse :=
  .ite (.refl c) ((c.moves_tref _).mono.then (moves_countPulse _ _))

theorem moves_sourceLost : c.Moves [.tref, .blf] c.sourceLost := by
  unfold sourceLost
  refine .ite (.refl c) ?_
  split
  · exact ((c.moves_tref _).mono.then (moves_countPulse _ _)).then (moves_raise _ _)
  · exact (c.moves_tref _).mono
  · exact .refl c

theorem moves_unfilled (a b : Nat) : c.Moves [.ctr] (c.unfilled a b) :=
  .ite ((c.moves_raise _).mono.then (moves_bump _ _ _)) (.refl c)

theorem moves_setFactor (k : Nat) : c.Moves [.blf] (c.setFactor k) := (c.moves_blf _).then (moves_raise _ _)

theorem moves_factorChange : c.Moves [.blf, .ctr] c.factorChange :=
  .ite ((c.moves_setFactor _).mono.then (moves_unfilled _ _ _)) (.refl c)

theorem moves_factorStepDown : c.Moves [.blf] c.factorStepDown :=
  .ite (.ite (c.moves_setFactor _) (c.moves_blf _)) (.refl c)

theorem moves_blfRefuse (code : Nat) : c.Moves [.blf] (c.blfRefuse code) := c.moves_blf _

theorem moves_runSet : c.Moves [.blf] c.runSet :=
  .ite (.refl c) (.ite (c.moves_blfRefuse _) (.ite (c.moves_blfRefuse _) (c.moves_blf _)))

theorem moves_admitSet : c.Moves [.blf] c.admitSet :=
  .ite (.refl c) (.ite (c.moves_blfRefuse _) (.ite (c.moves_blfRefuse _) (c.moves_blf _)))

theorem moves_coreHalt (k : Nat) : c.Moves [.cores, .failN] (coreHalt k c) :=
  .ite (.refl c) (((c.moves_coreSet c.gate.ready _ _ c.gate.stopping).mono.then (moves_raise _ _)).then (moves_failN _ _))

theorem moves_parkExpired (tr : Trim) : c.Moves fetchParts (parkExpired tr c) := by
  unfold parkExpired
  refine .ite (.refl c) ?_
  split
  · exact ((c.moves_bump _ _).mono.then (moves_cancelSeg _ _ _ _ _)).trans (moves_wake _ _)
  · exact .refl c

end Core
end Sys2Proof.Machine

/-! The commands of memory and residency, the contexts as a whole, and the registers (Machine/MemCmd.lean, CtxOps.lean, EvrCmd.lean,
Registers.lean). -/

namespace Sys2Proof.Machine

set_option Elab.async false
namespace Core

variable (c : Core)

theorem moves_lineOut (r : LineReq) (poison : Nat) (data : Line) : c.Moves [.chans] (c.lineOut r poison data) := c.moves_chans rfl

theorem moves_retries (xs : List Retry) : c.Moves [.chans] { c with mem := { c.mem with retries := xs } } := c.moves_chans rfl

theorem moves_lineGood (r : LineReq) (e : RunEnt) (pfn : Nat) (p : PageSnap) : c.Moves [.ctr, .chans] (c.lineGood r e pfn p) := by
  unfold lineGood
  have hread := c.moves_verify e pfn (p.others r.line)
  split
  · next h => exact (Moves.of_eq h hread).then (moves_lineOut _ _ _ _)
  · next h => exact (Moves.of_eq h hread).then (moves_lineOut _ _ _ _)

/-- A line request that completes with a code. -/
theorem moves_lineRefused (r : LineReq) (p : Nat) :
    c.Moves [.ctr, .chans] ((if p = 0x0505 then c.bump 0x20_0040 1 else c).lineOut r p 0) :=
  .then (.ite (c.moves_bump _ _).mono (.refl c)) (moves_lineOut _ _ _ _)

theorem moves_lineRead (r : LineReq) (chk : Check) (dr : Dram) : c.Moves [.ctr, .chans] (lineRead r chk c dr) := by
  unfold lineRead
  split
  · exact c.moves_lineRefused _ _
  · next e pfn _ =>
    extract_lets p touched c1 c2
    have hcount : c.Moves [.ctr, .chans] c2 :=
      .trans (c.moves_countLines _ _ _).mono (.ite (moves_countTag _ _ _ _).mono (.refl _))
    clear_value c2
    exact .ite (hcount.then (moves_retries _ _))
      (.trans (.ite ((hcount.then (moves_raise _ _)).then (moves_chan _ _ _ _ _)) hcount) (moves_lineGood _ _ _ _ _))

theorem moves_checkRetry (chk : Check) (dr : Dram) : c.Moves [.ctr, .chans] (checkRetry chk c dr) := by
  unfold checkRetry
  split
  · exact .refl c
  · next r p rs _ =>
    extract_lets mem c1
    have hnext : c.Moves [.ctr, .chans] c1 := (c.moves_retries rs).mono
    clear_value c1
    split
    · exact hnext.trans (moves_lineRefused _ _ _)
    · next pfn _ =>
      have hretry := hnext.then (moves_retryLine _ pfn r.line)
      exact .ite ((((hretry.trans (moves_ueLine _ _ _)).trans (moves_badLines _ _ _)).then (moves_bad _ _)).then (moves_lineOut _ _ _ _))
        (.trans (.ite ((hretry.then (moves_raise _ _)).then (moves_chan _ _ _ _ _)) (hretry.then (moves_raise _ _)))
          (moves_lineGood _ _ _ _ _))

theorem moves_lineWrite (r : LineReq) (data : Line) (dr : Dram) : c.Moves [.ctr, .chans, .dir] (lineWrite r data c dr).1 := by
  unfold lineWrite
  split
  · exact (c.moves_lineRefused _ _).mono
  · exact (c.moves_writePage _ _ _ _).then (moves_lineOut _ _ _ _)

theorem moves_scrub (ch n : Nat) (chk : Check) : c.Moves [.ctr, .chans] (scrub ch n chk c) := by
  unfold scrub
  extract_lets p k c1
  have hread : c.Moves [.ctr, .chans] c1 := ((c.moves_chan _ _ _ _).trans (moves_chan _ _ _ _ _)).mono
  clear_value c1
  refine .ite (.refl c) ?_
  split
  · exact hread
  · exact (hread.then (moves_chan _ _ _ _ _)).then (moves_chan _ _ _ _ _)
  · exact (hread.then (moves_raise _ _)).then (moves_errLog _ _ _ _ _)

theorem moves_banks (m : SMap Nat) : c.Moves [.chans] { c with mem := { c.mem with banks := m } } := c.moves_chans rfl

theorem moves_ctls (xs : List MemCtl) (h : xs.length = c.mem.ctls.length) :
    c.Moves [.chans] { c with mem := { c.mem with ctls := xs } } := c.moves_chans h

theorem moves_refresh (ch : Nat) : c.Moves [.chans] (refresh ch c) := c.moves_banks _

theorem moves_refreshForced (ch bank : Nat) : c.Moves [.chans, .ctr] (refreshForced ch bank c) :=
  ((c.moves_banks _).mono.then (moves_raise _ _)).then (moves_chan _ _ _ _ _)

theorem moves_pkgTemp (k temp : Nat) : c.Moves [.chans] (pkgTemp k temp c) :=
  .ite (c.moves_ctls _ List.length_set) ((c.moves_ctls _ List.length_set).then (moves_raise _ _))

theorem moves_memoryInit (k fail : Nat) : c.Moves [.chans, .failN, .cores] (memoryInit k fail c) :=
  .ite (.refl c) (.then (.trans (c.moves_ctls _ List.length_set).mono
    (.foldl _ (fun d _ => (d.moves_raise _).mono.then (moves_failN _ _)) _)) (moves_readyCheck _))

theorem moves_eviction (tr : Trim) (dr : Dram) : c.Moves evictParts (eviction tr c dr) :=
  .ite (.refl c) (.foldl _ (fun d _ => .ite (.refl d) (d.moves_evict _ _ _)) _)

theorem moves_favoured (i : Nat) : c.Moves [.pool] (c.favoured i) := by
  unfold favoured
  refine .ite (.refl c) ?_
  split
  · exact .ite (c.moves_dropCopiesIf _) (.refl c)
  · exact .refl c

theorem moves_tier0Copy (i bank page : Nat) (dr : Dram) : c.Moves [.pool, .ctr, .chans] (tier0Copy i bank page c dr) := by
  unfold tier0Copy
  refine .ite (.refl c) ?_
  have hread := fun u => (c.moves_favoured i).mono.trans
    ((moves_readPage (c.favoured i) dr i u (List.range 64)).mono (w := [.pool, .ctr, .chans]))
  split
  · next h => exact ((Moves.of_eq h (hread _)).then (moves_claimUnits _ .copy 1)).then (moves_copies (claimUnits _ _ _) _)
  · next h => exact .of_eq h (hread _)

theorem moves_tier0Reclaim : c.Moves [.pool] c.tier0Reclaim := c.moves_dropCopiesIf _

/-! Contexts as a whole. -/

theorem moves_updCtxD (x : Nat) (f : Ctx → Ctx) : c.Moves [.ctxs, .keep] (c.updCtxD x f) := by
  unfold updCtxD
  split
  · exact .refl c
  · exact .ite (c.moves_setCtx _ _).mono ((c.moves_setCtx _ _).mono.then (moves_note _ _ _ _ _))

theorem moves_withdraw (tr : Trim) (p : Seg → Bool) (code : Nat) : c.Moves (.ctxs :: handParts) (c.withdraw tr p code) := by
  refine .foldl _ (fun d s => ?_) _
  split
  · exact .ite ((d.moves_leaveSteps _).mono.then (moves_cancelSeg _ _ _ _ _)) (.refl d)
  · exact .refl d

/-- The parts that the disabling of a context moves. -/
def disableParts : List Part := .ctxs :: .pow :: .keep :: fetchParts

theorem moves_disableCtx (tr : Trim) (x : Nat) : c.Moves disableParts (c.disableCtx tr x) := by
  unfold disableCtx
  split
  · exact .refl c
  · refine .ite (.refl c) ?_
    extract_lets busy c1 c2 c3 c4 c5
    have hoff : c.Moves disableParts c1 := ((c.moves_updCtx _ _).mono.then (moves_releaseUnits _ _)).then (moves_endProg _ _)
    have hgone : c.Moves disableParts c3 := (hoff.then (moves_withdraw _ _ _ _)).then (moves_withdraw _ _ _ _)
    have hdome : c.Moves disableParts c4 := ((hgone.then (moves_abandon _ _)).then (moves_freeTransient _ _)).then (moves_updCtx _ _ _)
    clear_value c4
    exact .then (.ite ((hdome.then (moves_dueSettle _)).then (moves_noteReset _ _ _)) (hdome.then (moves_dueSettle _))) (moves_wake _ _)

theorem moves_dropTraining (x i : Nat) : c.Moves [.dir] (c.dropTraining x i) := .ite (c.moves_updDesc _ _) (.refl c)

theorem moves_deleteCtx (x : Nat) : c.Moves [.dir, .ctxs, .runs] (c.deleteCtx x) := by
  unfold deleteCtx
  split
  · exact .refl c
  · exact .then (.then (.ite (c.moves_dropTraining _ _).mono (.refl c)) (moves_freeTransient _ _)) (moves_ctxs _ _ (SMap.rising_erase _))

theorem moves_freeDesc (i code : Nat) : c.Moves [.pool, .runs, .xfers, .dir, .ctr, .ports, .posts] (c.freeDesc i code) := by
  have hfreed := (((((c.moves_dropCopies i).mono.then (moves_dropRun _ i)).then
    (moves_xfers _ (((c.dropCopies i).dropRun i).xfers.filter (fun x => !decide (x.role = XferRole.fetch i ∨ x.role.wbOf = some i))))).then
    (moves_setDesc _ i .free)).then (moves_completeAll _ (((c.desc i).fetch.map (fun f => f.reqs)).getD []) code 0)
    (w := [.pool, .runs, .xfers, .dir, .ctr, .ports, .posts]))
  unfold freeDesc
  dsimp only
  split
  · exact hfreed.then (moves_complete _ _ _ _)
  · exact hfreed

/-! The recorder's commands, and the registers. -/

theorem moves_setTime (v : Nat) : c.Moves [.clk] (c.setTime v) := (c.moves_clk _).then (moves_raise _ _)

theorem moves_recordWrite (tr : Trim) (e : Evr) : c.Moves [.ports] (recordWrite tr c e).1 :=
  .trans (.ite (c.moves_raise _).mono (.refl c)) (.ite (moves_fire _ _ _) (.refl _))

theorem moves_writeReg (off size v : Nat) : c.Moves [.regs] (c.writeReg off size v) := by
  unfold writeReg
  dsimp only
  split
  · exact .refl c
  · exact .ite (c.moves_setReg _ _) (.refl c)

theorem moves_writeBound (off size v : Nat) : c.Moves [.slots] (c.writeBound off size v) := .ite (.refl c) (c.moves_setSlot _ _)

theorem moves_writeVectors (p off size v : Nat) : c.Moves [.ports] (c.writeVectors p off size v) := .ite (.refl c) (c.moves_setFn _ _)

theorem moves_onBar2 {w : List Part} (f : FnId) (via : Option Nat) (g : Core → Core) (hg : c.Moves w (g c))
    (hw : [.ctr].all w.contains = true := by decide) : c.Moves w (onBar2 f via g c) :=
  .ite (.refl c) (.ite hg ((c.moves_bump _ _).mono hw))

theorem moves_writeBar2 (f : FnId) (off size v : Nat) : c.Moves [.ports] (c.writeBar2 f off size v) :=
  .ite (c.moves_setPair _ _ _) (.ite (c.moves_setFn _ _) (.refl c))

theorem moves_registerWrite (f : FnId) (bar off size v : Nat) (via : Option Nat) (tr : Trim) (e : Evr) :
    c.Moves [.regs, .ports, .slots, .pow, .ctr] (registerWrite f bar off size v via tr c e).1 := by
  unfold registerWrite
  have hpow : c.Moves [.regs, .ports, .slots, .pow, .ctr] (if bit (lanes off size) 0 && !bit (placed off size v) 0 then
      { c with pow := { c.pow with apply := false } } else c) := .ite (c.moves_pow _).mono (.refl c)
  have hvec := fun p => (c.moves_writeVectors p off size v).mono (w := [.regs, .ports, .slots, .pow, .ctr])
  exact .ite_pair (.refl c) (.ite_pair (c.moves_onBar2 _ _ _ (c.moves_writeBar2 _ _ _ _).mono) (.ite_fst (.ite_fst
    (c.moves_writeBound _ _ _).mono (.ite_fst hpow (.ite_fst (hvec 0) (.ite_fst (hvec 1) (.ite_pair (.refl c)
      (c.moves_writeReg _ _ _).mono))))) (.refl c)))

theorem moves_badAccess (f : FnId) (off size : Nat) : c.Moves [] (badAccess f off size c) := .ite (.refl c) (c.moves_raise _)

theorem moves_evrBump (off n : Nat) (e : Evr) : c.Moves [] (evrBump off n c e).1 := .ite (c.moves_raise _) (.refl c)

end Core
end Sys2Proof.Machine

/-! The commands on key slots, queue pairs, sessions and contexts (Machine/Keys.lean, HostQ.lean, SessionCmd.lean, HostCmd.lean). -/

namespace Sys2Proof.Machine

set_option Elab.async false
namespace Core

variable (c : Core)

theorem moves_keepRefuse (code slot : Nat) : c.Moves [.keep] (c.keepRefuse code slot) := c.moves_keepRest

theorem moves_slotEnable : c.Moves [.slots, .keep] c.slotEnable :=
  .ite (.refl c) (.ite (c.moves_keepRefuse _ _).mono (.ite (c.moves_keepRefuse _ _).mono (.ite (c.moves_keepRefuse _ _).mono
    (c.moves_setSlot _ _).mono)))

theorem moves_retireNow (i : Nat) : c.Moves [.slots] (c.retireNow i) := by
  unfold retireNow
  dsimp only
  split
  · exact c.moves_setSlot _ _
  · exact c.moves_setSlot _ _
  · exact .refl c

theorem moves_retire (i : Nat) : c.Moves [.slots, .keep] (c.retire i) :=
  .ite (.ite (.refl c) (c.moves_keepRest).mono) (c.moves_retireNow i).mono

theorem moves_retireSel : c.Moves [.slots, .keep] c.retireSel := .ite (c.moves_retire _) (.refl c)

theorem moves_tellGate (tr : Trim) (k : Nat) : c.Moves (.ctxs :: fetchParts) (c.tellGate tr k) :=
  (c.moves_withdraw _ _ _).mono.then (moves_wake _ _)

theorem moves_tellBelfry (tr : Trim) (k : Nat) : c.Moves (.ctxs :: .pow :: fetchParts) (c.tellBelfry tr k) := by
  refine .then (.then (.trans (c.moves_withdraw tr _ _).mono (.foldl _ (fun d x => ?_) _)) (moves_dueSettle _)) (moves_wake _ _)
  dsimp only
  split
  · exact .ite (d.moves_endProg x).mono ((d.moves_endProg x).mono.then (moves_abandon _ _))
  · exact (d.moves_endProg x).mono

theorem moves_retireXfer (x : Xfer) : c.Moves [.towers, .xfers, .links, .ctr] (c.retireXfer x) := by
  unfold retireXfer
  dsimp only
  split
  · exact (c.moves_setTower _ _).mono.then (moves_setXfer _ _ _)
  · split
    · exact (c.moves_endBack _ _ _ _ _).mono.then (moves_setXfer _ _ _)
    · exact (c.moves_setXfer _ _).mono
  · exact (c.moves_setXfer _ _).mono

theorem moves_tellLink (tr : Trim) (k l : Nat) : c.Moves [.towers, .xfers, .links, .ctr] (c.tellLink tr k l) := by
  unfold tellLink
  extract_lets x c1 ys c2 labels c3
  have hdropped : c.Moves [.towers, .xfers, .links, .ctr] c1 := (c.moves_setLink _ _).mono.then (moves_bump _ _ _)
  have hmarked : c1.Moves [.towers, .xfers, .links, .ctr] c2 := .foldl _ (fun d x => d.moves_retireXfer x) _
  have hsent : c2.Moves [.towers, .xfers, .links, .ctr] c3 := .foldl _ (fun d _ => (d.moves_send _ _ _).mono) _
  clear_value c1 c2 c3
  exact .ite hdropped (((hdropped.trans hmarked).trans hsent).then (moves_setLink _ _ _))

/-- The parts that the broadcast of a retirement moves. -/
def retireParts : List Part := .ctxs :: .pow :: .towers :: fetchParts

theorem moves_broadcast (k : Nat) (u : RetireUnit) (tr : Trim) : c.Moves retireParts (broadcast k u tr c) := by
  unfold broadcast
  refine .ite (.refl c) (.then ?_ (moves_setSlot _ _ _))
  cases u with
  | gatehouse => exact (c.moves_tellGate _ _).mono
  | belfry => exact (c.moves_tellBelfry _ _).mono
  | link l => exact (c.moves_tellLink _ _ _).mono
  | host => exact .refl c
  | memory _ => exact .refl c

theorem moves_zeroize (tr : Trim) (k : Nat) : c.Moves disableParts (c.zeroize tr k) := by
  unfold zeroize
  refine .trans (.then (.trans (c.moves_setSlot _ _).mono (.foldl _ (fun d i => (d.moves_freeDesc i _).mono) _)) (moves_runs _ _))
    (.foldl _ (fun d x => (d.moves_disableCtx tr x).then (moves_deleteCtx _ x)) _)

theorem moves_zeroization (k : Nat) (tr : Trim) : c.Moves disableParts (zeroization k tr c) := .ite (c.moves_zeroize _ _) (.refl c)

theorem moves_drainTimeout (k : Nat) (tr : Trim) : c.Moves disableParts (drainTimeout k tr c) :=
  .ite (((c.moves_raise _).mono.then (moves_bump _ _ _)).trans (moves_zeroize _ _ _)) (.refl c)

theorem moves_slotFreed (k : Nat) : c.Moves [.slots] (slotFreed k c) :=
  .ite (.refl c) (.ite (((c.moves_setSlot _ _).then (moves_raise _ _)).then (moves_raise _ _)) ((c.moves_setSlot _ _).then (moves_raise _ _)))

/-! Queue pairs. -/

theorem moves_onPair (f : HostReq) (q : Nat) (g : Core → Pair → Core) (hg : c.Moves [.ports, .ctr] (g c (c.pair f.fn q))) :
    c.Moves [.ports, .ctr] (onPair f q g c) :=
  c.moves_onBar2 _ _ _ (.ite hg (.refl c))

theorem moves_stopPair (f : FnId) (q : Nat) : c.Moves [.ports] (c.stopPair f q) := (c.moves_setPair _ _ _).then (moves_raise _ _)

theorem moves_coalesce (f : FnId) (q : Nat) : c.Moves [.ports] (coalesce f q c) :=
  .ite ((c.moves_setPair _ _ _).trans (moves_fire _ _ _)) (.refl c)

theorem moves_unmask (f : FnId) (v : Nat) : c.Moves [.ports] (unmask f v c) :=
  .ite (.refl c) (.ite ((c.moves_setFn _ _).then (moves_msi (c.setFn _ _) _)) (c.moves_setFn _ _))

/-! Sessions. -/

/-- The parts that an answer of the Keep moves. -/
def replyParts : List Part := [.kout, .keep, .links, .ctr]

theorem moves_relayBack (code error : Nat) (body : List Byte) : c.Moves [.keep, .links, .ctr] (c.relayBack code error body) := by
  unfold relayBack
  split
  · exact .refl c
  · exact .trans (c.moves_keepRest).mono (.foldl _ (fun d _ => (d.moves_sendBy _ _ _).mono) _)

theorem moves_reply (via : Via) (code error : Nat) (body : List Byte) : c.Moves replyParts (c.reply via code error body) :=
  .ite ((c.moves_kout _).mono.then (moves_relayBack _ _ _ _)) (c.moves_kout _).mono

theorem moves_setSession (i : Nat) (x : Session) : c.Moves [.sessions] (c.setSession i x) :=
  c.moves_sessions _ c.keep.nextSession (SMap.rising_insert _ _)

theorem moves_touch (i : Nat) : c.Moves [.sessions] (c.touch i) := by
  unfold touch
  split
  · exact c.moves_setSession _ _
  · exact .refl c

/-- The parts that every session operation moves. -/
def sessParts : List Part := .sessions :: replyParts

theorem moves_sessOp {w : List Part} (op len : Nat) (o : SessOp) (f : Core → Session → Nat → List Byte → Core × Nat × List Byte)
    (hf : ∀ (d : Core) s n b, d.Moves w (f d s n b).1) (hw : sessParts.all w.contains = true := by decide) :
    c.Moves w (sessOp op len o f c) := by
  have hr : ∀ (d : Core) via code error body, d.Moves w (d.reply via code error body) := fun d via code error body =>
    ((d.moves_reply via code error body).mono (w := sessParts)).mono hw
  have ht := (((c.moves_touch o.session).mono (w := sessParts)).mono hw)
  unfold sessOp
  split
  · exact .refl c
  · exact .ite (.refl c) (.ite (hr c _ _ _ _) (.ite (ht.trans (hr _ _ _ _ _)) ((ht.trans (hf _ _ _ _)).trans (hr _ _ _ _ _))))

theorem moves_tenantOp {w : List Part} (op len : Nat) (o : SessOp) (f : Core → Nat → List Byte → Core × Nat × List Byte)
    (hf : ∀ (d : Core) n b, d.Moves w (f d n b).1) (hw : sessParts.all w.contains = true := by decide) :
    c.Moves w (tenantOp op len o f c) :=
  c.moves_sessOp op len o _ (fun d _ _ _ => .ite_fst (hf d _ _) (.refl d)) hw

theorem moves_keyInstall (s : Session) (slot : Nat) (b : List Byte) : c.Moves [.slots] (keyInstall c s slot b).1 :=
  .ite_fst (.refl c) (.ite_fst (.refl c) (.ite_fst (.refl c) (c.moves_setSlot _ _)))

theorem moves_sealSet (slot : Nat) (b : List Byte) : c.Moves [.dir] (sealSet c slot b).1 := by
  unfold sealSet
  split
  · exact .refl c
  · dsimp only
    exact c.moves_updDesc _ _

theorem moves_sealGet (slot : Nat) (b : List Byte) : c.Moves [] (sealGet c slot b).1 := by
  unfold sealGet
  split
  · exact .refl c
  · exact .refl c

theorem moves_allowHash (slot : Nat) (b : List Byte) : c.Moves [.ctxs, .keep] (allowHash c slot b).1 := by
  unfold allowHash
  refine .ite_fst (.refl c) ?_
  split
  · exact .refl c
  · refine .ite_fst (.refl c) (.ite_fst ?_ (c.moves_setCtx _ _).mono)
    split
    · exact c.moves_updCtxD _ _
    · exact .refl c

theorem moves_extract (e : Evr) (slot : Nat) (b : List Byte) : c.Moves [.free] (extract e c slot b).1 :=
  .ite_fst (.refl c) c.moves_fresh

theorem moves_baseKeyInstall (tr : Trim) (s : Session) (slot : Nat) (b : List Byte) :
    c.Moves [.slots] (baseKeyInstall tr c s slot b).1 :=
  .ite_fst (.refl c) (.ite_fst (.refl c) (.ite_fst (.refl c) (c.moves_setSlot _ _)))

/-! Host commands. -/

/-- The parts that the taking and the refusal of a command move. -/
def takeParts : List Part := [.ctr, .ports, .posts]

theorem moves_take (x : HostCmd) : c.Moves takeParts (c.take x).1 :=
  ((c.moves_setPair _ _ _).mono.then (moves_bump _ _ _)).then (moves_bump _ _ _)

theorem moves_dmaFailed (f : FnId) : c.Moves [.ctr] (c.dmaFailed f) := (c.moves_bump _ _).then (moves_raise _ _)

theorem moves_refuseWith (r : Req) (code : Nat) (record : List Byte) : c.Moves takeParts (c.refuseWith r code record) :=
  (c.moves_bump _ _).mono.then (moves_post _ _)

theorem moves_acceptWith (record : Core → Req → List Byte) (x : HostCmd) (k : Form) (admin : Option FnId)
    (slots : Core → List Nat) (owned : Core → Bool) : c.Moves takeParts (acceptWith record x k admin slots owned c).1 := by
  have ht := c.moves_take x
  have hf : ∀ code record, c.Moves takeParts ((c.take x).1.refuseWith (c.take x).2 code record) := fun code record =>
    ht.trans (moves_refuseWith _ _ _ _)
  unfold acceptWith
  refine .ite_left (.refl c) (.ite_left (.refl c) (.ite_left (ht.trans (moves_refuse _ _ _ _)) (.ite_left (hf _ _) (.ite_left (hf _ _)
    (.ite_left (hf _ _) (.ite_left (hf _ _) (.ite_left (hf _ _) (.ite_left ht (.ite_fst ?_ ht)))))))))
  split
  · exact (ht.then (moves_dmaFailed _ _)).trans (moves_post _ _)
  · exact ht.then (moves_bump _ _ _)

theorem moves_checkedWith {w : List Part} (record : Core → Req → List Byte) (x : HostCmd) (k : Form) (admin : Option FnId)
    (slots : Core → List Nat) (owned : Core → Bool) (g : Core → Req → List Byte → Core) (hg : ∀ (d : Core) r b, d.Moves w (g d r b))
    (hw : takeParts.all w.contains = true := by decide) : c.Moves w (checkedWith record x k admin slots owned g c) := by
  have hread := (c.moves_acceptWith record x k admin slots owned).mono hw
  unfold checkedWith
  split
  · next h => exact (Moves.of_eq h hread).trans (hg _ _ _)
  · next h => exact .of_eq h hread

theorem moves_checked {w : List Part} (x : HostCmd) (k : Form) (admin : Option FnId) (slots : Core → List Nat)
    (owned : Core → Bool) (g : Core → Req → List Byte → Core) (hg : ∀ (d : Core) r b, d.Moves w (g d r b))
    (hw : takeParts.all w.contains = true := by decide) : c.Moves w (checked x k admin slots owned g c) :=
  c.moves_checkedWith _ x k admin slots owned g hg hw

theorem moves_ctxRead (x : Nat) (d : Check) : c.Moves [.failN, .ctxs] (c.ctxRead x d) :=
  .ite ((c.moves_domeCheck _ _).mono.then (moves_updCtx _ _ _)) (c.moves_domeCheck _ _).mono

theorem moves_descRead (i : Nat) (d : Check) : c.Moves [.failN, .dir] (c.descRead i d) :=
  .ite ((c.moves_domeCheck _ _).mono.then (moves_updDesc _ _ _)) (c.moves_domeCheck _ _).mono

/-- The parts that every command on a context moves. -/
def ctxParts : List Part := [.failN, .ctxs, .ctr, .ports, .posts]

theorem moves_ctxCmdWith {w : List Part} (record : Core → Req → List Byte) (x : HostCmd) (k : Form)
    (g : Core → Req → Nat → Ctx → List Byte → Core) (hg : ∀ (d : Core) r n v b, d.Moves w (g d r n v b))
    (hw : ctxParts.all w.contains = true := by decide) : c.Moves w (ctxCmdWith record x k g c) := by
  unfold ctxCmdWith
  refine c.moves_checkedWith record x k _ _ _ _ (fun d r b => ?_) ?_
  · have hread := ((d.moves_ctxRead (hCtx x.entry) x.dome).mono (w := ctxParts)).mono hw
    dsimp only
    split
    · exact hread.trans (hg _ _ _ _ _)
    · exact hread
  · exact List.all_eq_true.2 (fun p hp => List.all_eq_true.1 hw p (List.mem_cons_of_mem _ (List.mem_cons_of_mem _ hp)))

theorem moves_ctxCmd {w : List Part} (x : HostCmd) (k : Form)
    (g : Core → Req → Nat → Ctx → List Byte → Core) (hg : ∀ (d : Core) r n v b, d.Moves w (g d r n v b))
    (hw : ctxParts.all w.contains = true := by decide) : c.Moves w (ctxCmd x k g c) := c.moves_ctxCmdWith _ x k g hg hw

/-- The parts that SUBMIT_SEGMENT moves. -/
def submitParts : List Part := .failN :: .ctxs :: .nextSeg :: fetchParts

theorem moves_addSeg (s : Seg) (n : Nat) : c.Moves [.segs, .nextSeg] { c with segs := c.segs ++ [s], nextSeg := n } :=
  ⟨fun p hp => by cases p <;> cases hp <;> rfl, fun h => { h with }, List.prefix_rfl, List.prefix_rfl⟩

theorem moves_queueSeg (tr : Trim) (s : Seg) (park : Nat) : c.Moves submitParts (c.queueSeg tr s park) := by
  have hadd : ∀ s : Seg, c.Moves submitParts ({ c with segs := c.segs ++ [s], nextSeg := c.nextSeg + 1 }.pinAll s.pinned) := fun s =>
    (c.moves_addSeg s _).mono.then (moves_pinAll _ _)
  exact .ite ((c.moves_bump _ _).mono.then (moves_post _ _)) (.ite (c.moves_post _).mono (.ite ((hadd _).then (moves_kick _ _))
    (.ite (hadd _) ((hadd _).then (moves_placeImage _ _ _)))))

theorem moves_submit (tr : Trim) (x : HostCmd) : c.Moves submitParts (submit tr x c) := by
  refine c.moves_ctxCmdWith _ x _ _ (fun d r n v b => ?_)
  dsimp only
  split
  · exact .ite (d.moves_refuseWith _ _ _).mono (d.moves_queueSeg _ _ _)
  · exact (d.moves_refuseWith _ _ _).mono

/-- A change of a context that completes its command. -/
theorem moves_updCtxD_complete (n : Nat) (f : Ctx → Ctx) (r : Req) (a b : Nat) :
    c.Moves (.keep :: ctxParts) ((c.updCtxD n f).complete r a b) := (c.moves_updCtxD _ _).mono.then (moves_complete _ _ _ _)

theorem moves_createCtx (x : HostCmd) : c.Moves (.keep :: ctxParts) (createCtx x c) := by
  refine c.moves_checked x _ _ _ _ _ (fun d r b => ?_)
  have hread := (d.moves_ctxRead (hCtx x.entry) x.dome).mono (w := .keep :: ctxParts)
  exact .ite (hread.then (moves_refuse _ _ _ _)) (.ite (hread.then (moves_refuse _ _ _ _))
    (((hread.then (moves_setCtx _ _ _)).then (moves_note _ _ _ _ _)).then (moves_complete _ _ _ _)))

theorem moves_writeCtx (x : HostCmd) : c.Moves (.dir :: .keep :: ctxParts) (writeCtx x c) := by
  refine c.moves_ctxCmd x _ _ (fun d r n v b => ?_)
  exact .ite (d.moves_refuse _ _ _).mono (.ite (d.moves_refuse _ _ _).mono
    (.then (.ite (d.moves_dropTraining _ _).mono (.refl d)) (moves_updCtxD_complete _ _ _ _ _ _)))

theorem moves_dropUnplaceable (tr : Trim) : c.Moves (.ctxs :: handParts) (c.dropUnplaceable tr) := c.moves_withdraw _ _ _

theorem moves_enableCtx (tr : Trim) (n : Nat) (v : Ctx) : c.Moves (.ctxs :: handParts) (c.enableCtx tr n v) :=
  .then (.then (.then (.then (.then (.ite (c.moves_updDesc _ _).mono (.refl c)) (moves_setCtx _ _ _)) (moves_allocTransient _ _))
    (moves_allocUnits _ _ _)) (moves_dropUnplaceable _ _)) (moves_startProg _ _)

/-- What the Gatehouse shows of its last refusal. -/
theorem moves_gateRefs (code ctx : Nat) (f : FnId) (args : Nat × Nat) : c.Moves [.gateRefs] { c with gate := { c.gate with
    refCode := code, refCtx := ctx, refFn := f, refArgs := args } } :=
  ⟨fun p hp => by cases p <;> cases hp <;> rfl, fun h => { h with }, List.prefix_rfl, List.prefix_rfl⟩

/-- The parts that CONTEXT_ENABLE moves. -/
def enableParts : List Part := .failN :: .ctxs :: .gateRefs :: handParts

theorem moves_ctxEnable (tr : Trim) (x : HostCmd) : c.Moves enableParts (ctxEnable tr x c) := by
  refine .ite (.refl c) (c.moves_ctxCmd x _ _ (fun d r n v b => .ite (d.moves_complete _ _ _).mono ?_))
  split
  · exact (d.moves_enableCtx _ _ _).mono.then (moves_complete _ _ _ _)
  · exact (d.moves_gateRefs _ _ _ d.gate.refArgs).mono.then (moves_refuse _ _ _ _)

end Core
end Sys2Proof.Machine

/-! The commands on adaptations and base slots, the functions of the ports, and what a link receives (Machine/AdaptCmd.lean, Func.lean,
LinkRx.lean). -/

namespace Sys2Proof.Machine

set_option Elab.async false
namespace Core

variable (c : Core)

/-- The parts that every command on an adaptation moves. -/
def adaptParts : List Part := [.failN, .dir, .ctr, .ports, .posts]

theorem moves_adaptCmd {w : List Part} (x : HostCmd) (k : Form) (g : Core → Req → Nat → Desc → Core)
    (hg : ∀ (d : Core) r i v, d.Moves w (g d r i v)) (hw : adaptParts.all w.contains = true := by decide) :
    c.Moves w (adaptCmd x k g c) := by
  unfold adaptCmd
  refine c.moves_checked x k _ _ _ _ (fun d r b => ?_) ?_
  · exact (((d.moves_descRead (hIndex x.entry) x.dome).mono (w := adaptParts)).mono hw).trans (hg _ _ _ _)
  · exact List.all_eq_true.2 (fun p hp => List.all_eq_true.1 hw p (List.mem_cons_of_mem _ (List.mem_cons_of_mem _ hp)))

/-- The parts that the commands on adaptations move. -/
def adaptCmdParts : List Part := .failN :: .chans :: fetchParts

theorem moves_register (tr : Trim) (x : HostCmd) : c.Moves adaptCmdParts (register tr x c) := by
  refine c.moves_checked x _ _ _ _ _ (fun d r b => .ite (d.moves_refuse _ _ _).mono ?_)
  split
  · exact (d.moves_refuse _ _ _).mono
  · have hread := fun i => (d.moves_descRead i x.dome).mono (w := adaptCmdParts)
    exact .ite ((hread _).then (moves_refuse _ _ _ _)) (.ite (((hread _).then (moves_setDesc _ _ _)).then (moves_startFetch _ _ _ _ _ _))
      (((hread _).then (moves_setDesc _ _ _)).then (moves_complete _ _ _ _)))

theorem moves_removeAdapt (x : HostCmd) : c.Moves (.pool :: .runs :: .xfers :: adaptParts) (removeAdapt x c) := by
  refine c.moves_adaptCmd x _ _ (fun d r i v => ?_)
  exact .ite (d.moves_refuse _ _ _).mono ((d.moves_freeDesc _ _).mono.then (moves_complete _ _ _ _))

theorem moves_prefetch (tr : Trim) (x : HostCmd) : c.Moves adaptCmdParts (prefetch tr x c) := by
  unfold prefetch
  refine c.moves_adaptCmd x _ _ (fun d r i v => ?_)
  have hdone := (d.moves_complete r 0 0).mono (w := adaptCmdParts)
  have hrefused := (d.moves_refuse r 0x0A02 0).mono (w := adaptCmdParts)
  split
  · exact .ite hdone (.ite hrefused (d.moves_setDesc _ _).mono)
  · exact .ite hdone (.ite hrefused (d.moves_startFetch _ _ _ _ _).mono)

theorem moves_writeback (tr : Trim) (x : HostCmd) (dr : Dram) : c.Moves (.failN :: evictParts) (writeback tr x c dr) := by
  refine c.moves_adaptCmd x _ _ (fun d r i v => .ite (d.moves_refuse _ _ _).mono (.ite (d.moves_refuse _ _ _).mono ?_))
  have hstart := fun f => ((d.moves_dropCopies i).mono.then (moves_updDesc _ i f)).then
    (moves_startWriteback _ tr dr i (((d.dropCopies i).updDesc i f).defaultBudget)) (w := .failN :: evictParts)
  dsimp only
  split
  · next h => exact .of_eq h (hstart _)
  · next h => exact (Moves.of_eq h (hstart _)).then (moves_writebackFail _ _ _)

theorem moves_readAll (dr : Dram) (k : Nat) (us : List Nat) : c.Moves [.ctr, .chans] (readAll dr k us c).1 := by
  refine .foldl_fst (r := (c, _)) _ (fun r u => ?_) _
  split
  · exact .refl r.1
  · have hread := (r.1.moves_freeTraffic k [u]).mono.trans (moves_readPage (r.1.freeTraffic k [u]) dr k u (List.range 64))
    split
    · next h => exact .of_eq h hread
    · next h => exact .of_eq h hread

theorem moves_rewrite (k : Nat) (ps : List (Nat × List Line)) (dr : Dram) : c.Moves [.ctr] (rewrite k ps c dr).1 := by
  refine .foldl_fst (r := (c, _)) _ (fun r p => ?_) _
  split
  · exact .refl r.1
  · split
    · exact .refl r.1
    · dsimp only
      exact ((r.1.moves_countLines _ _ _).trans (moves_countTag _ _ _ _)).trans (moves_freeTraffic _ _ _)

theorem moves_rewrapInto (dr : Dram) (r : Req) (i k : Nat) (ps : List (Nat × List Line)) :
    c.Moves [.ctr, .runs, .dir, .ports, .posts] (c.rewrapInto dr r i k ps).1 := by
  unfold rewrapInto
  refine .then (.then (.trans ?_ (moves_rewrite _ _ _ _).mono) (moves_updDesc _ _ _)) (moves_complete _ _ _ _)
  split
  · exact (c.moves_setRun _ _).mono
  · exact .refl c

/-- The parts that ADAPT_REWRAP moves. -/
def rewrapParts : List Part := .pool :: .runs :: .chans :: adaptParts

theorem moves_rewrap (x : HostCmd) (dr : Dram) : c.Moves rewrapParts (rewrap x c dr).1 := by
  unfold rewrap
  extract_lets i k
  have htake := (c.moves_acceptWith (fun _ _ => []) x ⟨0x25, 0, false, false, fun n => n = 0, argBits 0x20 4, true⟩ none
    (fun c => c.descSlots i ++ [k]) (fun c => c.ownsDesc x.f i)).mono (w := rewrapParts)
  split
  · next h => exact .of_eq h htake
  · next h =>
    extract_lets c1
    have hread : c.Moves rewrapParts c1 := (Moves.of_eq h htake).then (moves_descRead _ _ _)
    clear_value c1
    split
    · have hall := (hread.then (moves_dropCopies _ i)).then (moves_readAll (c1.dropCopies i) dr i ((c1.desc i).statePages (c1.groupsOf i) true))
      split
      · next h => exact (Moves.of_eq h hall).then (moves_complete _ _ _ _)
      · next h => exact (Moves.of_eq h hall).then (moves_rewrapInto _ _ _ _ _ _)
    · exact hread.then (moves_refuse _ _ _ _)

/-! Base slots. -/

theorem moves_noteTag (b : Nat) : c.Moves [.keep] (c.noteTag b) := .foldl _ (fun d _ => .ite (d.moves_note _ _ _ _) (.refl d)) _

/-- The parts that the end of a base load moves. -/
def baseParts : List Part := [.bases, .runs, .xfers, .keep, .ctr, .ports, .posts]

theorem moves_baseFail (b code : Nat) : c.Moves baseParts (c.baseFail b code) := by
  unfold baseFail
  extract_lets x c1 c2
  have hfreed : c.Moves baseParts c2 :=
    (((c.moves_setBase b .empty).mono.then (moves_dropRun _ _)).then (moves_xfers c1 _)).then (moves_noteTag _ _)
  clear_value c2
  split
  · exact hfreed.then (moves_complete _ _ _ _)
  · exact hfreed

theorem moves_placeBase {b n : Nat} {d : Core} (h : c.placeBase b n = some d) : c.Moves [.runs] d := by
  obtain ⟨a, _, rfl⟩ := Option.map_eq_some_iff.1 h
  exact c.moves_setRun _ _

theorem moves_placeBase_getD (b n : Nat) : c.Moves [.runs] ((c.placeBase b n).getD c) := by
  cases h : c.placeBase b n with
  | none => exact .refl c
  | some d => exact c.moves_placeBase h

/-- The parts that BASE_LOAD moves. -/
def loadParts : List Part := .bases :: .keep :: evictParts

/-- The requests of a base read over a link, and the failure of the first that fails at once. -/
theorem moves_baseReads (tr : Trim) (b label : Nat) (req : Nat × Nat → ReqF) (ps : List (Nat × Nat)) {d : Core} (hd : c.Moves loadParts d) :
    c.Moves loadParts (
      let y := ps.foldl (fun (y : Core × Nat) (p : Nat × Nat) => if y.2 ≠ 0 then y else y.1.originate tr label (req p) (.base b)) (d, 0)
      if y.2 ≠ 0 then y.1.baseFail b y.2 else y.1) := by
  have hsent := Moves.foldl_fst (w := loadParts) (r := (d, 0)) (fun (y : Core × Nat) (p : Nat × Nat) =>
    if y.2 ≠ 0 then y else y.1.originate tr label (req p) (.base b)) (fun y p => .ite_fst (.refl y.1) (y.1.moves_originate _ _ _ _).mono) ps
  exact .ite ((hd.trans hsent).then (moves_baseFail _ _ _)) (hd.trans hsent)

theorem moves_loadBase (tr : Trim) (x : HostCmd) (dr : Dram) : c.Moves loadParts (loadBase tr x c dr) := by
  unfold loadBase
  refine c.moves_checked x _ _ _ _ _ (fun d r b => ?_)
  have hrefused := fun code => (d.moves_refuse r code 0).mono (w := loadParts)
  refine .ite (hrefused _) (.ite (hrefused _) (.ite (hrefused _) (.ite (hrefused _) (.ite (hrefused _) ?_))))
  have hplaced := fun n b x m => (((d.moves_evictFor tr dr n).mono.then (moves_setBase _ b x)).then (moves_noteTag _ b)).then
    (moves_placeBase_getD _ b m) (w := loadParts)
  exact .ite (hplaced _ _ _ _) (moves_baseReads d tr _ _ _ _ (hplaced _ _ _ _))

theorem moves_landBase (b : Nat) (src : List Byte) (dr : Dram) : c.Moves [.ctr, .chans, .dir] (landBase b src c dr).1 := by
  unfold landBase
  refine .ite_left (c.moves_pageTraffic _ _ _).mono (.foldl_fst (r := (_, _)) _ (fun r u => ?_) _ |> Moves.trans ?_)
  · split
    · exact (c.moves_bump _ _).mono
    · exact .refl c
  · exact (r.1.moves_writePage _ _ _ _).then (moves_freeTraffic _ _ _)

theorem moves_measureBase (b : Nat) (dr : Dram) : c.Moves (.chans :: baseParts) (measureBase b c dr) := by
  have hread := (c.moves_readAll dr (16640 + b) (List.range (ceilDiv (c.base b).bytes 4096))).mono (w := .chans :: baseParts)
  unfold measureBase
  dsimp only
  split
  · next h => exact (Moves.of_eq h hread).then (moves_baseFail _ _ _)
  · next d ps h =>
    have hdone := fun x f n => (((Moves.of_eq h hread).then (moves_setBase d b x)).then
      (moves_xfers (d.setBase b x) (d.xfers.filter f))).then (moves_note _ 5 0xFFFF b n)
    split
    · exact (hdone _ _ _).then (moves_complete _ _ _ _)
    · exact hdone _ _ _

/-- The parts that the end of a base load moves, or its failure. -/
def baseDoneParts : List Part := .chans :: .dir :: baseParts

theorem moves_baseDone (b : Nat) (src : Option (List Byte)) (dr : Dram) : c.Moves baseDoneParts (baseDone b src c dr).1 := by
  have hland : ∀ d : Core, c.Moves [.runs] d → c.Moves baseDoneParts (measureBase b (landBase b (src.getD []) d dr).1 (landBase b (src.getD []) d dr).2) :=
    fun d h => (h.mono.then (moves_landBase _ _ _ _)).then (moves_measureBase _ _ _)
  have hplace : ∀ d, (if (c.runEnt (16640 + b)).isSome then some c else c.placeBase b (c.base b).bytes) = some d → c.Moves [.runs] d := by
    intro d h
    split at h
    · cases h
      exact .refl c
    · exact c.moves_placeBase h
  unfold baseDone
  refine .ite_left (.refl c) (.ite_left (.refl c) (.ite_left ?_ ?_))
  · split
    · exact (c.moves_dmaFailed _).mono.then (moves_baseFail _ _ _)
    · exact (c.moves_baseFail _ _).mono
  · dsimp only
    split
    · exact .ite_left (.refl c) (c.moves_baseFail _ _).mono
    · next h => exact hland _ (hplace _ h)

theorem moves_freeBaseSlot (tr : Trim) (x : HostCmd) : c.Moves [.slots, .bases, .runs, .keep, .ctr, .ports, .posts] (freeBaseSlot tr x c) := by
  refine c.moves_checked x _ _ _ _ _ (fun d r b => .ite (d.moves_refuse _ _ _).mono (.ite (d.moves_refuse _ _ _).mono ?_))
  exact ((((((d.moves_dropRun _).mono.then (moves_setBase _ _ _)).then (moves_retire _ _)).then (moves_noteTag _ _)).then
    (moves_note _ _ _ _ _)).then (moves_complete _ _ _ _))

/-! Functions. -/

theorem moves_dropFn (tr : Trim) (f : FnId) : c.Moves (.ctxs :: fetchParts) (c.dropFn tr f) :=
  ((c.moves_setFn _ _).mono.then (moves_withdraw _ _ _ _)).then (moves_wake _ _)

theorem moves_flr (tr : Trim) (f : FnId) : c.Moves (.ctxs :: fetchParts) (c.flr tr f) := (c.moves_dropFn _ _).then (moves_setFn _ _ _)

theorem moves_flrDone (f : FnId) : c.Moves [.ports, .ctr, .keep] (flrDone f c) :=
  .ite (.refl c) ((((c.moves_setFn _ _).mono.then (moves_bump _ _ _)).then (moves_raise _ _)).then (moves_noteReset _ _ _))

theorem moves_tdiError (tr : Trim) (f : FnId) : c.Moves (.ctxs :: fetchParts) (c.tdiError tr f) :=
  .ite (.refl c) (((c.moves_dropFn _ _).then (moves_setFn _ _ _)).then (moves_raise _ _))

/-- The parts that an answer over a function's DOE moves. -/
def doeParts : List Part := .ports :: replyParts

theorem moves_tdisp (f : FnId) (code : Nat) (g : HostFn → HostFn × Nat × List Byte) : c.Moves doeParts (tdisp f code g c) :=
  .ite (.refl c) (.ite (c.moves_reply _ _ _ _).mono ((c.moves_setFn _ _).mono.then (moves_reply _ _ _ _ _)))

theorem moves_unbind (port : Nat) (p : HostFn → Bool) : c.Moves [.ports] (c.unbind port p) :=
  .foldl _ (fun d _ => d.moves_setFn _ _) _

theorem moves_ideKm (f : FnId) (stream bound : Nat) (link : Bool) : c.Moves doeParts (ideKm f stream bound link c) :=
  .ite (.refl c) (.ite (c.moves_reply _ _ _ _).mono (.ite (c.moves_reply _ _ _ _).mono (.then (.ite (c.moves_setPort _ _ (by exact id)).mono
    (((c.moves_setPort _ _ (by exact id)).mono.then (moves_unbind _ _ _)).then (moves_setFn _ _ _))) (moves_reply _ _ _ _ _))))

theorem moves_ideFailure (port : Nat) (s : IdeStream) (tr : Trim) : c.Moves (.ctxs :: fetchParts) (ideFailure port s tr c) := by
  cases s with
  | link i => exact .ite ((c.moves_setPort _ _ (by exact id)).mono.then (moves_raise _ _)) (.refl c)
  | selective stream =>
    exact .ite (.refl c) (.trans ((c.moves_setPort _ _ (by exact id)).mono.then (moves_raise _ _)) (.foldl _ (fun d f => d.moves_tdiError tr f) _))

theorem moves_pcieTrained (port rate width : Nat) : c.Moves [.ports] (pcieTrained port rate width c) :=
  .ite (.refl c) (.ite ((c.moves_setPort _ _ (by exact id)).then (moves_raise _ _)) (c.moves_setPort _ _ (by exact id)))

theorem moves_vfRefuse (f : FnId) (code : Nat) : c.Moves [.regs] (c.vfRefuse f code) := c.moves_setReg _ _

theorem moves_vfEnable (port : Nat) : c.Moves [.regs, .ports] (vfEnable port c) :=
  .ite (.refl c) (.ite (c.moves_vfRefuse _ _).mono (.ite (c.moves_vfRefuse _ _).mono (c.moves_setFn _ _).mono))

theorem moves_vfDisable (tr : Trim) (f : FnId) : c.Moves disableParts (c.vfDisable tr f) :=
  .ite (.refl c) (.trans (.trans ((c.moves_setFn _ _).mono.then (moves_tdiError _ _ _)) (.foldl _ (fun d k => (d.moves_retire k).mono) _))
    (.foldl _ (fun d x => d.moves_disableCtx tr x) _))

theorem moves_vfChange (port n : Nat) (tr : Trim) : c.Moves disableParts (vfChange port n tr c) :=
  .ite (.refl c) (.trans (c.moves_setPort _ _ (by exact id)).mono (.foldl _ (fun d _ => .ite (d.moves_vfDisable _ _) (.refl d)) _))

theorem moves_perst (port : Nat) (tr : Trim) : c.Moves disableParts (perst port tr c) :=
  .ite (.refl c) ((((c.moves_vfChange _ _ _).then (moves_flr _ _ _)).then (moves_setPort _ _ _ (by exact id))).then (moves_unbind _ _ _))

/-! What a link receives. -/

theorem moves_dropSource (x : Xfer) : c.Moves [.dir] (c.dropSource x) := by
  unfold dropSource
  split
  · exact c.moves_updDesc _ _
  · exact .refl c

/-- The parts that the failure of a transfer moves. -/
def failParts : List Part := .towers :: .bases :: .keep :: fetchParts

theorem moves_failXfer (tr : Trim) (x : Xfer) (code : Nat) : c.Moves failParts (c.failXfer tr x code) := by
  have hend : c.Moves failParts (match x.back with
      | some l => ((c.dropSource x).dropXfer x).endBack l x.transfer code 0 0xFFFF
      | none => (c.dropSource x).dropXfer x) := by
    have hdrop := (c.moves_dropSource x).mono.then (moves_dropXfer _ x) (w := failParts)
    split
    · exact hdrop.then (moves_endBack _ _ _ _ _ _)
    · exact hdrop
  unfold failXfer
  cases x.role with
  | fetch i => exact (c.moves_dropXfer _).mono.then (moves_fetchFail _ _ _ _)
  | writeback i f => exact (c.moves_dropXfer _).mono.then (moves_writebackFail _ _ _)
  | tower t q e k i => exact (c.moves_setTower _ _).mono.then (moves_setXfer _ _ _)
  | base b => exact (c.moves_baseFail _ _).mono
  | relay => exact hend
  | source a b f n => exact hend

theorem moves_linkFall (tr : Trim) (k : Nat) (st : LinkSt) : c.Moves (.locks :: failParts) (c.linkFall tr k st) := by
  unfold linkFall
  extract_lets l fs fresh c1 c2 c3 ts
  have hreset : c.Moves (.locks :: failParts) c3 :=
    ((c.moves_setLink k _).mono.then (moves_locks c1 _)).then (moves_noteReset _ _ _)
  clear_value c3
  split
  · exact hreset.trans (.foldl _ (fun d x => (d.moves_failXfer tr x _).mono) _)
  · refine hreset.trans (.foldl _ (fun d x => ?_) _)
    split
    · exact (d.moves_send _ _ _).mono
    · exact .refl d

theorem moves_linkDown (tr : Trim) (k : Nat) : c.Moves (.locks :: failParts) (c.linkDown tr k) :=
  .ite (.refl c) ((c.moves_raise _).mono.trans (moves_linkFall _ _ _ _))

theorem moves_nakNow (k : Nat) : c.Moves [.links, .ctr] (c.nakNow k) := (c.moves_setLink _ _).mono.trans (moves_send _ _ _ _)

theorem moves_nakOnce (k : Nat) : c.Moves [.links, .ctr] (c.nakOnce k) := .ite (.refl c) (c.moves_nakNow _)

theorem moves_ackNow (k : Nat) : c.Moves [.links, .ctr] (c.ackNow k) := c.moves_send _ _ _

theorem moves_rxIn (k type : Nat) (fr : Frame) : c.Moves [.links, .ctr] (rxIn k type fr c).1 := by
  unfold rxIn
  exact .ite_left (.refl c) (.ite_left (((c.moves_setLink _ _).mono.then (moves_bump _ _ _)).then (moves_nakNow _ _))
    (.ite_pair ((c.moves_setLink _ _).mono.then (moves_nakOnce _ _)) ((c.moves_setLink _ _).mono.then (moves_bump _ _ _))))

theorem moves_rxOut (k : Nat) : c.Moves [.links, .ctr] (rxOut k c) := by
  unfold rxOut
  exact .ite ((c.moves_pump _ _).trans (moves_ackNow _ _)) (c.moves_pump _ _)

theorem moves_rx {w : List Part} (k type : Nat) (fr : Frame) (g : Core → Core) (hg : ∀ d : Core, d.Moves w (g d))
    (hw : [.links, .ctr].all w.contains = true := by decide) : c.Moves w (rx k type fr g c) := by
  have hin := (c.moves_rxIn k type fr).mono hw
  exact .ite ((hin.trans (hg _)).trans ((moves_rxOut _ _).mono hw)) hin

theorem moves_rxM {w : List Part} (k type : Nat) (fr : Frame) (g : Core → Dram → Core × Dram) (dr : Dram)
    (hg : ∀ d : Core, d.Moves w (g d dr).1) (hw : [.links, .ctr].all w.contains = true := by decide) :
    c.Moves w (rxM k type fr g c dr).1 := by
  have hin := (c.moves_rxIn k type fr).mono hw
  exact .ite_pair ((hin.trans (hg _)).trans ((moves_rxOut _ _).mono hw)) hin

theorem moves_takeNak (tr : Trim) (k seq : Nat) : c.Moves (.locks :: failParts) (c.takeNak tr k seq) :=
  .ite (c.moves_linkDown _ _) (.ite (.refl c) (((c.moves_setLink _ _).mono.then (moves_bump _ _ _)).then (moves_bump _ _ _)))

theorem moves_unroutable (k : Nat) (fr : Frame) : c.Moves [.links, .ctr] (c.unroutable k fr) :=
  .ite (((c.moves_raise _).mono.then (moves_bump _ _ _)).then (moves_endBack _ _ _ _ _ _)) ((c.moves_raise _).mono.then (moves_bump _ _ _))

theorem moves_routed {w : List Part} (k : Nat) (fr : Frame) (fwd here : Core → Frame → Core) (hf : ∀ fr, c.Moves w (fwd c fr))
    (hh : ∀ fr, c.Moves w (here c fr)) (hw : [.links, .ctr].all w.contains = true := by decide) :
    c.Moves w (routed k fr fwd here c) := by
  unfold routed
  dsimp only
  split
  · exact .ite ((c.moves_unroutable _ _).mono hw) (hf _)
  · exact hh _
  · exact (c.moves_unroutable _ _).mono hw

theorem moves_passOn (fr : Frame) : c.Moves [.links, .ctr] (c.passOn fr) := c.moves_sendBy _ _ _

theorem moves_forwardReq (k : Nat) (fr : Frame) : c.Moves [.links, .ctr, .xfers] (forwardReq k c fr) := by
  unfold forwardReq
  dsimp only
  split
  · exact (c.moves_unroutable _ _).mono
  · exact .ite (c.moves_endBack _ _ _ _ _).mono (.ite (c.moves_endBack _ _ _ _ _).mono ((c.moves_xfers _).mono.then (moves_passOn _ _)))

theorem moves_sendObject (label t slot : Nat) (fs : List (List Byte)) : c.Moves [.links, .ctr] (c.sendObject label t slot fs) :=
  .trans (.foldl _ (fun d _ => d.moves_sendBy _ _ _) _) (moves_endBack _ _ _ _ _ _)

/-- The parts that a request moves at its source. -/
def serveParts : List Part := [.links, .ctr, .chans, .dir, .xfers]

theorem moves_serve (k : Nat) (dr : Dram) (fr : Frame) : c.Moves serveParts (serve k dr c fr) := by
  unfold serve
  extract_lets p r d slot x o
  split
  · split
    · exact (c.moves_updDesc _ _).mono.then (moves_xfers (c.updDesc _ _) _)
    · have hread := (c.moves_readLines dr r.desc r.rows).mono (w := serveParts)
      split
      · next h => exact (Moves.of_eq h hread).then (moves_endBack _ _ _ _ _ _)
      · next h => exact (Moves.of_eq h hread).then (moves_sendObject _ _ _ _ _)
    · have hread := (c.moves_readStored dr o.1 o.2).mono (w := serveParts)
      split
      · next h => exact (Moves.of_eq h hread).then (moves_sendObject _ _ _ _ _)
      · next h => exact (Moves.of_eq h hread).then (moves_endBack _ _ _ _ _ _)
  · exact (c.moves_endBack _ _ _ _ _).mono

/-- The parts that the data of a transfer moves. -/
def dataParts : List Part := .chans :: .free :: .keep :: fetchParts

/-- The parts that the end of a transfer moves. -/
def xferParts : List Part := .towers :: .bases :: dataParts

theorem moves_landWrite (tr : Trim) (dr : Dram) (x : Xfer) (d first count : Nat) :
    c.Moves dataParts (landWrite tr c dr x d first count).1 := by
  unfold landWrite
  extract_lets us ps dr1 c1 v c2
  have hland : c.Moves dataParts c2 := (((((c.moves_pageTraffic d 1 us).mono.then (moves_dropCopies _ _)).then
    (moves_dropSource _ _)).then (moves_updDesc _ _ _)).then (moves_dropXfer _ _))
  clear_value c2
  refine .then ?_ (moves_wake _ _)
  split
  · exact hland.then (moves_endBack _ _ _ _ _ _)
  · exact hland

theorem moves_endOk (tr : Trim) (dr : Dram) (x : Xfer) : c.Moves dataParts (endOk tr c dr x) := by
  unfold endOk
  split
  · next i first _ =>
    extract_lets c1
    have hdrop : c.Moves dataParts c1 := (c.moves_dropXfer x).mono
    clear_value c1
    split
    · next p _ =>
      have hsent := hdrop.then (moves_sendChunk c1 tr dr i c1.defaultBudget p)
      split
      · next h => exact .of_eq h hsent
      · next h => exact (Moves.of_eq h hsent).then (moves_writebackFail _ _ _)
    · exact (hdrop.then (moves_writebackDone _ _ _)).then (moves_wake _ _)
  all_goals exact (c.moves_xfers _).mono

theorem moves_maybeEnd (tr : Trim) (dr : Dram) (x : Xfer) : c.Moves dataParts (maybeEnd tr c dr x) := by
  unfold maybeEnd
  split
  · exact .ite (c.moves_endOk _ _ _) (.refl c)
  · exact .refl c

theorem moves_onXfer {w : List Part} (k : Nat) (g : Core → Xfer → Core) (fr : Frame) (hg : ∀ x, c.Moves w (g c x))
    (hw : [.ctr].all w.contains = true := by decide) : c.Moves w (onXfer k g c fr) := by
  unfold onXfer
  split
  · exact (c.moves_bump _ _).mono hw
  · exact .ite ((c.moves_bump _ _).mono hw) (hg _)

theorem moves_placeFrame (tr : Trim) (dr : Dram) (fr : Frame) (x : Xfer) : c.Moves dataParts (placeFrame tr dr fr c x) :=
  (c.moves_setXfer _ _).mono.trans (moves_maybeEnd _ _ _ _)

theorem moves_placeEnd (tr : Trim) (dr : Dram) (fr : Frame) (x : Xfer) : c.Moves xferParts (placeEnd tr dr fr c x) :=
  .ite (.refl c) (.ite ((c.moves_failXfer _ _ _).mono.then (moves_wake _ _)) ((c.moves_setXfer _ _).mono.then (moves_maybeEnd _ _ _ _)))

end Core
end Sys2Proof.Machine

/-! The commands of the links, the responder and the firmware images (Machine/LinkCmd.lean, SpdmCmd.lean, Firmware.lean). -/

namespace Sys2Proof.Machine

set_option Elab.async false
namespace Core

variable (c : Core)

/-- The parts that a link's fall moves. -/
def linkParts : List Part := .locks :: failParts

theorem moves_linkEnable (k : Nat) : c.Moves [.links] (linkEnable k c) :=
  .ite (.refl c) (.ite (c.moves_setLink _ _) (.ite (c.moves_setLink _ _) (c.moves_setLink _ _)))

theorem moves_linkDisable (k : Nat) (tr : Trim) : c.Moves linkParts (linkDisable k tr c) := by
  unfold linkDisable
  refine .ite (.refl c) ?_
  dsimp only
  split
  · exact (c.moves_setLink _ _).mono.then (moves_linkDown _ _ _)
  · exact (c.moves_setLink _ _).mono
  · exact (c.moves_setLink _ _).mono.then (moves_linkFall _ _ _ _)

theorem moves_linkTrained (k lanes : Nat) : c.Moves [.links] (linkTrained k lanes c) :=
  .ite (.refl c) (.ite (c.moves_setLink _ _) (c.moves_setLink _ _))

theorem moves_linkFailed (k step : Nat) : c.Moves [.links] (c.linkFailed k step) := (c.moves_setLink _ _).then (moves_raise _ _)

theorem moves_linkKeyed (k partner plink : Nat) (chainOk : Bool) (tr : Trim) :
    c.Moves [.links, .free] (linkKeyed k partner plink chainOk tr c) :=
  .ite (.refl c) (.ite (c.moves_linkFailed _ _).mono (.ite (c.moves_linkFailed _ _).mono
    (((c.moves_fresh).mono.then (moves_setLink _ _ _)).then (moves_raise _ _))))

theorem moves_bringupLate (k : Nat) : c.Moves [.links] (bringupLate k c) :=
  .ite (c.moves_linkFailed _ _) (.ite (c.moves_linkFailed _ _) (.refl c))

theorem moves_linkCtl (k : Nat) (fr : Frame) (tr : Trim) : c.Moves linkParts (linkCtl k fr tr c) :=
  c.moves_rx k 0x01 fr _ (fun d => .ite ((d.moves_takeNak _ _ _).then (moves_wake _ _)) (.refl d))

theorem moves_ackTimer (k : Nat) : c.Moves [.links, .ctr] (ackTimer k c) := .ite (c.moves_ackNow _) (.refl c)

theorem moves_fetchData (k : Nat) (fr : Frame) (tr : Trim) (dr : Dram) : c.Moves dataParts (fetchData k fr tr dr c) :=
  c.moves_rx k 0x03 fr _ (fun d => d.moves_routed k fr _ _ (fun fr => d.moves_onXfer k _ fr (fun _ => (d.moves_passOn _).mono))
    (fun fr => d.moves_onXfer k _ fr (fun _ => d.moves_placeFrame _ _ _ _)))

theorem moves_fetchEnd (k : Nat) (fr : Frame) (tr : Trim) (dr : Dram) : c.Moves xferParts (fetchEnd k fr tr dr c) :=
  c.moves_rx k 0x04 fr _ (fun d => d.moves_routed k fr _ _
    (fun fr => d.moves_onXfer k _ fr (fun _ => (d.moves_passOn _).mono.then (moves_dropXfer _ _)))
    (fun fr => d.moves_onXfer k _ fr (fun _ => d.moves_placeEnd _ _ _ _)))

theorem moves_takeWrite (k : Nat) (fr : Frame) (tr : Trim) (dr : Dram) : c.Moves dataParts (takeWrite k fr tr c dr).1 := by
  unfold takeWrite
  split
  · exact (c.moves_bump _ _).mono
  · refine .ite_left (c.moves_bump _ _).mono ?_
    dsimp only
    split
    · exact .ite_fst ((c.moves_setXfer _ _).mono.then (moves_landWrite _ _ _ _ _ _ _)) (c.moves_setXfer _ _).mono
    · exact .refl c

theorem moves_writeData (k : Nat) (fr : Frame) (tr : Trim) (dr : Dram) : c.Moves dataParts (writeData k fr tr c dr).1 := by
  refine c.moves_rxM k 0x05 fr _ dr (fun d => ?_)
  split
  · exact d.moves_takeWrite _ _ _ _
  · dsimp only
    exact d.moves_routed k fr _ _ (fun fr => d.moves_onXfer k _ fr (fun _ => (d.moves_passOn _).mono)) (fun _ => .refl d)

theorem moves_deadline (tr : Trim) : c.Moves failParts (deadline tr c) := by
  unfold deadline
  dsimp only
  split
  · exact (c.moves_failXfer _ _ _).then (moves_wake _ _)
  · split
    · exact (c.moves_dropSource _).mono.then (moves_dropXfer _ _)
    · exact .refl c

theorem moves_retireMarker (k : Nat) (fr : Frame) : c.Moves [.links, .ctr, .dir, .xfers] (retireMarker k fr c) := by
  unfold retireMarker
  refine .then (.trans (.then (.trans (.foldl _ (fun d j => ?_) _) (.foldl _ (fun d x => ?_) _)) (moves_raise _ _))
    (.foldl _ (fun d _ => (d.moves_sendBy _ _ _).mono) _)) (moves_send _ _ _ _)
  · exact .ite (.refl d) ((d.moves_setLink _ _).mono.then (moves_bump _ _ _))
  · exact (d.moves_dropSource _).mono.then (moves_setXfer _ _ _)

theorem moves_retireAck (k : Nat) (fr : Frame) (tr : Trim) : c.Moves [.links, .ctr] (retireAck k fr tr c) :=
  c.moves_rx k 0x0E fr _ (fun d => .ite (d.moves_setLink _ _).mono (.refl d))

theorem moves_newEpoch (k : Nat) : c.Moves [.links, .free, .ctr] (c.newEpoch k) :=
  .ite (.refl c) (((c.moves_fresh).mono.then (moves_setLink _ _ _)).then (moves_bump _ _ _))

theorem moves_rekey (k : Nat) : c.Moves [.links, .free, .ctr] (rekey k c) := by
  have hraised : c.Moves [.links, .free, .ctr] (if (c.link k).rekeyWait then c else c.raise (sysEvent 0x0706 0 0 0 k)) :=
    .ite (.refl c) (c.moves_raise _).mono
  exact .ite (.refl c) (.ite (hraised.then (moves_setLink _ _ _)) (hraised.then (moves_newEpoch _ _)))

theorem moves_delayMeasure (k : Nat) : c.Moves [.links, .ctr] (delayMeasure k c) :=
  .ite (.refl c) ((c.moves_setLink _ _).mono.trans (moves_send _ _ _ _))

theorem moves_sample (k d : Nat) : c.Moves [.links] (sample k d c) :=
  .ite ((c.moves_setLink _ _).then (moves_raise _ _)) (c.moves_setLink _ _)

theorem moves_delayResp (k : Nat) (fr : Frame) : c.Moves [.links, .ctr] (delayResp k fr c) :=
  c.moves_rx k 0x0A fr _ (fun d => .ite (.refl d) (d.moves_sample _ _).mono)

theorem moves_cadenceTref (x : Nat × Nat × Nat) (r : Tref) : c.Moves [.cadence, .tref] { c with cadence := x, tref := r } :=
  ⟨fun p hp => by cases p <;> cases hp <;> rfl, fun h => { h with }, List.prefix_rfl, List.prefix_rfl⟩

theorem moves_cadenceIn (k : Nat) (fr : Frame) : c.Moves (.links :: .ctr :: .cadence :: pulseParts) (cadenceIn k fr c) := by
  refine c.moves_rx k 0x08 fr _ (fun d => ?_)
  exact .ite (.refl d) ((d.moves_cadenceTref _ _).mono.then (moves_pulse _ _ _))

theorem moves_cadenceSend (k edge : Nat) : c.Moves [.links, .ctr] (cadenceSend k edge c) :=
  .ite (.refl c) (.ite (c.moves_emit _ _) (c.moves_setLink _ _).mono)

theorem moves_attestIn (fr : Frame) : c.Moves [.keep] (c.attestIn fr) := .ite (.refl c) (.ite c.moves_keepRest c.moves_keepRest)

/-! The responder. -/

/-- The firmware kinds and what is under way with them. -/
theorem moves_fws (xs : List FwKind) (st kind : Nat) (new : Option FwImage) (h : xs.length = c.keep.fws.length) :
    c.Moves [.fws] { c with keep := { c.keep with fws := xs, fwState := st, fwKind := kind, fwNew := new } } :=
  ⟨fun p hp => by cases p <;> cases hp <;> rfl, fun hc => { hc with fws := h.trans hc.fws }, List.prefix_rfl, List.prefix_rfl⟩

theorem moves_setFw (k : Nat) (x : FwKind) : c.Moves [.fws] (c.setFw k x) := c.moves_fws _ _ _ _ List.length_set

theorem moves_sign (slot : Nat) (bs : List Byte) : c.Moves [.free] (c.sign slot bs).1 := c.moves_fresh

theorem moves_request_ {w : List Part} (via : Via) (code : Nat) (f : Core → Core × Nat × List Byte)
    (hf : ∀ d : Core, d.Moves w (f d).1) (hw : replyParts.all w.contains = true := by decide) :
    c.Moves w (request_ via code f c) := by
  have hr : ∀ (d : Core) error body, d.Moves w (d.reply via code error body) := fun d error body =>
    (d.moves_reply via code error body).mono hw
  exact .ite (.refl c) (.ite (hr _ _ _) (.ite (hr _ _ _) ((hf c).trans (hr _ _ _))))

theorem moves_dropSession (i : Nat) : c.Moves [.sessions] (c.dropSession i) :=
  c.moves_sessions _ c.keep.nextSession (SMap.rising_erase _)

theorem moves_inSession {w : List Part} (via : Via) (code i : Nat) (f : Core → Session → Core × Nat × List Byte)
    (hf : ∀ (d : Core) x, d.Moves w (f d x).1) (hw : sessParts.all w.contains = true := by decide) :
    c.Moves w (inSession via code i f c) := by
  refine c.moves_request_ via code _ (fun d => ?_) (List.all_eq_true.2 (fun p hp => List.all_eq_true.1 hw p (List.mem_cons_of_mem _ hp)))
  split
  · exact .ite_fst ((((d.moves_touch i).mono (w := sessParts)).mono hw).trans (hf _ _)) (.refl d)
  · exact .refl d

theorem moves_operatorReq {w : List Part} (tr : Trim) (via : Via) (code i : Nat) (f : Core → Core × Nat × List Byte)
    (hf : ∀ d : Core, d.Moves w (f d).1) (hw : sessParts.all w.contains = true := by decide) :
    c.Moves w (operatorReq tr via code i f c) := by
  refine c.moves_request_ via code _ (fun d => ?_) (List.all_eq_true.2 (fun p hp => List.all_eq_true.1 hw p (List.mem_cons_of_mem _ hp)))
  split
  · exact .ite_fst ((((d.moves_touch i).mono (w := sessParts)).mono hw).trans (hf _)) (.refl d)
  · exact .refl d

/-! Firmware images. -/

theorem moves_fwAct {w : List Part} (f : FnId) (g : Nat → Core → Core) (tr : Trim) (hg : ∀ k, c.Moves w (g k c)) :
    c.Moves w (fwAct f g tr c) := .ite (hg _) (.refl c)

/-- The parts that the commands on firmware images move. -/
def fwParts : List Part := [.fws, .keep, .ctr]

theorem moves_stage (img : Option (List Byte)) (tr : Trim) (k : Nat) : c.Moves fwParts (stage img tr k c) := by
  unfold stage
  refine .ite (c.moves_keepRefuse _ _).mono ?_
  split
  · exact (c.moves_dmaFailed _).mono.then (moves_keepRefuse _ _ _)
  · dsimp only
    split
    · exact ((c.moves_bump _ _).mono.then (moves_setFw _ _ _)).then (moves_fws (setFw _ _ _) _ _ _ _ rfl)
    · exact (c.moves_bump _ _).mono.then (moves_keepRefuse _ _ _)

theorem moves_fwIdle : c.Moves [.fws] c.fwIdle := c.moves_fws _ _ _ _ rfl

theorem moves_stagingDone (ok : Bool) : c.Moves [.fws, .keep] (stagingDone ok c) :=
  .ite (.refl c) (.ite ((c.moves_fwIdle).mono.then (moves_keepRefuse _ _ _))
    ((((c.moves_setFw _ _).mono.then (moves_fwIdle _)).then (moves_raise _ _)).then (moves_note _ _ _ _ _)))

theorem moves_discard (k : Nat) : c.Moves [.fws, .keep] (discard k c) :=
  .ite (c.moves_keepRefuse _ _).mono (.ite (c.moves_keepRefuse _ _).mono ((c.moves_setFw _ _).mono.then (moves_note _ _ _ _ _)))

/-- The opening of a window: the sessions of the Keep's own may end. -/
theorem moves_window (st kind : Nat) (ss : SMap Session) (h : c.keep.sessions.rising = true → ss.rising = true) :
    c.Moves [.fws, .sessions] { c with keep := { c.keep with fwState := st, fwKind := kind, sessions := ss } } :=
  ⟨fun p hp => by cases p <;> cases hp <;> rfl, fun hc => { hc with sessions := h hc.sessions }, List.prefix_rfl, List.prefix_rfl⟩

theorem moves_activate (k : Nat) : c.Moves [.fws, .keep, .sessions] (activate k c) := by
  refine .ite (c.moves_keepRefuse _ _).mono (.ite (c.moves_keepRefuse _ _).mono (c.moves_window _ _ _ (fun h => ?_)).mono)
  split
  · rfl
  · exact h

/-- The parts that the end of an activation window moves. -/
def windowParts : List Part := [.keep, .slots, .links, .free, .ctr, .posts, .ports]

theorem moves_afterWindow (k : Nat) : c.Moves windowParts (afterWindow k c) := by
  unfold afterWindow
  split
  · exact .trans (.trans (c.moves_keepRest).mono (.foldl _ (fun d i => (d.moves_retireNow i).mono) _))
      (.foldl _ (fun d k => (d.moves_newEpoch k).mono) _)
  · exact .trans (c.moves_posts _).mono (.foldl _ (fun d x => (d.moves_post x).mono) _)
  · exact .foldl _ (fun d k => .ite (d.moves_newEpoch k).mono (.refl d)) _
  · exact .refl c

theorem moves_activationDone (ok : Bool) : c.Moves (.fws :: windowParts) (activationDone ok c) :=
  .ite (.refl c) (.then (.ite ((((c.moves_fwIdle).mono.then (moves_setFw _ _ _)).then (moves_raise _ _)).then (moves_note _ _ _ _ _))
    ((((c.moves_fwIdle).mono.then (moves_setFw _ _ _)).then (moves_raise _ _)).then (moves_note _ _ _ _ _))) (moves_afterWindow _ _))

theorem moves_commitSvn (k : Nat) : c.Moves [.fws] (commitSvn k c) := c.moves_setFw _ _

theorem moves_logSelect (entry : Nat) : c.Moves [.keep] (logSelect entry c) := c.moves_keepRest

theorem moves_bootKind {k : Nat} {d : Core} (h : c.bootKind k = some d) : c.Moves [.fws] d := by
  unfold bootKind at h
  dsimp only at h
  split_ifs at h
  · cases h
    exact .refl c
  · cases h
    exact (c.moves_setFw _ _).then (moves_raise _ _)

theorem moves_bootKinds {ks : List Nat} {d : Core} (h : c.bootKinds ks = some d) : c.Moves [.fws] d := by
  induction ks generalizing c with
  | nil =>
    cases h
    exact .refl _
  | cons k ks ih =>
    rw [bootKinds] at h
    split at h
    · next hk => exact (moves_bootKind _ hk).trans (ih _ h)
    · cases h

theorem moves_bootFail : c.Moves [.keep, .failN] c.bootFail := (c.moves_keepRest).mono.then (moves_failN _ _)

theorem moves_bootLast : c.Moves [.keep, .cores, .fws, .failN] c.bootLast := by
  unfold bootLast
  extract_lets k keep gate c1 c2
  have hrun : c.Moves [.keep, .cores, .fws, .failN] c1 :=
    (c.moves_keepRest (isOpen := true) (windowReset := 0)).mono.then (moves_coreSet { c with keep :=
      { c.keep with open_ := true, windowReset := 0 } } c.gate.ready _ c.gate.halted c.gate.stopping)
  exact .then (.ite hrun ((hrun.then (moves_setFw _ _ _)).then (moves_raise _ _))) (moves_readyCheck _)

theorem moves_boot (n : Nat) : c.Moves [.keep, .cores, .fws, .failN] (boot n c) := by
  have hstage : ∀ d : Core, d.Moves [.keep, .cores, .fws, .failN] { d with keep := { d.keep with bootStage := n } } := fun d =>
    d.moves_keepRest.mono
  unfold boot
  refine .ite (.refl c) ?_
  dsimp only
  split
  · split
    · next h => exact (c.moves_bootKind h).mono.trans (hstage _)
    · exact (c.moves_bootFail).mono
  · split
    · next h => exact (c.moves_bootKinds h).mono.trans (hstage _)
    · exact (c.moves_bootFail).mono
  · exact (hstage c).then (moves_bootLast _)
  · exact hstage c

end Core
end Sys2Proof.Machine

/-! The supply, the envelope, the regions and the resets (Machine/Supply.lean, Resets.lean). -/

namespace Sys2Proof.Machine

set_option Elab.async false
namespace Core

variable (c : Core)

theorem moves_enterBand (vin : Nat) : c.Moves [.prc] (c.enterBand vin) := by
  unfold enterBand
  extract_lets p b left
  split
  · exact c.moves_prc _ (by rfl)
  · next d _ =>
    have hd : c.Moves [.prc] d := c.moves_prc _ (by rfl)
    clear_value d
    exact .ite (hd.then (moves_raise _ _)) hd

/-- The supply and the Belfry together. -/
theorem moves_prcBlf (p : Prc) (b : Belfry) (h : p.regions.length = c.prc.regions.length) :
    c.Moves [.prc, .blf] { c with prc := p, blf := b } :=
  ⟨fun p hp => by cases p <;> cases hp <;> rfl, fun hc => { hc with regions := h.trans hc.regions }, List.prefix_rfl, List.prefix_rfl⟩

theorem moves_holdoverEntry (vin : Nat) : c.Moves [.prc, .blf, .ctr] (holdoverEntry vin c) := by
  have hband := (c.moves_enterBand vin).mono (w := [.prc, .blf, .ctr])
  unfold holdoverEntry
  exact .ite (.refl c) (.ite hband (.ite
    ((((hband.then (moves_bump _ _ _)).then (moves_prcBlf (bump _ _ _) _ _ (by rfl))).then (moves_raise _ _)).then (moves_unfilled _ _ _))
    (hband.then (moves_bump _ _ _))))

theorem moves_holdoverExit (energy : Nat) : c.Moves [.prc, .blf, .ctr, .links] (holdoverExit energy c) :=
  .ite (.refl c) (.trans (((((c.moves_prcBlf _ _ (by rfl)).mono.then (moves_cleared _ _)).then (moves_raise _ _)).then (moves_bump _ _ _)))
    (.foldl _ (fun d k => (d.moves_pump k _).mono) _))

/-- The stop of the supply, of the releases and of admission. -/
theorem moves_stopping (p : Prc) (b : Belfry) (stopping : Bool) (h : p.regions.length = c.prc.regions.length) :
    c.Moves [.prc, .blf, .cores] { c with prc := p, blf := b, gate := { c.gate with stopping := stopping } } :=
  ⟨fun p hp => by cases p <;> cases hp <;> rfl, fun hc => { hc with regions := h.trans hc.regions }, List.prefix_rfl, List.prefix_rfl⟩

theorem moves_orderlyStop (cause : Nat) : c.Moves [.prc, .blf, .cores] (orderlyStop cause c) :=
  .ite (.refl c) (c.moves_stopping _ _ _ (by rfl))

/-- The parts that the end of an orderly stop moves. -/
def stopParts : List Part := .ctxs :: .pow :: .free :: .towers :: .bases :: .keep :: dropParts

theorem moves_stopSeg (tr : Trim) (i : Nat) : c.Moves stopParts (stopSeg tr c i) := by
  unfold stopSeg
  split
  · exact .refl c
  · exact .then (.foldl _ (fun d k => .ite (d.moves_setTower k _).mono (.refl d)) _) (moves_endSeg _ _ _ _)

theorem moves_holdOpen (x code : Nat) : c.Moves [.ctxs, .dir, .runs] (c.holdOpen x code) := by
  unfold holdOpen
  split
  · exact .ite ((c.moves_setCtx _ _).mono.then (moves_holdStep _ _ _ _ _ _)) (.refl c)
  · exact .refl c

theorem moves_flushPosts : c.Moves [.ctr, .ports, .posts] c.flushPosts :=
  .trans (c.moves_posts _).mono (.foldl _ (fun d x => .ite (d.moves_writePost _).mono (.refl d)) _)

/-- The settlements that have begun complete. -/
theorem moves_settleAll (tr : Trim) (ss : List Seg) : c.Moves stopParts (ss.foldl (fun (c : Core) s0 =>
    match c.seg? s0.id with
    | some s => c.settle tr s
    | none => c) c) := by
  refine .foldl _ (fun d s => ?_) _
  split
  · exact (d.moves_settle _ _).mono
  · exact .refl d

/-- The base loads under way fail. -/
theorem moves_failBases (code : Nat) : c.Moves stopParts
    ([0, 1].foldl (fun (c : Core) b => if (c.base b).st = .loading then c.baseFail b code else c) c) :=
  .foldl _ (fun d b => .ite (d.moves_baseFail b code).mono (.refl d)) _

theorem moves_stopEnd (tr : Trim) : c.Moves stopParts (stopEnd tr c) := by
  unfold stopEnd
  extract_lets c1 before run held kept stays steps c2 c3 c4 c5 c6 c7
  have h1 : c.Moves stopParts c1 := c.moves_settleAll tr _
  have h2 : c1.Moves stopParts c2 := .foldl _ (fun d i => d.moves_stopSeg tr i) _
  have h3 : c2.Moves stopParts c3 := .foldl _ (fun d x => (d.moves_holdOpen x _).mono) _
  have h4 : c3.Moves stopParts c4 := .foldl _ (fun d s => (d.moves_finishSeg tr _ _ _).mono) _
  have h5 : c4.Moves stopParts c5 := (c4.moves_withdraw tr _ _).mono
  have h6 : c5.Moves stopParts c6 := .foldl _ (fun d i => (d.moves_fetchFail tr i _).mono.then (moves_writebackFail _ i _)) _
  have h7 : c6.Moves stopParts c7 := c6.moves_failBases _
  clear_value c1 c2 c3 c4 c5 c6 c7
  exact ((((((((h1.trans h2).trans h3).trans h4).trans h5).trans h6).trans h7).then (moves_flushPosts _)).then (moves_unfilled _ _ _))

theorem moves_yieldEnd (tr : Trim) : c.Moves stopParts (yieldEnd tr c) := .ite (c.moves_stopEnd _) (.refl c)

theorem moves_linkOff (tr : Trim) (k : Nat) : c.Moves linkParts (linkOff tr c k) :=
  .ite (.refl c) (.trans (.ite (c.moves_raise _).mono (.refl c)) (moves_linkFall _ _ _ _))

/-- The parts that PF_SAFE moves. -/
def safeParts : List Part := .prc :: .failN :: (linkParts ++ stopParts)

/-- Every link goes DOWN. -/
theorem moves_linksOff (tr : Trim) (ks : List Nat) : c.Moves linkParts (ks.foldl (linkOff tr) c) :=
  .foldl _ (fun d k => d.moves_linkOff tr k) _

theorem moves_safeState : c.Moves safeParts (({ c with prc := { c.prc with state := .pfSafe } }.raise (sysEvent 0x0807 0 0 0 0)).failN 5) :=
  ((c.moves_prc _ (by rfl)).mono.then (moves_raise _ _)).then (moves_failN _ _)

theorem moves_safeEnd (tr : Trim) : c.Moves safeParts ((List.range 36).foldl (linkOff tr) (c.stopEnd tr)) :=
  (c.moves_stopEnd tr).mono.then (moves_linksOff _ tr _)

theorem moves_pfSafe (tr : Trim) : c.Moves safeParts (pfSafe tr c) := by
  unfold pfSafe
  split
  · exact (c.moves_safeEnd tr).trans (moves_safeState _)
  · exact .refl c

/-- What RESUME puts back. -/
theorem moves_resumed (p : Prc) (b : Belfry) (stopping : Bool) (ls : List LinkS) (h : p.regions.length = c.prc.regions.length)
    (hl : ls.length = c.links.length) :
    c.Moves [.prc, .blf, .cores, .links] { c with prc := p, blf := b, gate := { c.gate with stopping := stopping }, links := ls } :=
  ⟨fun p hp => by cases p <;> cases hp <;> rfl, fun hc => { hc with regions := h.trans hc.regions, links := hl.trans hc.links },
    List.prefix_rfl, List.prefix_rfl⟩

theorem moves_resume : c.Moves [.prc, .blf, .cores, .links, .failN] c.resume :=
  .ite (.refl c) ((c.moves_resumed _ _ _ _ (by rfl) (List.length_map _)).mono.then (moves_okN _ _))

theorem moves_ripple (mv hz : Nat) : c.Moves [.prc] (ripple mv hz c) := by
  unfold ripple
  refine .ite ((c.moves_prc _ (by rfl)).then (moves_prc _ _ (by rfl))) (.ite (((c.moves_prc _ (by rfl)).then (moves_prc _ _ (by rfl))).then (moves_raise _ _))
    (c.moves_prc _ (by rfl)))

theorem moves_envelopeApply : c.Moves [.pow] c.envelopeApply := .ite (c.moves_pow _) (c.moves_pow _)

theorem moves_trimPlan (e fuel : Nat) : c.Moves [.pow] (trimPlan e fuel c) := by
  induction fuel generalizing c with
  | zero => exact .refl c
  | succ n ih =>
    rw [trimPlan]
    exact .ite (.refl c) ((c.moves_pow _).trans (ih _))

theorem moves_envelopeForce : c.Moves [.pow, .blf, .ctr] c.envelopeForce := by
  unfold envelopeForce
  split
  · exact .refl c
  · refine .ite (.refl c) (.ite (.then (.then (.then ?_ (moves_blf _ _)) (moves_trimPlan _ _ _)) (moves_unfilled _ _ _)) ?_)
    · exact (c.moves_pow _).mono.then (moves_raise _ _)
    · exact (c.moves_pow _).mono.then (moves_raise _ _)

theorem moves_snapshot : c.Moves [.pow] c.snapshot := c.moves_pow _

theorem moves_overdraw (watts : Nat) : c.Moves [.prc, .blf, .ctr] (overdraw watts c) := by
  have hpin := fun p hp => (c.moves_prc p hp).mono (w := [.prc, .blf, .ctr])
  unfold overdraw
  exact .ite (.refl c) (.ite ((((hpin _ (by rfl)).then (moves_blf { c with prc := { c.prc with pin := watts } } _)).then (moves_raise _ _)).then
    (moves_bump _ _ _)) ((hpin _ (by rfl)).then (moves_blf { c with prc := { c.prc with pin := watts } } _)))

theorem moves_setRegion (r : Nat) (x : Region) : c.Moves [.prc] (c.setRegion r x) := c.moves_prc _ List.length_set

theorem moves_droop (r mv : Nat) (tr : Trim) : c.Moves [.prc] (droop r mv tr c) :=
  .ite (.refl c) (.ite ((c.moves_setRegion _ _).then (moves_raise _ _)) (c.moves_setRegion _ _))

theorem moves_droopClear (r mv : Nat) (tr : Trim) : c.Moves [.prc, .blf] (droopClear r mv tr c) :=
  .ite (.refl c) ((c.moves_setRegion _ _).mono.then (moves_cleared _ _))

/-- The parts that the fence of a region moves. -/
def fenceParts : List Part := .prc :: .blf :: .towers :: fetchParts

/-- Some towers, each after what it was. -/
theorem moves_setTowers (f : Core → Nat → Tower) (ks : List Nat) :
    c.Moves [.towers] (ks.foldl (fun (c : Core) k => c.setTower k (f c k)) c) :=
  .foldl _ (fun d k => d.moves_setTower k _) _

theorem moves_fence (tr : Trim) (r cause value : Nat) : c.Moves fenceParts (fence tr c r cause value) := by
  unfold fence
  extract_lets before x c1 c2 c3
  have h1 : c.Moves fenceParts c1 := (c.moves_setRegion r _).mono.then (moves_cleared _ _)
  have h2 : c1.Moves fenceParts c2 := (c1.moves_setTowers _ _).mono
  have h3 : c2.Moves fenceParts c3 := (c2.moves_fenceTowers r).mono.then (moves_raise _ _)
  clear_value c1 c2 c3
  exact (((h1.trans h2).trans h3).then (moves_wake _ _)).then (moves_unfilled _ _ _)

theorem moves_thermalSample (r temp : Nat) (tr : Trim) : c.Moves fenceParts (thermalSample r temp tr c) := by
  have hset := fun y n => (c.moves_setRegion r y).mono.then (moves_cleared _ n) (w := fenceParts)
  unfold thermalSample
  exact .ite (.refl c) (.ite (hset _ _) (.ite (.trans (.ite ((hset _ _).then (moves_raise _ _)) (hset _ _)) (moves_fence _ _ _ _ _))
    (.ite ((hset _ _).then (moves_raise _ _)) (hset _ _))))

theorem moves_neighbourLimit (a b : Nat) (thermal : Bool) (diff : Nat) (tr : Trim) :
    c.Moves fenceParts (neighbourLimit a b thermal diff tr c) :=
  .ite (.refl c) (.ite (c.moves_fence _ _ _ _) (.ite (((c.moves_blf _).mono.then (moves_raise _ _)).then (moves_bump _ _ _)) (.refl c)))

theorem moves_regionFence (r cause value : Nat) (tr : Trim) : c.Moves fenceParts (regionFence r cause value tr c) :=
  .ite (.refl c) (c.moves_fence _ _ _ _)

/-! Resets. -/

/-- The parts that the reset of a region moves. -/
def regionParts : List Part := .regs :: .locks :: .keep :: fenceParts

/-- Registers and LOCK bits dropped. -/
theorem moves_regsLocks (p : Nat → Bool) (ls : List (Nat × Nat)) :
    c.Moves [.regs, .locks] { c with regs := c.regs.keep p, locks := ls } :=
  (c.moves_regs _ (SMap.rising_keep p)).mono.then (moves_locks { c with regs := c.regs.keep p } ls)

theorem moves_clearTowers (r : Nat) : c.Moves regionParts (c.clearTowers r) := by
  unfold clearTowers
  extract_lets mine c1
  have h1 : c.Moves regionParts c1 := (c.moves_regsLocks _ _).mono.then (moves_clearCtr _ mine)
  clear_value c1
  exact h1.then (c1.moves_setTowers _ _)

theorem moves_busy (r : Option Nat) : c.Moves regionParts { c with prc := { c.prc with busy := r } } := (c.moves_prc _ (by rfl)).mono

theorem moves_clearedRegion (tr : Trim) (r : Nat) : c.Moves regionParts (((c.fence tr r 0 0).clearTowers r).noteReset 2 r) :=
  ((c.moves_fence _ _ _ _).mono.then (moves_clearTowers _ _)).then (moves_noteReset _ _ _)

theorem moves_startRegionReset (tr : Trim) (r : Nat) : c.Moves regionParts (startRegionReset tr c r) :=
  (c.moves_clearedRegion tr r).trans (moves_busy _ _)

theorem moves_regionReset (tr : Trim) : c.Moves regionParts (regionReset tr c) :=
  .ite (.refl c) (.ite (c.moves_prc _ (by rfl)).mono (c.moves_startRegionReset _ _))

theorem moves_startWaiting (tr : Trim) : c.Moves regionParts (startWaiting tr c) := by
  unfold startWaiting
  split
  · exact .refl c
  · exact .ite ((c.moves_prc _ (by rfl)).mono.then (moves_startRegionReset _ _ _)) (c.moves_prc _ (by rfl)).mono

theorem moves_regionTest (k unit : Nat) : c.Moves [.towers] (c.regionTest k unit) :=
  .ite (c.moves_setTower _ _) (.ite (c.moves_setTower _ _) ((c.moves_setTower _ _).then (moves_raise _ _)))

theorem moves_regionResetDone (units : List Nat) : c.Moves [.prc, .towers] (regionResetDone units c) := by
  unfold regionResetDone
  split
  · exact .refl c
  · exact .ite (.refl c) (.then (.trans (c.moves_setRegion _ _).mono (.foldl _ (fun d i => (d.moves_regionTest _ _).mono) _))
      (moves_prc _ _ (by rfl)))

/-- The parts that a warm reset moves: all but the supply's trip and the two that no reset moves. -/
def warmParts : List Part := [.regs, .ctr, .free, .locks, .clk, .tref, .blf, .pow, .prc, .segs, .towers, .ctxs, .dir, .bases, .pool, .cores,
  .gateRefs, .posts, .runs, .slots, .sessions, .fws, .keep, .ports, .links, .xfers, .cadence, .failN]

theorem moves_portMap (f : Port → Port) (hf : ∀ p : Port, p.fns.rising = true → (f p).fns.rising = true) :
    c.Moves [.ports] { c with ports := c.ports.map f } := by
  refine ⟨fun p hp => by cases p <;> cases hp <;> rfl, fun h => { h with ports := (List.length_map _).trans h.ports, fns := fun y hy => ?_ },
    List.prefix_rfl, List.prefix_rfl⟩
  obtain ⟨p, hp, rfl⟩ := List.mem_map.1 hy
  exact hf p (h.fns p hp)

/-- Nothing is left of segments, links and transfers. -/
theorem moves_stopped (ls : List LinkS) (h : ls.length = 36) (x : Nat × Nat × Nat) :
    c.Moves [.segs, .links, .xfers, .cadence] { c with segs := [], links := ls, xfers := [], cadence := x } :=
  ⟨fun p hp => by cases p <;> cases hp <;> rfl, fun hc => { hc with links := h }, List.prefix_rfl, List.prefix_rfl⟩

theorem moves_warmStop (tr : Trim) : c.Moves warmParts (warmStop tr c) := by
  unfold warmStop
  extract_lets c1 c2
  have h1 : c.Moves warmParts c1 := (c.moves_portMap _ (fun p h => SMap.rising_map (g := fun x => (x.1, x.2.drop)) (fun _ => rfl) h)).mono
  have h2 : c1.Moves warmParts c2 := (c1.moves_settleAll tr _).mono
  clear_value c1 c2
  exact (h1.trans h2).then (c2.moves_stopped _ List.length_replicate _)

/-- The Gatehouse as a reset leaves it. -/
theorem moves_gate (g : Gate) (h : g.bases.length = c.gate.bases.length) :
    c.Moves [.bases, .pool, .cores, .gateRefs, .posts] { c with gate := g } :=
  ⟨fun p hp => by cases p <;> cases hp <;> rfl, fun hc => { hc with bases := h.trans hc.bases }, List.prefix_rfl, List.prefix_rfl⟩

theorem moves_warmTowers : c.Moves [.prc, .towers] c.warmTowers := by
  unfold warmTowers
  extract_lets p regions prc
  have hregions : regions.length = c.prc.regions.length := by
    unfold regions
    split
    · exact List.length_set
    · rfl
  refine ((c.moves_prc _ ?_).mono.then (moves_towers { c with prc := { c.prc with regions := regions, busy := none, resetWait := none } } _ ?_))
  · exact hregions
  · simp

theorem moves_warmBlocks : c.Moves warmParts c.warmBlocks := by
  unfold warmBlocks
  refine .then (.then (.then ?_ (moves_clearCtr _ _)) (moves_warmTowers _)) (moves_okN _ _)
  exact ((((((c.moves_regsLocks warmKeeps _).mono.then (moves_blf _ _)).then (moves_tref _ _)).then (moves_clk _ _)).then (moves_pow _ _)).then
    (moves_gate _ _ (by rfl)))

theorem moves_warmKeep : c.Moves warmParts c.warmKeep := by
  unfold warmKeep
  extract_lets k open_ ws keep c1 fw c2 c3
  have h1 : c.Moves warmParts c1 := (c.moves_keepRest (waiting := [])).mono.then (moves_sessions { c with keep := { c.keep with waiting := [] } } []
    c.keep.nextSession (fun _ => rfl))
  have h2 : c1.Moves warmParts c2 := .ite (((c1.moves_fwIdle).mono.then (moves_setFw _ _ _)).then (moves_raise _ _)) (.refl c1)
  have h3 : c2.Moves warmParts c3 := .foldl _ (fun d i => (d.moves_retireNow i).mono) _
  clear_value c1 c2 c3
  split
  · next h => exact ((h1.trans h2).trans h3).then (moves_bootKinds _ h)
  · exact ((h1.trans h2).trans h3).then (moves_bootFail _)

theorem moves_warmDesc (tr : Trim) (i : Nat) : c.Moves warmParts (warmDesc tr c i) := by
  unfold warmDesc
  extract_lets c1 c2 c3
  have h1 : c.Moves warmParts c1 := (c.moves_fetchFail tr i _).mono.then (moves_writebackFail _ i _)
  have h2 : c1.Moves warmParts c2 := .ite (c1.moves_dropRun i).mono (.refl c1)
  have h3 : c2.Moves warmParts c3 := (c2.moves_updDesc i _).mono
  clear_value c1 c2 c3
  exact .ite ((((h1.trans h2).trans h3).then (moves_freeDesc _ _ _)).then (moves_raise _ _)) ((h1.trans h2).trans h3)

theorem moves_warmCtx (x : Nat) : c.Moves warmParts (c.warmCtx x) := by
  unfold warmCtx
  extract_lets c1
  have h1 : c.Moves warmParts c1 := (c.moves_updCtx x _).mono.then (moves_freeTransient _ x)
  clear_value c1
  exact .ite ((h1.then (moves_deleteCtx _ _)).then (moves_raise _ _)) h1

theorem moves_warmSettle (tr : Trim) : c.Moves warmParts (warmSettle tr c) :=
  .trans (.trans (.trans (.foldl _ (fun d x => (d.moves_holdOpen x _).mono) _) (.foldl _ (fun d x => d.moves_warmCtx x) _))
    (.foldl _ (fun d i => d.moves_warmDesc tr i) _)) (moves_failBases _ _).mono

theorem moves_warm (tr : Trim) : c.Moves warmParts (warm tr c) :=
  .ite (.refl c) ((((c.moves_warmStop tr).trans (moves_warmBlocks _)).trans (moves_warmKeep _)).trans (moves_warmSettle _ tr) |>.then
    (moves_noteReset _ _ _))

end Core
end Sys2Proof.Machine

/-! External memory: every command that stores lines keeps its canonical form. -/

namespace Sys2Proof.Machine

set_option Elab.async false
namespace Core

theorem writePages_wf {α : Type} {f : Core × Dram × Nat → α → Core × Dram × Nat} (hf : ∀ r x, r.2.1.wf = true → (f r x).2.1.wf = true)
    (xs : List α) {r : Core × Dram × Nat} (h : r.2.1.wf = true) : (xs.foldl f r).2.1.wf = true := by
  induction xs generalizing r with
  | nil => exact h
  | cons x xs ih => exact ih (hf r x h)

theorem writeRepeat_wf (c : Core) {dr : Dram} (s : Seg) (e : TEnv) (t : Nat) (fl : Flight) (h : dr.wf = true) :
    (c.writeRepeat dr s e t fl).2.1.wf = true := by
  unfold writeRepeat
  extract_lets
  split
  · exact h
  · refine writePages_wf (fun r p hr => ?_) _ h
    split
    · exact hr
    · exact writePage_wf _ _ _ _ _ hr

theorem accepted_wf (t q : Nat) (c : Core) (dr : Dram) (h : dr.wf = true) : (accepted t q c dr).2.wf = true := by
  unfold accepted
  split
  · exact h
  · next s e _ =>
    extract_lets x qu order
    split
    · exact h
    · extract_lets fls r y d
      have hr : r.2.1.wf = true := by
        refine List.foldlRecOn fls _ (motive := fun (r : Core × Dram × Nat × Nat × Nat) => r.2.1.wf = true) h (fun r hr f _ => ?_)
        dsimp only
        split
        · exact hr
        · exact writeRepeat_wf _ _ _ _ _ hr
      split <;> exact hr

theorem swapOut_wf (tr : Trim) (t : Nat) (c : Core) (dr : Dram) (h : dr.wf = true) : (swapOut tr t c dr).2.wf = true := by
  unfold swapOut
  split
  · next s _ =>
    split
    · dsimp only
      split
      · exact saveSeg_wf _ _ _ _ h
      · exact h
    · exact h
  · exact h

theorem rewrite_wf (k : Nat) (ps : List (Nat × List Line)) (c : Core) {dr : Dram} (h : dr.wf = true) : (rewrite k ps c dr).2.wf = true := by
  refine Dram.wf_foldl_on _ (fun r p hr => ?_) _ h
  dsimp only
  split
  · exact hr
  · split
    · exact hr
    · exact landPage_wf _ _ _ _ hr

theorem rewrap_wf (x : HostCmd) (c : Core) (dr : Dram) (h : dr.wf = true) : (rewrap x c dr).2.wf = true := by
  unfold rewrap
  dsimp only
  split
  · exact h
  · split
    · split
      · exact h
      · exact rewrite_wf _ _ _ h
    · exact h

theorem landBase_wf (b : Nat) (src : List Byte) (c : Core) (dr : Dram) (h : dr.wf = true) : (landBase b src c dr).2.wf = true := by
  unfold landBase
  extract_lets x n
  split
  · exact Dram.wf_foldl _ (fun d p hd => landPage_wf _ _ _ _ hd) _ h
  · exact Dram.wf_foldl_on _ (fun r u hr => writePage_wf _ _ _ _ _ hr) _ h

theorem baseDone_wf (b : Nat) (src : Option (List Byte)) (c : Core) (dr : Dram) (h : dr.wf = true) : (baseDone b src c dr).2.wf = true := by
  unfold baseDone
  extract_lets x
  split
  · exact h
  · split
    · exact h
    · split
      · exact h
      · split
        · split <;> exact h
        · exact landBase_wf _ _ _ _ h

theorem landWrite_wf (tr : Trim) (c : Core) (dr : Dram) (x : Xfer) (d first count : Nat) (h : dr.wf = true) :
    (landWrite tr c dr x d first count).2.wf = true :=
  Dram.wf_foldl _ (fun _ _ hd => landPage_wf _ _ _ _ hd) _ h

theorem takeWrite_wf (k : Nat) (fr : Frame) (tr : Trim) (c : Core) (dr : Dram) (h : dr.wf = true) :
    (takeWrite k fr tr c dr).2.wf = true := by
  unfold takeWrite
  split
  · exact h
  · split
    · exact h
    · dsimp only
      split
      · split
        · exact landWrite_wf _ _ _ _ _ _ _ h
        · exact h
      · exact h

theorem writeData_wf (k : Nat) (fr : Frame) (tr : Trim) (c : Core) (dr : Dram) (h : dr.wf = true) :
    (writeData k fr tr c dr).2.wf = true := by
  unfold writeData rxM
  dsimp only
  split
  · split
    · exact takeWrite_wf _ _ _ _ _ h
    · exact h
  · exact h

end Core
end Sys2Proof.Machine

/-! The recorder: its bounds, its records and its set-up, as each of its operations leaves them. -/

namespace Sys2Proof.Machine
namespace Evr

/-- From `e` to `e'` the bounds and the order of the buckets are kept. -/
structure Keeps (e e' : Evr) : Prop where
  ok : e.ok → e'.ok
  buckets : e.buckets.rising = true → e'.buckets.rising = true

theorem Keeps.refl (e : Evr) : e.Keeps e := ⟨id, id⟩

theorem Keeps.trans {e e' e'' : Evr} (h : e.Keeps e') (g : e'.Keeps e'') : e.Keeps e'' := ⟨g.ok ∘ h.ok, g.buckets ∘ h.buckets⟩

theorem sameSetup_refl (e : Evr) : e.sameSetup e := rfl

theorem sameSetup_trans {e e' e'' : Evr} (h : e.sameSetup e') (g : e'.sameSetup e'') : e.sameSetup e'' := by
  unfold sameSetup at *
  rw [g, h]

/-- From `e` to `e'` only what events bring moves, and no record. -/
structure Brings (e e' : Evr) : Prop extends e.Keeps e' where
  setup : e.sameSetup e'
  records : e'.records = e.records

theorem Brings.refl (e : Evr) : e.Brings e := ⟨.refl e, rfl, rfl⟩

theorem Brings.trans {e e' e'' : Evr} (h : e.Brings e') (g : e'.Brings e'') : e.Brings e'' :=
  ⟨h.toKeeps.trans g.toKeeps, sameSetup_trans h.setup g.setup, g.records.trans h.records⟩

theorem brings_bucket (e : Evr) (code : Nat) (b : Bucket) : e.Brings { e with buckets := e.buckets.set .full code b } :=
  ⟨⟨id, SMap.rising_set _ _⟩, rfl, rfl⟩

theorem brings_limit (e : Evr) (code now : Nat) : e.Brings (e.limit code now).1 := by
  unfold limit
  dsimp only
  split
  · exact brings_bucket _ _ _
  · split <;> exact brings_bucket _ _ _

theorem brings_giveBack (e : Evr) (code n : Nat) : e.Brings (e.giveBack code n) := brings_bucket _ _ _

theorem brings_filtered (e : Evr) (c : Counter) : e.Brings { e with filtered := c } := ⟨⟨id, id⟩, rfl, rfl⟩

theorem brings_lost (e : Evr) (c : Counter) : e.Brings { e with lost := c } := ⟨⟨id, id⟩, rfl, rfl⟩

theorem length_insertEvent (r : EvRecord) (q : List EvRecord) : (insertEvent r q).length = q.length + 1 := by
  induction q with
  | nil => rfl
  | cons x q ih =>
    rw [insertEvent]
    split
    · rfl
    · simp [ih]

theorem brings_queued (e : Evr) (r : EvRecord) (h : e.queue.length < 1024) : e.Brings { e with queue := insertEvent r e.queue } := by
  refine ⟨⟨fun ⟨hrecords, _, hfull⟩ => ⟨hrecords, ?_, hfull⟩, id⟩, rfl, rfl⟩
  rw [length_insertEvent]
  omega

theorem brings_arrive (e : Evr) (st : Stamp) (ev : Event) : e.Brings (e.arrive st ev).1 := by
  have hlimit := e.brings_limit ev.code st.nominal
  unfold arrive
  split
  next e' heq => rw [heq] at hlimit; exact hlimit
  next e' n heq =>
    rw [heq] at hlimit
    dsimp only
    generalize (if e'.enable then filterAction e'.liveFilters ev else 0) = act
    split
    · exact hlimit.trans ((brings_giveBack _ _ _).trans (brings_filtered _ _))
    · split
      · exact hlimit.trans ((brings_giveBack _ _ _).trans (brings_lost _ _))
      · next hroom => exact hlimit.trans (brings_queued _ _ (Nat.not_le.1 hroom))

theorem brings_take (e : Evr) (st : Stamp) (ev : Event) : e.Brings (e.take st ev).1 := by
  unfold take
  dsimp only
  split
  · exact (brings_arrive _ _ _).trans (brings_arrive _ _ _)
  · exact brings_arrive _ _ _

theorem brings_takeAll (st : Stamp) (evs : List Event) (e : Evr) : e.Brings (e.takeAll st evs).1 := by
  induction evs generalizing e with
  | nil => exact .refl e
  | cons ev evs ih => exact (e.brings_take st ev).trans (ih _)

theorem brings_token (e : Evr) (code now : Nat) : e.Brings (e.token code now) := by
  unfold token
  dsimp only
  split
  · exact brings_bucket _ _ _
  · exact .refl e

theorem keeps_write (e : Evr) (now : Nat) : e.Keeps (e.write now).1 := by
  unfold write
  split
  · exact .refl e
  · next q qs hq =>
    have hqueue : e.queue.length ≤ 1024 → qs.length ≤ 1024 := by rw [hq, List.length_cons]; omega
    dsimp only
    split
    · exact ⟨fun ⟨h1, h2, h3⟩ => ⟨h1, hqueue h2, h3⟩, SMap.rising_set _ _⟩
    · next hfull =>
      split
      · next hroom =>
        refine ⟨fun ⟨_, h2, h3⟩ => ⟨?_, hqueue h2, ?_⟩, id⟩
        · simp only [List.length_append, List.length_singleton]
          omega
        · simp only [List.length_append, List.length_singleton]
          exact ⟨fun h => absurd h hfull, fun h => by omega⟩
      · next hlast =>
        refine ⟨fun ⟨h1, h2, h3⟩ => ?_, id⟩
        have hne : e.records.length ≠ 65536 := fun h => hfull (h3.2 h)
        have hlen : e.records.length + 1 = 65536 := by omega
        refine ⟨?_, hqueue h2, ?_⟩
        · simp only [List.length_append, List.length_singleton, hlen, Nat.le_refl]
        · simp only [List.length_append, List.length_singleton, hlen]

theorem write_setup (e : Evr) (now : Nat) : e.sameSetup (e.write now).1 := by
  unfold write
  split
  · exact e.sameSetup_refl
  · dsimp only
    split
    · rfl
    · split <;> rfl

theorem write_records (e : Evr) (now : Nat) : ∃ more, (e.write now).1.records = e.records ++ more ∧ more.length ≤ 1 := by
  unfold write
  split
  · exact ⟨[], (List.append_nil _).symm, Nat.zero_le _⟩
  · dsimp only
    split
    · exact ⟨[], (List.append_nil _).symm, Nat.zero_le _⟩
    · split <;> exact ⟨[_], rfl, Nat.le_refl _⟩

theorem keeps_clear (e : Evr) (st : Stamp) : e.Keeps (e.clear st) :=
  ⟨fun ⟨_, h2, _⟩ => ⟨(by decide : 1 ≤ 65536), h2, by simp [clear]⟩, id⟩

theorem keeps_rebucket {e e' : Evr} (now : Nat) (h : e.Keeps e') : e.Keeps (e.rebucket e' now) :=
  ⟨h.ok, fun hb => by unfold rebucket; dsimp only; exact SMap.rising_mapV _ _ (h.buckets hb)⟩

theorem keeps_writeReg (e : Evr) (off size v : Nat) : e.Keeps (e.writeReg off size v) ∧ (e.writeReg off size v).records = e.records := by
  unfold writeReg
  extract_lets base put
  split
  · split <;> exact ⟨⟨id, id⟩, rfl⟩
  · split
    · exact ⟨.refl e, rfl⟩
    · split
      · split <;> exact ⟨⟨id, id⟩, rfl⟩
      · split
        · exact ⟨⟨id, id⟩, rfl⟩
        · split <;> exact ⟨⟨id, id⟩, rfl⟩

end Evr
end Sys2Proof.Machine

/-! What a command does before delivery: the parts it may move, and the invariants it keeps. -/

namespace Sys2Proof.Machine

set_option Elab.async false

/-- Whether command `i` may move a part; the source of freshness and the causes of FAIL_N are no part of any frame. -/
def mayMove (i : Instr) : Part → Bool
  | .regs => i.movesRegisters
  | .ctr => i.movesCounters
  | .locks => i.movesLocks
  | .clk | .tref => i.movesClocks
  | .blf => i.movesBelfry
  | .pow => i.movesEnvelope
  | .prc | .trip => i.movesSupply
  | .segs | .nextSeg => i.movesSegments
  | .towers => i.movesTowers
  | .ctxs => i.movesContexts
  | .dir => i.movesDirectory
  | .bases | .pool | .cores | .gateRefs | .posts => i.movesGatehouse
  | .runs | .chans => i.movesMemory
  | .slots | .sessions | .fws | .kout | .keep => i.movesKeep
  | .ports => i.movesFunctions
  | .links => i.movesLinks
  | .xfers => i.movesTransfers
  | .cadence => i.movesCadence
  | .free | .failN => true

/-- From `s` to `u` command `i` acts within its frame and keeps the invariants; `u` has yet to deliver what it sends to the
recorder. -/
structure Acts (i : Instr) (s u : State) : Prop where
  pending : u.pending = s.pending
  trim : u.trim = s.trim
  frame : ∀ p, mayMove i p = false → p.view u.core = p.view s.core
  formed : s.core.Formed → u.core.Formed
  dram : i.movesDram = false → u.dram = s.dram
  canonical : s.dram.wf = true → u.dram.wf = true
  evr : s.evr.Keeps u.evr
  setup : i.movesRecorder = false → s.evr.sameSetup u.evr
  records : i.losesPower = false → (∀ f, i ≠ .evrClear f) → ∃ more, u.evr.records = s.evr.records ++ more ∧ more.length ≤ 1

/-- A command acts, and delivers what it sends to the recorder. -/
def Delivers (i : Instr) (s : State) (o : Host.Outcome State Fault Refusal) : Prop :=
  ∃ u st, o = .next (u.deliver st) ∧ Acts i s u

section Delivers

variable {i : Instr} {s : State} {w : List Part}

theorem Core.Moves.frame_of {c d : Core} (h : c.Moves w d) (hw : w.all (mayMove i) = true) (p : Part) (hp : mayMove i p = false) :
    p.view d = p.view c := by
  refine h.frame p ?_
  by_contra hc
  rw [List.all_eq_true.1 hw p (by simpa using hc)] at hp
  exact Bool.noConfusion hp

/-- The records stay as they are. -/
theorem records_kept (e : Evr) : ∃ more, e.records = e.records ++ more ∧ more.length ≤ 1 :=
  ⟨[], (List.append_nil _).symm, Nat.zero_le _⟩

theorem acts_of_moves {c : Core} (h : s.core.Moves w c) (hw : w.all (mayMove i) = true) : Acts i s { s with core := c } where
  pending := rfl
  trim := rfl
  frame := h.frame_of hw
  formed := h.formed
  dram _ := rfl
  canonical := id
  evr := .refl _
  setup _ := rfl
  records _ _ := records_kept s.evr

theorem acts_of_stores {c : Core} {d : Dram} (h : s.core.Moves w c) (hd : s.dram.wf = true → d.wf = true) (hw : w.all (mayMove i) = true)
    (hi : i.movesDram = true) : Acts i s { s with core := c, dram := d } :=
  { acts_of_moves h hw with
    dram := fun hn => Bool.noConfusion (hi.symm.trans hn)
    canonical := hd }

theorem acts_of_brings {c : Core} {e : Evr} (h : s.core.Moves w c) (he : s.evr.Brings e) (hw : w.all (mayMove i) = true) :
    Acts i s { s with core := c, evr := e } :=
  { acts_of_moves h hw with
    evr := he.toKeeps
    setup := fun _ => he.setup
    records := fun _ _ => he.records ▸ records_kept s.evr }

theorem acts_of_setup {c : Core} {e : Evr} (h : s.core.Moves w c) (he : s.evr.Keeps e) (hrecords : e.records = s.evr.records)
    (hw : w.all (mayMove i) = true) (hi : i.movesRecorder = true) : Acts i s { s with core := c, evr := e } :=
  { acts_of_moves h hw with
    evr := he
    setup := fun hn => Bool.noConfusion (hi.symm.trans hn)
    records := fun _ _ => hrecords ▸ records_kept s.evr }

theorem Evr.ok_reset : Evr.reset.ok := by
  unfold Evr.ok
  decide

/-- Everything is lost but what the die starts from again. -/
theorem acts_of_lost {c : Core} (hc : s.core.Formed → c.Formed) (hw : ∀ p, mayMove i p = true) (hd : i.movesDram = true)
    (hr : i.movesRecorder = true) (hp : i.losesPower = true) : Acts i s (s.lose c) where
  pending := rfl
  trim := rfl
  frame p h := Bool.noConfusion ((hw p).symm.trans h)
  formed := hc
  dram h := Bool.noConfusion (hd.symm.trans h)
  canonical _ := rfl
  evr := ⟨fun _ => Evr.ok_reset, fun _ => rfl⟩
  setup h := Bool.noConfusion (hr.symm.trans h)
  records h := Bool.noConfusion (hp.symm.trans h)

theorem Delivers.act {f : Core → Core} (h : s.core.Moves w (f s.core)) (hw : w.all (mayMove i) = true := by rfl) :
    Delivers i s (s.act f) :=
  ⟨_, _, rfl, acts_of_moves h hw⟩

theorem Delivers.actT {f : Trim → Core → Core} (h : s.core.Moves w (f s.trim s.core)) (hw : w.all (mayMove i) = true := by rfl) :
    Delivers i s (s.actT f) :=
  ⟨_, _, rfl, acts_of_moves h hw⟩

/-- A command of the administration PF. -/
theorem Delivers.admin {f : FnId} {g : Core → Core} (h : s.core.Moves w (g s.core)) (hw : w.all (mayMove i) = true := by rfl) :
    Delivers i s (adminAct f g s) :=
  .actT (.ite h (.refl _)) hw

/-- A command that reads external memory. -/
theorem Delivers.reads {f : Core → Dram → Core} (h : s.core.Moves w (f s.core s.dram)) (hw : w.all (mayMove i) = true := by rfl) :
    Delivers i s (s.actM (fun c d => (f c d, d))) :=
  ⟨_, _, rfl, acts_of_moves h hw⟩

/-- A command that writes external memory. -/
theorem Delivers.stores {f : Core → Dram → Core × Dram} (h : s.core.Moves w (f s.core s.dram).1)
    (hd : s.dram.wf = true → (f s.core s.dram).2.wf = true) (hw : w.all (mayMove i) = true := by rfl)
    (hi : i.movesDram = true := by rfl) : Delivers i s (s.actM f) :=
  ⟨_, _, rfl, acts_of_stores h hd hw hi⟩

/-- A duty of core 2 that reads external memory. -/
theorem Delivers.reads2 {f : Core → Dram → Core} (h : s.core.Moves w (f s.core s.dram)) (hw : w.all (mayMove i) = true := by rfl) :
    Delivers i s (s.actCore2 (fun c d => (f c d, d))) := by
  refine ⟨_, _, rfl, ?_⟩
  dsimp only
  split
  · exact acts_of_moves h hw
  · exact acts_of_moves (.refl s.core) hw

/-- A duty of core 2 that writes external memory. -/
theorem Delivers.stores2 {f : Core → Dram → Core × Dram} (h : s.core.Moves w (f s.core s.dram).1)
    (hd : s.dram.wf = true → (f s.core s.dram).2.wf = true) (hw : w.all (mayMove i) = true := by rfl)
    (hi : i.movesDram = true := by rfl) : Delivers i s (s.actCore2 f) := by
  refine ⟨_, _, rfl, ?_⟩
  dsimp only
  split
  · exact acts_of_stores h hd hw hi
  · exact acts_of_stores (.refl s.core) id hw hi

/-- A meaning of the recorder that adds no record and leaves the set-up. -/
theorem Delivers.brings {f : Trim → Core → Evr → Core × Evr} (h : s.core.Moves w (f s.trim s.core s.evr).1)
    (he : s.evr.Brings (f s.trim s.core s.evr).2) (hw : w.all (mayMove i) = true := by rfl) : Delivers i s (s.actE f) :=
  ⟨_, _, rfl, acts_of_brings h he hw⟩

/-- A meaning of the recorder that may change its set-up. -/
theorem Delivers.setup {f : Trim → Core → Evr → Core × Evr} (h : s.core.Moves w (f s.trim s.core s.evr).1)
    (he : s.evr.Keeps (f s.trim s.core s.evr).2) (hrecords : (f s.trim s.core s.evr).2.records = s.evr.records)
    (hw : w.all (mayMove i) = true := by rfl) (hi : i.movesRecorder = true := by rfl) : Delivers i s (s.actE f) :=
  ⟨_, _, rfl, acts_of_setup h he hrecords hw hi⟩

/-- The power is lost. -/
theorem Delivers.lost {c : Core} {st : Stamp} (hc : s.core.Formed → c.Formed) (hw : ∀ p, mayMove i p = true) (hd : i.movesDram = true)
    (hr : i.movesRecorder = true) (hp : i.losesPower = true) : Delivers i s (.next ((s.lose c).deliver st)) :=
  ⟨_, _, rfl, acts_of_lost hc hw hd hr hp⟩

theorem State.deliver_of_quiet (u : State) (st : Stamp) (h : u.quiet) : u.deliver st = u := by
  obtain ⟨tr, ⟨outbox, _⟩, d, e, q⟩ := u
  cases h
  rfl

theorem Delivers.dark {c : Core} (hq : c.outbox = []) (hc : s.core.Formed → c.Formed) (hw : ∀ p, mayMove i p = true)
    (hd : i.movesDram = true) (hr : i.movesRecorder = true) (hp : i.losesPower = true) : Delivers i s (.next (s.lose c)) :=
  ⟨s.lose c, s.core.stamp, by rw [(s.lose c).deliver_of_quiet _ hq], acts_of_lost hc hw hd hr hp⟩

end Delivers
end Sys2Proof.Machine

/-! Every command acts within its frame: the meanings that take more than their operation's lemma, then the table. -/

namespace Sys2Proof.Machine

set_option Elab.async false

section Recorder

variable (s : State)

theorem brings_ite {e e' e'' : Evr} {c : Core} (p : Prop) [Decidable p] {c' : Core} (h : e.Brings e') (g : e.Brings e'') :
    e.Brings (if p then (c, e') else (c', e'')).2 := by
  split
  · exact h
  · exact g

theorem keeps_registerWrite (f : FnId) (bar off size v : Nat) (via : Option Nat) (tr : Trim) (c : Core) (e : Evr) :
    e.Keeps (registerWrite f bar off size v via tr c e).2 ∧ (registerWrite f bar off size v via tr c e).2.records = e.records := by
  have hsame : e.Keeps e ∧ e.records = e.records := ⟨.refl e, rfl⟩
  unfold registerWrite
  split
  · exact hsame
  split
  · exact hsame
  split
  · extract_lets base
    split
    · exact hsame
    split
    · exact hsame
    split
    · exact hsame
    split
    · exact hsame
    split
    · exact e.keeps_writeReg _ _ _
    · exact hsame
  · exact hsame

theorem delivers_cntClear (f : FnId) (off : Nat) : Delivers (.cntClear f off) s (execCntClear f off s) := by
  refine .brings (w := [.ctr]) (.ite_left (s.core.moves_cntClear _) (.refl _)) (brings_ite _ ?_ (.refl _))
  split
  · exact s.evr.brings_filtered _
  · exact .refl _

theorem delivers_counterSaturated (off n : Nat) : Delivers (.counterSaturated off n) s (execCounterSaturated off n s) := by
  refine .brings (w := [.ctr]) (.ite_fst (s.core.moves_evrBump ..).mono (.ite_left (s.core.moves_bump ..) (.refl _))) ?_
  split
  · unfold evrBump
    dsimp only
    split
    · exact s.evr.brings_lost _
    · exact s.evr.brings_filtered _
  · exact brings_ite _ (.refl _) (.refl _)

theorem delivers_tokenAdd (code : Nat) : Delivers (.tokenAdd code) s (execTokenAdd code s) :=
  ⟨_, _, rfl, acts_of_brings (.refl s.core (w := [])) (s.evr.brings_token ..) rfl⟩

theorem delivers_recordWrite : Delivers .recordWrite s (execRecordWrite s) := by
  refine ⟨_, _, rfl, ?_⟩
  exact { acts_of_moves (s.core.moves_recordWrite s.trim s.evr) rfl with
    evr := s.evr.keeps_write _
    setup := fun _ => s.evr.write_setup _
    records := fun _ _ => s.evr.write_records _ }

theorem delivers_evrClear (f : FnId) : Delivers (.evrClear f) s (execEvrClear f s) := by
  refine ⟨_, _, rfl, ?_⟩
  dsimp only
  split
  · exact { acts_of_moves (.refl s.core (w := [])) rfl with
      evr := s.evr.keeps_clear _
      setup := fun h => Bool.noConfusion h
      records := fun _ h => absurd rfl (h f) }
  · exact acts_of_moves (.refl s.core (w := [])) rfl

theorem delivers_evrTime (f : FnId) (v : RegWrite) : Delivers (.evrTime f v) s (execEvrTime f v s) := by
  unfold execEvrTime
  split
  · exact ⟨_, _, rfl, acts_of_setup (s.core.moves_setTime _) ⟨id, id⟩ rfl rfl rfl⟩
  · exact .act (.refl s.core (w := []))

/-- A change of the recorder's set-up by the administration PF that leaves the die and the records. -/
theorem delivers_setup {i : Instr} {f : FnId} {g : Trim → Core → Evr → Core × Evr} (hcore : (g s.trim s.core s.evr).1 = s.core)
    (he : s.evr.Keeps (g s.trim s.core s.evr).2) (hrecords : (g s.trim s.core s.evr).2.records = s.evr.records)
    (hi : i.movesRecorder = true) : Delivers i s (adminEvr f g s) := by
  refine .setup (w := []) ?_ ?_ ?_ rfl hi
  · split
    · rw [hcore]
      exact .refl _
    · exact .refl _
  · split
    · exact he
    · exact .refl _
  · split
    · exact hrecords
    · rfl

theorem keeps_evrEnable (tr : Trim) (c : Core) (e : Evr) :
    (evrEnable tr c e).1 = c ∧ e.Keeps (evrEnable tr c e).2 ∧ (evrEnable tr c e).2.records = e.records := by
  unfold evrEnable
  split
  · exact ⟨rfl, .refl e, rfl⟩
  · extract_lets k
    split
    · exact ⟨rfl, ⟨id, id⟩, rfl⟩
    · exact ⟨rfl, e.keeps_rebucket _ ⟨id, id⟩, rfl⟩

theorem keeps_evrDisable (tr : Trim) (c : Core) (e : Evr) :
    (evrDisable tr c e).1 = c ∧ e.Keeps (evrDisable tr c e).2 ∧ (evrDisable tr c e).2.records = e.records := by
  unfold evrDisable
  split
  · exact ⟨rfl, e.keeps_rebucket _ ⟨id, id⟩, rfl⟩
  · exact ⟨rfl, .refl e, rfl⟩

theorem delivers_evrEnableSet (f : FnId) : Delivers (.evrEnableSet f) s (execEvrEnableSet f s) := by
  obtain ⟨hcore, he, hrecords⟩ := keeps_evrEnable s.trim s.core s.evr
  exact delivers_setup s hcore he hrecords rfl

theorem delivers_evrEnableClear (f : FnId) : Delivers (.evrEnableClear f) s (execEvrEnableClear f s) := by
  obtain ⟨hcore, he, hrecords⟩ := keeps_evrDisable s.trim s.core s.evr
  exact delivers_setup s hcore he hrecords rfl

theorem delivers_failClear (f : FnId) : Delivers (.failClear f) s (execFailClear f s) := by
  unfold execFailClear adminEvr
  refine .brings (w := [.failN]) ?_ ?_
  · exact .ite_left (s.core.moves_okN 1) (.refl _)
  · exact brings_ite _ (.refl _) (.refl _)

end Recorder

section Responder

variable (s : State)

theorem delivers_getCertificate (via : Via) (slot : Nat) : Delivers (.getCertificate via slot) s (execGetCertificate via slot s) := by
  refine .act (w := Core.replyParts) (s.core.moves_request_ _ _ _ (fun d => ?_))
  split <;> exact .refl d

theorem delivers_challenge (via : Via) (slot : Nat) (nonce : Key) (summary : Nat) :
    Delivers (.challenge via slot nonce summary) s (execChallenge via slot nonce summary s) := by
  refine .actT (w := .free :: Core.replyParts) (s.core.moves_request_ _ _ _ (fun d => ?_))
  split
  · exact .refl d
  · dsimp only
    exact (d.moves_sign _ _).mono

theorem delivers_getMeasurements (via : Via) (index slot : Nat) (nonce : Key) (sign : Bool) :
    Delivers (.getMeasurements via index slot nonce sign) s (execGetMeasurements via index slot nonce sign s) :=
  .actT (w := .free :: Core.replyParts) (s.core.moves_request_ _ _ _ (fun d =>
    .ite_left (.refl d) (.ite_pair (d.moves_sign _ _).mono (.refl d))))

theorem delivers_keyExchange (via : Via) (slot summary : Nat) :
    Delivers (.keyExchange via slot summary) s (execKeyExchange via slot summary s) := by
  refine .actT (w := .free :: .sessions :: Core.replyParts) (s.core.moves_request_ _ _ _ (fun d => .ite_left (.refl d) (.ite_left (.refl d) ?_)))
  dsimp only
  exact ((d.moves_sessions d.keep.sessions (d.keep.nextSession + 1) id).mono.then (Core.moves_setSession ..)).then (Core.moves_sign ..)

theorem delivers_getCsr (via : Via) (i slot : Nat) : Delivers (.getCsr via i slot) s (execGetCsr via i slot s) :=
  .actT (w := .free :: Core.sessParts) (s.core.moves_operatorReq _ _ _ i _ (fun d => .ite_pair (d.moves_sign _ _).mono (.refl d)))

theorem delivers_setCertificate (via : Via) (i slot : Nat) (chain : List Byte) :
    Delivers (.setCertificate via i slot chain) s (execSetCertificate via i slot chain s) :=
  .actT (w := Core.sessParts) (s.core.moves_operatorReq _ _ _ i _ (fun d =>
    .ite_left (d.moves_keepRest).mono (.ite_pair (d.moves_keepRest).mono (.refl d))))

theorem delivers_sessionTimeout (i : Nat) : Delivers (.sessionTimeout i) s (execSessionTimeout i s) := by
  refine .act (w := [.sessions]) ?_
  split
  · exact .ite (s.core.moves_dropSession i) (.refl _)
  · exact .refl _

end Responder

section Tables

variable (x : HostCmd) (s : State)

theorem delivers_loadChain : Delivers (.loadChain x) s (execLoadChain x s) := by
  refine .act (w := .keep :: Core.ctxParts) (s.core.moves_ctxCmd x _ _ (fun d _ _ _ _ => .ite (d.moves_refuse ..).mono ?_))
  split
  · exact (d.moves_refuse ..).mono
  · exact .ite (d.moves_refuse ..).mono (d.moves_updCtxD_complete ..).mono

theorem delivers_loadRules : Delivers (.loadRules x) s (execLoadRules x s) := by
  refine .act (w := .keep :: .gateRefs :: Core.ctxParts) (s.core.moves_ctxCmd x _ _ (fun d _ _ _ _ => .ite (d.moves_refuse ..).mono ?_))
  split
  · exact (d.moves_gateRefs ..).mono.then (Core.moves_refuse ..)
  · exact .ite (d.moves_refuse ..).mono (d.moves_updCtxD_complete ..).mono

theorem delivers_loadGroups : Delivers (.loadGroups x) s (execLoadGroups x s) := by
  refine .act (w := Core.ctxParts) (s.core.moves_ctxCmd x _ _ (fun d _ _ _ _ => ?_))
  dsimp only
  split
  · exact (d.moves_refuse ..).mono
  · exact .ite (d.moves_refuse ..).mono ((d.moves_updCtx ..).mono.then (Core.moves_complete ..))

theorem delivers_loadSchedule : Delivers (.loadSchedule x) s (execLoadSchedule x s) :=
  .act (w := .dir :: Core.ctxParts) (s.core.moves_ctxCmd x _ _ (fun d _ _ _ _ => .ite (d.moves_refuse ..).mono (.ite (d.moves_refuse ..).mono
    (((d.moves_updCtx ..).mono.then (Core.moves_updCommit ..)).then (Core.moves_complete ..)))))

theorem delivers_advanceStep : Delivers (.advanceStep x) s (execAdvanceStep x s) :=
  .act (w := .dir :: Core.ctxParts) (s.core.moves_ctxCmd x _ _ (fun d _ _ _ _ => .ite (d.moves_refuse ..).mono (.ite (d.moves_refuse ..).mono
    ((d.moves_updCommit ..).mono.then (Core.moves_complete ..)))))

theorem delivers_loadRelease : Delivers (.loadRelease x) s (execLoadRelease x s) := by
  refine .act (w := .blf :: .pow :: Core.ctxParts) (s.core.moves_ctxCmd x _ _ (fun d _ _ _ _ => ?_))
  dsimp only
  split
  · exact (d.moves_blf _).mono.then (Core.moves_refuse ..)
  · exact ((d.moves_endProg _).mono.then (Core.moves_updCtx ..)).then (Core.moves_complete ..)

end Tables

section Power

variable {i : Instr} (s : State)

theorem delivers_activationDone (ok : Bool) : Delivers (.activationDone ok) s (execActivationDone ok s) :=
  .actT (f := fun tr c => if c.keep.fwState = 2 then (c.activationDone ok).startWaiting tr else c)
    (w := .sessions :: .fws :: (Core.regionParts ++ Core.windowParts))
    (.ite ((s.core.moves_activationDone ok).mono.then (Core.moves_startWaiting ..)) (.refl _))

/-- A die started again keeps its form. -/
theorem formed_coldReset (c : Core) {p : Prc} (trip : Option (Nat × Nat)) (cert : List Byte) (free : Nat) (h : c.Formed)
    (hp : p.regions.length = 16) : (Core.coldReset p trip c.keep.fws cert free).Formed where
  ports := rfl
  links := List.length_replicate
  towers := List.length_replicate
  bases := rfl
  ctls := List.length_replicate
  regions := hp
  fws := h.fws
  regs := rfl
  ctr := rfl
  fns p hp := by
    rcases List.mem_cons.1 hp with rfl | hp
    · rfl
    · rw [List.mem_singleton.1 hp]
      rfl
  ctxs := rfl
  dir := rfl
  slots := rfl
  sessions := rfl

theorem formed_dark (c : Core) (trip : Option (Nat × Nat)) (h : c.Formed) : (c.dark trip).Formed :=
  { formed_coldReset c trip c.keep.cert2 c.free h (p := { Prc.reset with vin := c.prc.vin, pwrgd := c.prc.pwrgd, band := c.prc.band })
      List.length_replicate with }

theorem formed_wakeUp (c : Core) (h : c.Formed) : c.wakeUp.Formed := by
  have hd := formed_dark c none h
  unfold Core.wakeUp
  extract_lets k vin k0 p d
  have hdie : d.Formed := { hd with towers := List.length_replicate }
  clear_value d
  split
  · exact (Core.moves_raise _ _).formed hdie
  · exact hdie

theorem delivers_powerUp : Delivers .powerUp s (execPowerUp s) := by
  unfold execPowerUp
  split
  · exact .act ((s.core.moves_fresh).mono.then (Core.moves_prc _ _ (by rfl))) (w := [.free, .prc])
  · exact .lost (formed_wakeUp s.core) (fun p => by cases p <;> rfl) rfl rfl rfl

theorem delivers_input {vin : Nat} (hw : ∀ p, mayMove i p = true) (hd : i.movesDram = true) (hr : i.movesRecorder = true)
    (hp : i.losesPower = true) : Delivers i s (s.input vin) := by
  unfold State.input
  split
  · exact .dark rfl (fun h => formed_dark _ _ { h with }) hw hd hr hp
  · split
    · exact .act (s.core.moves_enterBand vin) (by simp [hw])
    · exact .act (s.core.moves_prc _ (by rfl)) (by simp [hw])

theorem delivers_overVoltage (vin : Nat) : Delivers (.overVoltage vin) s (execOverVoltage vin s) := by
  unfold execOverVoltage
  split
  · exact delivers_input s (fun p => by cases p <;> rfl) rfl rfl rfl
  · exact .act (.refl s.core (w := []))

theorem delivers_thermalTrip (sensor temp : Nat) : Delivers (.thermalTrip sensor temp) s (execThermalTrip sensor temp s) := by
  unfold execThermalTrip
  split
  · refine .dark ?_ (fun h => (Core.moves_failN _ 6).formed (formed_dark _ _ h)) (fun p => by cases p <;> rfl) rfl rfl rfl
    simp [Core.dark, Core.coldReset]
  · exact .act (.refl s.core (w := []))

theorem delivers_pwrgdInDeasserted : Delivers .pwrgdInDeasserted s (execPwrgdInDeasserted s) := by
  unfold execPwrgdInDeasserted
  dsimp only
  split
  · exact .dark rfl (fun h => formed_dark _ _ { h with }) (fun p => by cases p <;> rfl) rfl rfl rfl
  · exact .act (s.core.moves_prc _ (by rfl))

theorem delivers_cold (f : FnId) : Delivers (.cold f) s (execCold f s) := by
  unfold execCold
  split
  · exact .dark rfl (formed_dark _ _) (fun p => by cases p <;> rfl) rfl rfl rfl
  · exact .act (.refl s.core (w := []))

end Power

/-- Every command delivers what it sends, acts within its frame, and keeps the invariants. -/
theorem exec_delivers (i : Instr) (s : State) : Delivers i s (exec i s) := by
  cases i with
  | registerWrite f bar off size v =>
    exact .setup (s.core.moves_registerWrite ..) (keeps_registerWrite ..).1 (keeps_registerWrite ..).2
  | unsupportedBarAccess f bar off size write =>
    show Delivers _ s (execUnsupportedBarAccess f bar off size write s)
    unfold execUnsupportedBarAccess
    exact .act (w := [.ctr]) (.ite (s.core.moves_onBar2 _ _ id (.refl _)) (s.core.moves_badAccess ..).mono)
  | lock f off =>
    show Delivers _ s (execLock f off s)
    unfold execLock
    exact .brings (w := [.locks]) (.ite_left (s.core.moves_locks _) (.refl _)) (brings_ite _ (.refl _) (.refl _))
  | cntClear f off => exact delivers_cntClear s f off
  | counterSaturated off n => exact delivers_counterSaturated s off n
  | coreHalt _ => exact .act (s.core.moves_coreHalt ..)
  | parkDeadlineExpired => exact .actT (s.core.moves_parkExpired ..)
  | cadencePulse _ _ => exact .act (s.core.moves_cadencePulse ..)
  | syntheticPulse => exact .act (s.core.moves_syntheticPulse ..)
  | sourceLost => exact .act (s.core.moves_sourceLost ..)
  | beatCounterWrap =>
    show Delivers _ s (execBeatCounterWrap s)
    unfold execBeatCounterWrap
    exact .act (.ite ((s.core.moves_blf _).then (Core.moves_raise ..)) (.refl _))
  | cpWrap =>
    show Delivers _ s (execCpWrap s)
    unfold execCpWrap
    exact .act (.ite ((s.core.moves_blf _).then (Core.moves_raise ..)) (.refl _))
  | calendarWrap =>
    show Delivers _ s (execCalendarWrap s)
    unfold execCalendarWrap
    exact .act (.ite (s.core.moves_clk _) (.refl _))
  | factorChange => exact .act (s.core.moves_factorChange ..)
  | factorStepDown => exact .act (s.core.moves_factorStepDown ..)
  | blfRunSet _ => exact .admin (s.core.moves_runSet ..)
  | blfRunClear f =>
    show Delivers _ s (execBlfRunClear f s)
    unfold execBlfRunClear
    exact .admin (s.core.moves_blf _)
  | segAdmitSet _ => exact .admin (s.core.moves_admitSet ..)
  | segAdmitClear f =>
    show Delivers _ s (execSegAdmitClear f s)
    unfold execSegAdmitClear
    exact .admin (s.core.moves_blf _)
  | blfCpRead f =>
    show Delivers _ s (execBlfCpRead f s)
    unfold execBlfCpRead
    exact .admin (s.core.moves_blf _)
  | segmentAdmission => exact .actT (s.core.moves_admission ..)
  | imagePlacement => exact .actT (s.core.moves_imagePlacement ..)
  | segmentRelease =>
    show Delivers _ s (execSegmentRelease s)
    unfold execSegmentRelease
    exact .reads (f := fun c d => c.release d) (s.core.moves_release _)
  | dropLateExpiry => exact .actT (s.core.moves_dropLate ..)
  | segmentEnd => exact .actT (s.core.moves_segmentEnd ..)
  | release x =>
    show Delivers _ s (execRelease x s)
    unfold execRelease
    exact .actT (f := fun tr => Core.progRelease tr x) (s.core.moves_progRelease _ _)
  | waitRel x =>
    show Delivers _ s (execWaitRel x s)
    unfold execWaitRel
    exact .act (s.core.moves_progOp x 2 _ (fun _ _ _ => .ite (s.core.moves_goto ..) (.refl _)))
  | waitPulse x =>
    show Delivers _ s (execWaitPulse x s)
    unfold execWaitPulse
    exact .act (s.core.moves_progOp x 3 _ (fun _ _ _ => .ite (s.core.moves_goto ..) (.refl _)))
  | forecast x =>
    show Delivers _ s (execForecast x s)
    unfold execForecast
    exact .act (w := [.ctxs, .pow]) (s.core.moves_progOp x 4 _ (fun _ _ _ => .ite ((s.core.moves_pow _).mono.then (Core.moves_goto ..)) (.refl _)))
  | ballast x =>
    show Delivers _ s (execBallast x s)
    unfold execBallast
    exact .act (w := [.ctxs, .pow]) (s.core.moves_progOp x 5 _ (fun _ _ _ => .then (.ite (.refl _) (s.core.moves_pow _).mono) (Core.moves_goto ..)))
  | releaseLoop x =>
    show Delivers _ s (execReleaseLoop x s)
    unfold execReleaseLoop
    exact .act (s.core.moves_progOp x 6 _ (fun _ _ _ => .ite (s.core.moves_goto ..) (.ite (s.core.moves_goto ..) (s.core.moves_goto ..))))
  | setAnchor x =>
    show Delivers _ s (execSetAnchor x s)
    unfold execSetAnchor
    exact .act (s.core.moves_progOp x 7 _ (fun _ _ _ => s.core.moves_goto ..))
  | releaseEnd x =>
    show Delivers _ s (execReleaseEnd x s)
    unfold execReleaseEnd
    exact .act (s.core.moves_progOp x 0 _ (fun _ _ _ => s.core.moves_finishProg ..))
  | nop _ => exact .act (s.core.moves_issue ..)
  | loop _ => exact .act (Core.moves_issue ..)
  | barrier _ => exact .act (Core.moves_issue ..)
  | endSeg _ => exact .act (Core.moves_issue ..)
  | aregSet _ => exact .act (Core.moves_issue ..)
  | aregAdd _ => exact .act (Core.moves_issue ..)
  | aregStep _ => exact .act (Core.moves_issue ..)
  | load _ => exact .act (Core.moves_issue ..)
  | pass _ => exact .act (Core.moves_issue ..)
  | forward _ => exact .act (Core.moves_issue ..)
  | sample _ => exact .act (Core.moves_issue ..)
  | merge _ => exact .act (Core.moves_issue ..)
  | deltaRowCheck _ => exact .act (s.core.moves_rowCheck ..)
  | drain _ => exact .act (Core.moves_issue ..)
  | stream _ => exact .act (Core.moves_issue ..)
  | reduce _ => exact .act (Core.moves_issue ..)
  | rule _ => exact .act (Core.moves_issue ..)
  | zero _ => exact .act (Core.moves_issue ..)
  | save _ => exact .act (Core.moves_issue ..)
  | restore _ => exact .act (Core.moves_issue ..)
  | copy _ => exact .act (Core.moves_issue ..)
  | pop _ => exact .act (Core.moves_issue ..)
  | retire _ => exact .act (Core.moves_issue ..)
  | openOut _ => exact .act (Core.moves_issue ..)
  | push _ => exact .act (Core.moves_issue ..)
  | inboundIssue _ => exact .reads (s.core.moves_inbound ..)
  | outboundIssue _ => exact .act (s.core.moves_outbound ..)
  | entryPresent _ _ _ _ => exact .act (s.core.moves_present ..)
  | writeAccepted _ _ => exact .stores (s.core.moves_accepted ..) (Core.accepted_wf _ _ _ _)
  | stallLimitExceeded _ => exact .act (s.core.moves_stallLimit ..)
  | swapOut _ => exact .stores (s.core.moves_swapOut ..) (Core.swapOut_wf _ _ _ _)
  | selfTestDone _ _ => exact .act (s.core.moves_selfTest ..)
  | stepSettle => exact .actT (s.core.moves_stepSettle ..)
  | tier2FetchDone i pages =>
    show Delivers _ s (execTier2FetchDone i pages s)
    unfold execTier2FetchDone
    exact .stores2 (f := fun c d => ((Core.fetchDone i pages c d).1.wake s.trim, (Core.fetchDone i pages c d).2)) (w := Core.tagParts)
      ((s.core.moves_fetchDone ..).mono.then (Core.moves_wake ..)) (Core.fetchDone_wf _ _ _ _)
  | tier2FetchFailed i code =>
    show Delivers _ s (execTier2FetchFailed i code s)
    unfold execTier2FetchFailed
    exact .reads2 (f := fun c _ => (c.fetchFail s.trim i (if code = 0x0A0B then 0x0A0B else 0x0A07)).wake s.trim)
      ((s.core.moves_fetchFail ..).mono.then (Core.moves_wake ..)) (w := Core.fetchParts)
  | tagListReceived i tags dome =>
    show Delivers _ s (execTagListReceived i tags dome s)
    unfold execTagListReceived
    exact .reads2 (f := fun c d => (Core.tagList s.trim i tags dome c d).wake s.trim) ((s.core.moves_tagList ..).then (Core.moves_wake ..))
  | eviction => exact .reads2 (s.core.moves_eviction ..)
  | writebackDone i =>
    show Delivers _ s (execWritebackDone i s)
    unfold execWritebackDone
    exact .reads2 (f := fun c d => (Core.writebackDone i c d).wake s.trim) (w := .free :: .chans :: .keep :: Core.fetchParts)
      ((s.core.moves_writebackDone ..).mono.then (Core.moves_wake ..))
  | tier0Copy _ _ _ => exact .reads2 (s.core.moves_tier0Copy ..)
  | tier0Reclaim => exact .reads2 (f := fun c _ => c.tier0Reclaim) s.core.moves_tier0Reclaim
  | memLineRead _ _ _ _ _ _ => exact .reads (s.core.moves_lineRead ..)
  | memLineWrite _ _ _ _ _ _ => exact .stores (s.core.moves_lineWrite ..) (Core.lineWrite_wf _ _ _ _)
  | checkByteRetry _ => exact .reads (s.core.moves_checkRetry ..)
  | scrub _ _ _ => exact .act (s.core.moves_scrub ..)
  | refresh _ => exact .act (s.core.moves_refresh ..)
  | refreshForced _ _ => exact .act (s.core.moves_refreshForced ..)
  | pkgTempChange _ _ => exact .act (s.core.moves_pkgTemp ..)
  | memoryInitDone _ _ => exact .act (s.core.moves_memoryInit ..)
  | slotEnableSet _ => exact .admin (s.core.moves_slotEnable ..)
  | slotEnableClear _ => exact .admin (s.core.moves_retireSel ..)
  | slotRetire _ => exact .admin (s.core.moves_retireSel ..)
  | retireBroadcast _ _ => exact .actT (s.core.moves_broadcast ..)
  | zeroization _ => exact .actT (s.core.moves_zeroization ..)
  | drainTimeout _ => exact .actT (s.core.moves_drainTimeout ..)
  | slotFreed _ => exact .act (s.core.moves_slotFreed ..)
  | keyInstall o =>
    show Delivers _ s (execKeyInstall o s)
    unfold execKeyInstall
    exact .act (w := .slots :: Core.sessParts) (s.core.moves_sessOp _ _ o _ (fun d _ _ _ => (d.moves_keyInstall ..).mono))
  | keyRetire o =>
    show Delivers _ s (execKeyRetire o s)
    unfold execKeyRetire
    exact .act (w := .slots :: Core.sessParts) (s.core.moves_sessOp _ _ o _ (fun d _ _ _ => .ite_pair (d.moves_retire _).mono (.refl d)))
  | sealSet o =>
    show Delivers _ s (execSealSet o s)
    unfold execSealSet
    exact .act (w := .dir :: Core.sessParts) (s.core.moves_tenantOp _ _ o _ (fun d _ _ => (d.moves_sealSet ..).mono))
  | sealGet o =>
    show Delivers _ s (execSealGet o s)
    unfold execSealGet
    exact .act (s.core.moves_tenantOp _ _ o _ (fun d _ _ => (d.moves_sealGet ..).mono) (w := Core.sessParts))
  | allowHash o =>
    show Delivers _ s (execAllowHash o s)
    unfold execAllowHash
    exact .act (w := .ctxs :: Core.sessParts) (s.core.moves_tenantOp _ _ o _ (fun d _ _ => (d.moves_allowHash ..).mono))
  | status o =>
    show Delivers _ s (execStatus o s)
    unfold execStatus
    exact .act (w := Core.sessParts) (s.core.moves_sessOp _ _ o _ (fun d _ _ _ => .ite_pair (.refl d) (.refl d)))
  | extract o =>
    show Delivers _ s (execExtract o s)
    unfold execExtract
    exact .brings (w := .free :: Core.sessParts) (s.core.moves_tenantOp _ _ o _ (fun d _ _ => (d.moves_extract ..).mono)) (.refl _)
  | baseKeyInstall o =>
    show Delivers _ s (execBaseKeyInstall o s)
    unfold execBaseKeyInstall
    exact .actT (f := fun tr => Core.sessOp 0x10 40 o (baseKeyInstall tr)) (w := .slots :: Core.sessParts)
      (s.core.moves_sessOp _ _ o _ (fun d _ _ _ => (d.moves_baseKeyInstall ..).mono))
  | getVersion via =>
    show Delivers _ s (execGetVersion via s)
    unfold execGetVersion
    exact .act (w := Core.replyParts) (s.core.moves_request_ _ _ _ (fun d => .refl d))
  | getCapabilities via =>
    show Delivers _ s (execGetCapabilities via s)
    unfold execGetCapabilities
    exact .act (w := Core.replyParts) (s.core.moves_request_ _ _ _ (fun d => .refl d))
  | negotiateAlgorithms via all =>
    show Delivers _ s (execNegotiateAlgorithms via all s)
    unfold execNegotiateAlgorithms
    exact .act (w := Core.replyParts) (s.core.moves_request_ _ _ _ (fun d => .ite_pair (.refl d) (.refl d)))
  | getDigests via =>
    show Delivers _ s (execGetDigests via s)
    unfold execGetDigests
    exact .act (w := Core.replyParts) (s.core.moves_request_ _ _ _ (fun d => .refl d))
  | getCertificate via slot => exact delivers_getCertificate s via slot
  | challenge via slot nonce summary => exact delivers_challenge s via slot nonce summary
  | getMeasurements via index slot nonce sign => exact delivers_getMeasurements s via index slot nonce sign
  | keyExchange via slot summary => exact delivers_keyExchange s via slot summary
  | finish via i verified =>
    show Delivers _ s (execFinish via i verified s)
    unfold execFinish
    exact .act (w := Core.sessParts) (s.core.moves_inSession _ _ i _ (fun d _ => .ite_left (.refl d)
      (.ite_pair (d.moves_setSession ..).mono (d.moves_dropSession _).mono)))
  | endSession via i =>
    show Delivers _ s (execEndSession via i s)
    unfold execEndSession
    exact .act (w := Core.sessParts) (s.core.moves_inSession _ _ i _ (fun d _ => (d.moves_dropSession _).mono))
  | heartbeat via i =>
    show Delivers _ s (execHeartbeat via i s)
    unfold execHeartbeat
    exact .act (w := Core.sessParts) (s.core.moves_inSession _ _ i _ (fun d _ => .refl d))
  | keyUpdate via i =>
    show Delivers _ s (execKeyUpdate via i s)
    unfold execKeyUpdate
    exact .act (w := Core.sessParts) (s.core.moves_inSession _ _ i _ (fun d _ => (d.moves_setSession ..).mono))
  | getCsr via i slot => exact delivers_getCsr s via i slot
  | setCertificate via i slot chain => exact delivers_setCertificate s via i slot chain
  | unsupportedSpdmRequest via code =>
    show Delivers _ s (execUnsupportedSpdmRequest via code s)
    unfold execUnsupportedSpdmRequest
    exact .act (w := Core.replyParts) (s.core.moves_request_ _ _ _ (fun d => .refl d))
  | sessionTimeout i => exact delivers_sessionTimeout s i
  | qEnableSet f q =>
    show Delivers _ s (execQEnableSet f q s)
    unfold execQEnableSet
    exact .act (s.core.moves_onPair f q _ (s.core.moves_setPair ..).mono)
  | qEnableClear f q =>
    show Delivers _ s (execQEnableClear f q s)
    unfold execQEnableClear
    exact .act (s.core.moves_onPair f q _ (s.core.moves_setPair ..).mono)
  | hstSqTail f q index =>
    show Delivers _ s (execHstSqTail f q index s)
    unfold execHstSqTail
    exact .act (s.core.moves_onPair f q _ (.ite (.refl _) (.ite (s.core.moves_stopPair ..).mono (s.core.moves_setPair ..).mono)))
  | hstCqHead f q index =>
    show Delivers _ s (execHstCqHead f q index s)
    unfold execHstCqHead
    exact .act (s.core.moves_onPair f q _ (.ite (.refl _) (.ite (s.core.moves_stopPair ..).mono (s.core.moves_setPair ..).mono)))
  | coalesceTimer _ _ => exact .act (s.core.moves_coalesce ..)
  | msixUnmask f vec =>
    show Delivers _ s (execMsixUnmask f vec s)
    unfold execMsixUnmask
    exact .act (w := [.ports, .ctr]) (s.core.moves_onBar2 _ _ _ (s.core.moves_unmask ..).mono)
  | submitSegment x =>
    show Delivers _ s (execSubmitSegment x s)
    unfold execSubmitSegment
    exact .actT (f := fun tr => Core.submit tr x) (s.core.moves_submit _ _)
  | imageHash x =>
    show Delivers _ s (execImageHash x s)
    unfold execImageHash
    exact .act (w := .keep :: Core.ctxParts) (.ite (.refl _) (s.core.moves_ctxCmd x _ _ (fun d _ _ _ _ => .ite (d.moves_refuse ..).mono
      (d.moves_updCtxD_complete ..).mono)))
  | imageHashClear x =>
    show Delivers _ s (execImageHashClear x s)
    unfold execImageHashClear
    exact .act (w := .keep :: Core.ctxParts) (.ite (.refl _) (s.core.moves_ctxCmd x _ _ (fun d _ _ _ _ => (d.moves_updCtxD_complete ..).mono)))
  | contextCreate _ => exact .act (s.core.moves_createCtx ..)
  | contextWrite _ => exact .act (s.core.moves_writeCtx ..)
  | contextEnable x =>
    show Delivers _ s (execContextEnable x s)
    unfold execContextEnable
    exact .actT (f := fun tr => Core.ctxEnable tr x) (s.core.moves_ctxEnable _ _)
  | contextDisable x =>
    show Delivers _ s (execContextDisable x s)
    unfold execContextDisable
    exact .actT (f := fun tr c => if bit (hArg x.entry 0x20 1) 0 then c else _) (w := .failN :: Core.disableParts)
      (.ite (.refl _) (s.core.moves_ctxCmd x _ _ (fun d _ _ _ _ => (d.moves_disableCtx ..).mono.then (Core.moves_complete ..))))
  | contextDelete x =>
    show Delivers _ s (execContextDelete x s)
    unfold execContextDelete
    exact .act (w := .dir :: .runs :: Core.ctxParts) (s.core.moves_ctxCmd x _ _ (fun d _ _ _ _ => .ite (d.moves_refuse ..).mono
      ((d.moves_deleteCtx _).mono.then (Core.moves_complete ..))))
  | contextRead x =>
    show Delivers _ s (execContextRead x s)
    unfold execContextRead
    exact .act (w := Core.ctxParts) (s.core.moves_ctxCmd x _ _ (fun d _ _ _ _ => (d.moves_dma ..).mono.then (Core.moves_complete ..)))
  | loadChain x => exact delivers_loadChain x s
  | loadRules x => exact delivers_loadRules x s
  | loadGroups x => exact delivers_loadGroups x s
  | loadSchedule x => exact delivers_loadSchedule x s
  | advanceStep x => exact delivers_advanceStep x s
  | loadRelease x => exact delivers_loadRelease x s
  | adaptRegister x =>
    show Delivers _ s (execAdaptRegister x s)
    unfold execAdaptRegister
    exact .actT (f := fun tr => Core.register tr x) (s.core.moves_register _ _)
  | adaptRead x =>
    show Delivers _ s (execAdaptRead x s)
    unfold execAdaptRead
    exact .act (w := Core.adaptParts) (s.core.moves_adaptCmd x _ _ (fun d _ _ _ => (d.moves_dma ..).mono.then (Core.moves_complete ..)))
  | adaptRemove _ => exact .act (s.core.moves_removeAdapt ..)
  | adaptPrefetch x =>
    show Delivers _ s (execAdaptPrefetch x s)
    unfold execAdaptPrefetch
    exact .actT (f := fun tr => Core.prefetch tr x) (s.core.moves_prefetch _ _)
  | adaptWriteback _ => exact .reads (s.core.moves_writeback ..)
  | adaptRewrap _ => exact .stores (s.core.moves_rewrap ..) (Core.rewrap_wf _ _ _)
  | baseLoad _ => exact .reads (s.core.moves_loadBase ..)
  | baseLoadDone _ _ => exact .stores (s.core.moves_baseDone ..) (Core.baseDone_wf _ _ _ _)
  | baseFree x =>
    show Delivers _ s (execBaseFree x s)
    unfold execBaseFree
    exact .actT (f := fun tr => Core.freeBaseSlot tr x) (s.core.moves_freeBaseSlot _ _)
  | functionLevelReset f =>
    show Delivers _ s (execFunctionLevelReset f s)
    unfold execFunctionLevelReset
    exact .actT (f := fun tr c => c.flr tr f) (s.core.moves_flr _ _)
  | flrComplete _ => exact .act (s.core.moves_flrDone ..)
  | getTdispVersion f =>
    show Delivers _ s (execGetTdispVersion f s)
    unfold execGetTdispVersion
    exact .act (s.core.moves_tdisp ..)
  | getTdispCapabilities f =>
    show Delivers _ s (execGetTdispCapabilities f s)
    unfold execGetTdispCapabilities
    exact .act (s.core.moves_tdisp ..)
  | lockInterface f => exact .act (s.core.moves_tdisp ..)
  | getDeviceInterfaceReport f =>
    show Delivers _ s (execGetDeviceInterfaceReport f s)
    unfold execGetDeviceInterfaceReport
    exact .act (s.core.moves_tdisp ..)
  | getDeviceInterfaceState f =>
    show Delivers _ s (execGetDeviceInterfaceState f s)
    unfold execGetDeviceInterfaceState
    exact .act (s.core.moves_tdisp ..)
  | startInterface f =>
    show Delivers _ s (execStartInterface f s)
    unfold execStartInterface
    exact .act (s.core.moves_tdisp ..)
  | stopInterface f =>
    show Delivers _ s (execStopInterface f s)
    unfold execStopInterface
    exact .act (s.core.moves_tdisp ..)
  | ideKm _ _ _ _ => exact .act (s.core.moves_ideKm ..)
  | ideIntegrityFailure _ _ => exact .actT (s.core.moves_ideFailure ..)
  | configWriteLocked f =>
    show Delivers _ s (execConfigWriteLocked f s)
    unfold execConfigWriteLocked
    exact .actT (f := fun tr c => if (c.fn f).tdi = .locked ∨ (c.fn f).tdi = .run then c.tdiError tr f else c)
      (.ite (s.core.moves_tdiError ..) (.refl _))
  | pcieLinkTrained _ _ _ => exact .act (s.core.moves_pcieTrained ..)
  | hstVfEnableSet _ _ => exact .admin (s.core.moves_vfEnable ..)
  | hstVfEnableClear f port =>
    show Delivers _ s (execHstVfEnableClear f port s)
    unfold execHstVfEnableClear
    exact .actT (f := fun tr c => if f = tr.admin then c.vfDisable tr (c.selFn port) else c) (.ite (s.core.moves_vfDisable ..) (.refl _))
  | vfEnableChange _ _ => exact .actT (s.core.moves_vfChange ..)
  | perst _ => exact .actT (s.core.moves_perst ..)
  | lnkEnableSet _ _ => exact .admin (s.core.moves_linkEnable ..)
  | lnkEnableClear f k =>
    show Delivers _ s (execLnkEnableClear f k s)
    unfold execLnkEnableClear
    exact .actT (f := fun tr c => if f = tr.admin then Core.linkDisable k tr c else c) (.ite (s.core.moves_linkDisable ..) (.refl _))
  | linkTrained _ _ => exact .act (s.core.moves_linkTrained ..)
  | linkKeyed _ _ _ _ => exact .actT (s.core.moves_linkKeyed ..)
  | linkBringupTimeout _ => exact .act (s.core.moves_bringupLate ..)
  | linkDown k =>
    show Delivers _ s (execLinkDown k s)
    unfold execLinkDown
    exact .actT (f := fun tr c => if (c.link k).replay.any (fun x => decide (x.times ≥ 8)) then (c.linkDown tr k).wake tr else c)
      (.ite ((s.core.moves_linkDown ..).then (Core.moves_wake ..)) (.refl _))
  | linkCtl _ _ => exact .actT (s.core.moves_linkCtl ..)
  | ackTimer _ => exact .act (s.core.moves_ackTimer ..)
  | fetchReq k fr =>
    show Delivers _ s (execFetchReq k fr s)
    unfold execFetchReq
    exact .reads (f := fun c d => Core.rx k 0x02 fr (Core.routed k fr (Core.forwardReq k) (Core.serve k d)) c)
      (s.core.moves_rx _ _ _ _ (fun d => d.moves_routed _ _ _ _ (fun _ => (d.moves_forwardReq ..).mono) (fun _ => d.moves_serve ..)))
  | fetchData k fr =>
    show Delivers _ s (execFetchData k fr s)
    unfold execFetchData
    exact .reads (f := fun c d => Core.fetchData k fr s.trim d c) (s.core.moves_fetchData ..)
  | fetchEnd k fr =>
    show Delivers _ s (execFetchEnd k fr s)
    unfold execFetchEnd
    exact .reads (f := fun c d => Core.fetchEnd k fr s.trim d c) (s.core.moves_fetchEnd ..)
  | writeData _ _ => exact .stores (s.core.moves_writeData ..) (Core.writeData_wf _ _ _ _ _)
  | cadence _ _ => exact .act (s.core.moves_cadenceIn ..)
  | cadenceSend _ _ => exact .act (s.core.moves_cadenceSend ..)
  | delayMeasure _ => exact .act (s.core.moves_delayMeasure ..)
  | delayReq k fr =>
    show Delivers _ s (execDelayReq k fr s)
    unfold execDelayReq
    exact .act (s.core.moves_rx _ _ _ _ (fun d => d.moves_send ..))
  | delayResp _ _ => exact .act (s.core.moves_delayResp ..)
  | attest k fr =>
    show Delivers _ s (execAttest k fr s)
    unfold execAttest
    exact .act (w := [.links, .ctr, .keep]) (s.core.moves_rx _ _ _ _ (fun d => d.moves_routed _ _ _ _ (fun _ => (d.moves_passOn _).mono)
      (fun _ => (d.moves_attestIn _).mono)))
  | retireMarker k fr =>
    show Delivers _ s (execRetireMarker k fr s)
    unfold execRetireMarker
    exact .act (s.core.moves_rx _ _ _ _ (fun d => d.moves_retireMarker ..))
  | retireAck _ _ => exact .actT (s.core.moves_retireAck ..)
  | spdmFrame k fr =>
    show Delivers _ s (execSpdmFrame k fr s)
    unfold execSpdmFrame
    exact .act (w := [.links, .ctr]) (s.core.moves_rx _ _ _ _ (fun d => .refl d))
  | rekeyThreshold _ => exact .act (s.core.moves_rekey ..)
  | frameCounterLimit k =>
    show Delivers _ s (execFrameCounterLimit k s)
    unfold execFrameCounterLimit
    exact .actT (f := fun tr c => if (c.link k).st = .up ∧ (c.link k).txCount ≥ frameLimit then
        ((c.raise (sysEvent 0x0708 0 0 0 k)).linkDown tr k).wake tr else c)
      (.ite (((s.core.moves_raise _).mono.then (Core.moves_linkDown ..)).then (Core.moves_wake ..)) (.refl _)) (w := Core.linkParts)
  | transferDeadline => exact .actT (s.core.moves_deadline ..)
  | stage f img =>
    show Delivers _ s (execStage f img s)
    unfold execStage
    exact .actT (f := fun tr => Core.fwAct f (Core.stage img tr) tr) (s.core.moves_fwAct _ _ _ (fun k => s.core.moves_stage ..))
  | stagingDone _ => exact .act (s.core.moves_stagingDone ..)
  | activate f =>
    show Delivers _ s (execActivate f s)
    unfold execActivate
    exact .actT (s.core.moves_fwAct _ _ _ (fun k => s.core.moves_activate ..))
  | activationDone ok => exact delivers_activationDone s ok
  | commitSvn f =>
    show Delivers _ s (execCommitSvn f s)
    unfold execCommitSvn
    exact .actT (s.core.moves_fwAct _ _ _ (fun k => s.core.moves_commitSvn ..))
  | discard f =>
    show Delivers _ s (execDiscard f s)
    unfold execDiscard
    exact .actT (s.core.moves_fwAct _ _ _ (fun k => s.core.moves_discard ..))
  | kepLogSel _ _ => exact .admin (s.core.moves_logSelect ..)
  | bootStage _ => exact .act (s.core.moves_boot ..)
  | powerUp => exact delivers_powerUp s
  | inputBandChange vin => exact delivers_input s (fun p => by cases p <;> rfl) rfl rfl rfl
  | overVoltage vin => exact delivers_overVoltage s vin
  | holdoverEntry _ => exact .act (s.core.moves_holdoverEntry ..)
  | holdoverExit _ => exact .act (s.core.moves_holdoverExit ..)
  | orderlyStop _ => exact .act (s.core.moves_orderlyStop ..)
  | orderlyStopYieldEnd => exact .actT (s.core.moves_yieldEnd ..)
  | pfSafe => exact .actT (s.core.moves_pfSafe ..)
  | resume _ => exact .admin (s.core.moves_resume ..)
  | rippleMeasure _ _ => exact .act (s.core.moves_ripple ..)
  | prcEnvelopeApply _ => exact .admin (s.core.moves_envelopeApply ..)
  | envelopeInForce => exact .act (s.core.moves_envelopeForce ..)
  | forecastSnap _ => exact .admin (s.core.moves_snapshot ..)
  | overdraw _ => exact .act (s.core.moves_overdraw ..)
  | overdrawClear =>
    show Delivers _ s (execOverdrawClear s)
    unfold execOverdrawClear
    exact .act ((s.core.moves_blf _).trans (Core.moves_cleared ..))
  | droop _ _ => exact .actT (s.core.moves_droop ..)
  | droopClear _ _ => exact .actT (s.core.moves_droopClear ..)
  | thermalSample _ _ => exact .actT (s.core.moves_thermalSample ..)
  | neighbourLimit _ _ _ _ => exact .actT (s.core.moves_neighbourLimit ..)
  | neighbourClear =>
    show Delivers _ s (execNeighbourClear s)
    unfold execNeighbourClear
    exact .act ((s.core.moves_blf _).trans (Core.moves_cleared ..))
  | regionFence _ _ _ => exact .actT (s.core.moves_regionFence ..)
  | thermalTrip sensor temp => exact delivers_thermalTrip s sensor temp
  | pwrgdInDeasserted => exact delivers_pwrgdInDeasserted s
  | recordWrite => exact delivers_recordWrite s
  | tokenAdd code => exact delivers_tokenAdd s code
  | evrClear f => exact delivers_evrClear s f
  | evrTime f v => exact delivers_evrTime s f v
  | evrEnableSet f => exact delivers_evrEnableSet s f
  | evrEnableClear f => exact delivers_evrEnableClear s f
  | failClear f => exact delivers_failClear s f
  | warm f =>
    show Delivers _ s (execWarm f s)
    unfold execWarm
    exact .actT (f := fun tr c => if f = tr.admin then c.warm tr else c) (.ite (s.core.moves_warm _) (.refl _))
  | regionReset f =>
    show Delivers _ s (execRegionReset f s)
    unfold execRegionReset
    exact .actT (f := fun tr c => if f = tr.admin then c.regionReset tr else c) (.ite (s.core.moves_regionReset _) (.refl _))
  | regionResetDone _ => exact .act (s.core.moves_regionResetDone ..)
  | cold f => exact delivers_cold s f

end Sys2Proof.Machine

/-! Delivery, and the statements on every command and every step. -/

namespace Sys2Proof.Machine

set_option Elab.async false

/-! ## What delivery leaves unchanged -/

section Deliver

variable (u : State) (st : Stamp)

/-- Delivery empties what waits; beside it an interrupt may pend and FAIL_N be asserted. -/
theorem State.deliver_moves : { u.core with outbox := [] }.Moves [.ports, .failN] (u.deliver st).core := by
  unfold State.deliver
  exact (Core.Moves.ite ((Core.moves_fire _ _ _).mono) (.refl _)).trans (.ite ((Core.moves_failN _ _).mono) (.refl _))

theorem State.deliver_view (p : Part) (h : [Part.ports, Part.failN].contains p = false) : p.view (u.deliver st).core = p.view u.core :=
  ((u.deliver_moves st).frame p h).trans (by cases p <;> rfl)

theorem State.deliver_formed (h : u.core.Formed) : (u.deliver st).core.Formed := (u.deliver_moves st).formed { h with }

theorem Core.port_rising {c : Core} (h : ∀ p ∈ c.ports, p.fns.rising = true) {k : Nat} (hk : k < c.ports.length) :
    (c.port k).fns.rising = true := by
  refine h _ ?_
  rw [Core.port, List.getD_eq_getElem?_getD, List.getElem?_eq_getElem hk]
  exact List.getElem_mem hk

theorem Core.setFn_of_no_port {c : Core} {f : FnId} (h : ¬ f.port < c.ports.length) (x : HostFn) : c.setFn f x = c := by
  unfold Core.setFn Core.setPort
  rw [List.set_eq_of_length_le (by omega)]

/-- A vector that fires leaves of every function all but its MSI-X table. -/
theorem Core.fn_fire {c : Core} (h : ∀ p ∈ c.ports, p.fns.rising = true) (f g : FnId) (v : Nat) :
    (c.fire f v).fn g = { c.fn g with msix := ((c.fire f v).fn g).msix } := by
  unfold Core.fire
  dsimp only
  split
  · rfl
  split
  · by_cases hp : f.port < c.ports.length
    · rw [Core.fn_setFn _ _ _ _ hp (Core.port_rising h hp)]
      split
      · next hg => subst hg; rfl
      · rfl
    · rw [Core.setFn_of_no_port hp]
  · rfl

theorem Core.fn_failN (c : Core) (n : Nat) (g : FnId) : (c.failN n).fn g = c.fn g := by
  unfold Core.failN
  split <;> rfl

theorem State.deliver_fn (h : ∀ p ∈ u.core.ports, p.fns.rising = true) (g : FnId) :
    (u.deliver st).core.fn g = { u.core.fn g with msix := ((u.deliver st).core.fn g).msix } := by
  have hfail : ∀ (b : Bool) (c : Core), (if b then c.failN 1 else c).fn g = c.fn g := fun b c => by
    cases b
    · rfl
    · exact c.fn_failN 1 g
  unfold State.deliver
  dsimp only
  rw [hfail]
  split
  · exact Core.fn_fire (c := { u.core with outbox := [] }) h _ g _
  · rfl

end Deliver

/-! ## Every command -/

section Commands

variable {i : Instr} {s t : State}

/-- What a command answers is its state delivered. -/
theorem acts_of_exec (h : exec i s = .next t) : ∃ u st, t = u.deliver st ∧ Acts i s u := by
  obtain ⟨u, st, hu, ha⟩ := exec_delivers i s
  exact ⟨u, st, (Host.Outcome.next.inj (h.symm.trans hu)), ha⟩

/-- A part that a command may not move stays, but for what delivery may touch. -/
theorem view_of_exec (h : exec i s = .next t) (p : Part) (hp : mayMove i p = false) (hd : [Part.ports, Part.failN].contains p = false) :
    p.view t.core = p.view s.core := by
  obtain ⟨u, st, rfl, ha⟩ := acts_of_exec h
  exact (u.deliver_view st p hd).trans (ha.frame p hp)

theorem formed_of_exec (hs : s.formed) (h : exec i s = .next t) : t.formed := by
  obtain ⟨u, st, rfl, ha⟩ := acts_of_exec h
  obtain ⟨hcore, hevr⟩ := s.formed_iff.1 hs
  exact (State.formed_iff _).2 ⟨u.deliver_formed st (ha.formed hcore),
    (Evr.brings_takeAll st u.core.outbox u.evr).buckets (ha.evr.buckets hevr)⟩

theorem ok_of_exec (hs : s.evr.ok) (h : exec i s = .next t) : t.evr.ok := by
  obtain ⟨u, st, rfl, ha⟩ := acts_of_exec h
  exact (Evr.brings_takeAll st u.core.outbox u.evr).ok (ha.evr.ok hs)

theorem wf_of_exec (hs : s.dram.wf = true) (h : exec i s = .next t) : t.dram.wf = true := by
  obtain ⟨u, st, rfl, ha⟩ := acts_of_exec h
  exact ha.canonical hs

end Commands

/-- Settles O3: each command answers the delivery of a state it acts to. -/
theorem everyCommandAnswers : Obligations.EveryCommandAnswers := by
  intro i s
  obtain ⟨u, st, hu, ha⟩ := exec_delivers i s
  exact ⟨_, hu, ha.pending, ha.trim, u.deliver_outbox st⟩

/-- Settles O6: the recorder takes what a command sends it without a change of the records. -/
theorem recordsKept : Obligations.RecordsKept := by
  intro i s t h hp hc
  obtain ⟨u, st, rfl, ha⟩ := acts_of_exec h
  rw [State.deliver_evr, (Evr.brings_takeAll st u.core.outbox u.evr).records]
  exact ha.records hp hc

/-! ## Every step -/

/-- One beat, before its delivery. -/
def Core.beat (c : Core) : Core := if c.prc.powered then c.tick else c

theorem Core.moves_beat (c : Core) : c.Moves tickParts c.beat := .ite c.moves_tick (.refl c)

theorem idle_next (s : State) : idle s = .next (s.after s.core.beat) := rfl

/-- A step is a beat or a command on the state with the queue's rest. -/
theorem step_cases {s t : State} (h : step s = .next t) :
    t = s.after s.core.beat ∨ ∃ i rest, exec i { s with pending := rest } = .next t := by
  unfold step at h
  split at h
  · exact .inl (Host.Outcome.next.inj ((idle_next s).symm.trans h)).symm
  · next i rest _ => exact .inr ⟨i, rest, h⟩

/-- Settles O5: a beat and a command both keep the recorder's bounds. -/
theorem recorderBounded : Obligations.RecorderBounded := by
  intro s t hs h
  rcases step_cases h with rfl | ⟨i, rest, h⟩
  · exact (Evr.brings_takeAll _ _ s.evr).ok hs
  · exact ok_of_exec (s := { s with pending := rest }) hs h

/-- Settles O7: a beat leaves external memory alone, and every command that stores keeps the form. -/
theorem dramCanonical : Obligations.DramCanonical := by
  intro s t hs h
  rcases step_cases h with rfl | ⟨i, rest, h⟩
  · exact hs
  · exact wf_of_exec (s := { s with pending := rest }) hs h

/-- Settles O8: a beat and a command both keep the form. -/
theorem stateFormed : Obligations.StateFormed := by
  intro s t hs h
  rcases step_cases h with rfl | ⟨i, rest, h⟩
  · obtain ⟨hcore, hevr⟩ := s.formed_iff.1 hs
    exact (State.formed_iff _).2 ⟨State.deliver_formed _ _ (s.core.moves_beat.formed hcore),
      (Evr.brings_takeAll _ _ s.evr).buckets hevr⟩
  · exact formed_of_exec (s := { s with pending := rest }) hs h

/-! ## The frames -/

section Frames

variable {c d : Core}

theorem gate_eq (hb : Part.bases.view d = Part.bases.view c) (hp : Part.pool.view d = Part.pool.view c)
    (hc : Part.cores.view d = Part.cores.view c) (hr : Part.gateRefs.view d = Part.gateRefs.view c)
    (ho : Part.posts.view d = Part.posts.view c) : d.gate = c.gate := by
  obtain ⟨hunits, hcopies⟩ := Prod.mk.inj hp
  have hc : (d.gate.ready, d.gate.run, d.gate.halted, d.gate.stopping) = (c.gate.ready, c.gate.run, c.gate.halted, c.gate.stopping) := hc
  have hr : (d.gate.refCode, d.gate.refCtx, d.gate.refFn, d.gate.refArgs) = (c.gate.refCode, c.gate.refCtx, c.gate.refFn, c.gate.refArgs) := hr
  have hb : d.gate.bases = c.gate.bases := hb
  have ho : d.gate.posts = c.gate.posts := ho
  cases hd : d.gate
  cases hc : c.gate
  simp_all

theorem mem_eq (hr : Part.runs.view d = Part.runs.view c) (hc : Part.chans.view d = Part.chans.view c) : d.mem = c.mem := by
  have hr : d.mem.runs = c.mem.runs := hr
  have hc : (d.mem.ctls, d.mem.retries, d.mem.last, d.mem.bad, d.mem.banks, d.mem.badRoots) =
      (c.mem.ctls, c.mem.retries, c.mem.last, c.mem.bad, c.mem.banks, c.mem.badRoots) := hc
  cases hd : d.mem
  cases hc : c.mem
  simp_all

theorem keep_eq (hs : Part.slots.view d = Part.slots.view c) (hn : Part.sessions.view d = Part.sessions.view c)
    (hf : Part.fws.view d = Part.fws.view c) (ho : Part.kout.view d = Part.kout.view c) (hk : Part.keep.view d = Part.keep.view c) :
    d.keep = c.keep := by
  have hs : d.keep.slots = c.keep.slots := hs
  obtain ⟨hsessions, hnext⟩ := Prod.mk.inj hn
  have hf : (d.keep.fws, d.keep.fwState, d.keep.fwKind, d.keep.fwNew) = (c.keep.fws, c.keep.fwState, c.keep.fwKind, c.keep.fwNew) := hf
  have ho : d.keep.out = c.keep.out := ho
  have hk : ({ d.keep with slots := [], sessions := [], nextSession := 0, fws := [], fwState := 0, fwKind := 0, fwNew := none, out := [] } : Keep) =
      { c.keep with slots := [], sessions := [], nextSession := 0, fws := [], fwState := 0, fwKind := 0, fwNew := none, out := [] } := hk
  cases hd : d.keep
  cases hc : c.keep
  simp_all

end Frames

/-- Settles O10: each part is one that a command outside its list may not move. -/
theorem frameClocksAndSupply : Obligations.FrameClocksAndSupply := by
  refine ⟨fun _ _ _ h => ⟨fun hm => ⟨view_of_exec h .clk hm rfl, view_of_exec h .tref hm rfl⟩, fun hm => view_of_exec h .blf hm rfl,
    fun hm => view_of_exec h .cadence hm rfl⟩,
    fun _ _ _ h => ⟨fun hm => view_of_exec h .pow hm rfl, fun hm => ⟨view_of_exec h .prc hm rfl, view_of_exec h .trip hm rfl⟩⟩,
    fun _ _ _ h => ⟨fun hm => view_of_exec h .regs hm rfl, fun hm => view_of_exec h .locks hm rfl,
      fun hm => view_of_exec h .ctr hm rfl, fun hm => ?_⟩⟩
  obtain ⟨u, st, rfl, ha⟩ := acts_of_exec h
  exact Evr.sameSetup_trans (ha.setup hm) (Evr.brings_takeAll st u.core.outbox u.evr).setup

/-- Settles O11: each part is one that a command outside its list may not move. -/
theorem frameTowersAndSegments : Obligations.FrameTowersAndSegments :=
  ⟨fun _ _ _ h hm => view_of_exec h .towers hm rfl,
    fun _ _ _ h => ⟨fun hm => ⟨view_of_exec h .segs hm rfl, view_of_exec h .nextSeg hm rfl⟩, fun hm => view_of_exec h .ctxs hm rfl,
      fun hm => view_of_exec h .dir hm rfl,
      fun hm => gate_eq (view_of_exec h .bases hm rfl) (view_of_exec h .pool hm rfl) (view_of_exec h .cores hm rfl)
        (view_of_exec h .gateRefs hm rfl) (view_of_exec h .posts hm rfl)⟩⟩

/-- Settles O12: each part is one that a command outside its list may not move; an interrupt of the recorder may still pend. -/
theorem frameMemoryKeepAndLinks : Obligations.FrameMemoryKeepAndLinks := by
  refine ⟨fun i s t h => ⟨fun hm => mem_eq (view_of_exec h .runs hm rfl) (view_of_exec h .chans hm rfl), fun hm => ?_⟩,
    fun _ _ _ h hm => keep_eq (view_of_exec h .slots hm rfl) (view_of_exec h .sessions hm rfl) (view_of_exec h .fws hm rfl)
      (view_of_exec h .kout hm rfl) (view_of_exec h .keep hm rfl),
    fun i s t h => ⟨fun hm => view_of_exec h .links hm rfl, fun hm => Prod.mk.inj (view_of_exec h .xfers hm rfl), fun hm hr f => ?_⟩⟩
  · obtain ⟨u, st, rfl, ha⟩ := acts_of_exec h
    exact ha.dram hm
  · obtain ⟨u, st, rfl, ha⟩ := acts_of_exec h
    have hports : u.core.ports = s.core.ports := ha.frame .ports hm
    have hfn : u.core.fn f = s.core.fn f := by
      unfold Core.fn Core.port
      rw [hports]
    rw [← hfn]
    exact u.deliver_fn st (hports ▸ hr) f

/-! ## The queue -/

/-- What a command answers, with another queue. -/
def requeue (q : List Instr) : Host.Outcome State Fault Refusal → Host.Outcome State Fault Refusal
  | .next t => .next { t with pending := q }
  | .fault r => .fault r
  | .refused r => .refused r

theorem input_requeue (vin : Nat) (s : State) (q : List Instr) : { s with pending := q }.input vin = requeue q (s.input vin) := by
  unfold State.input
  dsimp only
  split
  · rfl
  · split <;> rfl

/-- No meaning looks at the queue: but for a loss of power, which some inputs bring, a meaning is one equation of the state. -/
theorem exec_requeue (i : Instr) (s : State) (q : List Instr) : exec i { s with pending := q } = requeue q (exec i s) := by
  cases i
  case inputBandChange vin => exact input_requeue vin s q
  case overVoltage vin =>
    simp only [exec, execOverVoltage]
    split
    · exact input_requeue vin s q
    · rfl
  case powerUp => simp only [exec, execPowerUp]; split <;> rfl
  case evrTime f v => simp only [exec, execEvrTime]; split <;> rfl
  case thermalTrip sensor temp => simp only [exec, execThermalTrip]; split <;> rfl
  case pwrgdInDeasserted => simp only [exec, execPwrgdInDeasserted]; split <;> rfl
  case cold f => simp only [exec, execCold]; split <;> rfl
  all_goals rfl

/-- A command's effect on a state is the one on the same state with another queue. -/
theorem runs_requeue (cs : List Instr) (s : State) (q : List Instr) :
    State.runs { s with pending := q } cs = { s.runs cs with pending := q } := by
  induction cs generalizing s with
  | nil => rfl
  | cons i cs ih =>
    obtain ⟨t, ht, -⟩ := everyCommandAnswers i s
    have hq : exec i { s with pending := q } = .next { t with pending := q } := by rw [exec_requeue, ht]; rfl
    calc State.runs { s with pending := q } (i :: cs)
        = State.runs { t with pending := q } cs := by unfold State.runs; rw [List.foldl_cons, hq]
      _ = { s.runs (i :: cs) with pending := q } := by rw [ih t]; unfold State.runs; rw [List.foldl_cons, ht]

theorem run_of_step (M : Host.Core) {s t : M.State} {k : Nat} (h : M.step s = .next t) : M.run (k + 1) s = M.run k t := by
  rw [Host.Core.run, h]

/-- Settles O4, by induction on the commands at the front: each step takes one and leaves the rest queued. -/
theorem queueIsFifo : Obligations.QueueIsFifo := by
  intro cs rest s
  induction cs generalizing s with
  | nil => rfl
  | cons i cs ih =>
    obtain ⟨t, ht, -⟩ := everyCommandAnswers i s
    have hq : exec i { s with pending := cs ++ rest } = .next { t with pending := cs ++ rest } := by rw [exec_requeue, ht]; rfl
    calc core.run (cs.length + 1) { s with pending := i :: (cs ++ rest) }
        = core.run cs.length { t with pending := cs ++ rest } := run_of_step core hq
      _ = .next { s.runs (i :: cs) with pending := rest } := by rw [ih t]; unfold State.runs; rw [List.foldl_cons, ht]

end Sys2Proof.Machine

/-! The statements of tier 1: a step, the idle beat, the reset, the administration PF. -/

namespace Sys2Proof.Machine

set_option Elab.async false

/-- Settles O1: it is the definition of a step. -/
theorem stepRunsFront : Obligations.StepRunsFront := fun _ _ _ => rfl

/-! ## The idle beat -/

section Beat

variable (c : Core)

/-- What closes a beat leaves the clocks. -/
theorem Core.closeBeat_clk : c.markParked.startProgs.dueChecks.clk = c.clk :=
  ((((c.moves_markParked).mono (w := [.segs, .ctxs, .towers, .pow])).then (Core.moves_startProgs _)).then
    (Core.moves_dueChecks _)).frame .clk rfl

theorem Core.closeWindow_clk : (c.bump 0x10_0130 (Config.freeNat c.free)).fresh.windowOver.clk = c.clk :=
  ((((c.moves_bump 0x10_0130 (Config.freeNat c.free)).mono (w := [.ctr, .free, .pow])).then (Core.moves_fresh _)).then
    (Core.moves_windowOver _)).frame .clk rfl

/-- A beat leaves the clocks at their next value. -/
theorem Core.tick_clk : c.tick.clk = c.clk.tick c.eighths := by
  unfold Core.tick
  extract_lets k inc d d1 blf d2 d3
  rw [Core.closeBeat_clk]
  show (if k.first = true then (d2.bump 0x10_0130 (Config.freeNat d2.free)).fresh.windowOver else d2).clk = k
  split
  · exact Core.closeWindow_clk d2
  · rfl

end Beat

/-- Settles O2: the beat of a powered module is a tick of its clocks; one that is off does not change. -/
theorem idleBeat : Obligations.IdleBeat := by
  intro s hs
  refine ⟨s.after s.core.beat, by unfold step; rw [hs]; rfl, hs, rfl, rfl, fun hp => ?_, fun hp => ?_⟩
  · rw [State.after_clk, Core.beat, if_pos hp, Core.tick_clk]
    exact ⟨rfl, rfl, rfl⟩
  · rw [State.after_clk, State.after_towers, Core.beat, if_neg (by simp [hp])]
    exact ⟨rfl, rfl⟩

/-! ## The module at reset -/

/-- The statement reads a forwarding register past its 256: entry 1,794,054 stands at the offset of tower 0's stall limit, which
starts at 2^24. -/
theorem reset_fwd_out_of_range : State.reset.core.reg (offFwd 1794054) = 0x100_0000 := by decide

/-- Refutes O9: its last clause speaks of the forwarding register of every number, and past the table's end the offset is that of
another register, which does not start at 0. -/
theorem not_resetState : ¬ Obligations.ResetState := by
  rintro ⟨-, -, -, hcore, -⟩
  obtain ⟨-, -, -, -, -, -, -, -, -, -, -, -, -, -, -, -, hfwd⟩ := hcore
  exact absurd ((hfwd 1794054).symm.trans reset_fwd_out_of_range) (by decide)

/-! ## Commands of the administration PF -/

section Foreign

variable {s : State} {f : FnId} (hf : f ≠ s.trim.admin)

include hf

theorem adminAct_foreign (g : Core → Core) : adminAct f g s = .next (s.after s.core) := by
  rw [adminAct, State.actT_next, if_neg hf]

theorem fwAct_foreign (g : Nat → Core → Core) : Core.fwAct f g s.trim s.core = s.core := by
  rw [Core.fwAct, if_neg (fun h => hf h.1)]

omit hf in
/-- A meaning of the recorder that leaves the state is no command. -/
theorem actE_foreign {g : Trim → Core → Evr → Core × Evr} (h : g s.trim s.core s.evr = (s.core, s.evr)) :
    s.actE g = .next (s.after s.core) := by
  rw [State.actE_next, h]
  rfl

theorem adminEvr_foreign (g : Trim → Core → Evr → Core × Evr) : adminEvr f g s = .next (s.after s.core) :=
  actE_foreign (if_neg hf)

theorem registerWrite_foreign (off size v : Nat) (via : Option Nat) :
    registerWrite f 0 off size v via s.trim s.core s.evr = (s.core, s.evr) := by
  unfold registerWrite
  split
  · rfl
  · rw [if_neg (by decide), if_neg (fun h => hf h.2)]

end Foreign

/-- Settles O13: each of these commands asks first whether the administration PF sent it. -/
theorem administrationOnly : Obligations.AdministrationOnly := by
  intro i s f hi hs hf
  cases i
  case registerWrite r bar off size v =>
    obtain rfl : bar = 0 := by simpa [Instr.adminOnly] using hi
    cases hs
    exact actE_foreign (registerWrite_foreign hf off size v r.via)
  case lock g off | cntClear g off =>
    cases hs
    exact actE_foreign (g := fun tr c e => _) (if_neg (fun h => hf h.1))
  case blfRunSet g | blfRunClear g | segAdmitSet g | segAdmitClear g | blfCpRead g | slotEnableSet g | slotEnableClear g | slotRetire g |
      hstVfEnableSet g _ | lnkEnableSet g _ | kepLogSel g _ | resume g | prcEnvelopeApply g | forecastSnap g =>
    cases hs
    simp only [exec, execBlfRunSet, execBlfRunClear, execSegAdmitSet, execSegAdmitClear, execBlfCpRead, execSlotEnableSet,
      execSlotEnableClear, execSlotRetire, execHstVfEnableSet, execLnkEnableSet, execKepLogSel, execResume, execPrcEnvelopeApply,
      execForecastSnap, adminAct_foreign hf]
  case hstVfEnableClear g _ | lnkEnableClear g _ | warm g | regionReset g =>
    cases hs
    simp only [exec, execHstVfEnableClear, execLnkEnableClear, execWarm, execRegionReset, State.actT_next, if_neg hf]
  case stage g _ | activate g | commitSvn g | discard g =>
    cases hs
    simp only [exec, execStage, execActivate, execCommitSvn, execDiscard, State.actT_next, fwAct_foreign hf]
  case evrClear g | evrEnableSet g | evrEnableClear g | failClear g =>
    cases hs
    simp only [exec, execEvrClear, execEvrEnableSet, execEvrEnableClear, execFailClear, adminEvr_foreign hf]
  case evrTime g v =>
    cases hs
    exact if_neg (fun h => hf h.1)
  case cold g =>
    cases hs
    exact if_neg (fun h => hf h.1)
  all_goals exact Bool.noConfusion hi

end Sys2Proof.Machine

/-! Time (02): pulses of the cadence reference, the factor, and BLF_CTL. -/

namespace Sys2Proof.Machine

set_option Elab.async false

theorem State.after_stay (s : State) : s.act (fun c => c) = .next (s.after s.core) := rfl

theorem State.after_period (s : State) (c : Core) : (s.after c).core.period = c.period := by
  simp only [Core.period, Core.nominalPeriod, Core.reg, State.after_tref, State.after_regs]

/-! ## Pulses (R40, R41, R43) -/

section Pulses

variable {s : State} {src : Nat} {rising : Bool}

/-- An edge that its source takes is a pulse of this nominal beat. -/
theorem exec_cadencePulse (hsrc : src < 2) (hedge : s.core.edgeOk src rising = true) :
    exec (.cadencePulse src rising) s = .next (s.after (s.core.pulse src 0)) := by
  show Host.Outcome.next (s.after (Core.cadencePulse src rising s.core)) = _
  rw [Core.cadencePulse, if_pos ⟨hsrc, hedge⟩]

variable (c : Core)

/-- The first pulse of a configured source starts LOCKING; with one good pulse at most it cannot end in LOCKED. -/
theorem Core.pulse_of_free (h : c.tref.st = .search ∨ c.tref.st = .freeRun) (hsrc : src ∈ c.sourceOrder) :
    let c1 : Core := { c with tref := { c.tref with
      st := .locking, active := src, lastPulse := c.clk.nominal, entered := c.clk.nominal
      wasFree := decide (c.tref.st = .freeRun), trainP := c.trainPeriod } }
    let phase := c1.trainPhase c.clk.nominal
    c.pulse src 0 = { c1 with tref := { c1.tref with phase := phase * 8 / 10, good := if phase.natAbs * 8 ≤ 80 then 1 else 0 } } := by
  intro c1 phase
  have hstart : c.pulse src 0 = c.startLocking src c.clk.nominal 0 := by
    unfold Core.pulse
    rcases h with h | h <;> simp [h, hsrc]
  have hfew : ¬ (if phase.natAbs * 8 ≤ 80 then 1 else 0) ≥ 16 := by split <;> omega
  have hlocking : c.tref.st ≠ .locking := by rcases h with h | h <;> simp [h]
  rw [hstart, Core.startLocking, Core.tryPulse]
  simp only [if_neg hlocking]
  exact if_neg hfew

/-- A pulse of the source in use within 1 % of the tracked period is accepted. -/
theorem Core.pulse_accepted (h : c.tref.st = .locking ∨ c.tref.st = .locked) (hsrc : c.tref.active = src)
    (hlo : c.period * 99 ≤ (c.clk.nominal - c.tref.lastPulse) * 100) (hhi : (c.clk.nominal - c.tref.lastPulse) * 100 ≤ c.period * 101) :
    c.pulse src 0 = c.acceptPulse c.clk.nominal 0 := by
  unfold Core.pulse
  rcases h with h | h <;> simp [h, hsrc, hlo, hhi]

/-- One outside that band is dropped, counted and recorded. -/
theorem Core.pulse_dropped (h : c.tref.st = .locked ∨ c.tref.st = .locking) (hsrc : c.tref.active = src)
    (hout : (c.clk.nominal - c.tref.lastPulse) * 100 < c.period * 99 ∨ c.period * 101 < (c.clk.nominal - c.tref.lastPulse) * 100) :
    c.pulse src 0 =
      { c with tref := { c.tref with dropped := c.tref.dropped + 1, good := 0 } }.raise ⟨0x0314, 0xFFFF, 0, 0, 0, 0xFFFF, 0⟩ := by
  have hband : ¬ (c.period * 99 ≤ (c.clk.nominal - c.tref.lastPulse) * 100 ∧ (c.clk.nominal - c.tref.lastPulse) * 100 ≤ c.period * 101) := by
    omega
  unfold Core.pulse
  rcases h with h | h <;> simp [h, hsrc, hband] <;> rfl

theorem Core.countPulse_tref (late : Nat) : (c.countPulse late).tref = c.tref := by
  unfold Core.countPulse
  split <;> rfl

theorem Core.countPulse_clk (late : Nat) : (c.countPulse late).clk = c.clk := by
  unfold Core.countPulse
  split <;> rfl

theorem Core.countPulse_period (late : Nat) : (c.countPulse late).period = c.period := by
  unfold Core.countPulse
  split <;> rfl

theorem Clock.discipline_nominal (k : Clock) (n took : Nat) : (k.discipline n took).nominal = k.nominal := by
  unfold Clock.discipline
  dsimp only
  split <;> rfl

theorem Clock.discipline_total (k : Clock) (n took : Nat) : (k.discipline n took).total = k.total := by
  unfold Clock.discipline
  dsimp only
  split <;> rfl

/-- A pulse of the source being tried ends in LOCKED after 15 good ones at the earliest. -/
theorem Core.tryPulse_tref (edge late : Nat) (h : c.tref.st = .locking) :
    let r := (c.tryPulse edge late).tref
    r.lastPulse = c.tref.lastPulse ∧ r.active = c.tref.active ∧ (r.st = .locking ∨ (r.st = .locked ∧ 15 ≤ c.tref.good)) := by
  obtain ⟨e, he⟩ : ∃ e, c.tryPulse edge late = e := ⟨_, rfl⟩
  rw [he]
  unfold Core.tryPulse at he
  extract_lets r phase good r' d at he
  have hgood : good ≤ c.tref.good + 1 := by
    show (if phase.natAbs * 8 ≤ 80 then c.tref.good + 1 else 0) ≤ _
    split <;> omega
  by_cases h16 : good ≥ 16
  · have hr : e.tref = { r' with st := .locked, train := edge } := by
      rw [← he, if_pos h16, Core.raise_tref, apply_ite Core.tref, Core.countPulse_tref, ite_self]
    rw [hr]
    exact ⟨rfl, rfl, .inr ⟨rfl, by omega⟩⟩
  · rw [if_neg h16] at he
    rw [← he]
    exact ⟨rfl, rfl, .inl h⟩

/-- An accepted pulse of a LOCKED source is the last pulse, and counts while BLF_RUN is 1. -/
theorem Core.acceptPulse_of_locked (edge : Nat) (h : c.tref.st = .locked) :
    let d := c.acceptPulse edge 0
    d.tref.st = .locked ∧ d.tref.lastPulse = edge ∧ d.tref.active = c.tref.active ∧ d.clk.nominal = c.clk.nominal ∧
      d.clk.total = c.clk.total ∧
      d.blf = (if c.blf.run then { c.blf with pulses := c.blf.pulses + 1, elapsed := 0, fracP := d.period } else c.blf) := by
  obtain ⟨k, hk, hnominal, htotal⟩ : ∃ k : Clock, (if c.disciplined then
      { c with clk := c.clk.discipline c.nominalPeriod (edge - c.tref.lastPulse) } else c) = { c with clk := k } ∧
      k.nominal = c.clk.nominal ∧ k.total = c.clk.total := by
    split
    · exact ⟨_, rfl, Clock.discipline_nominal _ _ _, Clock.discipline_total _ _ _⟩
    · exact ⟨c.clk, rfl, rfl, rfl⟩
  rw [Core.acceptPulse]
  simp only [h, hk, Core.countPulse_tref, Core.countPulse_clk, Core.countPulse_period, Core.countPulse_blf]
  exact ⟨trivial, trivial, trivial, hnominal, htotal, trivial⟩

end Pulses

/-- Settles O16: the four cases of a pulse. -/
theorem cadencePulses : Obligations.CadencePulses := by
  intro s src rising hsrc hedge
  dsimp only
  rw [exec_cadencePulse hsrc hedge]
  refine ⟨fun h hs => ?_, fun h ha hlo hhi => ?_, fun h ha hlo hhi => ?_, fun h ha hout => ?_⟩
  · rw [s.core.pulse_of_free h hs]
  · rw [s.core.pulse_accepted (.inl h) ha hlo hhi, Core.acceptPulse]
    simp only [h]
    refine ⟨_, rfl, ?_⟩
    simp only [State.after_tref]
    exact ha ▸ Core.tryPulse_tref _ _ _ rfl
  · rw [s.core.pulse_accepted (.inr h) ha hlo hhi]
    refine ⟨_, rfl, ?_⟩
    simp only [State.after_tref, State.after_clk, State.after_blf]
    obtain ⟨hst, hlast, hact, hnom, htot, hblf⟩ := s.core.acceptPulse_of_locked s.core.clk.nominal h
    exact ⟨hst, hlast, hact.trans ha, hnom, htot, by rw [hblf, State.after_period]⟩
  · rw [s.core.pulse_dropped h ha hout]

/-! ## The factor (R37, R38, R427) and BLF_CTL (R61) -/

section Factor

variable (c : Core)

/-- A drop beyond RAMP_DOWN is recorded and counted, and nothing else. -/
theorem Core.unfilled_cases (before after : Nat) : ∃ more ctr, c.unfilled before after = { c with outbox := c.outbox ++ more, ctr := ctr } := by
  unfold Core.unfilled
  dsimp only
  split
  · rw [Core.bump]
    split
    · exact ⟨[_, _], _, by simp only [Core.raise, List.append_assoc]; rfl⟩
    · exact ⟨[_], _, rfl⟩
  · exact ⟨[], c.ctr, by simp⟩

theorem Core.factorChange_of_beat (hbeat : c.clk.total % 32 = 0) (hhold : c.blf.hold = 0) (hup : c.blf.applied < c.request)
    (hle : c.request ≤ 5) : c.factorChange = (c.setFactor c.request).unfilled c.binNow (c.setFactor c.request).binNow := by
  rw [Core.factorChange, if_pos (by simp [Core.changeBeat, hbeat, hhold, hup])]
  dsimp only
  rw [Nat.min_eq_right hle]

theorem Core.factorStepDown_of_beat (hbeat : c.clk.total % 32 = 0) (hhold : c.blf.hold = 0) (hdown : c.request < c.blf.applied)
    (hclear : c.blf.lastClear + 65536 ≤ c.clk.total) (hstep : c.blf.lastStep + 65536 ≤ c.clk.total) :
    c.factorStepDown = if c.fits c.loads (factorEighths (c.blf.applied - 1)) then c.setFactor (c.blf.applied - 1)
      else { c with blf := { c.blf with stepWait := true } } := by
  have hlate : c.clk.total ≥ max c.blf.lastClear c.blf.lastStep + 65536 := by omega
  rw [Core.factorStepDown, if_pos (by simp [Core.changeBeat, hbeat, hhold, hdown, hlate])]

end Factor

/-- The first part of O18: a change of the factor. -/
theorem factor_changes (s : State) :
    let c := s.core
    c.clk.total % 32 = 0 → c.blf.hold = 0 →
    (c.blf.applied < c.request → c.request ≤ 5 →
      ∃ t, exec .factorChange s = .next t ∧
        t.core.blf = { c.blf with applied := c.request, hold := 4, lastStep := c.clk.total, stepWait := false } ∧
        t.core.clk = c.clk ∧ t.core.towers = c.towers ∧
        ∃ more, t.evr = (s.evr.takeAll c.stamp (c.outbox ++
          ⟨0x0311, 0xFFFF, c.blf.applied % 2 ^ 16, c.request, c.sources % 2 ^ 16, 0xFFFF, 0⟩ :: more)).1) := by
  intro c hbeat hhold hup hle
  obtain ⟨more, ctr, hmore⟩ := (c.setFactor c.request).unfilled_cases c.binNow (c.setFactor c.request).binNow
  have hevent : sysEvent 0x0311 c.blf.applied c.request c.sources 0 =
      ⟨0x0311, 0xFFFF, c.blf.applied % 2 ^ 16, c.request, c.sources % 2 ^ 16, 0xFFFF, 0⟩ := by
    rw [sysEvent, Nat.mod_eq_of_lt (a := c.request) (by omega)]
  refine ⟨s.after c.factorChange, rfl, ?_, ?_, ?_, more, ?_⟩
  all_goals
    simp only [State.after_blf, State.after_clk, State.after_towers, State.after_evr]
    rw [c.factorChange_of_beat hbeat hhold hup hle, hmore]
  · rfl
  · rfl
  · rfl
  · rw [← hevent, List.append_cons]
    rfl

/-- Settles O18: every clause is a branch of its meaning. -/
theorem belfryRuns : Obligations.BelfryRuns := by
  refine ⟨fun s hbeat hhold => ⟨factor_changes s hbeat hhold, fun hdown hclear hstep => ⟨fun hfits => ?_, fun hfits => ?_⟩⟩, fun s => ?_⟩
  · show Host.Outcome.next (s.after s.core.factorStepDown) = _
    rw [s.core.factorStepDown_of_beat hbeat hhold hdown hclear hstep, if_pos hfits]
    rfl
  · show Host.Outcome.next (s.after s.core.factorStepDown) = _
    rw [s.core.factorStepDown_of_beat hbeat hhold hdown hclear hstep, if_neg (by simp [hfits])]
  · intro c locked
    have hset : exec (.blfRunSet s.trim.admin) s = .next (s.after c.runSet) := adminAct_admin s _
    have hadmit : exec (.segAdmitSet s.trim.admin) s = .next (s.after c.admitSet) := adminAct_admin s _
    have hlocked : (decide (c.tref.st = .locked) || bit (c.reg offTref) 7) = true ↔ locked := by simp [locked]
    rw [hset, hadmit]
    unfold Core.runSet Core.admitSet
    refine ⟨fun hr hl ha => ?_, fun hr hl => ?_, fun hr hl ha => ?_, fun hs hr ht => ?_, fun hs hr => ?_, fun hs hr ht => ?_,
      adminAct_admin s (fun c => { c with blf := { c.blf with run := false } }),
      adminAct_admin s (fun c => { c with blf := { c.blf with segAdmit := false } }),
      adminAct_admin s (fun c => { c with blf := { c.blf with beatLatch := c.clk.total % 2 ^ 64 } })⟩
    · simp [hr, hlocked.2 hl, ha]
    · simp [hr, Bool.eq_false_iff.2 (fun h => hl (hlocked.1 h)), Core.blfRefuse]
    · simp [hr, hlocked.2 hl, ha, Core.blfRefuse]
    · have hnot : c.towers.all (fun t => t.fenced) = false := by simpa using ht
      simp [hs, hr, hnot]
    · simp [hs, hr, Core.blfRefuse]
    · have hall : c.towers.all (fun t => t.fenced) = true := by simpa using ht
      simp [hs, hr, hall, Core.blfRefuse]

end Sys2Proof.Machine

/-! The event recorder (16): RECORD_WRITE, TOKEN_ADD, EVR_CLEAR, EVR_TIME, EVR_ENABLE and FAIL_CLEAR. -/

namespace Sys2Proof.Machine

set_option Elab.async false

/-! ## Where nothing waits, delivery does nothing -/

theorem State.afterE_of_quiet {s : State} {c : Core} {e : Evr} (h : c.outbox = []) : s.afterE c e = { s with core := c, evr := e } :=
  State.deliver_of_quiet _ _ h

theorem State.after_of_quiet {s : State} {c : Core} (h : c.outbox = []) : s.after c = { s with core := c } :=
  State.deliver_of_quiet _ _ h

theorem adminEvr_admin (s : State) (g : Trim → Core → Evr → Core × Evr) :
    adminEvr s.trim.admin g s = .next (s.afterE (g s.trim s.core s.evr).1 (g s.trim s.core s.evr).2) := by
  unfold adminEvr
  rw [State.actE_next, if_pos rfl]

/-! ## Fields of a word -/

theorem and_shifted_mask (x k n : Nat) : x &&& fieldMask k n = x / 2 ^ k % 2 ^ n * 2 ^ k := by
  apply Nat.eq_of_testBit_eq
  intro i
  rw [fieldMask, Nat.testBit_and, Nat.testBit_mul_two_pow, Nat.testBit_mul_two_pow, Nat.testBit_two_pow_sub_one, Nat.testBit_mod_two_pow,
    Nat.testBit_div_two_pow]
  by_cases h : k ≤ i
  · simp [h, Bool.and_comm]
  · simp [h]

/-- What a write leaves of a 64-bit register whose every bit takes it (R13). -/
theorem merge_word {old v w : Nat} {r : RegWrite} (hold : old < 2 ^ 64)
    (h : (r = ⟨0, 8, v⟩ ∧ v < 2 ^ 64) ∨
      (∃ h, h < 2 ^ 32 ∧ ((r = ⟨0, 4, h⟩ ∧ v = old / 2 ^ 32 * 2 ^ 32 + h) ∨ (r = ⟨4, 4, h⟩ ∧ v = old % 2 ^ 32 + h * 2 ^ 32))))
    (hw : w = mergeBits (lanes r.off r.size) old (placed r.off r.size r.value)) : w = v ∧ v < 2 ^ 64 ∧ accessOk r.off r.size = true := by
  subst hw
  unfold mergeBits lanes placed
  rw [and_shifted_mask, and_shifted_mask]
  rcases h with ⟨rfl, hv⟩ | ⟨x, hx, ⟨rfl, rfl⟩ | ⟨rfl, rfl⟩⟩
  all_goals
    norm_num [accessOk] at *
    omega

theorem unsigned_lt (w : Nat) (i : Int) : unsigned w i < 2 ^ w := by
  unfold unsigned
  have hpos : (0 : Int) < (2 ^ w : Nat) := by exact_mod_cast Nat.two_pow_pos w
  have hlt := Int.emod_lt_of_pos i hpos
  have hge := Int.emod_nonneg i (ne_of_gt hpos)
  omega

theorem bits_three {d : Nat} (h : d < 2 ^ 48) : bits d 32 16 * 2 ^ 32 + bits d 16 16 * 2 ^ 16 + bits d 0 16 = d := by
  unfold bits
  rw [Nat.shiftRight_eq_div_pow, Nat.shiftRight_eq_div_pow, Nat.shiftRight_eq_div_pow]
  omega

theorem bits_lt (v lo w : Nat) : bits v lo w < 2 ^ w := Nat.mod_lt _ (Nat.two_pow_pos w)

/-! ## Records (R446) -/

section Write

variable {e : Evr} {q : EvRecord} {qs : List EvRecord} (hq : e.queue = q :: qs)

include hq

theorem Evr.write_of_room (now : Nat) (hf : e.full = false) (h : e.records.length < 65535) :
    e.write now = ({ e with queue := qs, records := e.records ++ [{ q with beat := now }] }, false) := by
  unfold Evr.write
  simp [hq, hf, h]

theorem Evr.write_last (now : Nat) (hf : e.full = false) (h : e.records.length = 65535) :
    e.write now = ({ e with
      queue := qs, full := true
      records := e.records ++ [{ { q with beat := now } with ev := ⟨0x0907, q.ev.slot, q.ev.code, q.ev.a0, q.ev.a1, q.ev.ctx, q.ev.inst⟩ }] },
      false) := by
  unfold Evr.write
  simp [hq, hf, h]

theorem Evr.write_lost (now : Nat) (hf : e.full = true) (ho : e.lost.ovf = false) (hc : e.lost.count + 1 < 2 ^ 48 - 1) :
    e.write now = ({ { e with queue := qs }.giveBack q.ev.code q.suppressed with
      lost := ⟨e.lost.count + 1, false, now, e.lost.here now 1⟩ }, false) := by
  have hbump : e.lost.bump now 1 = (⟨e.lost.count + 1, false, now, e.lost.here now 1⟩, false) := by
    unfold Counter.bump
    rw [if_neg (by decide), if_neg (by simp [ho]), if_neg (by omega)]
  unfold Evr.write
  simp [hq, hf, hbump]

end Write

theorem Evr.giveBack_get {e : Evr} (code n : Nat) (h : e.buckets.rising = true) :
    (e.giveBack code n).buckets.get .full code =
      { e.buckets.get .full code with pending := min 0xFFFF ((e.buckets.get .full code).pending + n) } := by
  rw [Evr.giveBack, SMap.upd]
  exact (SMap.get_set _ _ _ _ _ h).trans (if_pos rfl)

/-- RECORD_WRITE, where the counter of losses does not reach its largest value. -/
theorem recordWrite_of_write {tr : Trim} {c : Core} {e e' : Evr} (h : e.write c.clk.nominal = (e', false)) :
    recordWrite tr c e =
      (if e'.full && !e.full && e.enable && bit e.liveIrq 8 then c.fire tr.admin (bits e.liveIrq 0 6) else c, e') := by
  unfold recordWrite
  rw [h]
  rfl

/-- The vector fires only as EVR_FULL becomes set. -/
theorem recordWrite_of_same_full {tr : Trim} {c : Core} {e e' : Evr} (h : e.write c.clk.nominal = (e', false)) (hf : e'.full = e.full) :
    recordWrite tr c e = (c, e') := by
  rw [recordWrite_of_write h, hf, Bool.and_not_self]
  rfl

/-- The first part of O19: RECORD_WRITE. -/
theorem record_writes (s : State) (q : EvRecord) (qs : List EvRecord) (hs : s.quiet) (hok : s.evr.ok) (hq : s.evr.queue = q :: qs) :
    let e := s.evr
    let w := { q with beat := s.core.clk.nominal }
    (e.records.length < 65535 →
      exec .recordWrite s = .next (s.afterE s.core { e with queue := qs, records := e.records ++ [w] })) ∧
    (e.records.length = 65535 → ∃ t, exec .recordWrite s = .next t ∧
      t.evr = { e with queue := qs, full := true, records := e.records ++
        [{ w with ev := ⟨0x0907, q.ev.slot, q.ev.code, q.ev.a0, q.ev.a1, q.ev.ctx, q.ev.inst⟩ }] }) ∧
    (e.full = true → e.lost.ovf = false → e.lost.count + 1 < 2 ^ 48 - 1 → ∃ t, exec .recordWrite s = .next t ∧
      t.evr.records = e.records ∧ t.evr.queue = qs ∧ t.evr.lost.count = e.lost.count + 1 ∧ t.evr.lost.ovf = false ∧
      (e.buckets.rising = true → (t.evr.buckets.get .full q.ev.code).pending =
        min 0xFFFF ((e.buckets.get .full q.ev.code).pending + q.suppressed))) := by
  intro e w
  obtain ⟨-, -, hfull⟩ := hok
  have hnot : e.records.length ≤ 65535 → e.full = false := fun h => by
    rw [Bool.eq_false_iff]
    exact fun hf => absurd (hfull.1 hf) (by show e.records.length ≠ _; omega)
  have hexec : exec .recordWrite s = .next (s.afterE (recordWrite s.trim s.core e).1 (recordWrite s.trim s.core e).2) := rfl
  rw [hexec]
  refine ⟨fun h => ?_, fun h => ?_, fun hf ho hc => ?_⟩
  · rw [recordWrite_of_same_full (Evr.write_of_room hq _ (hnot (by omega)) h) rfl]
  · rw [recordWrite_of_write (Evr.write_last hq _ (hnot (by omega)) h)]
    refine ⟨_, rfl, ?_⟩
    rw [State.afterE_of_quiet]
    dsimp only
    split
    · rw [Core.fire_outbox]
      exact hs
    · exact hs
  · rw [recordWrite_of_same_full (Evr.write_lost hq _ hf ho hc) rfl]
    refine ⟨_, rfl, ?_⟩
    rw [State.afterE_of_quiet hs]
    refine ⟨rfl, rfl, rfl, rfl, fun hr => ?_⟩
    exact congrArg Bucket.pending (Evr.giveBack_get (e := { e with queue := qs }) q.ev.code q.suppressed hr)

/-! ## Tokens and EVR_CLEAR (R447, R449) -/

theorem Evr.token_due (e : Evr) (code now : Nat) (hr : e.buckets.rising = true) (hrate : e.rate code % 2 ^ 16 ≠ 0)
    (hmissing : (e.buckets.get .full code).missing ≠ 0)
    (hdue : 1_250_000_000 * ((e.buckets.get .full code).added + 1) ≤
      (now - (e.buckets.get .full code).since) * (e.rate code % 2 ^ 16)) :
    ((e.token code now).buckets.get .full code).missing = (e.buckets.get .full code).missing - 1 ∧
      ((e.token code now).buckets.get .full code).pending = (e.buckets.get .full code).pending ∧
      (e.token code now).records = e.records ∧ (e.token code now).queue = e.queue := by
  unfold Evr.token
  dsimp only
  rw [if_pos ⟨hrate, hmissing, hdue⟩]
  dsimp only
  rw [SMap.get_set _ _ _ _ _ hr, if_pos rfl]
  split
  · next h => exact ⟨by rw [h], rfl, rfl, rfl⟩
  · exact ⟨rfl, rfl, rfl, rfl⟩

/-- The second part of O19: TOKEN_ADD, EVR_CLEAR and FAIL_CLEAR. -/
theorem tokens_and_clears :
    (∀ (s : State) (code : Nat), s.quiet → s.evr.buckets.rising = true →
      let r := s.evr.rate code % 2 ^ 16
      let b := s.evr.buckets.get .full code
      r ≠ 0 → b.missing ≠ 0 → 1_250_000_000 * (b.added + 1) ≤ (s.core.clk.nominal - b.since) * r →
      ∃ t, exec (.tokenAdd code) s = .next t ∧ (t.evr.buckets.get .full code).missing = b.missing - 1 ∧
        (t.evr.buckets.get .full code).pending = b.pending ∧ t.evr.records = s.evr.records ∧ t.evr.queue = s.evr.queue) ∧
    (∀ s : State, s.quiet → s.evr.lost.beat ≠ s.core.clk.nominal →
      exec (.evrClear s.trim.admin) s = .next (s.afterE s.core { s.evr with
        full := false, lost := .zero, epoch := (s.evr.epoch + 1) % 2 ^ 32
        records := [⟨s.core.stamp.time, s.core.stamp.cp,
          ⟨0x0905, 0xFFFF, min 0xFFFF s.evr.lost.count, s.evr.epoch % 2 ^ 16, 0, 0xFFFF, 0⟩, 0, s.core.stamp.beat⟩] })) ∧
    (∀ s : State, s.evr.lost.beat = s.core.clk.nominal → s.evr.lost.part < 2 ^ 48 - 1 → s.quiet →
      ∃ t, exec (.evrClear s.trim.admin) s = .next t ∧ t.evr.lost.count = s.evr.lost.part ∧ t.evr.records.length = 1) ∧
    (∀ s : State,
      exec (.failClear s.trim.admin) s = .next (s.after { s.core with
        out := { s.core.out with failN := s.core.out.failN.filter (· != 1) } })) := by
  have hclear : ∀ s : State, exec (.evrClear s.trim.admin) s = .next (s.afterE s.core (s.evr.clear s.core.stamp)) := fun s =>
    adminEvr_admin s (fun _ c e => (c, e.clear c.stamp))
  refine ⟨fun s code hs hr hrate hmissing hdue => ?_, fun s hs hbeat => ?_, fun s hbeat hpart hs => ?_, fun s =>
    adminEvr_admin s (fun _ c e => (c.okN 1, e))⟩
  · refine ⟨s.afterE s.core (s.evr.token code s.core.clk.nominal), rfl, ?_⟩
    rw [State.afterE_of_quiet hs]
    exact s.evr.token_due code _ hr hrate hmissing hdue
  · have helse : s.evr.lost.beat ≠ s.core.stamp.beat := hbeat
    rw [hclear, Evr.clear, Counter.cleared_of_elsewhere _ _ helse, Counter.before, Counter.here, if_neg helse]
    rfl
  · refine ⟨_, hclear s, ?_⟩
    rw [State.afterE_of_quiet hs]
    exact ⟨(Counter.cleared_of_here _ _ hbeat hpart).1, rfl⟩

/-! ## Calendar time and EVR_ENABLE (R448, R452) -/

theorem Core.setTime_time (c : Core) {v : Nat} (hv : v < 2 ^ 64) : (c.setTime v).clk.time = v := by
  show (((((10 * (v % 2 ^ 64) : Nat) : Int) + 0 * _ / _).toNat) / 10) % 2 ^ 64 = v
  rw [zero_mul, Int.zero_ediv, add_zero, Int.toNat_natCast]
  omega

theorem Evr.enableCode_of_pass {e : Evr} {n : Nat} (ht : e.timeSet = true) (hf : ∀ w ∈ e.filters, w.2 < 2 ^ 50)
    (hi : bit e.irq 8 = true → bits e.irq 0 6 < n) : e.enableCode n = 0 := by
  have hfilters : e.filters.any (fun w => w.2 / 2 ^ 50 != 0) = false := by
    rw [List.any_eq_false]
    intro w hw
    rw [Nat.div_eq_of_lt (hf w hw)]
    decide
  have hirq : (bit e.irq 8 && decide (bits e.irq 0 6 ≥ n)) = false := by
    cases h : bit e.irq 8
    · rfl
    · simpa using hi h
  unfold Evr.enableCode
  rw [hfilters, hirq, ht]
  rfl

/-- The third part of O19: EVR_TIME. -/
theorem time_written (s : State) (w : RegWrite) (v : Nat)
    (h : (w = ⟨0, 8, v⟩ ∧ v < 2 ^ 64) ∨
      (∃ h, h < 2 ^ 32 ∧ ((w = ⟨0, 4, h⟩ ∧ v = s.core.clk.time / 2 ^ 32 * 2 ^ 32 + h) ∨
        (w = ⟨4, 4, h⟩ ∧ v = s.core.clk.time % 2 ^ 32 + h * 2 ^ 32)))) :
    ∃ t, exec (.evrTime s.trim.admin w) s = .next t ∧
      t.core.clk.time = v ∧ t.evr.timeSet = true ∧ t.core.clk.nominal = s.core.clk.nominal ∧
      ∃ a0 a1 a2, t.evr = (Evr.takeAll { s.evr with timeSet := true } { s.core.stamp with time := v }
          (s.core.outbox ++ [⟨0x0904, 0xFFFF, a0, a1, a2, 0xFFFF, 0⟩])).1 ∧
        (a0 * 2 ^ 32 + a1 * 2 ^ 16 + a2 : Nat) = timeStep s.core.clk.time v := by
  obtain ⟨hmerged, hv, hok⟩ := merge_word (old := s.core.clk.time) (Nat.mod_lt _ (by decide)) h rfl
  have hexec : exec (.evrTime s.trim.admin w) s =
      .next ({ s with core := s.core.setTime v, evr := { s.evr with timeSet := true } }.deliver (s.core.setTime v).stamp) := by
    show execEvrTime _ _ _ = _
    rw [execEvrTime, if_pos ⟨rfl, hok⟩, hmerged]
  have htime : (s.core.setTime v).clk.time = v := s.core.setTime_time hv
  have hstamp : (s.core.setTime v).stamp = { s.core.stamp with time := v } := by
    show (⟨(s.core.setTime v).clk.time, _, _, _⟩ : Stamp) = _
    rw [htime]
    rfl
  have hstep : timeStep s.core.clk.time v < 2 ^ 48 := unsigned_lt 48 _
  refine ⟨_, hexec, ?_, ?_, ?_, bits (timeStep s.core.clk.time v) 32 16, bits (timeStep s.core.clk.time v) 16 16,
    bits (timeStep s.core.clk.time v) 0 16, ?_, bits_three hstep⟩
  · rw [State.deliver_clk]
    exact htime
  · rw [State.deliver_evr, (Evr.brings_takeAll _ _ { s.evr with timeSet := true }).setup]
  · rw [State.deliver_clk]
    rfl
  · rw [State.deliver_evr, hstamp]
    show (Evr.takeAll _ _ (s.core.outbox ++ [sysEvent 0x0904 (bits (timeStep s.core.clk.time (v % 2 ^ 64)) 32 16)
      (bits (timeStep s.core.clk.time (v % 2 ^ 64)) 16 16) (bits (timeStep s.core.clk.time (v % 2 ^ 64)) 0 16) 0])).1 = _
    rw [Nat.mod_eq_of_lt hv, sysEvent, Nat.mod_eq_of_lt (bits_lt _ 32 16), Nat.mod_eq_of_lt (bits_lt _ 16 16),
      Nat.mod_eq_of_lt (bits_lt _ 0 16)]

/-- Settles O19: the four parts. -/
theorem recorderRuns : Obligations.RecorderRuns := by
  refine ⟨record_writes, tokens_and_clears, time_written, fun s hs he ht hf hi => ?_, fun s hs he ht => ?_, fun s hs he => ?_⟩
  · have hset : exec (.evrEnableSet s.trim.admin) s = .next (s.afterE _ _) := adminEvr_admin s evrEnable
    refine ⟨_, hset, ?_⟩
    have hpass : evrEnable s.trim s.core s.evr = (s.core, s.evr.rebucket { s.evr with
        enable := true, live := s.evr.rates, liveIrq := s.evr.irq, liveFilters := s.evr.filters } s.core.clk.nominal) := by
      simp [evrEnable, he, Evr.enableCode_of_pass ht hf hi]
    rw [hpass, State.afterE_of_quiet hs]
    exact ⟨rfl, rfl, rfl, rfl, rfl, rfl, rfl⟩
  · have hset : exec (.evrEnableSet s.trim.admin) s = .next (s.afterE _ _) := adminEvr_admin s evrEnable
    have hcode : ∀ n, s.evr.enableCode n = 0x0901 := fun n => by simp [Evr.enableCode, ht]
    rw [hset]
    simp [evrEnable, he, hcode]
  · have hset : exec (.evrEnableClear s.trim.admin) s = .next (s.afterE _ _) := adminEvr_admin s evrDisable
    refine ⟨_, hset, ?_⟩
    rw [show evrDisable s.trim s.core s.evr = _ from if_pos he, State.afterE_of_quiet hs]
    exact ⟨rfl, rfl, rfl, rfl, rfl, rfl, rfl⟩

end Sys2Proof.Machine

/-! Supply (15): the envelope and the regions. -/

namespace Sys2Proof.Machine

set_option Elab.async false

theorem State.after_region (s : State) (c : Core) (r : Nat) : (s.after c).core.region r = c.region r := by
  simp only [Core.region, State.after_prc]

/-- What a move adds to the events that wait. -/
theorem Core.Moves.more {w : List Part} {c d : Core} (h : c.Moves w d) : ∃ more, d.outbox = c.outbox ++ more :=
  ⟨_, (List.prefix_iff_eq_append.1 h.outbox).symm⟩

section Envelope

variable (c : Core)

/-- An event is no part of the plan. -/
theorem Core.exceeds_raise (ev : Event) (e : Nat) : (c.raise ev).exceeds e = c.exceeds e := rfl

theorem Core.eighths_raise (ev : Event) : (c.raise ev).eighths = c.eighths := rfl

/-- Dropping reservations and ballast moves nothing else. -/
theorem Core.trimPlan_cases (e fuel : Nat) (c : Core) :
    ∃ rs bs, Core.trimPlan e fuel c = { c with pow := { c.pow with reservations := rs, ballast := bs } } := by
  induction fuel generalizing c with
  | zero => exact ⟨c.pow.reservations, c.pow.ballast, rfl⟩
  | succ fuel ih =>
    unfold Core.trimPlan
    dsimp only
    split
    · exact ⟨c.pow.reservations, c.pow.ballast, rfl⟩
    · split
      · obtain ⟨rs, bs, h⟩ := ih _
        exact ⟨rs, bs, h⟩
      · obtain ⟨rs, bs, h⟩ := ih _
        exact ⟨rs, bs, h⟩

/-- The envelope `q`, `ph` in force, nothing staged. -/
def Core.inForce (c : Core) (q ph : Nat) : Core := { c with pow := { c.pow with envPower := q, envPhase := ph, pending := none } }

/-- Event 0x080F. -/
def forceEvent : Event := ⟨0x080F, 0xFFFF, 0, 0, 0, 0xFFFF, 0⟩

variable {c} {q ph : Nat} (hpending : c.pow.pending = some (q, ph)) (hfirst : c.clk.first = true) (hlater : c.pow.since < c.window)

include hpending hfirst hlater

theorem Core.envelopeForce_no_cut (h : c.pow.maxPower ≤ bits q 0 16 ∨ (c.inForce q ph).exceeds c.eighths = false) :
    c.envelopeForce = (c.inForce q ph).raise forceEvent := by
  have hnot : ¬ (decide (bits q 0 16 < c.pow.maxPower) = true ∧ (c.inForce q ph).exceeds c.eighths = true) := by
    rintro ⟨hlt, hex⟩
    rcases h with h | h
    · exact absurd (of_decide_eq_true hlt) (Nat.not_lt.2 h)
    · exact Bool.noConfusion (h.symm.trans hex)
  unfold Core.envelopeForce
  rw [hpending]
  dsimp only
  rw [if_neg (by simp [hfirst]; omega)]
  exact if_neg hnot

theorem Core.envelopeForce_cut (hlt : bits q 0 16 < c.pow.maxPower) (hex : (c.inForce q ph).exceeds c.eighths = true) :
    ∃ (d : Core) (before after : Nat), c.envelopeForce = d.unfilled before after ∧ d.outbox = c.outbox ++ [forceEvent] ∧ d.pow.envPower = q ∧
      d.pow.envPhase = ph ∧ d.pow.pending = none ∧
      (d.blf.reqEnvelope = max c.blf.reqEnvelope 3 ∨ d.blf.reqEnvelope = max c.blf.reqEnvelope 4) := by
  obtain ⟨f, hf⟩ : ∃ f, c.envelopeForce = f := ⟨_, rfl⟩
  rw [hf]
  unfold Core.envelopeForce at hf
  rw [hpending] at hf
  dsimp only at hf
  rw [if_neg (by simp [hfirst]; omega), if_pos ⟨decide_eq_true hlt, hex⟩] at hf
  obtain ⟨rs, bs, htrim⟩ := Core.trimPlan_cases _ _ _
  rw [htrim] at hf
  refine ⟨_, _, _, hf.symm, rfl, rfl, rfl, rfl, ?_⟩
  dsimp only
  split
  · exact .inl rfl
  · exact .inr rfl

omit hpending hfirst hlater in
/-- What ENVELOPE_IN_FORCE leaves where nothing is due. -/
theorem Core.envelopeForce_stays (h : c.pow.pending = none ∨ c.clk.first = false ∨ c.window ≤ c.pow.since) : c.envelopeForce = c := by
  unfold Core.envelopeForce
  split
  · rfl
  · next hp =>
    refine if_pos ?_
    rcases h with h | h | h
    · exact absurd (h.symm.trans hp) (by simp)
    · simp [h]
    · exact .inr h

end Envelope

/-- Setting keys of a list in turn: each reads as set last, which for a function of the key is its value. -/
theorem SMap.get_sets {α : Type} [DecidableEq α] (d : α) (f : Nat → α) (ks : List Nat) (m : SMap α) (hm : m.rising = true) (k : Nat) :
    SMap.get d (ks.foldl (fun (m : SMap α) b => m.set d b (f b)) m) k = if k ∈ ks then f k else SMap.get d m k := by
  induction ks generalizing m with
  | nil => simp
  | cons b ks ih =>
    rw [List.foldl_cons, ih _ (SMap.rising_set _ _ hm), SMap.get_set _ _ _ _ _ hm]
    by_cases hk : k = b
    · simp [hk]
    · simp [hk]

theorem Core.cleared_cases (c : Core) (n : Nat) : ∃ x, c.cleared n = { c with blf := { c.blf with lastClear := x } } := by
  unfold Core.cleared
  split
  · exact ⟨_, rfl⟩
  · exact ⟨c.blf.lastClear, rfl⟩

theorem Core.snapshot_snap (c : Core) :
    c.snapshot.pow.snap = (List.range 625).foldl (fun (m : SMap Nat) b => m.set 0 b (c.binWord c.loads b)) [] := by
  simp only [Core.snapshot]

/-- The envelope takes effect. -/
theorem Core.envelopeForce_spec {c : Core} {q ph : Nat} (hpending : c.pow.pending = some (q, ph)) (hfirst : c.clk.first = true)
    (hlater : c.pow.since < c.window) :
    ∃ more, c.envelopeForce.pow.envPower = q ∧ c.envelopeForce.pow.envPhase = ph ∧ c.envelopeForce.pow.pending = none ∧
      c.envelopeForce.outbox = c.outbox ++ forceEvent :: more ∧
      ((c.pow.maxPower ≤ bits q 0 16 ∨ (c.inForce q ph).exceeds c.eighths = false) →
        c.envelopeForce.blf = c.blf ∧ c.envelopeForce.pow = (c.inForce q ph).pow) ∧
      (bits q 0 16 < c.pow.maxPower → (c.inForce q ph).exceeds c.eighths = true →
        (c.envelopeForce.blf.reqEnvelope = max c.blf.reqEnvelope 3 ∨ c.envelopeForce.blf.reqEnvelope = max c.blf.reqEnvelope 4)) := by
  by_cases h : c.pow.maxPower ≤ bits q 0 16 ∨ (c.inForce q ph).exceeds c.eighths = false
  · rw [Core.envelopeForce_no_cut hpending hfirst hlater h]
    refine ⟨[], rfl, rfl, rfl, rfl, fun _ => ⟨rfl, rfl⟩, fun hlt hex => ?_⟩
    rcases h with h | h
    · exact absurd hlt (Nat.not_lt.2 h)
    · rw [h] at hex
      exact Bool.noConfusion hex
  · obtain ⟨hge, hnot⟩ := not_or.1 h
    obtain ⟨d, before, after, hforce, hout, hq, hph, hnone, hreq⟩ := Core.envelopeForce_cut hpending hfirst hlater (Nat.not_le.1 hge)
      (Bool.eq_true_of_not_eq_false hnot)
    obtain ⟨more, ctr, hmore⟩ := d.unfilled_cases before after
    rw [hforce, hmore, hout, List.append_assoc]
    exact ⟨more, hq, hph, hnone, rfl, fun hno => absurd hno h, fun _ _ => hreq⟩

theorem exec_envelopeInForce (s : State) : exec .envelopeInForce s = .next (s.after s.core.envelopeForce) := rfl

/-- Settles O58: every clause is a branch of its meaning. -/
theorem envelopeApplied : Obligations.EnvelopeApplied := by
  intro s c staged
  have happly : exec (.prcEnvelopeApply s.trim.admin) s = .next (s.after c.envelopeApply) := adminAct_admin s _
  have hover : ∀ watts, exec (.overdraw watts) s = .next (s.after (Core.overdraw watts c)) := fun _ => rfl
  refine ⟨fun h => ?_, fun h => ?_, fun q ph hp hf hl => ?_, fun h => ?_, ?_, fun watts hgt hlt => ⟨fun h0 => ?_, fun h0 => ?_⟩,
    fun watts hle => ?_, ?_⟩
  · rw [happly, Core.envelopeApply]
    dsimp only
    rw [if_pos h]
  · rw [happly, Core.envelopeApply]
    dsimp only
    rw [if_neg (by rw [h]; decide)]
  · obtain ⟨more, hq, hph, hnone, hout, hkept, hcut⟩ := Core.envelopeForce_spec hp hf hl
    refine ⟨_, more, exec_envelopeInForce s, ?_⟩
    rw [State.after_pow, State.after_blf, State.after_evr, hout]
    exact ⟨hq, hph, hnone, rfl, hkept, hcut⟩
  · rw [exec_envelopeInForce, Core.envelopeForce_stays h]
  · refine ⟨_, adminAct_admin s Core.snapshot, ?_⟩
    simp only [State.after_pow, State.after_blf]
    refine ⟨rfl, rfl, fun b hb => ?_⟩
    rw [c.snapshot_snap, SMap.get_sets 0 _ _ [] rfl, if_pos (List.mem_range.2 hb)]
  · have hwatts : sysEvent 0x080C watts 0 0 0 = ⟨0x080C, 0xFFFF, watts, 0, 0, 0xFFFF, 0⟩ := sysEvent_of_lt _ _ hlt (by decide)
    have hsteps : Core.overdraw watts c = ({ c with prc := { c.prc with pin := watts }, blf := { c.blf with reqOverdraw := 3 } }.raise
        ⟨0x080C, 0xFFFF, watts, 0, 0, 0xFFFF, 0⟩).bump 0x30_0090 1 := by
      rw [Core.overdraw, if_neg (Nat.not_le.2 hgt), ← hwatts]
      exact if_pos h0
    have hmove := Core.moves_bump ({ c with prc := { c.prc with pin := watts }, blf := { c.blf with reqOverdraw := 3 } }.raise
        ⟨0x080C, 0xFFFF, watts, 0, 0, 0xFFFF, 0⟩) 0x30_0090 1
    obtain ⟨more, hmore⟩ := hmove.more
    rw [hover, hsteps]
    refine ⟨_, more, rfl, ?_⟩
    rw [State.after_blf, State.after_prc, State.after_evr, hmore, List.append_cons]
    exact ⟨hmove.frame .blf rfl, hmove.frame .prc rfl, rfl⟩
  · rw [hover, Core.overdraw, if_neg (Nat.not_le.2 hgt)]
    exact congrArg (fun d => Host.Outcome.next (s.after d)) (if_neg h0)
  · rw [hover, Core.overdraw, if_pos hle]
  · obtain ⟨x, hx⟩ := Core.cleared_cases { c with blf := { c.blf with reqOverdraw := 0, reqEnvelope := 0 } } c.request
    refine ⟨_, rfl, ?_⟩
    show (s.after (Core.cleared _ _)).core.blf.reqOverdraw = 0 ∧ (s.after (Core.cleared _ _)).core.blf.reqEnvelope = 0 ∧
      (s.after (Core.cleared _ _)).core.prc = c.prc
    simp only [State.after_blf, State.after_prc]
    rw [hx]
    exact ⟨rfl, rfl, rfl⟩

end Sys2Proof.Machine

/-! Supply (15): the regions (R431 to R436). -/

namespace Sys2Proof.Machine

set_option Elab.async false

section Fence

variable (c : Core)

theorem Core.region_setRegion (r j : Nat) (x : Region) (h : r < c.prc.regions.length) :
    (c.setRegion r x).region j = if j = r then x else c.region j := by
  simp only [Core.region, Core.setRegion, List.getD_eq_getElem?_getD, List.getElem?_set]
  grind

theorem Core.cleared_region (n r : Nat) : (c.cleared n).region r = c.region r := by
  obtain ⟨x, hx⟩ := c.cleared_cases n
  rw [hx]
  rfl

theorem Core.cleared_towers (n : Nat) : (c.cleared n).towers = c.towers := by
  obtain ⟨x, hx⟩ := c.cleared_cases n
  rw [hx]

/-- From `c` to `d` a fenced tower stays fenced. -/
def Core.FenceKept (c d : Core) : Prop := d.towers.length = c.towers.length ∧ ∀ k, (c.tower k).fenced = true → (d.tower k).fenced = true

theorem Core.fenceKept_of_towers {c d : Core} (h : d.towers = c.towers) : c.FenceKept d := by
  refine ⟨by rw [h], fun k hk => ?_⟩
  rw [Core.tower, h]
  exact hk

theorem Core.FenceKept.trans {c d e : Core} (h : c.FenceKept d) (g : d.FenceKept e) : c.FenceKept e :=
  ⟨g.1.trans h.1, fun k hk => g.2 k (h.2 k hk)⟩

theorem Core.FenceKept.foldl {α : Type} {f : Core → α → Core} (hf : ∀ d x, Core.FenceKept d (f d x)) (xs : List α) (c : Core) :
    c.FenceKept (xs.foldl f c) := by
  induction xs generalizing c with
  | nil => exact Core.fenceKept_of_towers rfl
  | cons x xs ih => exact (hf c x).trans (ih _)

theorem Core.fenceKept_setTower (k : Nat) (x : Tower) (h : (c.tower k).fenced = true → x.fenced = true) : c.FenceKept (c.setTower k x) := by
  refine ⟨List.length_set, fun j hj => ?_⟩
  by_cases hk : k < c.towers.length
  · rw [Core.tower_setTower _ _ _ _ hk]
    split
    · next he => exact h (he ▸ hj)
    · exact hj
  · have hsame : (c.setTower k x).towers = c.towers := List.set_eq_of_length_le (by omega)
    rw [Core.tower, hsame]
    exact hj

/-- The towers of a fenced region. -/
def Core.fenceMarks (c : Core) (ks : List Nat) : Core :=
  ks.foldl (fun (c : Core) k => c.setTower k { c.tower k with fenced := true }) c

theorem Core.fenceMarks_kept (ks : List Nat) : c.FenceKept (c.fenceMarks ks) :=
  .foldl (fun d k => d.fenceKept_setTower k _ (fun _ => rfl)) ks c

theorem Core.fenceMarks_fenced (ks : List Nat) (k : Nat) (hk : k ∈ ks) (hlen : k < c.towers.length) :
    ((c.fenceMarks ks).tower k).fenced = true := by
  induction ks generalizing c with
  | nil => cases hk
  | cons j ks ih =>
    show (((c.setTower j { c.tower j with fenced := true }).fenceMarks ks).tower k).fenced = true
    rcases List.mem_cons.1 hk with rfl | hk
    · refine (Core.fenceMarks_kept _ ks).2 k ?_
      rw [Core.tower_setTower _ _ _ _ hlen, if_pos rfl]
    · exact ih _ hk (by rw [Core.setTower, List.length_set]; exact hlen)

/-- What a fenced region stops stays fenced. -/
theorem Core.fenceTowers_kept (r : Nat) : c.FenceKept (c.fenceTowers r) := by
  refine .foldl (fun d tw => ?_) _ c
  show d.FenceKept (match (d.tower tw).seg.bind d.seg? with | none => _ | some s => _)
  split
  · exact Core.fenceKept_of_towers rfl
  · next s _ =>
    have hseg : d.FenceKept (if s.out.fault = 0 then d.setSeg { s with out := { s.out with fault := 0x0801 } } else d) :=
      Core.fenceKept_of_towers (by split <;> rfl)
    have htower : ∀ e : Core, e.tower tw = d.tower tw → e.FenceKept (if (d.tower tw).st = .faulted then e else
        e.setTower tw ({ d.tower tw with jobs := [], landing := [] }.stop ⟨0x0801, 0, 0, (d.tower tw).pc, (d.tower tw).sched⟩)) := by
      intro e he
      split
      · exact Core.fenceKept_of_towers rfl
      · exact e.fenceKept_setTower tw _ (fun h => he ▸ h)
    exact hseg.trans (htower _ (by split <;> rfl))

theorem Core.outbox_raise (ev : Event) : (c.raise ev).outbox = c.outbox ++ [ev] := rfl

/-- What a fence leaves. -/
theorem Core.fence_spec (tr : Trim) {r cause value : Nat} (hr : r < 16) (hc : cause < 2 ^ 16) (hregions : c.prc.regions.length = 16)
    (htowers : c.towers.length = 64) :
    (c.fence tr r cause value).region r = { c.region r with fenced := true, cause := cause } ∧
      (∀ k, 4 * r ≤ k → k < 4 * r + 4 → ((c.fence tr r cause value).tower k).fenced = true) ∧
      ∃ pre more, (c.fence tr r cause value).outbox =
        c.outbox ++ pre ++ ⟨0x0801, 0xFFFF, r, cause, value % 2 ^ 16, 0xFFFF, r⟩ :: more := by
  obtain ⟨f, hf⟩ : ∃ f, c.fence tr r cause value = f := ⟨_, rfl⟩
  rw [hf]
  unfold Core.fence at hf
  extract_lets before x c1 c2 c3 at hf
  have hregion1 : c1.region r = { c.region r with fenced := true, cause := cause } :=
    (Core.cleared_region _ _ _).trans ((c.region_setRegion r r _ (by omega)).trans (if_pos rfl))
  have h1 : c.Moves fenceParts c1 := (c.moves_setRegion r _).mono.then (Core.moves_cleared _ _)
  have hlen1 : c1.towers.length = 64 := (congrArg List.length (Core.cleared_towers _ _)).trans htowers
  have h2 : c1.Moves [.towers] c2 := c1.moves_setTowers _ _
  have hfenced2 : ∀ k, 4 * r ≤ k → k < 4 * r + 4 → (c2.tower k).fenced = true := fun k hlo hhi =>
    c1.fenceMarks_fenced _ k (List.mem_range'_1.2 ⟨hlo, hhi⟩) (by omega)
  have h3 : c2.Moves [.segs, .towers] (c2.fenceTowers r) := c2.moves_fenceTowers r
  have hkept3 : c2.FenceKept c3 := (c2.fenceTowers_kept r).trans (Core.fenceKept_of_towers (Core.raise_towers _ _))
  have hout3 : c3.outbox = (c2.fenceTowers r).outbox ++ [sysEvent 0x0801 r cause value r] := Core.outbox_raise _ _
  have hprc3 : c3.prc = (c2.fenceTowers r).prc := Core.raise_prc _ _
  clear_value c1 c2 c3
  have hwake := c3.moves_wake tr
  have hregion : (c3.wake tr).prc = c1.prc := (hwake.frame .prc rfl).trans (hprc3.trans ((h3.frame .prc rfl).trans (h2.frame .prc rfl)))
  have htower : (c3.wake tr).towers = c3.towers := hwake.frame .towers rfl
  obtain ⟨pre, hpre⟩ := ((h1.then h2).then h3).more
  obtain ⟨waked, hwaked⟩ := hwake.more
  generalize c3.wake tr = w at *
  obtain ⟨more, ctr, hmore⟩ := w.unfilled_cases before c3.binNow
  rw [← hf, hmore]
  refine ⟨?_, fun k hlo hhi => ?_, pre, waked ++ more, ?_⟩
  · show w.prc.regions.getD r .reset = _
    rw [hregion]
    exact hregion1
  · show (w.towers.getD k _).fenced = true
    rw [htower]
    exact hkept3.2 k (hfenced2 k hlo hhi)
  · show w.outbox ++ more = _
    rw [hwaked, hout3, hpre, sysEvent, Nat.mod_eq_of_lt (a := r) (by omega), Nat.mod_eq_of_lt hc]
    simp only [List.append_assoc, List.cons_append, List.nil_append]

end Fence

/-! ## The commands -/

/-- What O59 says of a region fenced between `s` and `t`. -/
def State.fencedAt (s t : State) (r cause value : Nat) : Prop :=
  (t.core.region r).fenced = true ∧ (t.core.region r).cause = cause ∧
    (∀ k, 4 * r ≤ k → k < 4 * r + 4 → (t.core.tower k).fenced = true) ∧
    ∃ pre more, t.evr = (s.evr.takeAll s.core.stamp (s.core.outbox ++ pre ++ ⟨0x0801, 0xFFFF, r, cause, value, 0xFFFF, r⟩ :: more)).1

/-- A fence of the die `d`, which the state `s` leads to by adding events `pre`. -/
theorem State.fencedAt_fence (s : State) (d : Core) {r cause value value' : Nat} (hr : r < 16) (hc : cause < 2 ^ 16) (hv : value % 2 ^ 16 = value')
    (hregions : d.prc.regions.length = 16) (htowers : d.towers.length = 64) {pre : List Event} (hpre : d.outbox = s.core.outbox ++ pre) :
    s.fencedAt (s.after (d.fence s.trim r cause value)) r cause value' := by
  obtain ⟨hregion, hfenced, pre', more, hout⟩ := d.fence_spec s.trim (value := value) hr hc hregions htowers
  unfold State.fencedAt
  rw [State.after_region, hregion, State.after_evr, hout, hpre, hv]
  refine ⟨rfl, rfl, fun k hlo hhi => ?_, pre ++ pre', more, by simp only [List.append_assoc]⟩
  rw [Core.tower, State.after_towers]
  exact hfenced k hlo hhi

/-- Thresholds of R433, with their 3 °C of hysteresis. -/
theorem thermalCode_thresholds (old temp : Nat) :
    (105 ≤ temp → thermalCode old temp = 4) ∧ (100 ≤ temp → temp < 102 → thermalCode old temp = 3) ∧
      (95 ≤ temp → temp < 97 → thermalCode old temp = 2) ∧ (temp < 92 → thermalCode old temp = 0) ∧
      (102 ≤ temp → temp < 105 → thermalCode old temp = if 4 ≤ old then 4 else 3) := by
  unfold thermalCode
  grind

theorem neighbours_lt {a b : Nat} (h : neighbours a b = true) : a < 16 ∧ b < 16 := by
  unfold neighbours at h
  simp only [Bool.and_eq_true, decide_eq_true_eq] at h
  exact h.1

theorem Core.farther_mem (c : Core) (tr : Trim) (thermal : Bool) (a b : Nat) :
    c.farther tr thermal a b = a ∨ c.farther tr thermal a b = b := by
  unfold Core.farther
  grind

section Samples

variable (s : State) (hregions : s.core.prc.regions.length = 16)

include hregions

omit hregions in
/-- DROOP. -/
theorem droops (r mv : Nat) (hr : r < 16) (hf : (s.core.region r).fenced = false) (hlevel : s.core.level s.trim r < 2 ^ 16) :
    let c := s.core
    let x := c.region r
    let d := c.level s.trim r - mv
    let k := if 45 ≤ d then 2 else if 25 ≤ d then 1 else 0
    (x.droop < k → exec (.droop r mv) s = .next (s.after ((c.setRegion r { x with mv := mv, droop := k }).raise
      ⟨0x080A, 0xFFFF, r, d, 0, 0xFFFF, r⟩))) ∧
    (k ≤ x.droop → exec (.droop r mv) s = .next (s.after (c.setRegion r { x with mv := mv }))) := by
  intro c x d k
  have hexec : exec (.droop r mv) s = .next (s.after (Core.droop r mv s.trim c)) := rfl
  have hevent : sysEvent 0x080A r d 0 r = ⟨0x080A, 0xFFFF, r, d, 0, 0xFFFF, r⟩ :=
    sysEvent_of_lt _ _ (by omega) (Nat.lt_of_le_of_lt (Nat.sub_le _ _) hlevel)
  have hin : ¬ (r ≥ 16 ∨ x.fenced = true) := by
    rintro (h | h)
    · omega
    · exact Bool.noConfusion (hf.symm.trans h)
  rw [hexec, Core.droop]
  refine ⟨fun h => ?_, fun h => ?_⟩
  · rw [← hevent]
    exact congrArg (fun d => Host.Outcome.next (s.after d)) ((if_neg hin).trans (if_pos h))
  · exact congrArg (fun d => Host.Outcome.next (s.after d)) ((if_neg hin).trans (if_neg (Nat.not_lt.2 h)))

/-- DROOP_CLEAR within 15 mV. -/
theorem droop_clears (r mv : Nat) (hr : r < 16) (hlo : s.core.level s.trim r ≤ mv + 15) (hhi : mv ≤ s.core.level s.trim r + 15) :
    ∃ t, exec (.droopClear r mv) s = .next t ∧ t.core.region r = { s.core.region r with mv := mv, droop := 0 } ∧
      (∀ j, j ≠ r → t.core.region j = s.core.region j) := by
  have hin : ¬ (r ≥ 16 ∨ s.core.level s.trim r > mv + 15 ∨ mv > s.core.level s.trim r + 15) := by omega
  refine ⟨s.after (Core.droopClear r mv s.trim s.core), rfl, ?_⟩
  have hclear : Core.droopClear r mv s.trim s.core =
      (s.core.setRegion r { s.core.region r with mv := mv, droop := 0 }).cleared s.core.request := if_neg hin
  have hregion : ∀ j, (s.after (Core.droopClear r mv s.trim s.core)).core.region j =
      if j = r then { s.core.region r with mv := mv, droop := 0 } else s.core.region j := fun j => by
    rw [State.after_region, hclear, Core.cleared_region, Core.region_setRegion _ _ _ _ (by omega)]
  exact ⟨(hregion r).trans (if_pos rfl), fun j hj => (hregion j).trans (if_neg hj)⟩

variable (htowers : s.core.towers.length = 64)

include htowers

/-- THERMAL_SAMPLE. -/
theorem thermal_samples (r temp : Nat) (hr : r < 16) (hp : s.core.prc.powered = true) (hf : (s.core.region r).fenced = false) :
    let c := s.core
    let x := c.region r
    let k := thermalCode x.thermal temp
    ((temp < 110 ∨ x.hot + 1 < 4) → ∃ t, exec (.thermalSample r temp) s = .next t ∧
      t.core.region r = { x with temp := min 255 temp, thermal := k, hot := if 110 ≤ temp then x.hot + 1 else 0 } ∧
      (∀ j, j ≠ r → t.core.region j = c.region j) ∧
      t.evr = (s.evr.takeAll c.stamp (c.outbox ++ if x.thermal < k then [⟨0x0811, 0xFFFF, 0, 0, 0, 0xFFFF, r⟩] else [])).1) ∧
    (110 ≤ temp → 4 ≤ x.hot + 1 → ∃ t, exec (.thermalSample r temp) s = .next t ∧ s.fencedAt t r 3 (min 255 temp)) := by
  intro c x k
  let y : Region := { x with temp := min 255 temp, thermal := k, hot := if temp ≥ 110 then x.hot + 1 else 0 }
  let d := (c.setRegion r y).cleared c.request
  let e := if k > x.thermal then d.raise (sysEvent 0x0811 0 0 0 r) else d
  have hsample : Core.thermalSample r temp s.trim c = if y.hot ≥ 4 then e.fence s.trim r 3 (min 255 temp) else e := by
    have hin : ¬ (r ≥ 16 ∨ (!c.prc.powered) = true) := by
      rintro (h | h)
      · omega
      · rw [show c.prc.powered = true from hp] at h
        exact Bool.noConfusion h
    exact (if_neg hin).trans (if_neg (by rw [show x.fenced = false from hf]; decide))
  have hregion : ∀ j, e.region j = if j = r then y else c.region j := fun j => by
    have hd : d.region j = if j = r then y else c.region j := by
      rw [Core.cleared_region, Core.region_setRegion _ _ _ _ (by show r < s.core.prc.regions.length; omega)]
    show Core.region (if _ then _ else _) j = _
    split
    · exact hd
    · exact hd
  have hout : e.outbox = c.outbox ++ if x.thermal < k then [⟨0x0811, 0xFFFF, 0, 0, 0, 0xFFFF, r⟩] else [] := by
    have hd : d.outbox = c.outbox := Core.cleared_outbox _ _
    show Core.outbox (if _ then _ else _) = _
    split
    · rw [Core.outbox_raise, hd]
      rfl
    · rw [hd, List.append_nil]
  have hbanks : e.prc.regions.length = 16 ∧ e.towers.length = 64 := by
    have hprc : e.prc = (c.setRegion r y).prc := by
      show Core.prc (if _ then _ else _) = _
      split
      · exact (Core.raise_prc _ _).trans (Core.cleared_prc _ _)
      · exact Core.cleared_prc _ _
    have htow : e.towers = c.towers := by
      show Core.towers (if _ then _ else _) = _
      split
      · exact (Core.raise_towers _ _).trans (Core.cleared_towers _ _)
      · exact Core.cleared_towers _ _
    rw [hprc, htow]
    exact ⟨List.length_set.trans hregions, htowers⟩
  have hexec : exec (.thermalSample r temp) s = .next (s.after (if y.hot ≥ 4 then e.fence s.trim r 3 (min 255 temp) else e)) := by
    rw [← hsample]
    rfl
  rw [hexec]
  clear_value e
  refine ⟨fun hcool => ?_, fun hhot hlong => ?_⟩
  · have hnot : ¬ y.hot ≥ 4 := by
      show ¬ (if temp ≥ 110 then x.hot + 1 else 0) ≥ 4
      split <;> omega
    rw [if_neg hnot]
    refine ⟨_, rfl, ?_, fun j hj => ?_, ?_⟩
    · rw [State.after_region, hregion, if_pos rfl]
    · rw [State.after_region, hregion, if_neg hj]
    · rw [State.after_evr, hout]
  · have hyes : y.hot ≥ 4 := by
      show (if temp ≥ 110 then x.hot + 1 else 0) ≥ 4
      rw [if_pos hhot]
      exact hlong
    rw [if_pos hyes]
    exact ⟨_, rfl, s.fencedAt_fence e hr (by decide) (Nat.mod_eq_of_lt (by omega)) hbanks.1 hbanks.2 hout⟩

/-- NEIGHBOUR_LIMIT. -/
theorem neighbour_limits (a b : Nat) (thermal : Bool) (diff : Nat) (hn : neighbours a b = true) (ha : (s.core.region a).fenced = false)
    (hb : (s.core.region b).fenced = false) (hd : diff < 2 ^ 16) :
    let c := s.core
    ((if thermal then 18 else 60) < diff → diff < (if thermal then 25 else 80) →
      ∃ (t : State) (more : List Event), exec (.neighbourLimit a b thermal diff) s = .next t ∧ t.core.blf = { c.blf with reqNeighbour := 1 } ∧
        t.core.prc = c.prc ∧ t.evr = (s.evr.takeAll c.stamp (c.outbox ++ ⟨0x0809, 0xFFFF, a, b, diff, 0xFFFF, a⟩ :: more)).1) ∧
    ((if thermal then 25 else 80) ≤ diff → ∃ t, exec (.neighbourLimit a b thermal diff) s = .next t ∧
      let r := c.farther s.trim thermal a b
      (r = a ∨ r = b) ∧ s.fencedAt t r (if thermal then 2 else 1) (c.sensed s.trim thermal r % 2 ^ 16)) ∧
    (diff ≤ (if thermal then 18 else 60) → exec (.neighbourLimit a b thermal diff) s = .next (s.after c)) := by
  intro c
  obtain ⟨ha16, hb16⟩ := neighbours_lt hn
  have hexec : exec (.neighbourLimit a b thermal diff) s = .next (s.after (Core.neighbourLimit a b thermal diff s.trim c)) := rfl
  have hin : ¬ ((!neighbours a b || (c.region a).fenced || (c.region b).fenced) = true) := by
    rw [hn, show (c.region a).fenced = false from ha, show (c.region b).fenced = false from hb]
    decide
  have horder : (if thermal then 18 else 60) < (if thermal then 25 else 80) := by split <;> decide
  rw [hexec, Core.neighbourLimit, if_neg hin]
  refine ⟨fun hlo hhi => ?_, fun hhi => ?_, fun hlo => ?_⟩
  · rw [if_neg (by omega), if_pos hlo]
    have hevent : sysEvent 0x0809 a b diff a = ⟨0x0809, 0xFFFF, a, b, diff, 0xFFFF, a⟩ := by
      rw [sysEvent, Nat.mod_eq_of_lt (a := a) (by omega), Nat.mod_eq_of_lt (a := b) (by omega), Nat.mod_eq_of_lt hd]
    rw [hevent]
    have hmove := Core.moves_bump ({ c with blf := { c.blf with reqNeighbour := 1 } }.raise ⟨0x0809, 0xFFFF, a, b, diff, 0xFFFF, a⟩)
      0x30_00A0 1
    obtain ⟨more, hmore⟩ := hmove.more
    refine ⟨_, more, rfl, ?_⟩
    rw [State.after_blf, State.after_prc, State.after_evr, hmore, List.append_cons]
    exact ⟨hmove.frame .blf rfl, hmove.frame .prc rfl, rfl⟩
  · rw [if_pos hhi]
    have hmem := c.farther_mem s.trim thermal a b
    have hr : c.farther s.trim thermal a b < 16 := by omega
    exact ⟨_, rfl, hmem, s.fencedAt_fence c hr (by split <;> decide) rfl hregions htowers (pre := []) (List.append_nil _).symm⟩
  · rw [if_neg (by omega), if_neg (by omega)]

end Samples

/-- Settles O59: the commands one by one, over the rule for a fence. -/
theorem regionsGuarded : Obligations.RegionsGuarded := by
  intro s c p fenced hregions htowers
  refine ⟨fun r mv hr hf hl => droops s r mv hr hf hl, fun r mv hr hlo hhi => droop_clears s hregions r mv hr hlo hhi,
    fun r mv hout => ?_,
    fun r temp hr hp => ⟨fun hf hcool => (thermal_samples s hregions htowers r temp hr hp hf).1 hcool,
      fun hf hhot hlong => (thermal_samples s hregions htowers r temp hr hp hf).2 hhot hlong⟩,
    thermalCode_thresholds, fun a b thermal diff hn ha hb hd => neighbour_limits s hregions htowers a b thermal diff hn ha hb hd,
    ?_, fun r cause value hr h1 h3 hv hp hf => ?_, fun sensor temp hp ht => ?_, fun sensor temp ht => ?_⟩
  · show Host.Outcome.next (s.after (Core.droopClear r mv s.trim c)) = _
    rw [Core.droopClear]
    exact congrArg (fun d => Host.Outcome.next (s.after d)) (if_pos (.inr hout))
  · obtain ⟨x, hx⟩ := Core.cleared_cases { c with blf := { c.blf with reqNeighbour := 0 } } c.request
    refine ⟨s.after (Core.cleared _ _), rfl, ?_⟩
    rw [State.after_blf, State.after_prc, hx]
    exact ⟨rfl, rfl⟩
  · have hin : ¬ (r ≥ 16 ∨ (!within 1 3 cause) = true ∨ (!c.prc.powered) = true ∨ (c.region r).fenced = true) := by
      simp [within, h1, h3, hf, show c.prc.powered = true from hp]
      omega
    refine ⟨s.after (Core.regionFence r cause value s.trim c), rfl, ?_⟩
    rw [Core.regionFence, if_neg hin]
    exact s.fencedAt_fence c hr (by omega) (Nat.mod_eq_of_lt hv) hregions htowers (pre := []) (List.append_nil _).symm
  · have hexec : exec (.thermalTrip sensor temp) s = .next (s.lose ((s.core.dark (some (sensor, temp))).failN 6)) := if_pos ⟨hp, ht⟩
    have htrip : (s.core.dark (some (sensor, temp))).failN 6 =
        { s.core.dark (some (sensor, temp)) with out := ⟨[0, 6], [], []⟩ } := if_neg (by show 6 ∉ [0]; decide)
    rw [htrip] at hexec
    exact ⟨_, hexec, rfl, rfl, by show 6 ∈ [0, 6]; decide, rfl⟩
  · exact if_neg (fun h => absurd h.2 (Nat.not_le.2 ht))

end Sys2Proof.Machine

/-! Firmware images and boot (14). -/

namespace Sys2Proof.Machine

set_option Elab.async false

/-! ## FAIL_N after delivery -/

theorem Core.fire_failN (c : Core) (f : FnId) (v : Nat) : (c.fire f v).out.failN = c.out.failN := by
  unfold Core.fire
  dsimp only
  split
  · rfl
  · split <;> rfl

theorem Core.mem_failN {c : Core} {n k : Nat} : n ∈ (c.failN k).out.failN ↔ n = k ∨ n ∈ c.out.failN := by
  unfold Core.failN
  split
  · next h =>
    refine ⟨.inr, ?_⟩
    rintro (rfl | h')
    · exact h
    · exact h'
  · simp [or_comm]

/-- Delivery may assert FAIL_N for the recorder's filters, and for nothing else. -/
theorem State.deliver_mem_failN (u : State) (st : Stamp) {n : Nat} (hn : n ≠ 1) :
    n ∈ (u.deliver st).core.out.failN ↔ n ∈ u.core.out.failN := by
  have hfire : ∀ (b : Bool) (f : FnId) (v : Nat),
      (if b then Core.fire { u.core with outbox := [] } f v else { u.core with outbox := [] }).out.failN = u.core.out.failN := by
    intro b f v
    cases b
    · rfl
    · exact Core.fire_failN _ f v
  have hfail : ∀ (b : Bool) (c : Core), n ∈ (if b then c.failN 1 else c).out.failN ↔ n ∈ c.out.failN := by
    intro b c
    cases b
    · exact Iff.rfl
    · exact Core.mem_failN.trans (or_iff_right hn)
  unfold State.deliver
  dsimp only
  rw [hfail, hfire]

theorem State.after_mem_failN (s : State) (c : Core) {n : Nat} (hn : n ≠ 1) :
    n ∈ (s.after c).core.out.failN ↔ n ∈ c.out.failN :=
  State.deliver_mem_failN _ _ hn

theorem Core.mem_okN {c : Core} {n k : Nat} : n ∈ (c.okN k).out.failN ↔ n ∈ c.out.failN ∧ n ≠ k := by
  simp [Core.okN]

/-! ## Image kinds -/

section Kinds

variable (c : Core)

theorem Core.fw_setFw (k j : Nat) (x : FwKind) (hk : 1 ≤ k) (hj : 1 ≤ j) (hlen : k ≤ c.keep.fws.length) :
    (c.setFw k x).fw j = if j = k then x else c.fw j := by
  simp only [Core.fw, Core.setFw, List.getD_eq_getElem?_getD, List.getElem?_set]
  grind

theorem Core.fw_of_keep {c d : Core} (h : d.keep.fws = c.keep.fws) (k : Nat) : d.fw k = c.fw k := by
  rw [Core.fw, Core.fw, h]

theorem State.after_fw (s : State) (k : Nat) : (s.after c).core.fw k = c.fw k := Core.fw_of_keep (by rw [State.after_keep]) k

/-- Parts of the Keep that a change elsewhere leaves. -/
theorem Core.Moves.fws {w : List Part} {c d : Core} (h : c.Moves w d) (hw : w.contains .fws = false) :
    d.keep.fws = c.keep.fws ∧ d.keep.fwState = c.keep.fwState ∧ d.keep.fwKind = c.keep.fwKind ∧ d.keep.fwNew = c.keep.fwNew := by
  have hview : (d.keep.fws, d.keep.fwState, d.keep.fwKind, d.keep.fwNew) = (c.keep.fws, c.keep.fwState, c.keep.fwKind, c.keep.fwNew) :=
    h.frame .fws hw
  simpa using hview

end Kinds

/-! ## KEP_FW_CTL (R405 to R408) -/

section Images

variable (s : State)

/-- An action on a kind of 1 to 4. -/
theorem fwAct_admin (hlo : 1 ≤ s.core.fwSel) (hhi : s.core.fwSel ≤ 4) (g : Nat → Core → Core) :
    Core.fwAct s.trim.admin g s.trim s.core = g s.core.fwSel s.core := if_pos ⟨rfl, hlo, hhi⟩

variable (hlo : 1 ≤ s.core.fwSel) (hhi : s.core.fwSel ≤ 4)

include hlo hhi

theorem exec_stage (img : Option (List Byte)) :
    exec (.stage s.trim.admin img) s = .next (s.after (Core.stage img s.trim s.core.fwSel s.core)) :=
  congrArg (fun c => Host.Outcome.next (s.after c)) (fwAct_admin s hlo hhi (Core.stage img s.trim))

theorem exec_discard : exec (.discard s.trim.admin) s = .next (s.after (Core.discard s.core.fwSel s.core)) :=
  congrArg (fun c => Host.Outcome.next (s.after c)) (fwAct_admin s hlo hhi Core.discard)

theorem exec_activate : exec (.activate s.trim.admin) s = .next (s.after (Core.activate s.core.fwSel s.core)) :=
  congrArg (fun c => Host.Outcome.next (s.after c)) (fwAct_admin s hlo hhi Core.activate)

theorem exec_commitSvn : exec (.commitSvn s.trim.admin) s = .next (s.after (Core.commitSvn s.core.fwSel s.core)) :=
  congrArg (fun c => Host.Outcome.next (s.after c)) (fwAct_admin s hlo hhi Core.commitSvn)

end Images

section Stages

variable (c : Core)

/-- STAGE that verifies an image, or shows the code. -/
theorem Core.stage_spec (tr : Trim) (k : Nat) (d : List Byte) (h0 : c.keep.fwState = 0) (hlo : 1 ≤ k) (hhi : k ≤ c.keep.fws.length) :
    let code := imageCode tr (c.fw k).svnMin k d
    (code ≠ 0 → (Core.stage (some d) tr k c).keep = { c.keep with refCode := code, refSlot := 0 }) ∧
    (code = 0 → (Core.stage (some d) tr k c).fw k = (c.fw k).putOther none false ∧ (Core.stage (some d) tr k c).keep.fwState = 1 ∧
      (Core.stage (some d) tr k c).keep.fwKind = k ∧ (Core.stage (some d) tr k c).keep.fwNew = some (imageOf d) ∧
      (Core.stage (some d) tr k c).keep.slots = c.keep.slots) := by
  intro code
  have hkeep : (c.bump (hstBase tr.adminPort + 0x80) d.length).keep = c.keep := Core.bump_keep _ _ _
  obtain ⟨f, hf⟩ : ∃ f, Core.stage (some d) tr k c = f := ⟨_, rfl⟩
  rw [hf]
  unfold Core.stage at hf
  rw [if_neg (by simp [h0])] at hf
  dsimp only at hf
  generalize c.bump (hstBase tr.adminPort + 0x80) d.length = b at hf hkeep
  have hfw : b.fw k = c.fw k := Core.fw_of_keep (congrArg Keep.fws hkeep) k
  rw [hfw] at hf
  refine ⟨fun hcode => ?_, fun hcode => ?_⟩
  · split at hf
    · next h => exact absurd h hcode
    · rw [← hf, Core.keepRefuse, hkeep]
  · rw [show imageCode tr (c.fw k).svnMin k d = 0 from hcode] at hf
    rw [← hf]
    refine ⟨?_, rfl, rfl, rfl, (congrArg Keep.slots hkeep : b.keep.slots = c.keep.slots)⟩
    exact (Core.fw_of_keep rfl k).trans ((b.fw_setFw k k _ hlo hlo (by rw [hkeep]; exact hhi)).trans (if_pos rfl))

theorem Core.note_keep (kind ctx arg : Nat) (d : Digest) : (c.note kind ctx arg d).keep.fws = c.keep.fws := rfl

end Stages

/-- The first part of O54: the actions on the kind selected. -/
theorem images_acted (s : State) :
    let c := s.core
    let a := s.trim.admin
    let k := c.fwSel
    let x := c.fw k
    let refused (code : Nat) : State := s.after { c with keep := { c.keep with refCode := code, refSlot := 0 } }
    1 ≤ k → k ≤ 4 → c.keep.fws.length = 4 →
      (c.keep.fwState ≠ 0 → (∀ img, exec (.stage a img) s = .next (refused 0x0512)) ∧ exec (.discard a) s = .next (refused 0x0512) ∧
        exec (.activate a) s = .next (refused 0x0512)) ∧
      (c.keep.fwState = 0 →
        (∃ t, exec (.stage a none) s = .next t ∧ t.core.keep = { c.keep with refCode := 0x0510, refSlot := 0 }) ∧
        (∀ d : List Byte, ∃ t, exec (.stage a (some d)) s = .next t ∧
          (let code := imageCode s.trim x.svnMin k d
           (code ≠ 0 → t.core.keep = { c.keep with refCode := code, refSlot := 0 }) ∧
           (code = 0 → t.core.fw k = x.putOther none false ∧ t.core.keep.fwState = 1 ∧ t.core.keep.fwKind = k ∧
             t.core.keep.fwNew = some (imageOf d) ∧ t.core.keep.slots = c.keep.slots))) ∧
        (x.staged = false → exec (.discard a) s = .next (refused 0x0513) ∧ exec (.activate a) s = .next (refused 0x0513)) ∧
        (x.staged = true → (∃ t, exec (.discard a) s = .next t ∧ t.core.fw k = x.putOther none false ∧ t.core.keep.fwState = 0) ∧
          exec (.activate a) s = .next (s.after { c with keep := { c.keep with
            fwState := 2, fwKind := k, sessions := if k = 1 then [] else c.keep.sessions } }))) ∧
      exec (.commitSvn a) s = .next (s.after (c.setFw k { x with svnMin := max x.svnMin ((x.active.map (fun i => i.svn)).getD 0) })) := by
  intro c a k x refused hlo hhi hlen
  have hstage := exec_stage s hlo hhi
  rw [exec_discard s hlo hhi, exec_activate s hlo hhi, exec_commitSvn s hlo hhi]
  refine ⟨fun hbusy => ⟨fun img => ?_, ?_, ?_⟩, fun hidle => ⟨?_, fun d => ?_, fun hs => ⟨?_, ?_⟩, fun hs => ⟨?_, ?_⟩⟩, rfl⟩
  · have hrefuse : Core.stage img s.trim k c = c.keepRefuse 0x0512 0 := by
      unfold Core.stage
      exact if_pos hbusy
    rw [hstage img, hrefuse]
    rfl
  · rw [Core.discard, if_pos hbusy]
    rfl
  · rw [Core.activate, if_pos hbusy]
    rfl
  · refine ⟨_, hstage none, ?_⟩
    have hkeep : (c.dmaFailed a).keep = c.keep := by simp [Core.dmaFailed]
    rw [State.after_keep, Core.stage, if_neg (by rw [not_not]; exact hidle), Core.keepRefuse, hkeep]
  · refine ⟨_, hstage (some d), ?_⟩
    simp only [State.after_keep, State.after_fw]
    exact c.stage_spec s.trim k d hidle hlo (by omega)
  · rw [Core.discard, if_neg (by rw [not_not]; exact hidle), if_pos (by rw [show (c.fw k).staged = false from hs]; rfl)]
    rfl
  · rw [Core.activate, if_neg (by rw [not_not]; exact hidle), if_pos (by rw [show (c.fw k).staged = false from hs]; rfl)]
    rfl
  · have hdiscard : Core.discard k c = (c.setFw k (x.putOther none false)).note 2 0xFFFF k (measureOf x.other) := by
      rw [Core.discard, if_neg (by rw [not_not]; exact hidle), if_neg (by rw [show (c.fw k).staged = true from hs]; decide)]
    refine ⟨_, rfl, ?_⟩
    rw [State.after_fw, State.after_keep, hdiscard]
    exact ⟨(Core.fw_of_keep (Core.note_keep _ _ _ _ _) k).trans ((c.fw_setFw k k _ hlo hlo (by omega)).trans (if_pos rfl)), hidle⟩
  · rw [Core.activate, if_neg (by rw [not_not]; exact hidle), if_neg (by rw [show (c.fw k).staged = true from hs]; decide)]

section Windows

variable (c : Core)

/-- A window that ends well. -/
theorem Core.activationDone_true (h : c.keep.fwState = 2) : c.activationDone true =
    (((c.fwIdle.setFw c.keep.fwKind { c.fw c.keep.fwKind with activeB := !(c.fw c.keep.fwKind).activeB, staged := false, failed := false }).raise
      (sysEvent 0x0516 0 0 0 0)).note 3 0xFFFF c.keep.fwKind (measureOf (c.fw c.keep.fwKind).other)).afterWindow c.keep.fwKind := by
  rw [Core.activationDone]
  exact if_neg (by rw [not_not]; exact h)

/-- A window whose self-check fails. -/
theorem Core.activationDone_false (h : c.keep.fwState = 2) : c.activationDone false =
    (((c.fwIdle.setFw c.keep.fwKind { c.fw c.keep.fwKind with failed := true }).raise (sysEvent 0x0514 0 0 0 0)).note 4 0xFFFF c.keep.fwKind
      (measureOf (c.fw c.keep.fwKind).other)).afterWindow c.keep.fwKind := by
  rw [Core.activationDone]
  exact if_neg (by rw [not_not]; exact h)

/-- What a window leaves, however it ends: nothing under way, its kind at `y`, and its event before all others. -/
theorem window_over (s : State) (y : FwKind) (code kind : Nat) (d : Digest) (k : Nat) (hlo : 1 ≤ k) (hhi : k ≤ 4)
    (hlen : s.core.keep.fws.length = 4) (hcore : c =
      ((((s.core.fwIdle.setFw k y).raise (sysEvent code 0 0 0 0)).note kind 0xFFFF k d).afterWindow k).startWaiting s.trim) :
    let t := s.after c
    ∃ more : List Event, (t.core.keep.fwState = 0 ∧ t.core.keep.fwKind = 0 ∧ t.core.keep.fwNew = none) ∧ t.core.fw k = y ∧
      t.evr = (s.evr.takeAll s.core.stamp (s.core.outbox ++ ⟨code, 0xFFFF, 0, 0, 0, 0xFFFF, 0⟩ :: more)).1 := by
  intro t
  generalize hn : ((s.core.fwIdle.setFw k y).raise (sysEvent code 0 0 0 0)).note kind 0xFFFF k d = n at hcore
  have hmove : n.Moves (Core.windowParts ++ Core.regionParts) c := by
    rw [hcore]
    exact ((n.moves_afterWindow k).mono).then (Core.moves_startWaiting _ s.trim)
  obtain ⟨hfws, hst, hkind, hnew⟩ := hmove.fws (by decide)
  obtain ⟨more, hmore⟩ := hmove.more
  have hfw : n.fw k = y := by
    rw [← hn]
    exact (Core.fw_of_keep rfl k).trans ((s.core.fwIdle.fw_setFw k k y hlo hlo (by show k ≤ s.core.keep.fws.length; omega)).trans (if_pos rfl))
  have hout : n.outbox = s.core.outbox ++ [sysEvent code 0 0 0 0] := by rw [← hn]; rfl
  have hidle : n.keep.fwState = 0 ∧ n.keep.fwKind = 0 ∧ n.keep.fwNew = none := by rw [← hn]; exact ⟨rfl, rfl, rfl⟩
  refine ⟨more, ?_, ?_, ?_⟩
  · rw [State.after_keep, hst, hkind, hnew]
    exact hidle
  · rw [State.after_fw, Core.fw_of_keep hfws, hfw]
  · rw [State.after_evr, hmore, hout, List.append_assoc]
    rfl

end Windows

/-- Settles O54: the actions, and the ends of staging and of the window. -/
theorem firmwareImages : Obligations.FirmwareImages := by
  intro s c a k x refused
  refine ⟨fun entry => adminAct_admin s _, images_acted s, ?_⟩
  intro n y idle hlo hhi hlen
  have hactivation : ∀ ok, c.keep.fwState = 2 → exec (.activationDone ok) s = .next (s.after ((c.activationDone ok).startWaiting s.trim)) :=
    fun ok h => congrArg (fun d => Host.Outcome.next (s.after d)) (if_pos h)
  refine ⟨fun hst => ⟨?_, ?_⟩, fun hst => ⟨?_, ?_⟩, fun hst ok => ?_, fun hst ok => ?_⟩
  · have hdone : Core.stagingDone true c = ((((c.setFw n (y.putOther c.keep.fwNew true)).fwIdle).raise (sysEvent 0x0515 0 0 0 0)).note 1
        0xFFFF n (measureOf c.keep.fwNew)) := by
      rw [Core.stagingDone]
      exact (if_neg (by rw [not_not]; exact hst)).trans (if_neg (by decide))
    refine ⟨s.after (Core.stagingDone true c), rfl, ?_⟩
    rw [State.after_fw, State.after_evr, hdone]
    refine ⟨?_, ?_, rfl⟩
    · exact (Core.fw_of_keep rfl n).trans ((c.fw_setFw n n _ hlo hlo (by omega)).trans (if_pos rfl))
    · show (s.after _).core.keep.fwState = 0 ∧ (s.after _).core.keep.fwKind = 0 ∧ (s.after _).core.keep.fwNew = none
      rw [State.after_keep]
      exact ⟨rfl, rfl, rfl⟩
  · have hdone : Core.stagingDone false c = c.fwIdle.keepRefuse 0x0510 0 := by
      rw [Core.stagingDone]
      exact (if_neg (by rw [not_not]; exact hst)).trans (if_pos rfl)
    refine ⟨s.after (Core.stagingDone false c), rfl, ?_⟩
    rw [State.after_fw, State.after_keep, hdone]
    refine ⟨rfl, ?_, rfl⟩
    show (s.after _).core.keep.fwState = 0 ∧ (s.after _).core.keep.fwKind = 0 ∧ (s.after _).core.keep.fwNew = none
    rw [State.after_keep]
    exact ⟨rfl, rfl, rfl⟩
  · obtain ⟨more, hidle, hfw, hevr⟩ := window_over _ s _ _ _ _ n hlo hhi hlen
      (congrArg (Core.startWaiting s.trim) (c.activationDone_true hst))
    exact ⟨_, more, hactivation true hst, hidle, hfw, hevr⟩
  · obtain ⟨more, hidle, hfw, hevr⟩ := window_over _ s _ _ _ _ n hlo hhi hlen
      (congrArg (Core.startWaiting s.trim) (c.activationDone_false hst))
    exact ⟨_, more, hactivation false hst, hidle, hfw, hevr⟩
  · exact congrArg (fun d => Host.Outcome.next (s.after d)) (if_pos hst)
  · exact congrArg (fun d => Host.Outcome.next (s.after d)) (if_neg hst)

/-! ## Boot (R391, R456) -/

section Boot

variable {c : Core} (hp : c.prc.powered = true) (hb : c.keep.basic = false)

include hp hb

/-- The stage after the one before it is taken. -/
theorem Core.boot_in_turn {n : Nat} (hn : n = c.keep.bootStage + 1) (h4 : n ≤ 4) :
    ¬ ((!c.prc.powered) = true ∨ c.keep.basic = true ∨ n ≠ c.keep.bootStage + 1 ∨ n > 4) := by
  rw [hp, hb]
  rintro (h | h | h | h)
  · exact Bool.noConfusion h
  · exact Bool.noConfusion h
  · exact h hn
  · omega

theorem Core.boot_one {d : Core} (h0 : c.keep.bootStage = 0) (hk : c.bootKind 1 = some d) :
    Core.boot 1 c = { d with keep := { d.keep with bootStage := 1 } } := by
  unfold Core.boot
  rw [if_neg (Core.boot_in_turn hp hb (by rw [h0]) (by decide))]
  simp only [hk]

theorem Core.boot_one_none (h0 : c.keep.bootStage = 0) (hk : c.bootKind 1 = none) : Core.boot 1 c = c.bootFail := by
  unfold Core.boot
  rw [if_neg (Core.boot_in_turn hp hb (by rw [h0]) (by decide))]
  simp only [hk]

theorem Core.boot_two (h1 : c.keep.bootStage = 1) : Core.boot 2 c = { c with keep := { c.keep with bootStage := 2 } } := by
  unfold Core.boot
  exact if_neg (Core.boot_in_turn hp hb (by rw [h1]) (by decide))

theorem Core.boot_three {d : Core} (h2 : c.keep.bootStage = 2) (hk : c.bootKinds [2, 3, 4] = some d) :
    Core.boot 3 c = { d with keep := { d.keep with bootStage := 3 } } := by
  unfold Core.boot
  rw [if_neg (Core.boot_in_turn hp hb (by rw [h2]) (by decide))]
  simp only [hk]

theorem Core.boot_three_none (h2 : c.keep.bootStage = 2) (hk : c.bootKinds [2, 3, 4] = none) : Core.boot 3 c = c.bootFail := by
  unfold Core.boot
  rw [if_neg (Core.boot_in_turn hp hb (by rw [h2]) (by decide))]
  simp only [hk]

theorem Core.boot_four (h3 : c.keep.bootStage = 3) :
    Core.boot 4 c = ({ c with keep := { c.keep with bootStage := 4 } } : Core).bootLast := by
  unfold Core.boot
  exact if_neg (Core.boot_in_turn hp hb (by rw [h3]) (by decide))

omit hp hb in
/-- A stage out of turn. -/
theorem Core.boot_of_turn {n : Nat} (h : n ≠ c.keep.bootStage + 1 ∨ 4 < n) : Core.boot n c = c := by
  unfold Core.boot
  exact if_pos (.inr (.inr h))

omit hp hb in
/-- No slot of a kind passes. -/
theorem Core.bootKind_none {k : Nat} (ha : (c.fw k).passes (c.fw k).active = false) (ho : (c.fw k).passes (c.fw k).other = false) :
    c.bootKind k = none := by
  simp [Core.bootKind, ha, ho]

omit hp hb in
/-- Booting a kind changes no other. -/
theorem Core.bootKind_fw {d : Core} {j k : Nat} (h : c.bootKind j = some d) (hj : 1 ≤ j) (hj4 : j ≤ c.keep.fws.length) (hk : 1 ≤ k)
    (hne : k ≠ j) : d.fw k = c.fw k ∧ d.keep.fws.length = c.keep.fws.length := by
  unfold Core.bootKind at h
  dsimp only at h
  split at h
  · cases h
    exact ⟨rfl, rfl⟩
  · split at h
    · cases h
      exact ⟨(Core.fw_of_keep rfl k).trans ((c.fw_setFw j k _ hj hk hj4).trans (if_neg hne)), List.length_set⟩
    · cases h

omit hp hb in
/-- A kind of which no slot passes stops the boot, whichever kinds boot before it. -/
theorem Core.bootKinds_none (c : Core) (ks : List Nat) (hks : ∀ j ∈ ks, 1 ≤ j ∧ j ≤ c.keep.fws.length) (hnodup : ks.Nodup) {k : Nat}
    (hk : k ∈ ks) (ha : (c.fw k).passes (c.fw k).active = false) (ho : (c.fw k).passes (c.fw k).other = false) : c.bootKinds ks = none := by
  induction ks generalizing c with
  | nil => cases hk
  | cons j ks ih =>
    unfold Core.bootKinds
    obtain ⟨hnot, hnodup⟩ := List.nodup_cons.1 hnodup
    rcases List.mem_cons.1 hk with rfl | hk'
    · rw [Core.bootKind_none ha ho]
    · cases h : c.bootKind j with
      | none => rfl
      | some d =>
        have hne : k ≠ j := fun he => hnot (he ▸ hk')
        obtain ⟨hfw, hlen⟩ := Core.bootKind_fw h (hks j List.mem_cons_self).1 (hks j List.mem_cons_self).2 (hks k hk).1 hne
        exact ih d (fun i hi => hlen ▸ hks i (List.mem_cons_of_mem _ hi)) hnodup hk' (hfw.symm ▸ ha) (hfw.symm ▸ ho)

omit hp hb in
/-- Kinds that boot from their active slots change nothing. -/
theorem Core.bootKinds_active (ks : List Nat) (h : ∀ k ∈ ks, (c.fw k).passes (c.fw k).active = true) : c.bootKinds ks = some c := by
  induction ks with
  | nil => rfl
  | cons k ks ih =>
    have hk : c.bootKind k = some c := if_pos (h k List.mem_cons_self)
    rw [Core.bootKinds, hk]
    exact ih (fun j hj => h j (List.mem_cons_of_mem _ hj))

omit hp hb in
/-- Stage 4 up to READY. -/
theorem Core.bootLast_cases (c : Core) : ∃ d : Core, c.bootLast = d.readyCheck ∧ d.keep.bootStage = c.keep.bootStage ∧ d.keep.open_ = true ∧
    d.gate = { c.gate with run := c.gate.halted.map (fun h => !h) } ∧ d.mem = c.mem := by
  unfold Core.bootLast
  dsimp only
  split
  · exact ⟨_, rfl, rfl, rfl, rfl, rfl⟩
  · exact ⟨_, rfl, rfl, rfl, rfl, rfl⟩

omit hp hb in
/-- READY. -/
theorem Core.readyCheck_spec (c : Core) (h4 : 4 ≤ c.keep.bootStage) (hr : c.gate.ready = false) :
    c.readyCheck = if c.mem.ctls.all (fun m => m.init || m.trainFail != 0) then { c with gate := { c.gate with ready := true } }.okN 0
      else c := by
  unfold Core.readyCheck
  simp [h4, hr]

omit hp hb in
theorem Core.readyCheck_keep (c : Core) : c.readyCheck.keep = c.keep ∧ c.readyCheck.gate.run = c.gate.run := by
  unfold Core.readyCheck
  split <;> exact ⟨rfl, rfl⟩

end Boot

/-- The last stage (R456). -/
theorem boot_last (s : State) (hp : s.core.prc.powered = true) (hb : s.core.keep.basic = false) (h3 : s.core.keep.bootStage = 3) :
    let c := s.core
    ∃ t, exec (.bootStage 4) s = .next t ∧ t.core.keep.bootStage = 4 ∧ t.core.keep.open_ = true ∧
      t.core.gate.run = c.gate.halted.map (fun h => !h) ∧
      (c.gate.ready = false → c.mem.ctls.all (fun m => m.init || m.trainFail != 0) = true →
        t.core.gate.ready = true ∧ 0 ∉ t.core.out.failN) ∧
      (c.gate.ready = false → c.mem.ctls.all (fun m => m.init || m.trainFail != 0) = false → t.core.gate.ready = false) := by
  intro c
  have hexec : exec (.bootStage 4) s = .next (s.after (Core.boot 4 c)) := rfl
  have hboot : Core.boot 4 c = ({ c with keep := { c.keep with bootStage := 4 } } : Core).bootLast :=
    Core.boot_four hp hb h3
  obtain ⟨d, hd, hstage, hopen, hgate, hmem⟩ := Core.bootLast_cases { c with keep := { c.keep with bootStage := 4 } }
  rw [hboot, hd] at hexec
  obtain ⟨hkeep, hrun⟩ := d.readyCheck_keep
  have hready : c.gate.ready = false → d.gate.ready = false := fun h => by rw [hgate]; exact h
  have hfour : 4 ≤ d.keep.bootStage := hstage ▸ Nat.le_refl 4
  refine ⟨_, hexec, ?_, ?_, ?_, fun hr hall => ?_, fun hr hall => ?_⟩
  · rw [State.after_keep, hkeep, hstage]
  · rw [State.after_keep, hkeep, hopen]
  · rw [State.after_gate, hrun, hgate]
  · rw [State.after_gate, State.after_mem_failN _ _ (by decide), d.readyCheck_spec hfour (hready hr), hmem, if_pos hall]
    exact ⟨rfl, fun h => (Core.mem_okN.1 h).2 rfl⟩
  · rw [State.after_gate, d.readyCheck_spec hfour (hready hr), hmem, if_neg (by simp only [hall]; decide)]
    exact hready hr

/-- Settles O55: the stages one by one. -/
theorem bootStages : Obligations.BootStages := by
  intro s c x at_ hp hb hlen
  have hexec : ∀ n, exec (.bootStage n) s = .next (s.after (Core.boot n c)) := fun _ => rfl
  refine ⟨fun n hn => ?_, fun h0 => ⟨fun ha => ?_, fun ha ho => ?_, fun ha ho => ?_⟩, fun h1 => ?_, fun h2 ha => ?_, fun h2 hno => ?_,
    boot_last s hp hb⟩
  · rw [hexec, Core.boot_of_turn hn]
  · have hkind : c.bootKind 1 = some c := if_pos ha
    rw [hexec, Core.boot_one hp hb h0 hkind]
  · have hkind : c.bootKind 1 = some ((c.setFw 1 { x with activeB := !x.activeB, staged := false }).raise (sysEvent 0x0517 1 0 0 0)) := by
      unfold Core.bootKind
      exact (if_neg (by rw [show (c.fw 1).passes (c.fw 1).active = false from ha]; decide)).trans (if_pos ho)
    refine ⟨_, hexec 1, ?_⟩
    rw [State.after_keep, State.after_fw, State.after_evr, Core.boot_one hp hb h0 hkind]
    exact ⟨rfl, (Core.fw_of_keep rfl 1).trans ((c.fw_setFw 1 1 _ (by decide) (by decide) (by omega)).trans (if_pos rfl)), rfl⟩
  · refine ⟨_, hexec 1, ?_⟩
    rw [State.after_keep, State.after_mem_failN _ _ (by decide), Core.boot_one_none hp hb h0 (Core.bootKind_none ha ho),
      Core.bootFail, Core.failN_keep]
    exact ⟨h0, rfl, rfl, Core.mem_failN.2 (.inl rfl)⟩
  · rw [hexec, Core.boot_two hp hb h1]
  · have hkinds : c.bootKinds [2, 3, 4] = some c := Core.bootKinds_active _ (fun k hk => ha k (by grind) (by grind))
    rw [hexec, Core.boot_three hp hb h2 hkinds]
  · obtain ⟨k, hk2, hk4, ha, ho⟩ := hno
    have hkinds : c.bootKinds [2, 3, 4] = none := Core.bootKinds_none c _ (fun j hj => by grind) (by decide) (k := k) (by grind) ha ho
    refine ⟨_, hexec 3, ?_⟩
    rw [State.after_keep, State.after_mem_failN _ _ (by decide), Core.boot_three_none hp hb h2 hkinds,
      Core.bootFail, Core.failN_keep]
    exact ⟨h2, rfl, Core.mem_failN.2 (.inl rfl)⟩

end Sys2Proof.Machine

/-! The SPDM responder (14 R393 to R404, R409). -/

namespace Sys2Proof.Machine

set_option Elab.async false

/-! ## Answers -/

section Answers

variable {c : Core} {via : Via} {code : Nat}

theorem Core.reply_of_direct (hvia : via ≠ .relay) (error : Nat) (body : List Byte) :
    c.reply via code error body = { c with keep := { c.keep with out := c.keep.out ++ [⟨via, code, error, body⟩] } } := if_neg hvia

/-- A request that the responder answers. -/
theorem Core.request_of_responds (h : c.responds via code) (f : Core → Core × Nat × List Byte) :
    Core.request_ via code f c = (f c).1.reply via code (f c).2.1 (f c).2.2 := by
  obtain ⟨hopen, hup, hbusy, hbasic, hvia⟩ := h
  unfold Core.request_
  rw [if_neg (by simp [Core.spdmOpen, hopen, hup]), if_neg (by simp [hbusy])]
  refine if_neg ?_
  rcases hbasic with h | h <;> simp [h, hvia]

/-- In an activation window every request is answered Busy. -/
theorem Core.request_of_busy (hopen : c.keep.open_ = true) (hup : c.viaUp via = true) (hst : c.keep.fwState = 2)
    (f : Core → Core × Nat × List Byte) : Core.request_ via code f c = c.reply via code errBusy [] := by
  unfold Core.request_
  rw [if_neg (by simp [Core.spdmOpen, hopen, hup])]
  exact if_pos (by simp [Core.busy, hst])

/-- A request whose answer changes nothing but the die's copy of it. -/
theorem exec_answered {s : State} {i : Instr} {f : Core → Core × Nat × List Byte} {error : Nat} {body : List Byte}
    (h : s.core.responds via code) (hexec : exec i s = .next (s.after (Core.request_ via code f s.core)))
    (hf : f s.core = (s.core, error, body)) : exec i s = .next (s.answered via code error body) := by
  rw [hexec, Core.request_of_responds h, hf, Core.reply_of_direct h.2.2.2.2]
  rfl

end Answers

/-- What an answer sends, whatever way it goes. -/
theorem Core.reply_spec (c : Core) (via : Via) (code error : Nat) (body : List Byte) :
    let d := c.reply via code error body
    d.keep.out = c.keep.out ++ [⟨via, code, error, body⟩] ∧ d.keep.sessions = c.keep.sessions ∧ d.keep.slots = c.keep.slots ∧
      d.ctxs = c.ctxs ∧ d.free = c.free := by
  intro d
  let e : Core := { c with keep := { c.keep with out := c.keep.out ++ [⟨via, code, error, body⟩] } }
  have hmove : e.Moves [.keep, .links, .ctr] d := .ite (e.moves_relayBack _ _ _) (.refl e)
  have hsessions : (d.keep.sessions, d.keep.nextSession) = (c.keep.sessions, c.keep.nextSession) := hmove.frame .sessions rfl
  exact ⟨hmove.frame .kout rfl, (Prod.mk.inj hsessions).1, hmove.frame .slots rfl, hmove.frame .ctxs rfl, hmove.frame .free rfl⟩

/-- A request of any kind in an activation window. -/
theorem request_busy {s : State} {via : Via} {i : Instr} {code : Nat} {f : Core → Core × Nat × List Byte}
    (hexec : exec i s = .next (s.after (Core.request_ via code f s.core))) (hopen : s.core.keep.open_ = true)
    (hup : s.core.viaUp via = true) (hst : s.core.keep.fwState = 2) :
    ∃ t, exec i s = .next t ∧ t.core.keep.out = s.core.keep.out ++ [⟨via, code, 0x03, []⟩] ∧
      t.core.keep.sessions = s.core.keep.sessions ∧ t.core.keep.slots = s.core.keep.slots ∧ t.core.ctxs = s.core.ctxs ∧
      t.core.free = s.core.free := by
  refine ⟨_, hexec, ?_⟩
  rw [Core.request_of_busy hopen hup hst, State.after_keep, State.after_ctxs, State.after_free]
  exact s.core.reply_spec via code errBusy []

/-- The digest of a chain stands in what GET_DIGESTS answers. -/
theorem digests_infix (c : Core) (k : Nat) (ch : List Byte) (hk : k < 4) (hch : c.chain k = some ch) :
    (leBytes 1 k ++ leBytes 48 (Config.sha384 ch).toNat) <:+: (List.range 4).flatMap (fun k => match c.chain k with
      | some ch => leBytes 1 k ++ leBytes 48 (Config.sha384 ch).toNat
      | none => []) := by
  obtain ⟨before, after, hrange⟩ := List.append_of_mem (List.mem_range.2 hk)
  rw [hrange, List.flatMap_append, List.flatMap_cons, hch, ← List.append_assoc]
  exact ⟨_, _, rfl⟩

/-- Settles O39: each request is one answer of the responder, and in a window each is Busy. -/
theorem responderAnswers : Obligations.ResponderAnswers := by
  refine ⟨fun s via => ⟨fun h => exec_answered h rfl rfl, fun h => exec_answered h rfl rfl,
    fun h => ⟨exec_answered h rfl rfl, exec_answered h rfl rfl⟩, fun h => ⟨_, exec_answered h rfl rfl, fun k ch hk hch =>
      digests_infix s.core k ch hk hch⟩, fun k h => ⟨fun ch hch => exec_answered h rfl ?_, fun hch => exec_answered h rfl ?_⟩,
    fun code h => exec_answered h rfl rfl⟩, ?_⟩
  · rw [hch]
  · rw [hch]
  · rintro s via i code hopen hup hst ⟨n, k, m, nonce, b, chain, hmem⟩
    simp only [List.mem_cons, Prod.mk.injEq, List.not_mem_nil, or_false] at hmem
    rcases hmem with ⟨rfl, rfl⟩ | ⟨rfl, rfl⟩ | ⟨rfl, rfl⟩ | ⟨rfl, rfl⟩ | ⟨rfl, rfl⟩ | ⟨rfl, rfl⟩ | ⟨rfl, rfl⟩ | ⟨rfl, rfl⟩ | ⟨rfl, rfl⟩ |
      ⟨rfl, rfl⟩ | ⟨rfl, rfl⟩ | ⟨rfl, rfl⟩ | ⟨rfl, rfl⟩ | ⟨rfl, rfl⟩ | ⟨rfl, -⟩
    all_goals exact request_busy rfl hopen hup hst

/-! ## Sessions (R403) -/

section Sessions

variable (c : Core) (i : Nat) (x : Session)

theorem Core.session_setSession : (c.setSession i x).session? i = some x :=
  (SMap.find_insert c.keep.sessions i i x).trans (if_pos rfl)

theorem Core.touch_of_session (h : c.session? i = some x) : c.touch i = c.setSession i { x with last := c.clk.nominal } := by
  unfold Core.touch
  rw [h]

theorem Core.session_dropSession (h : c.keep.sessions.rising = true) : (c.dropSession i).session? i = none := by
  have hnone : (c.keep.sessions.erase i).find? (fun y => decide (y.1 = i)) = none :=
    List.find?_eq_none.2 (fun e he => by simpa using SMap.ne_of_mem_erase h e he)
  exact congrArg (Option.map (fun y : Nat × Session => y.2)) hnone

theorem State.after_session (s : State) : (s.after c).core.session? i = c.session? i := by
  simp only [Core.session?, State.after_keep]

theorem Core.reply_session (via : Via) (code error : Nat) (body : List Byte) :
    (c.reply via code error body).session? i = c.session? i := by
  rw [Core.session?, (c.reply_spec via code error body).2.1]
  rfl

end Sessions

section InSession

variable {s : State} {via : Via} {i : Nat} {x : Session} {j : Instr} {code : Nat}

/-- A request in an open session of its transport. -/
theorem exec_inSession {f : Core → Session → Core × Nat × List Byte} (hs : s.core.session? i = some x) (hvia : x.via = via)
    (h : s.core.responds via code) (hexec : exec j s = .next (s.after (Core.inSession via code i f s.core))) :
    let d := s.core.setSession i { x with last := s.core.clk.nominal }
    exec j s = .next (s.after ((f d x).1.reply via code (f d x).2.1 (f d x).2.2)) := by
  intro d
  rw [hexec, Core.inSession, Core.request_of_responds h, hs]
  dsimp only
  rw [if_pos hvia, Core.touch_of_session _ _ _ hs]

/-- A request in the operator's session. -/
theorem exec_operatorReq {f : Core → Core × Nat × List Byte} (hs : s.core.session? i = some x) (hvia : x.via = via) (hopen : x.open_ = true)
    (hop : operatorVia s.trim via = true) (h : s.core.responds via code)
    (hexec : exec j s = .next (s.after (Core.operatorReq s.trim via code i f s.core))) :
    let d := s.core.setSession i { x with last := s.core.clk.nominal }
    exec j s = .next (s.after ((f d).1.reply via code (f d).2.1 (f d).2.2)) := by
  intro d
  rw [hexec, Core.operatorReq, Core.request_of_responds h, hs]
  dsimp only
  rw [if_pos ⟨hvia, hopen, hop⟩, Core.touch_of_session _ _ _ hs]

end InSession

theorem Core.measure_ne_nil (c : Core) (tr : Trim) (via : Via) : c.measure tr via ≠ [] := by
  simp [Core.measure]

/-- The first part of O40: requests answered with a signature. -/
theorem signed_answers (s : State) (via : Via) (k sum : Nat) (ch : List Byte) (nonce : Key) :
    let c := s.core
    c.chain k = some ch →
    (c.responds via 0x83 → ∃ t sig, exec (.challenge via k nonce sum) s = .next t ∧ t.core.free = c.free + 1 ∧
      t.core.keep.out = c.keep.out ++ [⟨via, 0x83, 0,
        leBytes 48 (Config.sha384 ch).toNat ++ c.summary s.trim via sum ++ sig⟩]) ∧
    (c.responds via 0xE0 → (∃ t sig, exec (.getMeasurements via 0xFF k nonce true) s = .next t ∧
        t.core.keep.out = c.keep.out ++ [⟨via, 0xE0, 0, blockBytes (c.measure s.trim via) ++ sig⟩]) ∧
      exec (.getMeasurements via 0 k nonce false) s = .next (s.answered via 0xE0 0 (leBytes 1 (c.measure s.trim via).length))) ∧
    (c.responds via 0xE4 → c.sessions via < sessionLimit via → ∃ t sig, exec (.keyExchange via k sum) s = .next t ∧
      t.core.session? c.keep.nextSession = some ⟨via, k, false, c.clk.nominal, 0⟩ ∧
      t.core.keep.nextSession = c.keep.nextSession + 1 ∧ t.core.keep.out = c.keep.out ++ [⟨via, 0xE4, 0,
        leBytes 4 c.keep.nextSession ++ c.summary s.trim via sum ++ sig⟩]) ∧
    (c.responds via 0xE4 → sessionLimit via ≤ c.sessions via →
      exec (.keyExchange via k sum) s = .next (s.answered via 0xE4 errSessions [])) := by
  intro c hch
  have hsome : (c.chain k).isNone = false := by rw [hch]; rfl
  refine ⟨fun h => ?_, fun h => ⟨?_, ?_⟩, fun h hroom => ?_, fun h hfull => ?_⟩
  · refine ⟨_, leBytes 96 (Config.ecdsaSign (certKey k) (Config.sha384 (leBytes 32 nonce.toNat ++
      (leBytes 48 (Config.sha384 ch).toNat ++ c.summary s.trim via sum))) c.free).toNat, rfl, ?_⟩
    show (s.after (Core.request_ via 0x83 _ c)).core.free = _ ∧ (s.after (Core.request_ via 0x83 _ c)).core.keep.out = _
    rw [State.after_free, State.after_keep, Core.request_of_responds h, Core.reply_of_direct h.2.2.2.2, hch]
    exact ⟨rfl, rfl⟩
  · refine ⟨_, leBytes 96 (Config.ecdsaSign (certKey k) (Config.sha384 (leBytes 32 nonce.toNat ++
      blockBytes (c.measure s.trim via))) c.free).toNat, rfl, ?_⟩
    show (s.after (Core.request_ via 0xE0 _ c)).core.keep.out = _
    rw [State.after_keep, Core.request_of_responds h, Core.reply_of_direct h.2.2.2.2]
    simp [Core.measure_ne_nil, hsome, Core.sign, Core.fresh]
  · refine exec_answered h rfl ?_
    simp
    rfl
  · refine ⟨_, leBytes 96 (Config.ecdsaSign (certKey k) (Config.sha384 (leBytes 4 c.keep.nextSession ++
      c.summary s.trim via sum)) c.free).toNat, rfl, ?_⟩
    show (s.after (Core.request_ via 0xE4 _ c)).core.session? _ = _ ∧ (s.after (Core.request_ via 0xE4 _ c)).core.keep.nextSession = _ ∧
      (s.after (Core.request_ via 0xE4 _ c)).core.keep.out = _
    rw [State.after_session, State.after_keep, Core.request_of_responds h]
    simp only [hsome, Bool.false_eq_true, if_false, if_neg (Nat.not_le.2 hroom)]
    rw [Core.reply_session, Core.reply_of_direct h.2.2.2.2]
    exact ⟨Core.session_setSession _ _ _, rfl, rfl⟩
  · refine exec_answered h rfl ?_
    rw [hsome]
    exact if_pos hfull

/-- The second part of O40: the life of a session. -/
theorem session_lives (s : State) (via : Via) (i : Nat) (x : Session) :
    let c := s.core
    c.session? i = some x → c.keep.sessions.rising = true →
    (x.via = via → c.responds via 0xE5 → x.open_ = false → ∃ t, exec (.finish via i true) s = .next t ∧
      t.core.session? i = some { x with open_ := true, last := c.clk.nominal } ∧
      t.core.keep.out = c.keep.out ++ [⟨via, 0xE5, 0, []⟩]) ∧
    (x.via = via → c.responds via 0xE5 → x.open_ = false → ∃ t, exec (.finish via i false) s = .next t ∧
      t.core.session? i = none) ∧
    (x.via = via → c.responds via 0xEC → ∃ t, exec (.endSession via i) s = .next t ∧ t.core.session? i = none ∧
      t.core.keep.out = c.keep.out ++ [⟨via, 0xEC, 0, []⟩]) ∧
    (x.via = via → c.responds via 0xE8 → ∃ t, exec (.heartbeat via i) s = .next t ∧
      t.core.session? i = some { x with last := c.clk.nominal } ∧ t.core.keep.out = c.keep.out ++ [⟨via, 0xE8, 0, []⟩]) ∧
    (x.via = via → c.responds via 0xE9 → ∃ t, exec (.keyUpdate via i) s = .next t ∧
      t.core.session? i = some { x with updates := x.updates + 1, last := c.clk.nominal } ∧
      t.core.keep.out = c.keep.out ++ [⟨via, 0xE9, 0, []⟩]) ∧
    (x.last + 150_000_000_000 ≤ c.clk.nominal →
      ∃ t, exec (.sessionTimeout i) s = .next t ∧ t.core.session? i = none) ∧
    (c.clk.nominal < x.last + 150_000_000_000 → exec (.sessionTimeout i) s = .next (s.after c)) := by
  intro c hs hr
  have hexpire : exec (.sessionTimeout i) s =
      .next (s.after (if c.clk.nominal ≥ x.last + 150_000_000_000 then c.dropSession i else c)) := by
    show Host.Outcome.next (s.after (match c.session? i with | some x => _ | none => c)) = _
    rw [hs]
  refine ⟨fun hv h ho => ⟨_, exec_inSession hs hv h rfl, ?_⟩, fun hv h ho => ⟨_, exec_inSession hs hv h rfl, ?_⟩,
    fun hv h => ⟨_, exec_inSession hs hv h rfl, ?_⟩, fun hv h => ⟨_, exec_inSession hs hv h rfl, ?_⟩,
    fun hv h => ⟨_, exec_inSession hs hv h rfl, ?_⟩, fun hlate => ?_, fun hearly => ?_⟩
  · rw [State.after_session, State.after_keep, Core.reply_session, (Core.reply_spec _ _ _ _ _).1]
    simp only [ho, Bool.false_eq_true, if_false, if_true]
    exact ⟨Core.session_setSession _ _ _, rfl⟩
  · rw [State.after_session, Core.reply_session]
    simp only [ho, Bool.false_eq_true, if_false]
    exact Core.session_dropSession _ _ (SMap.rising_insert _ _ hr)
  · rw [State.after_session, State.after_keep, Core.reply_session, (Core.reply_spec _ _ _ _ _).1]
    exact ⟨Core.session_dropSession _ _ (SMap.rising_insert _ _ hr), rfl⟩
  · rw [State.after_session, State.after_keep, Core.reply_session, (Core.reply_spec _ _ _ _ _).1]
    exact ⟨Core.session_setSession _ _ _, rfl⟩
  · rw [State.after_session, State.after_keep, Core.reply_session, (Core.reply_spec _ _ _ _ _).1]
    exact ⟨Core.session_setSession _ _ _, rfl⟩
  · refine ⟨_, hexpire, ?_⟩
    rw [State.after_session, if_pos hlate]
    exact Core.session_dropSession _ _ hr
  · rw [hexpire, if_neg (Nat.not_le.2 hearly)]

/-- The third part of O40: what the operator's session asks for. -/
theorem operator_asks (s : State) (via : Via) (i : Nat) (x : Session) :
    let c := s.core
    c.session? i = some x → x.via = via → x.open_ = true → operatorVia s.trim via = true →
    (∀ k, c.responds via 0xED → (k = 2 ∨ k = 3) → ∃ t sig, exec (.getCsr via i k) s = .next t ∧
      t.core.keep.out = c.keep.out ++ [⟨via, 0xED, 0, leBytes 1 (certKey k) ++ sig⟩]) ∧
    (∀ chain, c.responds via 0xEE → (∃ t, exec (.setCertificate via i 2 chain) s = .next t ∧ t.core.keep.cert2 = chain ∧
        t.core.keep.cert3 = c.keep.cert3) ∧
      (∃ t, exec (.setCertificate via i 3 chain) s = .next t ∧ t.core.keep.cert3 = chain ∧ t.core.keep.cert2 = c.keep.cert2)) := by
  intro c hs hv ho hop
  refine ⟨fun k h hk => ?_, fun chain h => ⟨?_, ?_⟩⟩
  · refine ⟨_, leBytes 96 (Config.ecdsaSign (certKey k) (Config.sha384 (leBytes 1 (certKey k))) c.free).toNat,
      exec_operatorReq hs hv ho hop h rfl, ?_⟩
    rw [State.after_keep, (Core.reply_spec _ _ _ _ _).1]
    simp only [if_pos hk]
    rfl
  · refine ⟨_, exec_operatorReq hs hv ho hop h rfl, ?_⟩
    rw [State.after_keep, Core.reply_of_direct h.2.2.2.2]
    exact ⟨rfl, rfl⟩
  · refine ⟨_, exec_operatorReq hs hv ho hop h rfl, ?_⟩
    rw [State.after_keep, Core.reply_of_direct h.2.2.2.2]
    exact ⟨rfl, rfl⟩

/-- Settles O40: the three parts. -/
theorem responderSessions : Obligations.ResponderSessions := by
  refine ⟨signed_answers, fun s via i x hs hr => ?_⟩
  obtain ⟨hfinish, hfail, hend, hbeat, hkey, hlate, hearly⟩ := session_lives s via i x hs hr
  exact ⟨hfinish, hfail, hend, hbeat, hkey, hlate, hearly, fun hv ho hop => operator_asks s via i x hs hv ho hop⟩

end Sys2Proof.Machine

/-! # The queue pairs (O41)

A write of a base register merges 52 bits of the value into what is there. The statement has it that nothing else of the old base
stays, which a base that does not fit its 64-bit register refutes. -/

namespace Sys2Proof.Machine

set_option Elab.async false

/-- The administration PF of a module that is READY, with pair 0's SQ base past the register's 64 bits. -/
def State.wideBase : State :=
  let c : Core := { State.reset.core with gate := { State.reset.core.gate with ready := true } }
  { State.reset with core := c.setPair ⟨0, 0⟩ 0 { Pair.reset with sqBase := 2 ^ 64 } }

/-- A request of that function, on no stream. -/
def adminReq : HostReq := ⟨⟨0, 0⟩, none⟩

/-- Pair 0's SQ base in what a command leaves. -/
def sqBaseOf : Host.Outcome State Fault Refusal → Option Nat
  | .next s => some (s.core.pair ⟨0, 0⟩ 0).sqBase
  | _ => none

theorem wideBase_written :
    sqBaseOf (exec (.registerWrite adminReq 2 0 8 0) State.wideBase) = some (2 ^ 64) := by decide

theorem wideBase_stated :
    sqBaseOf (.next (State.wideBase.after (State.wideBase.core.setPair ⟨0, 0⟩ 0 { State.wideBase.core.pair ⟨0, 0⟩ 0 with sqBase := 0 }))) = some 0 := by
  decide

/-- Refutes O41: a write of SQ_BASE leaves the bits of an old base from 2^64 on, which the statement's value drops. -/
theorem not_queuePairs : ¬ Obligations.QueuePairs := by
  unfold Obligations.QueuePairs
  intro h
  obtain ⟨-, hown⟩ := h State.wideBase adminReq 0 (by decide) (by decide)
  obtain ⟨hbase, -⟩ := hown (by decide)
  obtain ⟨hsq, -⟩ := hbase 0 (by decide) (by decide) (by decide)
  have hstated := (congrArg sqBaseOf hsq).trans (wideBase_stated)
  exact absurd (wideBase_written.symm.trans hstated) (by decide)

end Sys2Proof.Machine

/-! # Register writes (O14)

A write merges its lanes of the writable bits into the stored register, and a read joins the block's own bits with the stored ones:
the two agree because, in the writable bits, a block shows of its own only what is stored (R13, log 118). -/

namespace Sys2Proof.Machine

set_option Elab.async false

/-! ## The stored registers -/

/-- Numbers without a common bit add without a carry. -/
theorem add_of_and_eq_zero : ∀ a b : Nat, a &&& b = 0 → a + b = a ||| b
  | 0, b, _ => by simp
  | a + 1, b, h => by
    have hhalf : (a + 1) / 2 &&& b / 2 = 0 := by rw [← Nat.and_div_two, h]
    have hlow : ((a + 1) % 2 &&& b % 2) = 0 := by rw [← Nat.and_mod_two_pow (n := 1), h]
    have ih := add_of_and_eq_zero ((a + 1) / 2) (b / 2) hhalf
    have hdiv := Nat.or_div_two (a := a + 1) (b := b)
    have hmod : ((a + 1) ||| b) % 2 = ((a + 1) % 2 ||| b % 2) := Nat.or_mod_two_pow (n := 1)
    rcases Nat.mod_two_eq_zero_or_one (a + 1) with h1 | h1 <;> rcases Nat.mod_two_eq_zero_or_one b with h2 | h2 <;>
      rw [h1, h2] at hmod hlow
    · rw [Nat.zero_or] at hmod; omega
    · rw [Nat.zero_or] at hmod; omega
    · rw [Nat.or_zero] at hmod; omega
    · exact absurd hlow (by decide)

/-- Bit by bit, a merge takes the masked bits from the value and the others from what was there. -/
theorem testBit_mergeBits (m old v i : Nat) :
    (mergeBits m old v).testBit i = if m.testBit i then v.testBit i else old.testBit i := by
  have hkeep : old - (old &&& m) = old ^^^ (old &&& m) := by
    have hsub : (old ^^^ (old &&& m)) + (old &&& m) = old := by
      rw [add_of_and_eq_zero]
      · apply Nat.eq_of_testBit_eq
        intro j
        simp only [Nat.testBit_or, Nat.testBit_xor, Nat.testBit_and]
        cases old.testBit j <;> cases m.testBit j <;> rfl
      · apply Nat.eq_of_testBit_eq
        intro j
        simp only [Nat.testBit_and, Nat.testBit_xor, Nat.zero_testBit]
        cases old.testBit j <;> cases m.testBit j <;> rfl
    omega
  have hdisjoint : (old ^^^ (old &&& m)) &&& (v &&& m) = 0 := by
    apply Nat.eq_of_testBit_eq
    intro j
    simp only [Nat.testBit_and, Nat.testBit_xor, Nat.zero_testBit]
    cases old.testBit j <;> cases m.testBit j <;> cases v.testBit j <;> rfl
  rw [mergeBits, hkeep, add_of_and_eq_zero _ _ hdisjoint]
  simp only [Nat.testBit_or, Nat.testBit_xor, Nat.testBit_and]
  cases old.testBit i <;> cases m.testBit i <;> cases v.testBit i <;> rfl

/-- A register reads as set and every other as before, whatever each holds at reset. -/
theorem Core.reg_setReg (c : Core) (base v o : Nat) (h : c.regs.rising = true) :
    (c.setReg base v).reg o = if o = base then v else c.reg o := by
  unfold Core.reg Core.setReg
  by_cases ho : o = base
  · subst ho
    exact SMap.get_set _ _ _ _ _ h
  · rw [if_neg ho]
    unfold SMap.set
    dsimp only
    split
    · rw [SMap.get_erase _ _ _ _ h, if_neg ho]
    · rw [SMap.get_insert, if_neg ho]

/-! ## The registers that only store fields -/

section Block

variable {off : Nat}

/-- The bases of the blocks that stand once for each port, controller, link or tower. -/
theorem blockAt_six (h : (blockAt off).1 = 6) : off = hstBase (blockAt off).2.2 + (off - (blockAt off).2.1) := by
  unfold blockAt at *
  unfold hstBase
  split_ifs at * <;> simp_all
  omega

theorem blockAt_four (h : (blockAt off).1 = 4) : off = memBase (blockAt off).2.2 + (off - (blockAt off).2.1) := by
  unfold blockAt at *
  unfold memBase
  split_ifs at * <;> simp_all
  omega

theorem blockAt_seven (h : (blockAt off).1 = 7) (hlink : off < 0x124_0000) :
    off = lnkBase (blockAt off).2.2 + (off - (blockAt off).2.1) := by
  unfold blockAt at *
  unfold lnkBase
  split_ifs at * <;> simp_all
  omega

/-- The recorder's registers have rules of their own. -/
theorem blockAt_nine (h : 0x40_0000 ≤ off ∧ off < 0x80_0000) : (blockAt off).1 = 9 := by
  rw [blockAt, if_neg (by omega), if_neg (by omega), if_neg (by omega), if_neg (by omega), if_pos h.2]

/-- The forwarding table stands in the link complex, past the links. -/
theorem blockAt_fwd (h : 0x125_0000 ≤ off ∧ off < 0x125_8000) : blockAt off = (7, 0x100_0000, 0) := by
  rw [blockAt, if_neg (by omega), if_neg (by omega), if_neg (by omega), if_neg (by omega), if_neg (by omega), if_neg (by omega),
    if_pos (by omega), if_neg (by omega)]

end Block

/-! ## The registers that only store fields -/

/-- Where a register has a row: a fixed offset, a window of the hosts, of the controllers or of the links, the forwarding table, or
a tower's stall limit. -/
theorem regRow_cases {off : Nat} {row : RegRow} (h : regRow off = some row) :
    (off ∈ [0x410, offTref, offPowerCfg, 0x20_0010, offGenThreshold, 0x20_0100, 0x20_0108, 0x30_0010, 0x30_0018, 0x30_0058]) ∨
    (off = 0x30_0070 ∧ row = ⟨fieldMask 8 4, 0⟩) ∨
    ((blockAt off).1 = 6 ∧ ((off - (blockAt off).2.1 = 0 ∧ row = ⟨0, fieldMask 2 1⟩) ∨
      (off - (blockAt off).2.1 = 0x18 ∧ row = ⟨0, fieldMask 0 8⟩) ∨ off - (blockAt off).2.1 = 0x20)) ∨
    ((blockAt off).1 = 4 ∧ ((off - (blockAt off).2.1 = 0 ∧ row = ⟨0, fieldMask 2 1⟩) ∨
      off - (blockAt off).2.1 = 0x10 ∨ off - (blockAt off).2.1 = 0x18)) ∨
    (0x125_0000 ≤ off ∧ off < 0x125_8000) ∨
    (((blockAt off).1 = 7 ∧ off < 0x124_0000) ∧ ((off - (blockAt off).2.1 = 0 ∧ row = ⟨fieldMask 3 1 + fieldMask 8 4, 0⟩) ∨
      off - (blockAt off).2.1 = 0x08 ∨ off - (blockAt off).2.1 = 0x38)) ∨
    ((blockAt off).1 = 1 ∧ off - (blockAt off).2.1 = 0x30) := by
  unfold regRow at h
  dsimp only at h
  generalize blockAt off = b at h ⊢
  by_cases hfix : off ∈ [0x410, offTref, offPowerCfg, 0x20_0010, offGenThreshold, 0x20_0100, 0x20_0108, 0x30_0010, 0x30_0018, 0x30_0058]
  · exact .inl hfix
  simp only [List.mem_cons, List.not_mem_nil, or_false, not_or] at hfix
  obtain ⟨h1, h2, h3, h4, h5, h6, h7, h8, h9, h10⟩ := hfix
  simp only [h1, h2, h3, h4, h5, h6, h7, h8, h9, h10, if_false] at h
  refine .inr ?_
  split at h
  next hb =>
    refine .inr (.inl ⟨hb, ?_⟩)
    split at h <;> simp_all
  split at h
  next hprc => exact .inl ⟨hprc, (Option.some.inj h).symm⟩
  refine .inr (.inr ?_)
  split at h
  next hb =>
    refine .inl ⟨hb, ?_⟩
    split at h <;> simp_all
  refine .inr ?_
  split at h
  next hb => exact .inl hb
  refine .inr ?_
  split at h
  next hb =>
    refine .inl ⟨hb, ?_⟩
    split at h <;> simp_all
  refine .inr ?_
  split at h
  next hb => exact hb
  next => cases h

/-- A register that stores fields is no counter. -/
theorem isCounter_of_regRow {off : Nat} {row : RegRow} (h : regRow off = some row) : isCounter off = false := by
  rcases regRow_cases h with hfix | ⟨rfl, -⟩ | ⟨hb, hr⟩ | ⟨hb, hr⟩ | hfwd | ⟨⟨hb, -⟩, hr⟩ | ⟨hb, hr⟩
  · fin_cases hfix <;> rfl
  · rfl
  · rcases hr with ⟨hr, -⟩ | ⟨hr, -⟩ | hr <;> simp [isCounter, hb, hr, within]
  · rcases hr with ⟨hr, -⟩ | hr | hr <;> simp [isCounter, hb, hr, within]
  · have hb := blockAt_fwd hfwd
    have hpast : ¬ off < 0x124_0000 := by omega
    simp [isCounter, hb, hpast]
  · rcases hr with ⟨hr, -⟩ | hr | hr <;> simp [isCounter, hb, hr, within]
  · simp [isCounter, hb, hr, within]

/-- No register of a row is one that a write treats apart. -/
theorem plain_of_regRow {off : Nat} {row : RegRow} (h : regRow off = some row) :
    off ≠ 0x20_0018 ∧ off ≠ 0x30_0020 ∧ off ≠ hstBase 0 + 0x28 ∧ off ≠ hstBase 1 + 0x28 ∧ ¬(0x40_0000 ≤ off ∧ off < 0x80_0000) := by
  have hnone {o : Nat} (ho : regRow o = none) : off ≠ o := by
    rintro rfl
    exact absurd (h.symm.trans ho) (by simp)
  refine ⟨hnone rfl, hnone rfl, hnone rfl, hnone rfl, fun hevr => ?_⟩
  have hb := blockAt_nine hevr
  rcases regRow_cases h with hfix | ⟨rfl, -⟩ | ⟨hb', -⟩ | ⟨hb', -⟩ | hfwd | ⟨⟨hb', -⟩, -⟩ | ⟨hb', -⟩
  · fin_cases hfix <;> exact absurd hevr (by decide)
  · exact absurd hevr (by decide)
  · rw [hb] at hb'; cases hb'
  · rw [hb] at hb'; cases hb'
  · omega
  · rw [hb] at hb'; cases hb'
  · rw [hb] at hb'; cases hb'

theorem testBit_fieldMask (lo w i : Nat) : (fieldMask lo w).testBit i = (decide (lo ≤ i) && decide (i - lo < w)) := by
  rw [fieldMask, Nat.testBit_mul_two_pow, Nat.testBit_two_pow_sub_one]

section Read

variable (tr : Trim) (c : Core) (e : Evr) {off : Nat} {row : RegRow}

/-- A CTL register of a host port or of a controller shows of its own the LOCK bit, and bit 2 as stored. -/
theorem testBit_ctl {lock reg i : Nat} (hi : (0 ||| fieldMask 2 1).testBit i = true)
    (h : (packed [(0, 1, lock), (2, 1, reg / 4)]).testBit i = true) : reg.testBit i = true := by
  have htwo : i = 2 := by
    simp only [Nat.zero_or, testBit_fieldMask, Bool.and_eq_true, decide_eq_true_eq] at hi
    omega
  subst htwo
  simp only [packed_cons, packed_nil, Nat.testBit_eq_decide_div_mod_eq, decide_eq_true_eq] at h ⊢
  omega

/-- PRC_RESET_CTL shows of its own the region as stored. -/
theorem testBit_resetCtl {busy reg i : Nat} (hi : (fieldMask 8 4 ||| 0).testBit i = true)
    (h : (packed [(8, 4, bits reg 8 4), (12, 1, busy)]).testBit i = true) : reg.testBit i = true := by
  have hin : 8 ≤ i ∧ i < 12 := by
    simp only [Nat.or_zero, testBit_fieldMask, Bool.and_eq_true, decide_eq_true_eq] at hi
    omega
  obtain ⟨hlo, hhi⟩ := hin
  unfold bits at h
  rw [Nat.shiftRight_eq_div_pow] at h
  simp only [packed_cons, packed_nil, Nat.testBit_eq_decide_div_mod_eq, decide_eq_true_eq] at h ⊢
  interval_cases i <;> omega

/-- LNK_CTL shows of its own the enable bit and LOCK, and the others as stored. -/
theorem testBit_linkCtl {enable lock reg i : Nat} (hi : (fieldMask 3 1 + fieldMask 8 4 ||| 0).testBit i = true)
    (h : (packed [(0, 1, enable), (1, 1, lock), (3, 1, reg / 8), (8, 4, reg / 2 ^ 8)]).testBit i = true) : reg.testBit i = true := by
  have hin : i = 3 ∨ i = 8 ∨ i = 9 ∨ i = 10 ∨ i = 11 := by
    have hsum : fieldMask 3 1 + fieldMask 8 4 = fieldMask 3 1 ||| fieldMask 8 4 := by simp [fieldMask]
    rw [Nat.or_zero, hsum, Nat.testBit_or, testBit_fieldMask, testBit_fieldMask] at hi
    simp only [Bool.or_eq_true, Bool.and_eq_true, decide_eq_true_eq] at hi
    omega
  simp only [packed_cons, packed_nil, Nat.testBit_eq_decide_div_mod_eq, decide_eq_true_eq] at h ⊢
  rcases hin with rfl | rfl | rfl | rfl | rfl <;> omega

/-- HST_TOWER_SHARE shows of its own the weight as stored. -/
theorem testBit_share {share used reg i : Nat} (hi : (0 ||| fieldMask 0 8).testBit i = true)
    (h : (packed [(0, 8, reg), (16, 7, share), (24, 7, used)]).testBit i = true) : reg.testBit i = true := by
  have hin : i < 8 := by
    simp only [Nat.zero_or, testBit_fieldMask, Bool.and_eq_true, decide_eq_true_eq] at hi
    omega
  have hlow : packed [(0, 8, reg), (16, 7, share), (24, 7, used)] % 2 ^ 8 = reg % 2 ^ 8 := by
    rw [packed_cons, packed_cons, packed_cons, packed_nil]
    omega
  have hmod := Nat.testBit_mod_two_pow reg 8 i
  rw [← hlow, Nat.testBit_mod_two_pow, h] at hmod
  simpa [hin] using hmod

/-- A register that stores fields reads as its stored fields joined to what the block shows of its own, which in those fields is
nothing that is not stored. -/
theorem readBar0_of_regRow (h : regRow off = some row) : ∃ own, readBar0 tr c e off = own ||| (c.reg off &&& (row.rw ||| row.rwl)) ∧
    ∀ i, (row.rw ||| row.rwl).testBit i = true → own.testBit i = true → (c.reg off).testBit i = true := by
  unfold readBar0
  dsimp only
  rw [if_neg (Bool.eq_false_iff.1 (isCounter_of_regRow h)), h]
  refine ⟨_, rfl, fun i hi hown => ?_⟩
  have hnothing : (0 : Nat).testBit i ≠ true := by simp
  rcases regRow_cases h with hfix | ⟨rfl, rfl⟩ | ⟨hb, hr⟩ | ⟨hb, hr⟩ | hfwd | ⟨⟨hb, hlink⟩, hr⟩ | ⟨hb, hr⟩
  · fin_cases hfix <;> exact absurd hown hnothing
  · exact testBit_resetCtl hi hown
  · have hoff := blockAt_six hb
    rw [hb] at hown
    rcases hr with ⟨hr, rfl⟩ | ⟨hr, rfl⟩ | hr <;> rw [hr] at hown hoff
    · rw [hoff]; exact testBit_ctl hi hown
    · rw [hoff]; exact testBit_share hi hown
    · exact absurd hown hnothing
  · have hoff := blockAt_four hb
    rw [hb] at hown
    rcases hr with ⟨hr, rfl⟩ | hr | hr <;> rw [hr] at hown hoff
    · rw [hoff]; exact testBit_ctl hi hown
    · exact absurd hown hnothing
    · exact absurd hown hnothing
  · rw [blockAt_fwd hfwd] at hown
    have hpast : ¬off < 0x124_0000 ∧ off ≠ 0x124_0000 ∧ off ≠ 0x124_0008 ∧ off ≠ 0x124_0010 := by omega
    obtain ⟨h1, h2, h3, h4⟩ := hpast
    simp only [h1, h2, h3, h4, if_false] at hown
    exact absurd hown hnothing
  · have hoff := blockAt_seven hb hlink
    rw [hb] at hown
    rw [if_pos hlink] at hown
    rcases hr with ⟨hr, rfl⟩ | hr | hr <;> rw [hr] at hown hoff
    · rw [hoff]; exact testBit_linkCtl hi hown
    · exact absurd hown hnothing
    · exact absurd hown hnothing
  · rw [hb, hr] at hown
    exact absurd hown hnothing

end Read

/-! ## Writes -/

/-- The administration PF's write of a register that stores fields. -/
theorem registerWrite_of_regRow (via : Option Nat) (tr : Trim) (c : Core) (e : Evr) {off size v : Nat} {row : RegRow}
    (hsize : size = 4 ∨ size = 8) (hoff : off % size = 0) (h : regRow (off / 8 * 8) = some row) :
    registerWrite tr.admin 0 off size v via tr c e = (c.writeReg off size v, e) := by
  have hok : accessOk off size = true := by rcases hsize with rfl | rfl <;> simp [accessOk, hoff]
  obtain ⟨h1, h2, h3, h4, h5⟩ := plain_of_regRow h
  rw [registerWrite]
  simp [hok, h1, h2, h3, h4, h5]

/-- Both halves of a register's word. -/
theorem State.readReg_half (s : State) (via : Option Nat) {off : Nat} (h : off % 8 = 0) :
    s.readReg ⟨s.trim.admin, via⟩ 0 off 4 = some (readBar0 s.trim s.core s.evr off % 2 ^ 32) ∧
    s.readReg ⟨s.trim.admin, via⟩ 0 (off + 4) 4 = some (readBar0 s.trim s.core s.evr off / 2 ^ 32 % 2 ^ 32) := by
  have hbase : off / 8 * 8 = off := by omega
  have hbase' : (off + 4) / 8 * 8 = off := by omega
  have hlow : off % 4 = 0 := by omega
  have hplace : off / 4 % 2 = 0 := by omega
  have hodd : (off / 4 + 1) % 2 = 1 := by omega
  constructor
  · simp [State.readReg, accessOk, Trim.admin, readPart, bits, hlow, hbase, hplace]
  · simp [State.readReg, accessOk, Trim.admin, readPart, bits, hlow, hbase', hodd, Nat.shiftRight_eq_div_pow]

/-- Settles O14: the merge bit by bit, the stored map key by key, and the reads by the register's row. -/
theorem registerWriteStores : Obligations.RegisterWriteStores := by
  unfold Obligations.RegisterWriteStores
  refine ⟨fun s via off size v row hsize hoff hrow => ⟨fun i => testBit_mergeBits _ _ _ i, fun hm hok => ?_, fun hdrop => ?_⟩,
    fun c base v o h => ⟨c.reg_setReg base v o h, SMap.rising_set _ _ h⟩, fun s via off row hoff hrow => ?_, fun s via off hoff =>
      ⟨_, s.readReg_admin via hoff, s.readReg_half via hoff⟩⟩
  · show State.actE s _ = _
    rw [State.actE_next, registerWrite_of_regRow via s.trim s.core s.evr hsize hoff hrow, Core.writeReg, hrow]
    exact congrArg (fun d => Host.Outcome.next (s.after d)) (if_pos ⟨hm, hok⟩)
  · show State.actE s _ = _
    rw [State.actE_next, registerWrite_of_regRow via s.trim s.core s.evr hsize hoff hrow, Core.writeReg, hrow]
    refine congrArg (fun d => Host.Outcome.next (s.after d)) (if_neg fun hdone => ?_)
    rcases hdrop with hm | hok
    · exact hdone.1 hm
    · exact absurd (hdone.2.symm.trans hok) (by decide)
  · obtain ⟨own, hread, hown⟩ := readBar0_of_regRow s.trim s.core s.evr hrow
    refine ⟨_, s.readReg_admin via hoff, fun i hi => ?_⟩
    rw [hread, Nat.testBit_or, Nat.testBit_and, hi, Bool.and_true]
    have hin := hown i hi
    cases ho : own.testBit i
    · rfl
    · rw [hin ho]
      rfl

end Sys2Proof.Machine

/-! # A link that is not UP

Frames go out by the links of a bundle, which are UP, so whatever else the module does leaves a link that is not UP as it is. -/

namespace Sys2Proof.Machine

set_option Elab.async false

/-- From `c` to `d` link `k` stays as it is, if it is not UP. -/
def Core.Still (k : Nat) (c d : Core) : Prop := (c.link k).st ≠ .up → d.link k = c.link k

namespace Core

variable {k : Nat} {c d e : Core}

theorem Still.refl (k : Nat) (c : Core) : Still k c c := fun _ => rfl

theorem Still.trans (h : Still k c d) (g : Still k d e) : Still k c e := fun hst =>
  (g (by rw [h hst]; exact hst)).trans (h hst)

theorem Still.of_links (h : d.links = c.links) : Still k c d := fun _ => by rw [link, link, h]

theorem Moves.still {w : List Part} (h : c.Moves w d) (hw : w.contains .links = false) : Still k c d :=
  .of_links (h.frame .links hw)

theorem Still.ite {p : Prop} [Decidable p] (h : Still k c d) (g : Still k c e) : Still k c (if p then d else e) := by
  split
  · exact h
  · exact g

theorem Still.foldl {α : Type} (f : Core → α → Core) (h : ∀ d x, Still k d (f d x)) (xs : List α) (c : Core) :
    Still k c (xs.foldl f c) := by
  induction xs generalizing c with
  | nil => exact .refl k c
  | cons x xs ih => exact (h c x).trans (ih _)

theorem Still.foldl_fst {α β : Type} (f : Core × β → α → Core × β) (h : ∀ r x, Still k r.1 (f r x).1) (xs : List α) (r : Core × β) :
    Still k r.1 (xs.foldl f r).1 := by
  induction xs generalizing r with
  | nil => exact .refl k r.1
  | cons x xs ih => exact (h r x).trans (ih _)

theorem Still.ite_fst {β : Type} {p : Prop} [Decidable p] {r t : Core × β} (h : Still k c r.1) (g : Still k c t.1) :
    Still k c (if p then r else t).1 := by
  split
  · exact h
  · exact g

variable (c)

/-! ## Sending -/

theorem link_setLink_of_ne {j : Nat} (x : LinkS) (h : k ≠ j) : (c.setLink j x).link k = c.link k := by
  simp only [link, setLink, List.getD_eq_getElem?_getD, List.getElem?_set, if_neg (Ne.symm h)]

theorem link_bump (off n : Nat) : (c.bump off n).link k = c.link k := by rw [link, link, bump_links]

/-- A frame sent on one link leaves the others. -/
theorem link_send_of_ne {j : Nat} (fr : Frame) (slot : Nat) (h : k ≠ j) : (c.send j fr slot).link k = c.link k := by
  unfold send
  dsimp only
  split
  · rw [emit, link_bump, link_setLink_of_ne _ _ h]
  · rw [link_setLink_of_ne _ _ h]

theorem up_of_mem_bundle {n j : Nat} (h : j ∈ c.bundle n) : (c.link j).st = .up := by
  simp only [bundle, List.mem_filter, Bool.and_eq_true, decide_eq_true_eq] at h
  obtain ⟨-, ⟨-, hup⟩, -⟩ := h
  exact hup

theorem up_of_mem_route {label j : Nat} (h : j ∈ c.route label) : (c.link j).st = .up := by
  unfold route at h
  split at h
  · exact c.up_of_mem_bundle h
  · cases h

theorem still_sendBy (label : Nat) (fr : Frame) (slot : Nat) : Still k c (c.sendBy label fr slot) := by
  intro hst
  unfold sendBy
  dsimp only
  split
  · next j hj =>
    have hup := c.up_of_mem_route (List.mem_of_getElem? hj)
    exact c.link_send_of_ne _ _ (fun hkj => hst (hkj ▸ hup))
  · rfl

theorem still_sendBy_of_links (h : d.links = c.links) (label : Nat) (fr : Frame) (slot : Nat) : Still k c (d.sendBy label fr slot) :=
  (Still.of_links h).trans (d.still_sendBy label fr slot)

theorem still_originate (tr : Trim) (label : Nat) (r : ReqF) (role : XferRole) : Still k c (c.originate tr label r role).1 := by
  unfold originate
  split
  · exact .refl k c
  · refine .ite_fst (.refl k c) (.ite_fst (.refl k c) (still_sendBy_of_links c ?_ _ _ _))
    rfl

theorem still_endBack (label t code frames slot : Nat) : Still k c (c.endBack label t code frames slot) := c.still_sendBy _ _ _

/-! ## Fetches and transfers -/

theorem still_fetchFail (tr : Trim) (i code : Nat) : Still k c (c.fetchFail tr i code) := (c.moves_fetchFail tr i code).still rfl

theorem still_startFetch (tr : Trim) (i : Nat) (training keepLocal : Bool) (req : Option Req) :
    Still k c (c.startFetch tr i training keepLocal req) := by
  have hclaim (v : Desc) : Still k c (c.setDesc i v) := .of_links rfl
  unfold startFetch
  refine .ite ((hclaim _).trans (still_fetchFail _ _ _ _)) (.ite ?_ (hclaim _))
  have hsent (d : Core) (ps : List (Nat × Nat)) (label : Nat) (req : Nat × Nat → ReqF) := Still.foldl_fst (k := k)
    (fun (r : Core × Nat) p => if r.2 ≠ 0 then r else r.1.originate tr label (req p) (.fetch i))
    (fun r p => by
      split
      · exact .refl k r.1
      · exact r.1.still_originate _ _ _ _) ps (d, 0)
  exact .ite (((hclaim _).trans (hsent _ _ _ _)).trans (still_fetchFail _ _ _ _)) ((hclaim _).trans (hsent _ _ _ _))

theorem still_kick (tr : Trim) : Still k c (c.kick tr) := by
  refine .ite (.refl k c) (.foldl _ (fun d s => ?_) _ _)
  split
  · exact .ite (.foldl _ (fun d i => .ite (d.still_startFetch _ _ _ _ _) (.refl k d)) _ _) (.refl k d)
  · exact .refl k d

theorem still_wake (tr : Trim) : Still k c (c.wake tr) :=
  ((c.still_kick tr).trans ((moves_pinParked _).still rfl)).trans ((moves_unpark _ _).still rfl)

theorem still_failXfer (tr : Trim) (x : Xfer) (code : Nat) : Still k c (c.failXfer tr x code) := by
  have hend : Still k c (match x.back with
      | some l => ((c.dropSource x).dropXfer x).endBack l x.transfer code 0 0xFFFF
      | none => (c.dropSource x).dropXfer x) := by
    have hdrop : Still k c ((c.dropSource x).dropXfer x) := ((c.moves_dropSource x).still rfl).trans (.of_links rfl)
    split
    · exact hdrop.trans (still_endBack _ _ _ _ _ _)
    · exact hdrop
  unfold failXfer
  cases x.role with
  | fetch i => exact Still.trans (d := c.dropXfer x) (.of_links rfl) (still_fetchFail _ tr i 0x0A07)
  | writeback i f => exact Still.trans (d := c.dropXfer x) (.of_links rfl) ((moves_writebackFail _ i code).still rfl)
  | tower t q e k i => exact .of_links rfl
  | base b => exact (c.moves_baseFail _ _).still rfl
  | relay => exact hend
  | source a b f n => exact hend

/-! ## A link that falls -/

/-- The link as a fall leaves it. -/
def fallenLink (c : Core) (k : Nat) (st : LinkSt) : LinkS :=
  { LinkS.reset with
    enable := (c.link k).enable, st := st, since := c.clk.nominal, refCode := (c.link k).refCode, dropped := (c.link k).dropped }

theorem noteReset_links (kind arg : Nat) : (c.noteReset kind arg).links = c.links := rfl

/-- A fall sets the link itself, and then leaves every link that is not UP. -/
theorem linkFall_link (tr : Trim) {st : LinkSt} (hk : k < c.links.length) (hst : st ≠ .up) :
    (c.linkFall tr k st).link k = c.fallenLink k st := by
  have hset (d : Core) (hd : d.links = (c.setLink k (c.fallenLink k st)).links) : d.link k = c.fallenLink k st := by
    rw [link, hd]
    exact (c.link_setLink k k _ hk).trans (if_pos rfl)
  have hstill {d e : Core} (hd : d.links = (c.setLink k (c.fallenLink k st)).links) (h : Still k d e) : e.link k = c.fallenLink k st :=
    (h (by rw [hset d hd]; exact hst)).trans (hset d hd)
  unfold linkFall
  extract_lets l fs fresh c1 c2 c3 ts
  have hc3 : c3.links = (c.setLink k (c.fallenLink k st)).links := rfl
  clear_value c3
  generalize hls : (c3.bundle (c3.neighbour k)).filter (· != k) = ls
  cases ls with
  | nil =>
    exact hstill hc3 (.foldl _ (fun d x => d.still_failXfer _ _ _) _ _)
  | cons l ls =>
    refine hstill hc3 (.foldl _ (fun d x => ?_) _ _)
    split
    · next j hj =>
      have hne : k ≠ j := by
        have hmem := List.mem_of_getElem? hj
        rw [← hls] at hmem
        exact (bne_iff_ne.1 (List.mem_filter.1 hmem).2).symm
      exact fun _ => d.link_send_of_ne _ _ hne
    · exact .refl k d

/-- The fall of a link leaves every other that is not UP. -/
theorem still_linkFall_of_ne (tr : Trim) {j : Nat} (st : LinkSt) (hne : k ≠ j) : Still k c (c.linkFall tr j st) := by
  intro hst
  unfold linkFall
  extract_lets l fs fresh c1 c2 c3 ts
  have hc3 : c3.link k = c.link k := c.link_setLink_of_ne _ hne
  clear_value c3
  generalize hls : (c3.bundle (c3.neighbour j)).filter (· != j) = ls
  cases ls with
  | nil =>
    exact ((Still.foldl _ (fun d x => d.still_failXfer _ _ _) _ c3) (by rw [hc3]; exact hst)).trans hc3
  | cons l ls =>
    refine ((Still.foldl _ (fun d x => ?_) _ c3) (by rw [hc3]; exact hst)).trans hc3
    split
    · next i hi =>
      have hmem := List.mem_of_getElem? hi
      rw [← hls] at hmem
      have hup := c3.up_of_mem_bundle (List.mem_of_mem_filter hmem)
      exact fun _ => d.link_send_of_ne _ _ (fun hki => hst (by rw [← hc3, hki]; exact hup))
    · exact .refl k d

end Core

/-! ## Links come up and fall (O50) -/

theorem State.after_link (s : State) (c : Core) (k : Nat) : (s.after c).core.link k = c.link k := by
  rw [Core.link, Core.link, State.after_links]

section Bringup

variable (c : Core) (k : Nat)

theorem Core.linkFailed_eq {step : Nat} (hstep : step < 2 ^ 16) :
    c.linkFailed k step = (c.setLink k { c.link k with st := .failed }).raise ⟨0x0703, 0xFFFF, step, 0, 0, 0xFFFF, k⟩ := by
  rw [Core.linkFailed, sysEvent_of_lt _ _ hstep (by decide)]

theorem Core.linkDisable_link (tr : Trim) (hk : k < c.links.length) (h : (c.link k).enable = true) :
    ((c.linkDisable k tr).link k).enable = false ∧ ((c.linkDisable k tr).link k).st = .down := by
  have hset : (c.setLink k { c.link k with enable := false }).link k = { c.link k with enable := false } :=
    (c.link_setLink k k _ hk).trans (if_pos rfl)
  have hlen : k < (c.setLink k { c.link k with enable := false }).links.length := by simpa [Core.setLink] using hk
  unfold Core.linkDisable
  dsimp only
  rw [if_neg (by simp [h])]
  generalize hd : c.setLink k { c.link k with enable := false } = d at hset hlen ⊢
  have hfall (e : Core) (he : e.links = d.links) : ((e.linkFall tr k .down).link k).enable = false ∧
      ((e.linkFall tr k .down).link k).st = .down := by
    rw [e.linkFall_link tr (by rw [he]; exact hlen) (by decide)]
    refine ⟨?_, rfl⟩
    show (e.link k).enable = false
    rw [Core.link, he]
    exact congrArg LinkS.enable hset
  split
  · next hup =>
    have hst : (d.link k).st = .up := by rw [hset]; exact hup
    have hen : ((d.raise (sysEvent 0x0705 0 0 0 k)).link k).enable = false := congrArg LinkS.enable hset
    rw [Core.linkDown, if_neg (by simp [hst])]
    have hdown := hfall (d.raise (sysEvent 0x0705 0 0 0 k)) rfl
    have hnew : (if (d.link k).enable = true then LinkSt.training else LinkSt.down) = .down := by rw [hset]; rfl
    rw [hnew]
    exact hdown
  · next hdown =>
    rw [hset]
    exact ⟨rfl, hdown⟩
  · exact hfall d rfl

/-- The parts of a fallen link that the statement names. -/
def LinkS.fell (l d : LinkS) : Prop :=
  d.st = (if l.enable then .training else .down) ∧ d.replay = [] ∧ d.queue = [] ∧ d.txCount = 0 ∧ d.enable = l.enable

/-- An UP link goes DOWN, or into training while it is enabled, with event 0x0705 first. -/
theorem Core.linkDown_fell (tr : Trim) (hk : k < c.links.length) (hup : (c.link k).st = .up) :
    (c.link k).fell (((c.linkDown tr k).wake tr).link k) ∧
    ∃ more, ((c.linkDown tr k).wake tr).outbox = c.outbox ++ ⟨0x0705, 0xFFFF, 0, 0, 0, 0xFFFF, k⟩ :: more := by
  have hne : (if (c.link k).enable then LinkSt.training else LinkSt.down) ≠ .up := by split <;> decide
  have hlink : (c.linkDown tr k).link k = (c.raise (sysEvent 0x0705 0 0 0 k)).fallenLink k (if (c.link k).enable then .training else .down) := by
    rw [Core.linkDown, if_neg (by simp [hup])]
    exact (c.raise _).linkFall_link tr hk hne
  have hwake : ((c.linkDown tr k).wake tr).link k = (c.linkDown tr k).link k :=
    (c.linkDown tr k).still_wake tr (by rw [hlink]; exact hne)
  refine ⟨by rw [hwake, hlink]; exact ⟨rfl, rfl, rfl, rfl, rfl⟩, ?_⟩
  have hmove := ((c.raise (sysEvent 0x0705 0 0 0 k)).moves_linkFall tr k (if (c.link k).enable then .training else .down)).then
    (Core.moves_wake _ tr)
  obtain ⟨more, hmore⟩ := hmove.more
  refine ⟨more, ?_⟩
  rw [Core.linkDown, if_neg (by simp [hup]), hmore, Core.outbox_raise, List.append_assoc]
  rfl

end Bringup

/-- Settles O50: every step of bring-up is one branch of its command, and a fall leaves the link as `linkFall_link` says. -/
theorem linksComeUpAndFall : Obligations.LinksComeUpAndFall := by
  unfold Obligations.LinksComeUpAndFall
  intro s k c l a hk hlen failed
  have hno : linkNo k = true := decide_eq_true hk
  have hk' : k < s.core.links.length := by rw [hlen]; exact hk
  refine ⟨fun hoff => ?_, fun hon => ?_, fun htr => ?_, fun hkey hwin => ?_, ?_, fun hnone => ?_, fun hlt => ?_⟩
  · have hset : exec (.lnkEnableSet a k) s = .next (s.after (Core.linkEnable k c)) := adminAct_admin s _
    have hgo : ¬((c.link k).enable = true ∨ (!linkNo k) = true) := by simp [show (c.link k).enable = false from hoff, hno]
    rw [hset, Core.linkEnable]
    rw [if_neg hgo]
    refine ⟨fun hfar => by rw [if_pos hfar], fun hnear hfull => ?_, fun hnear hroom => ?_⟩
    · rw [if_neg (Nat.not_lt.2 hnear), if_pos hfull]
    · rw [if_neg (Nat.not_lt.2 hnear), if_neg (Nat.not_le.2 hroom)]
  · have hexec : exec (.lnkEnableClear a k) s = .next (s.after (c.linkDisable k s.trim)) :=
      congrArg (fun d => Host.Outcome.next (s.after d)) (if_pos rfl)
    obtain ⟨hen, hst⟩ := c.linkDisable_link k s.trim hk' hon
    exact ⟨_, hexec, by rw [State.after_link]; exact hen, by rw [State.after_link]; exact hst⟩
  · have htrained (lanes : Nat) : exec (.linkTrained k lanes) s = .next (s.after (Core.linkTrained k lanes c)) := rfl
    have hlate : exec (.linkBringupTimeout k) s = .next (s.after (Core.bringupLate k c)) := rfl
    have hkeying : (c.link k).st ≠ .keying := by rw [show (c.link k).st = .training from htr]; decide
    refine ⟨fun lanes hl => ?_, ?_, fun h => ?_, fun h => ?_⟩
    · rw [htrained, Core.linkTrained]
      rw [if_neg (by simp [show (c.link k).st = .training from htr]; omega), if_pos hl]
    · rw [htrained, Core.linkTrained]
      rw [if_neg (by simp [show (c.link k).st = .training from htr]), if_neg (by decide)]
    · rw [hlate, Core.bringupLate]
      rw [if_pos ⟨htr, h⟩, Core.linkFailed_eq _ _ (by decide)]
    · rw [hlate, Core.bringupLate]
      rw [if_neg (fun hl => Nat.not_le.2 h hl.2), if_neg (fun hl => hkeying hl.1)]
  · have hst : (c.link k).st = .keying := hkey
    have hkeyed (partner plink : Nat) (ok : Bool) :
        exec (.linkKeyed k partner plink ok) s = .next (s.after (Core.linkKeyed k partner plink ok s.trim c)) := rfl
    have hwait : ¬((c.link k).st ≠ .keying ∨ c.linkWindow = true) := by simp [hst, hwin]
    have hexpected {partner : Nat} (hid : c.reg (lnkBase k + 8) = 0 ∨ c.reg (lnkBase k + 8) = partner) :
        ¬((!true) = true ∨ (c.reg (lnkBase k + 8) ≠ 0 ∧ c.reg (lnkBase k + 8) ≠ partner)) := by
      rintro (h | ⟨h0, h1⟩)
      · exact absurd h (by decide)
      · exact hid.elim h0 h1
    refine ⟨fun h => ?_, fun partner plink => ?_, fun partner plink h0 h1 => ?_, fun partner plink hid => ⟨fun h => ?_, fun h => ?_⟩⟩
    · have hlate : exec (.linkBringupTimeout k) s = .next (s.after (Core.bringupLate k c)) := rfl
      rw [hlate, Core.bringupLate]
      rw [if_neg (fun ht => absurd (hst.symm.trans ht.1) (by decide)), if_pos ⟨hst, h, by rw [hwin]; rfl⟩, Core.linkFailed_eq _ _ (by decide)]
    · rw [hkeyed, Core.linkKeyed]
      dsimp only
      rw [if_neg hwait, if_pos (.inl rfl), Core.linkFailed_eq _ _ (by decide)]
    · rw [hkeyed, Core.linkKeyed]
      dsimp only
      rw [if_neg hwait, if_pos (.inr ⟨h0, h1⟩), Core.linkFailed_eq _ _ (by decide)]
    · rw [hkeyed, Core.linkKeyed]
      dsimp only
      rw [if_neg hwait, if_neg (hexpected hid), if_pos h, Core.linkFailed_eq _ _ (by decide)]
    · rw [hkeyed, Core.linkKeyed]
      dsimp only
      rw [if_neg hwait, if_neg (hexpected hid), if_neg (by rw [h]; decide)]
      rfl
  · intro fallen hup
    refine ⟨fun hany => ?_, fun hmax => ?_⟩
    · have hexec : exec (.linkDown k) s = .next (s.after ((c.linkDown s.trim k).wake s.trim)) :=
        congrArg (fun d => Host.Outcome.next (s.after d)) (if_pos hany)
      obtain ⟨hfell, more, hmore⟩ := c.linkDown_fell k s.trim hk' hup
      refine ⟨_, more, hexec, ?_, ?_⟩
      · show (c.link k).fell ((s.after ((c.linkDown s.trim k).wake s.trim)).core.link k)
        rw [State.after_link]
        exact hfell
      · rw [State.after_evr, hmore]
    · have hexec : exec (.frameCounterLimit k) s =
          .next (s.after (((c.raise (sysEvent 0x0708 0 0 0 k)).linkDown s.trim k).wake s.trim)) :=
        congrArg (fun d => Host.Outcome.next (s.after d)) (if_pos ⟨hup, hmax⟩)
      obtain ⟨hfell, more, hmore⟩ := (c.raise (sysEvent 0x0708 0 0 0 k)).linkDown_fell k s.trim hk' hup
      refine ⟨_, more, hexec, ?_, ?_⟩
      · show (c.link k).fell ((s.after (((c.raise (sysEvent 0x0708 0 0 0 k)).linkDown s.trim k).wake s.trim)).core.link k)
        rw [State.after_link]
        exact hfell
      · rw [State.after_evr, hmore, Core.outbox_raise, List.append_assoc]
        rfl
  · exact congrArg (fun d => Host.Outcome.next (s.after d)) (if_neg (by rw [hnone]; decide))
  · exact congrArg (fun d => Host.Outcome.next (s.after d)) (if_neg (fun h => Nat.not_le.2 hlt h.2))

end Sys2Proof.Machine

/-! # What an UP link does of itself (O51) -/

namespace Sys2Proof.Machine

set_option Elab.async false

/-! ## A completion among other effects -/

theorem Core.answers_of_moves {w : List Part} {c d : Core} (h : c.Moves w d) (hports : w.contains .ports = false)
    (hcores : w.contains .cores = false) (hfws : w.contains .fws = false) {r : Req} (ha : c.answers r) : d.answers r := by
  have hp : d.ports = c.ports := h.frame .ports hports
  have hhalted : d.gate.halted = c.gate.halted := congrArg (fun x => x.2.2.1) (h.frame .cores hcores)
  have hstate : d.keep.fwState = c.keep.fwState := congrArg (fun x => x.2.1) (h.frame .fws hfws)
  have hkind : d.keep.fwKind = c.keep.fwKind := congrArg (fun x => x.2.2.1) (h.frame .fws hfws)
  obtain ⟨hepoch, hup, hwindow, htdi⟩ := ha
  refine ⟨by rw [Core.pair_of_ports hp]; exact hepoch, by rw [hhalted]; exact hup, ?_, by rw [Core.fn_of_ports hp]; exact htdi⟩
  rw [Core.gateWindow, hstate, hkind]
  exact hwindow

/-- A command completes in a step that posts its entry, whatever it does before without the host side, and after. -/
theorem State.completes_of_moves {s : State} {c d : Core} {x : Post} {w : List Part} (h : s.core.Moves w c)
    (hports : w.contains .ports = false) (hcores : w.contains .cores = false) (hfws : w.contains .fws = false)
    (ha : s.core.answers x.req) (hd : (c.post x).out.dma <+: d.out.dma) : s.completes (s.after d) x.req x.status := by
  have hac := Core.answers_of_moves h hports hcores hfws ha
  have hp : c.ports = s.core.ports := h.frame .ports hports
  have hpair : c.pair x.req.f x.req.q = s.core.pair x.req.f x.req.q := Core.pair_of_ports hp _ _
  have ⟨_, _, _, htdi⟩ := hac
  obtain ⟨before, hbefore⟩ := c.writePost_dma x htdi
  obtain ⟨pre, hpre⟩ := h.dma
  obtain ⟨post, hpost⟩ := hd
  refine ⟨pre ++ before, post, x.result, ?_⟩
  dsimp only
  rw [State.after_dma, ← hpost, Core.post_of_answers _ _ hac, hbefore, ← hpre, hpair]
  simp only [List.append_assoc]
  rfl

/-! ## Frames sent at once -/

section Send

variable (c : Core) {k : Nat}

/-- The link once it has sent a frame. -/
def LinkS.sent (l : LinkS) (k : Nat) (x : Sent) : LinkS :=
  let fr := { x.fr with seq := l.seqTx % 2 ^ 16, ack := (l.seqRx + 2 ^ 16 - 1) % 2 ^ 16, epoch := l.epoch }
  { l with seqTx := (l.seqTx + 1) % 2 ^ 16, txCount := l.txCount + 1, replay := l.replay ++ [⟨fr, 1, x.slot⟩]
           acked := l.seqRx, wire := some (l.encrypt k l.txCount fr) }

theorem Core.emit_link (hk : k < c.links.length) (x : Sent) : (c.emit k x).link k = (c.link k).sent k x := by
  rw [Core.emit, Core.link_bump, Core.link_setLink _ _ _ _ hk, if_pos rfl]
  rfl

theorem Core.send_of_clear (h : c.clear k) (fr : Frame) (slot : Nat) : c.send k fr slot = c.emit k ⟨fr, 0, slot⟩ := by
  obtain ⟨hcan, hqueue, hpower⟩ := h
  have hmay : c.maySend ⟨fr, 0, slot⟩ = true := by simp [Core.maySend, hpower]
  rw [Core.send]
  simp [hcan, hqueue, hmay]

theorem Core.send_link (hk : k < c.links.length) (h : c.clear k) (fr : Frame) (slot : Nat) :
    (c.send k fr slot).link k = (c.link k).sent k ⟨fr, 0, slot⟩ := by
  rw [c.send_of_clear h, c.emit_link hk]

/-- What a link has sent, seen from the state before. -/
theorem Core.sentOn_of_sent {c t : Core} {l : LinkS} {x : Sent} (ht : t.link k = l.sent k x)
    (hreplay : l.replay = (c.link k).replay) (hseq : l.seqTx = (c.link k).seqTx) (hepoch : l.epoch = (c.link k).epoch) :
    c.sentOn t k x.fr.type x.fr.payload := by
  exact ⟨⟨{ x.fr with seq := l.seqTx % 2 ^ 16, ack := (l.seqRx + 2 ^ 16 - 1) % 2 ^ 16, epoch := l.epoch }, 1, x.slot⟩, [],
    by rw [ht, ← hreplay]; rfl, rfl, rfl, by rw [← hseq], hepoch⟩

end Send

theorem State.sentOn_after {s : State} {c d : Core} {k type : Nat} {payload : List Byte} (h : c.sentOn d k type payload) :
    c.sentOn (s.after d).core k type payload := by
  unfold Core.sentOn
  rw [State.after_link]
  exact h

theorem LinkS.unacked_sent (l : LinkS) (k : Nat) (x : Sent) : (l.sent k x).unacked = 0 := by
  show (l.seqRx + 2 ^ 16 - l.seqRx) % 2 ^ 16 = 0
  rw [Nat.add_sub_cancel_left, Nat.mod_self]

theorem LinkS.wire_sent (l : LinkS) (k : Nat) (x : Sent) : (l.sent k x).delayAt = l.delayAt ∧ (l.sent k x).delayT1 = l.delayT1 := ⟨rfl, rfl⟩

/-! ## Rekeying -/

theorem Core.newEpoch_link (c : Core) {k : Nat} (hk : k < c.links.length) (hup : (c.link k).st = .up) :
    (c.newEpoch k).link k = { c.link k with
      rekeyWait := false, epoch := !(c.link k).epoch, epochs := ((c.link k).epochs + 1) % 2 ^ 16, txCount := 0
      secret := Config.freeKey c.free } := by
  rw [Core.newEpoch]
  dsimp only
  rw [if_neg (by simp [hup]), Core.link_bump]
  exact (c.fresh.link_setLink k k _ hk).trans (if_pos rfl)

/-- The core as REKEY_THRESHOLD finds it once it has told of the threshold. -/
def Core.toldRekey (c : Core) (k : Nat) : Core := if (c.link k).rekeyWait then c else c.raise (sysEvent 0x0706 0 0 0 k)

theorem Core.toldRekey_links (c : Core) (k : Nat) : (c.toldRekey k).links = c.links := by
  unfold Core.toldRekey
  split <;> rfl

theorem Core.toldRekey_free (c : Core) (k : Nat) : (c.toldRekey k).free = c.free := by
  unfold Core.toldRekey
  split <;> rfl

theorem Core.rekey_eq (c : Core) {k : Nat} (hup : (c.link k).st = .up) (h : c.reg (lnkBase k + 0x38) ≤ (c.link k).txCount) :
    Core.rekey k c = if c.linkWindow then (c.toldRekey k).setLink k { c.link k with rekeyWait := true } else (c.toldRekey k).newEpoch k := by
  have hgo : ¬((c.link k).st ≠ .up ∨ (c.link k).txCount < c.reg (lnkBase k + 0x38)) := by
    rintro (hst | hlt)
    · exact hst hup
    · exact Nat.not_le.2 hlt h
  have hwindow : (c.toldRekey k).linkWindow = c.linkWindow := by
    unfold Core.toldRekey
    split <;> rfl
  unfold Core.rekey
  dsimp only
  rw [if_neg hgo]
  show (if (c.toldRekey k).linkWindow = true then _ else _) = _
  rw [hwindow]
  rfl

/-! ## A transfer past its deadline -/

theorem Core.completeFetch_of_single (c : Core) (i code : Nat) {f : Fetch} {r : Req} (h : f.reqs = [r]) :
    ∃ result, c.completeFetch i f code = c.complete r code result := by
  unfold Core.completeFetch
  rw [h]
  cases f.keepLocal
  · exact ⟨0, rfl⟩
  · exact ⟨i, rfl⟩

/-- The entry as a failed fetch leaves it. -/
def Desc.unfetched (d : Desc) : Desc :=
  { d with st := if d.st = .fetching then .remote else d.st, claimant := 0, kind := 0, fetch := none }

/-- A fetch fails: the entry, the records of its transfers, then the completions, and the requests parked on it. -/
theorem Core.fetchFail_eq (c : Core) (tr : Trim) (i code : Nat) {f : Fetch} (h : (c.desc i).fetch = some f) :
    ∃ c1 : Core, c.Moves [.runs, .dir, .xfers] c1 ∧ c1.dir = (c.setDesc i (c.desc i).unfetched).dir ∧
      c1.xfers = c.xfers.filter (fun x => !decide (x.role = XferRole.fetch i)) ∧
      c.fetchFail tr i code = (c.parkedOn i).foldl (fun (c : Core) s => c.cancelSeg tr s code 0) (c1.completeFetch i f code) := by
  obtain ⟨c0, hc0⟩ : ∃ c0 : Core, c0 = (if (c.desc i).st = .fetching then c.dropRun i else match c.runEnt i with
      | some e => c.setRun i { e with
          extents := e.extents.filter (fun x => ((c.desc i).formParts (c.groupsOf i) (c.desc i).training).any (fun r => r.1 = x.start)) }
      | none => c) := ⟨_, rfl⟩
  have hmove : c.Moves [.runs] c0 := by
    rw [hc0]
    refine .ite (c.moves_dropRun i) ?_
    split
    · exact c.moves_setRun _ _
    · exact .refl c
  have hdir : c0.dir = c.dir := hmove.frame .dir rfl
  have hxfers : c0.xfers = c.xfers := congrArg Prod.fst (hmove.frame .xfers rfl)
  refine ⟨{ c0.setDesc i (c.desc i).unfetched with xfers := c0.xfers.filter (fun x => !decide (x.role = XferRole.fetch i)) },
    ?_, ?_, by rw [← hxfers], ?_⟩
  · exact (hmove.mono.then (Core.moves_setDesc _ i _)).then (Core.moves_xfers _ _)
  · show (c0.dir.set _ _ _) = c.dir.set _ _ _
    rw [hdir]
  · unfold Core.fetchFail
    dsimp only
    rw [h, hc0]
    rfl

/-- With no segment nothing is parked on the entry, and nothing wakes. -/
theorem Core.fetchFail_of_no_segs (c : Core) (tr : Trim) (i code : Nat) {f : Fetch} (h : (c.desc i).fetch = some f) (hsegs : c.segs = []) :
    ∃ c1 : Core, c.Moves [.runs, .dir, .xfers] c1 ∧ c1.dir = (c.setDesc i (c.desc i).unfetched).dir ∧
      c1.xfers = c.xfers.filter (fun x => !decide (x.role = XferRole.fetch i)) ∧
      (c.fetchFail tr i code).wake tr = c1.completeFetch i f code := by
  obtain ⟨c1, hmove, hdir, hxfers, heq⟩ := c.fetchFail_eq tr i code h
  have hparked : c.parkedOn i = [] := by rw [Core.parkedOn, hsegs]; rfl
  rw [hparked, List.foldl_nil] at heq
  have hnone : (c1.completeFetch i f code).segs = [] :=
    ((c1.moves_completeFetch i f code).frame .segs rfl).trans ((hmove.frame .segs rfl).trans hsegs)
  exact ⟨c1, hmove, hdir, hxfers, by rw [heq, Core.wake_of_no_segs _ tr hnone]⟩

theorem State.after_desc_of_dir {c d : Core} (s : State) (h : d.dir = c.dir) (i : Nat) : (s.after d).core.desc i = c.desc i := by
  rw [Core.desc, Core.desc, State.after_dir, h]

/-- Settles O51: an UP link with nothing queued sends at once, and a transfer past its deadline fails its fetch. -/
theorem linksRun : Obligations.LinksRun := by
  unfold Obligations.LinksRun
  refine ⟨fun s k => ?_, fun s => ⟨?_, ?_⟩⟩
  · intro c l hk hlen hup
    have hk' : k < c.links.length := by rw [hlen]; exact hk
    refine ⟨fun hclear hun hdue => ?_, fun hnone => ?_, fun hclear hwin hdue => ?_, fun hwin => ?_, fun hmax hwin => ?_, fun hmax hwin => ?_,
      fun edge hclear hout hrun hst => ?_, fun edge hout => ?_⟩
    · have hexec : exec (.ackTimer k) s = .next (s.after (c.ackNow k)) :=
        congrArg (fun d => Host.Outcome.next (s.after d)) (if_pos ⟨hup, hun, hdue⟩)
      have hlink : (c.ackNow k).link k = l.sent k ⟨localFrame 0x01 (ctlPayload false 0), 0, 0xFFFF⟩ := c.send_link hk' hclear _ _
      refine ⟨_, hexec, State.sentOn_after (Core.sentOn_of_sent hlink rfl rfl rfl), ?_⟩
      rw [State.after_link, hlink, LinkS.unacked_sent]
    · exact congrArg (fun d => Host.Outcome.next (s.after d)) (if_neg fun h => h.2.1 hnone)
    · let c1 : Core := c.setLink k { l with delayAt := c.clk.nominal, delayT1 := c.time50 }
      have hexec : exec (.delayMeasure k) s = .next (s.after (c1.send k (localFrame 0x09 (leBytes 8 c.time50)) 0xFFFF)) := by
        refine congrArg (fun d => Host.Outcome.next (s.after d)) (if_neg ?_)
        rintro (h | h | h)
        · exact h hup
        · rw [hwin] at h; cases h
        · exact Nat.not_le.2 h hdue
      have hset : c1.link k = { l with delayAt := c.clk.nominal, delayT1 := c.time50 } := (c.link_setLink k k _ hk').trans (if_pos rfl)
      have hclear1 : c1.clear k := by
        obtain ⟨hcan, hqueue, hpower⟩ := hclear
        exact ⟨by rw [hset]; exact hcan, by rw [hset]; exact hqueue, hpower⟩
      have hlink := c1.send_link (by simpa [c1, Core.setLink] using hk') hclear1 (localFrame 0x09 (leBytes 8 c.time50)) 0xFFFF
      rw [hset] at hlink
      refine ⟨_, hexec, State.sentOn_after (Core.sentOn_of_sent hlink rfl rfl rfl), ?_, ?_⟩
      · rw [State.after_link, hlink]; rfl
      · rw [State.after_link, hlink]; rfl
    · exact congrArg (fun d => Host.Outcome.next (s.after d)) (if_pos (.inr (.inl hwin)))
    · have hexec : exec (.rekeyThreshold k) s = .next (s.after ((c.toldRekey k).newEpoch k)) := by
        refine congrArg (fun d => Host.Outcome.next (s.after d)) ((c.rekey_eq hup hmax).trans ?_)
        rw [hwin]
        rfl
      have hsame : (c.toldRekey k).link k = l := by rw [Core.link, Core.toldRekey_links]; rfl
      refine ⟨_, hexec, ?_, fun hfirst => ?_⟩
      · rw [State.after_link, (c.toldRekey k).newEpoch_link (by rw [Core.toldRekey_links]; exact hk') (by rw [hsame]; exact hup), hsame,
          Core.toldRekey_free]
      · obtain ⟨more, hmore⟩ := ((c.toldRekey k).moves_newEpoch k).more
        refine ⟨more, ?_⟩
        have htold : c.toldRekey k = c.raise (sysEvent 0x0706 0 0 0 k) := if_neg (by rw [show (c.link k).rekeyWait = false from hfirst]; decide)
        rw [State.after_evr, hmore, htold, Core.outbox_raise, List.append_assoc]
        rfl
    · have hexec : exec (.rekeyThreshold k) s = .next (s.after ((c.toldRekey k).setLink k { l with rekeyWait := true })) := by
        refine congrArg (fun d => Host.Outcome.next (s.after d)) ((c.rekey_eq hup hmax).trans ?_)
        rw [hwin]
        rfl
      refine ⟨_, hexec, ?_⟩
      rw [State.after_link, Core.link_setLink _ _ _ _ (by rw [Core.toldRekey_links]; exact hk'), if_pos rfl]
    · have hexec : exec (.cadenceSend k edge) s = .next (s.after (c.emit k ⟨localFrame 0x08 (c.cadencePayload edge), 0, 0xFFFF⟩)) := by
        refine congrArg (fun d => Host.Outcome.next (s.after d)) ?_
        have hgo : ¬((!c.cadOut k) = true ∨ (c.link k).st ≠ .up ∨ (!c.blf.run) = true ∨
            (!(decide (c.tref.st = .locked) || decide (c.tref.st = .freeRun))) = true) := by
          have hup' : (c.link k).st = .up := hup
          rcases hst with h | h <;> simp [hout, hrun, h, hup']
        unfold Core.cadenceSend
        exact (if_neg hgo).trans (if_pos hclear.1)
      exact ⟨_, hexec, State.sentOn_after (Core.sentOn_of_sent (c.emit_link hk' _) rfl rfl rfl)⟩
    · exact congrArg (fun d => Host.Outcome.next (s.after d)) (if_pos (.inl (by rw [hout]; rfl)))
  · intro x i f hx hrole hended hlate hsegs hfetch hrise
    obtain ⟨c1, hmove, hdir, hxfers, hfail⟩ := (s.core.dropXfer x).fetchFail_of_no_segs s.trim i 0x0A07 hfetch hsegs
    have hexec : exec .transferDeadline s = .next (s.after (c1.completeFetch i f 0x0A07)) := by
      refine congrArg (fun d => Host.Outcome.next (s.after d)) ?_
      have hfall : s.core.failXfer s.trim x 0x0707 = (s.core.dropXfer x).fetchFail s.trim i 0x0A07 := by rw [Core.failXfer, hrole]
      rw [← hfail, ← hfall]
      unfold Core.deadline
      dsimp only
      rw [hx]
      simp only [List.find?_cons, hrole, hended, hlate, decide_true, Bool.not_false, Bool.and_self]
    have hpost := c1.moves_completeFetch i f 0x0A07
    have hdesc : (s.after (c1.completeFetch i f 0x0A07)).core.desc i = (s.core.desc i).unfetched := by
      rw [State.after_desc_of_dir s (hpost.frame .dir rfl), Core.desc, hdir]
      exact (SMap.get_set _ _ _ _ _ hrise).trans (if_pos rfl)
    refine ⟨_, hexec, ?_, by rw [hdesc]; rfl, by rw [hdesc]; rfl, fun r hr ha => ?_⟩
    · have hkept : (c1.completeFetch i f 0x0A07).xfers = c1.xfers := congrArg Prod.fst (hpost.frame .xfers rfl)
      rw [State.after_xfers, hkept, hxfers]
      simp [Core.dropXfer, hx]
    · obtain ⟨result, hone⟩ := c1.completeFetch_of_single i 0x0A07 hr
      rw [hone]
      exact State.completes_of_moves (x := ⟨r, 0x0A07, result, []⟩) (((s.core.moves_dropXfer x).mono (w := [.runs, .dir, .xfers])).trans hmove)
        rfl rfl rfl ha List.prefix_rfl
  · intro x hx hrole hlate
    refine congrArg (fun d => Host.Outcome.next (s.after d)) ?_
    unfold Core.deadline
    dsimp only
    rw [hx]
    simp only [List.find?_cons, hrole, Bool.false_and, Bool.not_false, Bool.true_and, hlate,
      decide_true, List.find?_nil]
    simp [Core.dropXfer, Core.dropSource, hrole, hx]

end Sys2Proof.Machine

/-! # Frames heard (O52)

A frame that fails its tag is asked for again each time (R363), also where its receiver has asked before, so the statement's clause
for a link that has asked fails. -/

namespace Sys2Proof.Machine

set_option Elab.async false

/-- The module at reset but that link 0 is UP and has asked for a frame again. -/
def State.askedAgain : State :=
  { State.reset with core := State.reset.core.setLink 0 { LinkS.reset with st := .up, nak := true } }

/-- A LINK_CTL frame that fails its tag. -/
def badFrame : Frame := ⟨0x01, false, false, 0, 0, 0, 0, 0, 0, 0, [], false⟩

/-- The frames link 0 has sent and not had acknowledged, in what a command leaves. -/
def sentOf : Host.Outcome State Fault Refusal → Option Nat
  | .next s => some (s.core.link 0).replay.length
  | _ => none

theorem askedAgain_asks : sentOf (exec (.linkCtl 0 badFrame) State.askedAgain) = some 1 := by decide

theorem askedAgain_stated (d : Core) (h : d.links = (State.reset.core.setLink 0 { LinkS.reset with st := .up, nak := true, rxCount := 1 }).links) :
    sentOf (.next (State.askedAgain.after d)) = some 0 := by
  rw [sentOf, Core.link, State.after_links, h]
  rfl

/-- Refutes O52: a frame that fails its tag is asked for again although the link has asked already. -/
theorem not_framesHeard : ¬ Obligations.FramesHeard := by
  unfold Obligations.FramesHeard
  intro h
  obtain ⟨hall, -⟩ := h State.askedAgain 0 badFrame (by decide) (by decide)
  obtain ⟨-, hcounted, -⟩ := hall (.linkCtl 0 badFrame) 0x01 (.head _)
  have hstated := hcounted (by decide) rfl rfl (by decide)
  have hnone := (congrArg sentOf hstated).trans (askedAgain_stated _ (by rw [Core.bump_links]; decide))
  exact absurd (askedAgain_asks.symm.trans hnone) (by decide)

end Sys2Proof.Machine

/-! # Requests, data and ends on the links (O53)

A frame that link `k` accepts acts on the die as `heard` leaves it, and what the link then sends of its own leaves the other links. -/

namespace Sys2Proof.Machine

set_option Elab.async false

/-- A frame once this module has counted itself on its way. -/
def hopped (fr : Frame) : Frame := { fr with hops := min 0xFFFF (fr.hops + 1) }

namespace Core

variable (c : Core) {k j : Nat} (fr : Frame)

/-! ## A frame that is accepted -/

theorem bump_cases (off n : Nat) : ∃ (ctr : SMap Counter) (out : List Event), c.bump off n = { c with ctr := ctr, outbox := out } := by
  unfold bump
  dsimp only
  split
  · exact ⟨_, _, rfl⟩
  · exact ⟨_, _, rfl⟩

/-- Accepting a frame changes the link, its counter, and at most adds a saturation event. -/
theorem heard_cases (k : Nat) : ∃ (x : LinkS) (ctr : SMap Counter) (out : List Event),
    c.heard k fr = { c with links := c.links.set k x, ctr := ctr, outbox := out } ∧ x.enable = (c.link k).enable ∧ x.st = (c.link k).st := by
  obtain ⟨ctr, out, h⟩ := bump_cases (c.setLink k (LinkS.takeAck { c.link k with
    rxCount := if fr.epoch != (c.link k).rxEpoch then 1 else (c.link k).rxCount + 1, rxEpoch := fr.epoch
    seqRx := ((c.link k).seqRx + 1) % 2 ^ 16, nak := false
    ackAt := if (c.link k).unacked = 0 then c.clk.nominal else (c.link k).ackAt } fr.ack)) (lnkBase k + 0x108) 1
  exact ⟨_, ctr, out, h, rfl, rfl⟩

theorem rxIn_of_hears {type : Nat} {fr : Frame} (h : c.hears k type fr) : rxIn k type fr c = (c.heard k fr, true) := by
  obtain ⟨hup, htype, htag, hseq⟩ := h
  unfold rxIn
  dsimp only
  rw [if_neg (by simp [hup, htype]), if_neg (by simp [htype, htag]), if_neg (by simp [hseq])]
  rfl

theorem rx_of_hears {type : Nat} {fr : Frame} (h : c.hears k type fr) (g : Core → Core) :
    rx k type fr g c = (g (c.heard k fr)).rxOut k := by
  rw [rx, c.rxIn_of_hears h]
  rfl

theorem rxM_of_hears {type : Nat} {fr : Frame} (h : c.hears k type fr) (g : Core → Dram → Core × Dram) (dr : Dram) :
    rxM k type fr g c dr = ((g (c.heard k fr) dr).1.rxOut k, (g (c.heard k fr) dr).2) := by
  rw [rxM, c.rxIn_of_hears h]
  rfl

theorem link_heard_of_ne (h : j ≠ k) : (c.heard k fr).link j = c.link j := by
  rw [heard, link_bump, link_setLink_of_ne _ _ h]

/-- Which links are UP in a bundle does not change. -/
theorem bundle_heard (hk : k < c.links.length) (n : Nat) : (c.heard k fr).bundle n = c.bundle n := by
  obtain ⟨x, ctr, out, heq, hen, hst⟩ := c.heard_cases fr k
  rw [heq, bundle, bundle]
  refine List.filter_congr fun i _ => ?_
  have hsame : (({ c with links := c.links.set k x, ctr := ctr, outbox := out } : Core).link i).enable = (c.link i).enable ∧
      (({ c with links := c.links.set k x, ctr := ctr, outbox := out } : Core).link i).st = (c.link i).st := by
    have hget := c.link_setLink k i x hk
    by_cases hi : i = k
    · subst hi
      rw [if_pos rfl] at hget
      exact ⟨(congrArg LinkS.enable hget).trans hen, (congrArg LinkS.st hget).trans hst⟩
    · rw [if_neg hi] at hget
      exact ⟨congrArg LinkS.enable hget, congrArg LinkS.st hget⟩
  rw [hsame.1, hsame.2]
  rfl

theorem fwd_heard (label : Nat) : (c.heard k fr).fwd label = c.fwd label := by
  obtain ⟨x, ctr, out, heq, -, -⟩ := c.heard_cases fr k
  rw [heq]
  rfl

theorem route_heard (hk : k < c.links.length) (label : Nat) : (c.heard k fr).route label = c.route label := by
  rw [route, route, fwd_heard, bundle_heard c fr hk]

theorem xfers_heard (k : Nat) : (c.heard k fr).xfers = c.xfers := by
  obtain ⟨x, ctr, out, heq, -, -⟩ := c.heard_cases fr k
  rw [heq]

theorem record_heard (k i t : Nat) : (c.heard k fr).record i t = c.record i t := by rw [record, record, xfers_heard]

theorem prc_heard (k : Nat) : (c.heard k fr).prc = c.prc := by
  obtain ⟨x, ctr, out, heq, -, -⟩ := c.heard_cases fr k
  rw [heq]

theorem clear_heard (hne : j ≠ k) (h : c.clear j) : (c.heard k fr).clear j := by
  obtain ⟨hcan, hqueue, hpower⟩ := h
  exact ⟨by rw [link_heard_of_ne c fr hne]; exact hcan, by rw [link_heard_of_ne c fr hne]; exact hqueue, by rw [prc_heard]; exact hpower⟩

theorem links_heard_length (k : Nat) : (c.heard k fr).links.length = c.links.length := by
  obtain ⟨x, ctr, out, heq, -, -⟩ := c.heard_cases fr k
  rw [heq]
  exact List.length_set ..

/-! ## What a link sends of its own -/

theorem link_emit_of_ne (x : Sent) (h : j ≠ k) : (c.emit k x).link j = c.link j := by
  rw [emit, link_bump, link_setLink_of_ne _ _ h]

theorem link_pump_of_ne (h : j ≠ k) (n : Nat) : (c.pump k n).link j = c.link j := by
  induction n generalizing c with
  | zero => rfl
  | succ n ih =>
    unfold pump
    dsimp only
    split
    · split
      · rw [ih, link_emit_of_ne _ _ h, link_setLink_of_ne _ _ h]
      · rfl
    · rfl

theorem link_rxOut_of_ne (h : j ≠ k) : (c.rxOut k).link j = c.link j := by
  unfold rxOut
  dsimp only
  split
  · rw [ackNow, link_send_of_ne _ _ _ h, link_pump_of_ne _ h]
  · exact c.link_pump_of_ne h _

/-- A link with nothing to add sends nothing. -/
theorem rxOut_of_settled (h : c.settled k) : c.rxOut k = c := by
  obtain ⟨hqueue, hdue⟩ := h
  have hpump : c.pump k 1024 = c := by
    unfold pump
    dsimp only
    rw [hqueue]
    rfl
  unfold rxOut
  dsimp only
  rw [hpump, if_neg (fun hd => Nat.not_le.2 hdue hd.2)]

end Core

namespace Core

section Routed

variable {c : Core} {k j : Nat} {fr : Frame}

theorem routed_on (hkind : fKind (c.fwd fr.route) = 1) (hroute : c.route fr.route ≠ []) (f g : Core → Frame → Core) :
    routed k fr f g c = f c (hopped fr) := by
  unfold routed
  dsimp only
  rw [hkind]
  exact if_neg hroute

theorem routed_here (hkind : fKind (c.fwd fr.route) = 2) (f g : Core → Frame → Core) : routed k fr f g c = g c (hopped fr) := by
  unfold routed
  dsimp only
  rw [hkind]
  rfl

theorem route_congr {d e : Core} (hlinks : d.links = e.links) (hregs : d.regs = e.regs) (label : Nat) : d.route label = e.route label := by
  unfold route bundle fwd neighbour link reg
  rw [hlinks, hregs]

/-- A label that leads to one link. -/
theorem sendBy_of_route {label : Nat} (h : c.route label = [j]) (x : Frame) (slot : Nat) :
    c.sendBy label x slot = c.send j { x with route := fOut (c.fwd label), ret := fRet (c.fwd label) } slot := by
  have hone : [j][x.index % max 1 [j].length]? = some j := by
    rw [List.length_singleton, Nat.max_self, Nat.mod_one]
    rfl
  unfold sendBy
  dsimp only
  rw [h, hone]

/-- A frame sent by a label to a clear link, seen from before the frame that caused it was heard. -/
theorem sentOn_sendBy {d : Core} (hj : j < d.links.length) {label : Nat} (hroute : d.route label = [j]) (hclear : d.clear j)
    (hsame : d.link j = c.link j) (x : Frame) (slot : Nat) : c.sentOn (d.sendBy label x slot) j x.type x.payload := by
  rw [sendBy_of_route hroute]
  exact sentOn_of_sent (d.send_link hj hclear _ _) (by rw [hsame]) (by rw [hsame]) (by rw [hsame])

theorem xfers_sendBy (label : Nat) (x : Frame) (slot : Nat) : (c.sendBy label x slot).xfers = c.xfers :=
  congrArg Prod.fst ((c.moves_sendBy label x slot).frame .xfers rfl)

theorem xfers_rxOut (k : Nat) : (c.rxOut k).xfers = c.xfers := congrArg Prod.fst ((c.moves_rxOut k).frame .xfers rfl)

theorem dir_rxOut (k : Nat) : (c.rxOut k).dir = c.dir := (c.moves_rxOut k).frame .dir rfl

theorem sentOn_rxOut {d : Core} (hne : j ≠ k) {type : Nat} {payload : List Byte} (h : c.sentOn d j type payload) :
    c.sentOn (d.rxOut k) j type payload := by
  unfold sentOn
  rw [link_rxOut_of_ne _ hne]
  exact h

theorem onXfer_some {x : Xfer} (h : c.record k fr.transfer = some x) (hlive : x.retired = false) (g : Core → Xfer → Core) :
    onXfer k g c fr = g c x := by
  unfold onXfer
  rw [h]
  exact if_neg (by rw [hlive]; decide)

end Routed

end Core

section Heard

variable {s : State} {k j : Nat} {fr : Frame} (hk : k < 36) (hj : j < 36) (hne : j ≠ k) (hlen : s.core.links.length = 36)

include hk hlen

/-- A routed frame of a type sent on: the meaning acts on the die once the frame is heard. -/
theorem routed_on_heard (hkind : fKind (s.core.fwd fr.route) = 1) (hroute : s.core.route fr.route = [j]) (f g : Core → Frame → Core) :
    Core.routed k fr f g (s.core.heard k fr) = f (s.core.heard k fr) (hopped fr) :=
  Core.routed_on (by rw [Core.fwd_heard]; exact hkind)
    (by rw [Core.route_heard _ _ (by rw [hlen]; exact hk), hroute]; exact List.cons_ne_nil _ _) f g

omit hk hlen in
theorem routed_here_heard (hkind : fKind (s.core.fwd fr.route) = 2) (f g : Core → Frame → Core) :
    Core.routed k fr f g (s.core.heard k fr) = g (s.core.heard k fr) (hopped fr) :=
  Core.routed_here (by rw [Core.fwd_heard]; exact hkind) f g

include hj hne

/-- A frame passed on by a label from the die as the frame heard left it, records changed or not. -/
theorem sentOn_heard {d : Core} (hlinks : d.links = (s.core.heard k fr).links) (hregs : d.regs = (s.core.heard k fr).regs)
    (hprc : d.prc = (s.core.heard k fr).prc) {label : Nat} (hroute : s.core.route label = [j]) (hclear : s.core.clear j)
    (x : Frame) (slot : Nat) : s.core.sentOn (((d.sendBy label x slot)).rxOut k) j x.type x.payload := by
  have hlink (i : Nat) : d.link i = (s.core.heard k fr).link i := by rw [Core.link, Core.link, hlinks]
  have hroute' : d.route label = [j] := by
    rw [Core.route_congr hlinks hregs, Core.route_heard _ _ (by rw [hlen]; exact hk), hroute]
  have hclear' := s.core.clear_heard fr hne hclear
  obtain ⟨hcan, hqueue, hpower⟩ := hclear'
  refine Core.sentOn_rxOut hne (Core.sentOn_sendBy (by rw [hlinks, Core.links_heard_length, hlen]; exact hj) hroute'
    ⟨by rw [hlink]; exact hcan, by rw [hlink]; exact hqueue, by rw [hprc]; exact hpower⟩ (by rw [hlink, Core.link_heard_of_ne _ _ hne]) x slot)

end Heard

/-! ## The commands -/

/-- The record of a request sent on. -/
def relayOf (c : Core) (k j : Nat) (fr : Frame) : Xfer :=
  let r := (parseReq fr.payload).1
  { origin := r.origin, transfer := fr.transfer, slot := r.slot, gen := r.gen, links := [k, j]
    deadline := c.clk.nominal + (r.budget - c.deduct j forwardPs) * 125, role := .relay, frames := 0, data := [], out := some fr.route
    back := some fr.ret, retired := false, ended := false, total := none }

/-- A request as it is sent on, with what is left of its budget. -/
def requestOn (c : Core) (j : Nat) (fr : Frame) : Frame :=
  { fr with payload := slice fr.payload 0 0x18 ++ leBytes 4 ((parseReq fr.payload).1.budget - c.deduct j forwardPs) ++ fr.payload.drop 0x1C }

theorem Core.forwardReq_of_route {c : Core} {k j : Nat} {fr : Frame} (h : c.route fr.route = [j]) :
    Core.forwardReq k c fr =
      if (parseReq fr.payload).1.budget < c.deduct j forwardPs then c.endBack fr.ret fr.transfer 0x0707 0 0xFFFF
      else if c.tableFull then c.endBack fr.ret fr.transfer 0x070F 0 0xFFFF
      else { c with xfers := c.xfers ++ [relayOf c k j fr] }.passOn (requestOn c j fr) := by
  unfold Core.forwardReq
  dsimp only
  rw [h]
  rfl

section Commands

variable {s : State} {k j : Nat} {fr : Frame} (hk : k < 36) (hj : j < 36) (hne : j ≠ k) (hlen : s.core.links.length = 36)

theorem State.afterM_same_dram (c : Core) (s : State) : s.afterM c s.dram = s.after c := rfl

theorem exec_fetchReq (h : s.core.hears k 0x02 fr) : exec (.fetchReq k fr) s = .next (s.after
    ((Core.routed k fr (Core.forwardReq k) (Core.serve k s.dram) (s.core.heard k fr)).rxOut k)) :=
  congrArg (fun d => Host.Outcome.next (s.after d)) (s.core.rx_of_hears h _)

theorem exec_fetchData (h : s.core.hears k 0x03 fr) : exec (.fetchData k fr) s = .next (s.after
    ((Core.routed k fr (fun c fr => Core.onXfer k (fun c _ => c.passOn fr) c fr)
      (fun c fr => Core.onXfer k (Core.placeFrame s.trim s.dram fr) c fr) (s.core.heard k fr)).rxOut k)) :=
  congrArg (fun d => Host.Outcome.next (s.after d)) (s.core.rx_of_hears h _)

theorem exec_fetchEnd (h : s.core.hears k 0x04 fr) : exec (.fetchEnd k fr) s = .next (s.after
    ((Core.routed k fr (fun c fr => Core.onXfer k (fun c x => (c.passOn fr).dropXfer x) c fr)
      (fun c fr => Core.onXfer k (Core.placeEnd s.trim s.dram fr) c fr) (s.core.heard k fr)).rxOut k)) :=
  congrArg (fun d => Host.Outcome.next (s.after d)) (s.core.rx_of_hears h _)

theorem exec_writeData (h : s.core.hears k 0x05 fr) (hkind : fKind (s.core.fwd fr.route) = 2) :
    exec (.writeData k fr) s = .next (s.afterM ((Core.takeWrite k fr s.trim (s.core.heard k fr) s.dram).1.rxOut k)
      (Core.takeWrite k fr s.trim (s.core.heard k fr) s.dram).2) := by
  have hrx : Core.writeData k fr s.trim s.core s.dram = ((Core.takeWrite k fr s.trim (s.core.heard k fr) s.dram).1.rxOut k,
      (Core.takeWrite k fr s.trim (s.core.heard k fr) s.dram).2) := by
    unfold Core.writeData
    rw [s.core.rxM_of_hears h, Core.fwd_heard, if_pos hkind]
  show s.actM (Core.writeData k fr s.trim) = _
  rw [State.actM_next, hrx]

theorem State.after_rxOut_xfers (s : State) (c : Core) (k : Nat) : (s.after (c.rxOut k)).core.xfers = c.xfers := by
  rw [State.after_xfers, Core.xfers_rxOut]

theorem Core.deduct_heard (hne : j ≠ k) (n : Nat) : (s.core.heard k fr).deduct j n = s.core.deduct j n := by
  rw [Core.deduct, Core.deduct, Core.link_heard_of_ne _ _ hne]

theorem Core.tableFull_heard : (s.core.heard k fr).tableFull = s.core.tableFull := by rw [Core.tableFull, Core.tableFull, Core.xfers_heard]

theorem Core.clk_heard : (s.core.heard k fr).clk = s.core.clk := by
  obtain ⟨x, ctr, out, heq, -, -⟩ := s.core.heard_cases fr k
  rw [heq]

include hk hj hne hlen

theorem fetchReq_sent_on (h : s.core.hears k 0x02 fr) (hkind : fKind (s.core.fwd fr.route) = 1) (hroute : s.core.route fr.route = [j])
    (hclear : s.core.clear j) (hcost : s.core.deduct j forwardPs ≤ (parseReq fr.payload).1.budget) (hroom : s.core.tableFull = false) :
    ∃ t, exec (.fetchReq k fr) s = .next t ∧ t.core.xfers = s.core.xfers ++ [relayOf s.core k j fr] ∧
      s.core.sentOn t.core j 0x02 (requestOn s.core j fr).payload := by
  have hroute' : (s.core.heard k fr).route (hopped fr).route = [j] := (Core.route_heard _ _ (by rw [hlen]; exact hk) _).trans hroute
  have hrelay : relayOf (s.core.heard k fr) k j (hopped fr) = relayOf s.core k j fr := by
    rw [relayOf, Core.deduct_heard hne, Core.clk_heard]
    rfl
  have hreq : requestOn (s.core.heard k fr) j (hopped fr) = { requestOn s.core j fr with hops := (hopped fr).hops } := by
    rw [requestOn, Core.deduct_heard hne]
    rfl
  have hgo : exec (.fetchReq k fr) s = .next (s.after (({ s.core.heard k fr with
      xfers := (s.core.heard k fr).xfers ++ [relayOf s.core k j fr] }.passOn (requestOn (s.core.heard k fr) j (hopped fr))).rxOut k)) := by
    rw [exec_fetchReq h, routed_on_heard hk hlen hkind hroute, Core.forwardReq_of_route hroute',
      if_neg (by rw [Core.deduct_heard hne]; exact Nat.not_lt.2 hcost), if_neg (by rw [Core.tableFull_heard, hroom]; decide), hrelay]
  refine ⟨_, hgo, ?_, ?_⟩
  · rw [State.after_rxOut_xfers, Core.passOn, Core.xfers_sendBy]
    exact congrArg (· ++ _) (s.core.xfers_heard fr k)
  · refine State.sentOn_after ?_
    have hsent := sentOn_heard (fr := fr) hk hj hne hlen (d := { s.core.heard k fr with
      xfers := (s.core.heard k fr).xfers ++ [relayOf s.core k j fr] }) rfl rfl rfl hroute hclear
      (requestOn (s.core.heard k fr) j (hopped fr)) 0xFFFF
    rw [hreq] at hsent ⊢
    have htype : fr.type = 0x02 := h.2.1
    rw [← htype]
    exact hsent

omit hj in
theorem fetchReq_refused_here (h : s.core.hears k 0x02 fr) (hkind : fKind (s.core.fwd fr.route) = 1) (hroute : s.core.route fr.route = [j])
    (hno : (parseReq fr.payload).1.budget < s.core.deduct j forwardPs ∨ s.core.tableFull = true) :
    ∃ t, exec (.fetchReq k fr) s = .next t ∧ t.core.xfers = s.core.xfers := by
  have hroute' : (s.core.heard k fr).route (hopped fr).route = [j] := (Core.route_heard _ _ (by rw [hlen]; exact hk) _).trans hroute
  refine ⟨_, exec_fetchReq h, ?_⟩
  rw [State.after_rxOut_xfers, routed_on_heard hk hlen hkind hroute, Core.forwardReq_of_route hroute', Core.deduct_heard hne, Core.tableFull_heard]
  have hend (code : Nat) : ((s.core.heard k fr).endBack (hopped fr).ret (hopped fr).transfer code 0 0xFFFF).xfers = s.core.xfers := by
    rw [Core.endBack, Core.xfers_sendBy, Core.xfers_heard]
  split
  · exact hend _
  · next hcost =>
    rw [if_pos (hno.resolve_left hcost)]
    exact hend _

end Commands

/-! ## At the source -/

section Source

variable {c : Core} {k : Nat} {dr : Dram} {fr : Frame}

theorem Core.serve_refused (h : c.refusal (parseReq fr.payload).1 (parseReq fr.payload).2 ≠ 0) :
    Core.serve k dr c fr = c.endBack fr.ret fr.transfer (c.refusal (parseReq fr.payload).1 (parseReq fr.payload).2) 0 0xFFFF := by
  unfold Core.serve
  dsimp only
  generalize c.refusal (parseReq fr.payload).1 (parseReq fr.payload).2 = code at h ⊢
  cases code with
  | zero => exact absurd rfl h
  | succ n => rfl

/-- The record of a write-back at its source. -/
def sourceOf (c : Core) (k : Nat) (fr : Frame) : Xfer :=
  let r := (parseReq fr.payload).1
  { origin := r.origin, transfer := fr.transfer, slot := r.slot, gen := r.gen, links := [k] ++ c.route fr.ret
    deadline := c.clk.nominal + r.budget * 125, role := .source r.desc r.object r.first r.count, frames := 0, data := []
    out := none, back := some fr.ret, retired := false, ended := false, total := none }

theorem Core.serve_writeback (h : c.refusal (parseReq fr.payload).1 (parseReq fr.payload).2 = 0) (hobj : (parseReq fr.payload).1.object = 4) :
    Core.serve k dr c fr = { c.updDesc (parseReq fr.payload).1.desc (fun d => { d with claimant := 1, kind := 1 }) with
      xfers := c.xfers ++ [sourceOf c k fr] } := by
  unfold Core.serve sourceOf
  dsimp only
  rw [h, hobj]
  rfl

/-- A fetch's transfer that is complete waits for its pages to land. -/
theorem Core.endOk_of_fetch {tr : Trim} {x : Xfer} {i : Nat} (hrole : x.role = .fetch i) :
    Core.endOk tr c dr x = c.setXfer x { x with ended := true } := by
  unfold Core.endOk
  rw [hrole]

end Source

section Commands

variable {s : State} {k j : Nat} {fr : Frame} (hk : k < 36) (hj : j < 36) (hne : j ≠ k) (hlen : s.core.links.length = 36)

theorem Core.desc_updDesc_of_ne_free (c : Core) (i : Nat) (f : Desc → Desc) (h : f (c.desc i) ≠ .free) : (c.updDesc i f).desc i = f (c.desc i) :=
  (SMap.get_set_of_ne _ _ _ _ _ h).trans (if_pos rfl)

theorem State.after_rxOut_desc (s : State) (c : Core) (k i : Nat) : (s.after (c.rxOut k)).core.desc i = c.desc i := by
  rw [Core.desc, Core.desc, State.after_dir, Core.dir_rxOut]

theorem fetchReq_writeback (h : s.core.hears k 0x02 fr) (hkind : fKind (s.core.fwd fr.route) = 2)
    (hpass : (s.core.heard k fr).refusal (parseReq fr.payload).1 (parseReq fr.payload).2 = 0) (hobj : (parseReq fr.payload).1.object = 4) :
    ∃ t, exec (.fetchReq k fr) s = .next t ∧ (t.core.desc (parseReq fr.payload).1.desc).claimant = 1 ∧
      (t.core.desc (parseReq fr.payload).1.desc).kind = 1 ∧ t.core.xfers = s.core.xfers ++ [sourceOf (s.core.heard k fr) k (hopped fr)] := by
  have hserve := Core.serve_writeback (k := k) (dr := s.dram) (fr := hopped fr) hpass hobj
  have hdesc := (s.core.heard k fr).desc_updDesc_of_ne_free (parseReq fr.payload).1.desc (fun d => { d with claimant := 1, kind := 1 })
    (fun hfree => Nat.one_ne_zero (congrArg Desc.claimant hfree))
  have hread : ((Core.serve k s.dram (s.core.heard k fr) (hopped fr)).desc (parseReq fr.payload).1.desc) =
      { (s.core.heard k fr).desc (parseReq fr.payload).1.desc with claimant := 1, kind := 1 } := by
    rw [hserve]
    exact hdesc
  refine ⟨_, exec_fetchReq h, ?_, ?_, ?_⟩
  · rw [State.after_rxOut_desc, routed_here_heard hkind, hread]
  · rw [State.after_rxOut_desc, routed_here_heard hkind, hread]
  · rw [State.after_rxOut_xfers, routed_here_heard hkind, hserve]
    exact congrArg (· ++ _) (s.core.xfers_heard fr k)

theorem fetchData_unknown (h : s.core.hears k 0x03 fr) (hkind : fKind (s.core.fwd fr.route) = 2) (hnone : s.core.record k fr.transfer = none)
    (hsettled : (s.core.heard k fr).settled k) :
    exec (.fetchData k fr) s = .next (s.after ((s.core.heard k fr).bump (lnkBase k + 0x130) 1)) := by
  have hdrop (g : Core → Xfer → Core) : Core.onXfer k g (s.core.heard k fr) (hopped fr) = (s.core.heard k fr).bump (lnkBase k + 0x130) 1 := by
    unfold Core.onXfer
    rw [show (s.core.heard k fr).record k (hopped fr).transfer = none from (Core.record_heard _ _ _ _ _).trans hnone]
  obtain ⟨hqueue, hdue⟩ := hsettled
  rw [exec_fetchData h, routed_here_heard hkind, hdrop, Core.rxOut_of_settled _
    ⟨by rw [Core.link_bump]; exact hqueue, by rw [Core.link_bump]; exact hdue⟩]

/-! ## A frame with a record -/

variable {x : Xfer} (hrec : s.core.record k fr.transfer = some x) (hlive : x.retired = false)

include hrec hlive

theorem onXfer_heard (g : Core → Xfer → Core) : Core.onXfer k g (s.core.heard k fr) (hopped fr) = g (s.core.heard k fr) x :=
  Core.onXfer_some ((Core.record_heard _ _ _ _ _).trans hrec) hlive g

theorem fetchData_placed {i : Nat} (h : s.core.hears k 0x03 fr) (hkind : fKind (s.core.fwd fr.route) = 2) (hrole : x.role = .fetch i)
    (htotal : x.total = none) : ∃ t, exec (.fetchData k fr) s = .next t ∧ t.dram = s.dram ∧
      t.core.xfers = s.core.xfers.map (fun y => if y = x then { x with frames := x.frames + 1 } else y) := by
  have hplace : Core.placeFrame s.trim s.dram (hopped fr) (s.core.heard k fr) x =
      (s.core.heard k fr).setXfer x { x with frames := x.frames + 1 } := by
    unfold Core.placeFrame
    rw [hrole]
    unfold Core.maybeEnd
    dsimp only
    rw [htotal]
    rfl
  refine ⟨_, exec_fetchData h, rfl, ?_⟩
  rw [State.after_rxOut_xfers, routed_here_heard hkind, onXfer_heard hrec hlive, hplace, Core.setXfer, Core.xfers_heard]

theorem fetchEnd_placed {i : Nat} (h : s.core.hears k 0x04 fr) (hkind : fKind (s.core.fwd fr.route) = 2) (hrole : x.role = .fetch i)
    (hended : x.ended = false) (hone : s.core.xfers = [x]) (hcode : fieldLE fr.payload 0 2 = 0) :
    ∃ t, exec (.fetchEnd k fr) s = .next t ∧ t.core.xfers =
      [{ x with total := some (fieldLE fr.payload 4 4), ended := decide (fieldLE fr.payload 4 4 ≤ x.frames) }] := by
  have hplace : (Core.placeEnd s.trim s.dram (hopped fr) (s.core.heard k fr) x).xfers =
      [{ x with total := some (fieldLE fr.payload 4 4), ended := decide (fieldLE fr.payload 4 4 ≤ x.frames) }] := by
    have hset (y z : Xfer) (d : Core) (hd : d.xfers = [y]) : (d.setXfer y z).xfers = [z] := by simp [Core.setXfer, hd]
    have hfirst := hset x { x with total := some (fieldLE fr.payload 4 4) } (s.core.heard k fr) ((s.core.xfers_heard fr k).trans hone)
    unfold Core.placeEnd
    dsimp only
    rw [if_neg (by rw [hended]; decide), if_neg (by rw [hopped, hcode]; decide)]
    unfold Core.maybeEnd
    dsimp only
    by_cases hall : fieldLE fr.payload 4 4 ≤ x.frames
    · rw [if_pos ⟨hall, by rw [hended]; rfl⟩, decide_eq_true hall]
      rw [Core.endOk_of_fetch (x := { x with total := some (fieldLE (hopped fr).payload 4 4) }) hrole]
      exact hset _ _ _ hfirst
    · rw [if_neg (fun hd => hall hd.1), decide_eq_false hall]
      exact hfirst.trans (by rw [hended])
  refine ⟨_, exec_fetchEnd h, ?_⟩
  rw [State.after_rxOut_xfers, routed_here_heard hkind, onXfer_heard hrec hlive, hplace]

end Commands

/-! ## A write-back at its source -/

/-- How a page lands depends on the memory and the Keep alone. -/
theorem Core.landPage_congr {c d : Core} (hmem : d.mem = c.mem) (hkeep : d.keep = c.keep) (dr : Dram) (i : Nat) (p : StoredPage) :
    d.landPage dr i p = c.landPage dr i p := by
  unfold Core.landPage Core.setVersion Core.pathOk Core.runEnt Core.treeKey Core.slot
  rw [hmem, hkeep]

section Land

variable {c : Core} {tr : Trim} {dr : Dram} {x : Xfer} {d first count : Nat}

theorem Core.dropSource_of_source (hrole : x.role = .source d 4 first count) :
    c.dropSource x = c.updDesc d (fun v => { v with claimant := 0, kind := 0 }) := by
  unfold Core.dropSource
  rw [hrole]
  rfl

theorem Core.desc_updDesc (c : Core) (i : Nat) (f : Desc → Desc) (h : c.dir.rising = true) : (c.updDesc i f).desc i = f (c.desc i) :=
  (SMap.get_set _ _ _ _ _ h).trans (if_pos rfl)

/-- The last page has come: the pages land, the entry's claim ends with its seal set, and the record goes. -/
theorem Core.landWrite_spec (hrole : x.role = .source d 4 first count) (hsegs : c.segs = []) (hrise : c.dir.rising = true) :
    ((Core.landWrite tr c dr x d first count).1.desc d).claimant = 0 ∧ ((Core.landWrite tr c dr x d first count).1.desc d).kind = 0 ∧
    ((Core.landWrite tr c dr x d first count).1.desc d).sealSt = 3 ∧ (∀ z ∈ (Core.landWrite tr c dr x d first count).1.xfers, z ≠ x) := by
  unfold Core.landWrite
  extract_lets us ps dr1 c1 v c2
  have hland : c.Moves [.ctr, .chans, .pool] (c1.dropCopies d) := (c.moves_pageTraffic d 1 us).mono.then (Core.moves_dropCopies _ d)
  have hdir : (c1.dropCopies d).dir.rising = true := by
    rw [show (c1.dropCopies d).dir = c.dir from hland.frame .dir rfl]
    exact hrise
  have hclaim := (c1.dropCopies d).desc_updDesc d (fun v => { v with claimant := 0, kind := 0 }) hdir
  have hseal := ((c1.dropCopies d).dropSource x).desc_updDesc d (fun y => { y with sealV := v, sealSt := 3, sealBad := false })
    (by rw [Core.dropSource_of_source hrole]; exact SMap.rising_set _ _ hdir)
  rw [Core.dropSource_of_source hrole, hclaim] at hseal
  have hc2 : c2.desc d = { (c1.dropCopies d).desc d with claimant := 0, kind := 0, sealV := v, sealSt := 3, sealBad := false } := by
    have hdef : c2.desc d =
        (((c1.dropCopies d).dropSource x).updDesc d (fun y => { y with sealV := v, sealSt := 3, sealBad := false })).desc d := rfl
    rw [hdef, Core.dropSource_of_source hrole]
    exact hseal
  have hx2 : ∀ z ∈ c2.xfers, z ≠ x := fun z hz => by simpa using (List.mem_filter.1 hz).2
  have hmove : c.Moves [.ctr, .chans, .pool, .dir, .xfers] c2 :=
    ((hland.mono.then (Core.moves_dropSource _ x)).then (Core.moves_updDesc _ d _)).then (Core.moves_dropXfer _ x)
  have hs2 : c2.segs = [] := (hmove.frame .segs rfl).trans hsegs
  clear_value c2
  have hfin (c3 : Core) (hend : c2.Moves [.links, .ctr] c3) : ((c3.wake tr).desc d).claimant = 0 ∧ ((c3.wake tr).desc d).kind = 0 ∧
      ((c3.wake tr).desc d).sealSt = 3 ∧ ∀ z ∈ (c3.wake tr).xfers, z ≠ x := by
    rw [Core.wake_of_no_segs c3 tr ((hend.frame .segs rfl).trans hs2)]
    have hdir3 : c3.desc d = c2.desc d := by rw [Core.desc, Core.desc, show c3.dir = c2.dir from hend.frame .dir rfl]
    have hxfers3 : c3.xfers = c2.xfers := congrArg Prod.fst (hend.frame .xfers rfl)
    rw [hdir3, hc2, hxfers3]
    exact ⟨rfl, rfl, rfl, hx2⟩
  dsimp only
  split
  · exact hfin _ (c2.moves_endBack _ _ _ _ _)
  · exact hfin _ (.refl c2)

theorem Core.landWrite_dram : (Core.landWrite tr c dr x d first count).2 =
    (((((c.desc d).statePages (c.groupsOf d) true).filter (fun u => decide (first ≤ u))).take count).zipIdx.map
      (fun (u : Nat × Nat) => x.page u.1 u.2 count)).foldl (fun (dr : Dram) q => c.landPage dr d q) dr := rfl

end Land

theorem State.afterM_core (s : State) (c : Core) (dr : Dram) : (s.afterM c dr).core = (s.after c).core := rfl

theorem State.afterM_dram (s : State) (c : Core) (dr : Dram) : (s.afterM c dr).dram = dr := rfl

section Commands

variable {s : State} {k : Nat} {fr : Frame} {x : Xfer} {d first count : Nat}
  (hrec : s.core.record k fr.transfer = some x) (hlive : x.retired = false)
  (h : s.core.hears k 0x05 fr) (hkind : fKind (s.core.fwd fr.route) = 2) (hrole : x.role = .source d 4 first count)

/-- The record of a write-back once a frame of it has been kept. -/
def keptIn (x : Xfer) (fr : Frame) : Xfer := { x with frames := x.frames + 1, data := x.data ++ [(fr.index, fr.payload)] }

include hrec hlive hrole in
theorem takeWrite_eq : Core.takeWrite k fr s.trim (s.core.heard k fr) s.dram =
    if (keptIn x fr).frames ≥ writeFrames count then
      Core.landWrite s.trim ((s.core.heard k fr).setXfer x (keptIn x fr)) s.dram (keptIn x fr) d first count
    else ((s.core.heard k fr).setXfer x (keptIn x fr), s.dram) := by
  unfold Core.takeWrite
  rw [Core.record_heard, hrec]
  dsimp only
  rw [if_neg (by rw [hlive]; decide), hrole]
  rw [show keptIn x fr = { x with frames := x.frames + 1, data := x.data ++ [(fr.index, fr.payload)], role := .source d 4 first count } by
    rw [keptIn, hrole]]
  rfl

include hrec hlive h hkind hrole

theorem writeData_kept (hmore : (keptIn x fr).frames < writeFrames count) : ∃ t, exec (.writeData k fr) s = .next t ∧ t.dram = s.dram ∧
    t.core.xfers = s.core.xfers.map (fun z => if z = x then keptIn x fr else z) := by
  have hexec := exec_writeData h hkind
  rw [takeWrite_eq hrec hlive hrole, if_neg (Nat.not_le.2 hmore)] at hexec
  refine ⟨_, hexec, rfl, ?_⟩
  rw [State.afterM_core, State.after_rxOut_xfers, Core.setXfer, Core.xfers_heard]

theorem writeData_landed (hall : writeFrames count ≤ (keptIn x fr).frames) (hrise : s.core.dir.rising = true) (hsegs : s.core.segs = []) :
    ∃ t, exec (.writeData k fr) s = .next t ∧ (t.core.desc d).claimant = 0 ∧ (t.core.desc d).kind = 0 ∧ (t.core.desc d).sealSt = 3 ∧
      (∀ z ∈ t.core.xfers, z ≠ keptIn x fr) ∧
      t.dram = (((((s.core.desc d).statePages (s.core.groupsOf d) true).filter (fun u => decide (first ≤ u))).take count).zipIdx.map
        (fun (u : Nat × Nat) => (keptIn x fr).page u.1 u.2 count)).foldl (fun (dr : Dram) q => s.core.landPage dr d q) s.dram := by
  have hexec := exec_writeData h hkind
  obtain ⟨y, ctr, out, heq, -, -⟩ := s.core.heard_cases fr k
  have hdir : ((s.core.heard k fr).setXfer x (keptIn x fr)).dir = s.core.dir := by rw [heq]; rfl
  have hctxs : ((s.core.heard k fr).setXfer x (keptIn x fr)).ctxs = s.core.ctxs := by rw [heq]; rfl
  have hsegs' : ((s.core.heard k fr).setXfer x (keptIn x fr)).segs = [] := by rw [heq]; exact hsegs
  have hmem : ((s.core.heard k fr).setXfer x (keptIn x fr)).mem = s.core.mem := by rw [heq]; rfl
  have hkeep : ((s.core.heard k fr).setXfer x (keptIn x fr)).keep = s.core.keep := by rw [heq]; rfl
  obtain ⟨hclaim, hk0, hseal, hgone⟩ := Core.landWrite_spec (c := (s.core.heard k fr).setXfer x (keptIn x fr)) (tr := s.trim) (dr := s.dram)
    (x := keptIn x fr) hrole hsegs' (by rw [hdir]; exact hrise)
  rw [takeWrite_eq hrec hlive hrole, if_pos hall] at hexec
  refine ⟨_, hexec, ?_, ?_, ?_, ?_, ?_⟩
  · rw [State.afterM_core, State.after_rxOut_desc]
    exact hclaim
  · rw [State.afterM_core, State.after_rxOut_desc]
    exact hk0
  · rw [State.afterM_core, State.after_rxOut_desc]
    exact hseal
  · rw [State.afterM_core, State.after_rxOut_xfers]
    exact hgone
  · rw [State.afterM_dram, Core.landWrite_dram]
    have hdesc : ((s.core.heard k fr).setXfer x (keptIn x fr)).desc d = s.core.desc d := by rw [Core.desc, Core.desc, hdir]
    have hgroups : ((s.core.heard k fr).setXfer x (keptIn x fr)).groupsOf d = s.core.groupsOf d := by
      rw [Core.groupsOf, Core.groupsOf, hctxs, hdesc]
    rw [hdesc, hgroups]
    congr 1
    funext dr q
    exact Core.landPage_congr hmem hkeep dr d q

end Commands

/-- Settles O53: each frame acts on the die as it was heard, and what follows from its own link leaves the link it is sent on. -/
theorem transfersMove : Obligations.TransfersMove := by
  unfold Obligations.TransfersMove
  intro s k j fr c c1 hk hj hne hlen
  refine ⟨fun h hkind hroute hclear => ?_, fun h hkind => ?_, fun h hnone hkind hsettled => fetchData_unknown h hkind hnone hsettled,
    fun x hrec hlive => ⟨fun h hkind hroute hclear => ?_, fun i h hkind hrole htotal => fetchData_placed hrec hlive h hkind hrole htotal,
      fun h hkind hroute hclear => ?_, fun i h hkind hrole hended hone => ⟨fun hcode hall => ?_, fun hcode hfew => ?_⟩,
      fun d first count h hkind hrole => ⟨fun hmore => writeData_kept hrec hlive h hkind hrole hmore,
        fun hall hrise hsegs _ => writeData_landed hrec hlive h hkind hrole hall hrise hsegs⟩⟩⟩
  · exact ⟨fun hcost hroom => fetchReq_sent_on hk hj hne hlen h hkind hroute hclear hcost hroom,
      fun hcost => fetchReq_refused_here hk hne hlen h hkind hroute (.inl hcost),
      fun _ hfull => fetchReq_refused_here hk hne hlen h hkind hroute (.inr hfull)⟩
  · refine ⟨fun code hcode hbad hroute hclear => ?_, fun hpass hobj => ?_⟩
    · subst hcode
      have hserve := Core.serve_refused (k := k) (dr := s.dram) (fr := hopped fr) hbad
      refine ⟨_, exec_fetchReq h, ?_, rfl, ?_⟩
      · rw [State.after_rxOut_xfers, routed_here_heard hkind, hserve, Core.endBack, Core.xfers_sendBy, Core.xfers_heard]
      · rw [routed_here_heard hkind, hserve]
        exact State.sentOn_after (sentOn_heard hk hj hne hlen rfl rfl rfl hroute hclear _ _)
    · obtain ⟨t, ht, hclaim, hkd, hx⟩ := fetchReq_writeback h hkind hpass hobj
      exact ⟨t, ht, hclaim, hkd, _, hx, by rw [sourceOf]; exact congrArg (fun o => XferRole.source _ o _ _) hobj, rfl, rfl⟩
  · refine ⟨_, exec_fetchData h, ?_, ?_⟩
    · rw [State.after_rxOut_xfers, routed_on_heard hk hlen hkind hroute, onXfer_heard hrec hlive, Core.passOn, Core.xfers_sendBy, Core.xfers_heard]
    · rw [routed_on_heard hk hlen hkind hroute, onXfer_heard hrec hlive, ← show fr.type = 0x03 from h.2.1]
      exact State.sentOn_after (sentOn_heard (x := hopped fr) hk hj hne hlen rfl rfl rfl hroute hclear 0xFFFF)
  · refine ⟨_, exec_fetchEnd h, ?_, ?_⟩
    · rw [State.after_rxOut_xfers, routed_on_heard hk hlen hkind hroute, onXfer_heard hrec hlive, Core.dropXfer, Core.passOn, Core.xfers_sendBy,
        Core.xfers_heard]
    · rw [routed_on_heard hk hlen hkind hroute, onXfer_heard hrec hlive, ← show fr.type = 0x04 from h.2.1]
      refine State.sentOn_after ?_
      have hsent := sentOn_heard (s := s) (fr := fr) (x := hopped fr) hk hj hne hlen rfl rfl rfl hroute hclear 0xFFFF
      unfold Core.sentOn at hsent ⊢
      rw [Core.link_rxOut_of_ne _ hne] at hsent ⊢
      exact hsent
  · obtain ⟨t, ht, hx⟩ := fetchEnd_placed hrec hlive h hkind hrole hended hone hcode
    exact ⟨t, ht, by rw [hx, decide_eq_true hall]⟩
  · obtain ⟨t, ht, hx⟩ := fetchEnd_placed hrec hlive h hkind hrole hended hone hcode
    exact ⟨t, ht, by rw [hx, decide_eq_false (Nat.not_le.2 hfew), ← hended]⟩

end Sys2Proof.Machine

/-! # Trusted interfaces (O49)

The statement has it that an answer Busy leaves the ports. An event that still waits to be delivered may interrupt in the same step, and
a masked vector is then marked pending in its port. -/

namespace Sys2Proof.Machine

set_option Elab.async false

/-- A recorder whose first filter interrupts on vector 0 at an event of code 0. -/
def Evr.interrupting : Evr :=
  { Evr.reset with enable := true, liveFilters := [(0, 2 ^ 16 + 0xFFFE * 2 ^ 32 + 2 * 2 ^ 48)], liveIrq := 2 ^ 8 }

/-- A module with an event of code 0 waiting, the responder open, an activation window open. -/
def State.eventWaits : State :=
  let c := State.reset.core
  { State.reset with
    core := { c with outbox := [⟨0, 0, 0, 0, 0, 0, 0⟩], keep := { c.keep with open_ := true, fwState := 2 } }, evr := Evr.interrupting }

/-- The pending bit of vector 0 of the administration PF, as the ports hold it. -/
def pendingOf (ports : List Port) : Bool := (((ports.getD 0 .reset).fns.get (.reset true) 0).msix.get .reset 0).pend

/-- That bit in what a command leaves. -/
def pendingAfter : Host.Outcome State Fault Refusal → Option Bool
  | .next s => some (pendingOf s.core.ports)
  | _ => none

theorem eventWaits_interrupts : pendingAfter (exec (.lockInterface ⟨0, 0⟩) State.eventWaits) = some true := by decide

/-- Refutes O49: the step that answers Busy delivers a waiting event, whose interrupt marks a masked vector pending in the port. -/
theorem not_trustedInterfaces : ¬ Obligations.TrustedInterfaces := by
  unfold Obligations.TrustedInterfaces
  intro h
  obtain ⟨-, hbusy, -⟩ := h State.eventWaits ⟨0, 0⟩ rfl (by decide) rfl
  obtain ⟨⟨t, ht, hports, -⟩, -⟩ := hbusy rfl rfl
  have hstated : pendingAfter (exec (.lockInterface ⟨0, 0⟩) State.eventWaits) = some (pendingOf State.eventWaits.core.ports) := by
    rw [ht, pendingAfter, hports]
  exact absurd (eventWaits_interrupts.symm.trans hstated) (by decide)

end Sys2Proof.Machine

/-! # The memory controllers (O35) -/

namespace Sys2Proof.Machine

set_option Elab.async false

section Scrub

variable (c : Core) (p k : Nat)

theorem Core.chan_mem (r n : Nat) : (c.chan p k r n).mem = c.mem := c.bump_mem _ _

theorem Core.chan_clk (r n : Nat) : (c.chan p k r n).clk = c.clk := c.bump_clk _ _

variable {c} (h : c.ctr.rising = true)

include h

theorem Core.chan_rising (r n : Nat) : (c.chan p k r n).ctr.rising = true := c.bump_rising _ _ h

theorem Core.chan_get_same (r n : Nat) : (c.chan p k r n).ctr.get .zero (memBase p + 0x100 + 0x40 * k + 8 * r) =
    ((c.ctr.get .zero (memBase p + 0x100 + 0x40 * k + 8 * r)).bump c.clk.nominal n).1 :=
  (c.bump_get _ n _ h).trans (if_pos rfl)

theorem Core.chan_get_of_ne {r q : Nat} (n : Nat) (hne : q ≠ r) : (c.chan p k r n).ctr.get .zero (memBase p + 0x100 + 0x40 * k + 8 * q) =
    c.ctr.get .zero (memBase p + 0x100 + 0x40 * k + 8 * q) :=
  (c.bump_get _ n _ h).trans (if_neg (by omega))

end Scrub

/-- A scrub that goes on: the group is read, and then what its check gives. -/
theorem Core.scrub_eq {c : Core} {ch n : Nat} {chk : Check} (hon : bit (c.reg (memBase (ch / 8))) 2 = true) (hmem : c.noMemory = false)
    (hhold : c.prc.state ≠ .holdover) (hsafe : c.prc.state ≠ .pfSafe) :
    Core.scrub ch n chk c = (match if c.badGroup ch n then Check.uncorrectable else chk with
      | .clean => (c.chan (ch / 8) (ch % 8) 0 8).chan (ch / 8) (ch % 8) 7 8
      | .single => (((c.chan (ch / 8) (ch % 8) 0 8).chan (ch / 8) (ch % 8) 7 8).chan (ch / 8) (ch % 8) 1 8).chan (ch / 8) (ch % 8) 3 1
      | .uncorrectable => (((c.chan (ch / 8) (ch % 8) 0 8).chan (ch / 8) (ch % 8) 7 8).raise
          (sysEvent 0x0405 ch (n / 2 ^ 16) n (ch / 8))).errLog (ch / 8) 0x0405 (ch % 8) n) := by
  have hbad : ((c.chan (ch / 8) (ch % 8) 0 8).chan (ch / 8) (ch % 8) 7 8).badGroup ch n = c.badGroup ch n := by
    rw [Core.badGroup, Core.badGroup, Core.chan_mem, Core.chan_mem]
  unfold Core.scrub
  dsimp only
  rw [if_neg (by simp [hon, hmem, hhold, hsafe]), hbad] <;> rfl

/-- The failed channels of a controller each tell and assert cause 3. -/
theorem Core.initFailed_spec (k : Nat) (xs : List Nat) (c : Core) :
    (xs.foldl (fun (c : Core) _ => (c.raise (sysEvent 0x040A 0 0 0 k)).failN 3) c).mem = c.mem ∧
    ((xs ≠ [] ∨ 3 ∈ c.out.failN) → 3 ∈ (xs.foldl (fun (c : Core) _ => (c.raise (sysEvent 0x040A 0 0 0 k)).failN 3) c).out.failN) := by
  induction xs generalizing c with
  | nil => exact ⟨rfl, fun h => h.resolve_left (fun hne => hne rfl)⟩
  | cons x xs ih =>
    obtain ⟨hmem, hfail⟩ := ih ((c.raise (sysEvent 0x040A 0 0 0 k)).failN 3)
    refine ⟨hmem.trans ?_, fun _ => hfail (.inr (Core.mem_failN.2 (.inl rfl)))⟩
    unfold Core.failN
    split <;> rfl

theorem Core.readyCheck_mem (c : Core) : c.readyCheck.mem = c.mem := by
  unfold Core.readyCheck
  split <;> rfl

theorem Core.mem_failN_readyCheck {c : Core} {n : Nat} (hn : n ≠ 0) (h : n ∈ c.out.failN) : n ∈ c.readyCheck.out.failN := by
  unfold Core.readyCheck
  split
  · exact Core.mem_okN.2 ⟨h, hn⟩
  · exact h

theorem setBits_eight_ne_nil {fail : Nat} (h0 : 0 < fail) (h1 : fail < 256) : setBits 8 fail ≠ [] := by
  intro hnil
  have hnone : ∀ i < 8, bit fail i = false := fun i hi => by
    have := List.filter_eq_nil_iff.1 hnil i (List.mem_range.2 hi)
    simpa using this
  have hzero : fail = 0 := by
    apply Nat.eq_of_testBit_eq
    intro i
    rw [Nat.zero_testBit]
    by_cases hi : i < 8
    · have hbit : fail.testBit i = bit fail i := by
        rw [Nat.testBit_eq_decide_div_mod_eq, bit, Nat.shiftRight_eq_div_pow]
      rw [hbit]
      exact hnone i hi
    · exact Nat.testBit_lt_two_pow (lt_of_lt_of_le h1 (Nat.pow_le_pow_right (n := 2) (by decide) (Nat.not_lt.1 hi)))
  omega

/-- Settles O35: each command of a controller is one bank, one counter or one entry of the controllers. -/
theorem controllersWork : Obligations.ControllersWork := by
  unfold Obligations.ControllersWork
  intro s ch n bank hch c p k m
  have hp : p < 16 := by omega
  refine ⟨fun hon hmem hhold hsafe hrise => ?_, rfl, ?_, fun temp hsame => ?_, fun temp hdiff => ?_, fun hpow hinit htrain hlen => ?_⟩
  · have hexec (chk : Check) : exec (.scrub ch n chk) s = .next (s.after (Core.scrub ch n chk c)) := rfl
    have hrise0 := Core.chan_rising p k hrise 0 8
    have hrise7 := Core.chan_rising p k hrise0 7 8
    refine ⟨fun hgood => ⟨_, hexec .clean, ?_, ?_⟩, fun hgood => ⟨_, hexec .single, ?_, ?_⟩, fun chk hbad => ⟨_, hexec chk, ?_⟩⟩
    · rw [State.after_mem, Core.scrub_eq hon hmem hhold hsafe, hgood]
      exact (Core.chan_mem _ _ _ _ _).trans (Core.chan_mem _ _ _ _ _)
    · rw [State.after_ctr, Core.scrub_eq hon hmem hhold hsafe, hgood]
      exact (Core.chan_get_of_ne p k hrise0 (r := 7) (q := 0) 8 (by decide)).trans (Core.chan_get_same p k hrise 0 8)
    · rw [State.after_mem, Core.scrub_eq hon hmem hhold hsafe, hgood]
      exact (Core.chan_mem _ _ _ _ _).trans ((Core.chan_mem _ _ _ _ _).trans ((Core.chan_mem _ _ _ _ _).trans (Core.chan_mem _ _ _ _ _)))
    · rw [State.after_ctr, Core.scrub_eq hon hmem hhold hsafe, hgood]
      have hlast := Core.chan_get_same p k (Core.chan_rising p k hrise7 1 8) 3 1
      rw [Core.chan_get_of_ne p k hrise7 (r := 1) (q := 3) 8 (by decide), Core.chan_get_of_ne p k hrise0 (r := 7) (q := 3) 8 (by decide),
        Core.chan_get_of_ne p k hrise (r := 0) (q := 3) 8 (by decide), Core.chan_clk, Core.chan_clk, Core.chan_clk] at hlast
      exact hlast
    · have hfound : (if c.badGroup ch n then Check.uncorrectable else chk) = .uncorrectable := by
        rcases hbad with rfl | hbad
        · split <;> rfl
        · rw [if_pos hbad]
      rw [State.after_mem, Core.scrub_eq hon hmem hhold hsafe, hfound]
      have hkept : ((c.chan (ch / 8) (ch % 8) 0 8).chan (ch / 8) (ch % 8) 7 8).mem = c.mem :=
        (Core.chan_mem _ _ _ _ _).trans (Core.chan_mem _ _ _ _ _)
      unfold Core.errLog Core.raise
      dsimp only
      rw [hkept]
  · obtain ⟨d, hd⟩ : ∃ d : Core, d = { c with mem := { c.mem with banks := c.mem.banks.set 0 ch ((bank + 1) % 16) } } := ⟨_, rfl⟩
    have hexec : exec (.refreshForced ch bank) s = .next (s.after ((d.raise (sysEvent 0x0408 ch bank 0 p)).chan p k 6 1)) := by rw [hd]; rfl
    obtain ⟨more, hmore⟩ := ((d.raise (sysEvent 0x0408 ch bank 0 p)).moves_bump (memBase p + 0x100 + 0x40 * k + 8 * 6) 1).more
    have hev : sysEvent 0x0408 ch bank 0 p = ⟨0x0408, 0xFFFF, ch, bank % 2 ^ 16, 0, 0xFFFF, p⟩ := by
      rw [sysEvent, Nat.mod_eq_of_lt (lt_trans hch (by decide))]
      rfl
    refine ⟨_, hexec, ?_, more, ?_⟩
    · rw [State.after_mem, Core.chan_mem, hd]
      rfl
    · rw [State.after_evr, Core.chan, hmore, Core.outbox_raise, hev, List.append_assoc, hd]
      rfl
  · exact congrArg (fun d => Host.Outcome.next (s.after d)) (if_pos hsame)
  · exact congrArg (fun d => Host.Outcome.next (s.after d)) (if_neg hdiff)
  · have hexec (fail : Nat) (hf : fail < 256) : exec (.memoryInitDone p fail) s = .next (s.after (((setBits 8 fail).foldl
        (fun (c : Core) _ => (c.raise (sysEvent 0x040A 0 0 0 p)).failN 3)
        { c with mem := { c.mem with ctls := c.mem.ctls.set p { m with init := fail % 256 = 0, trainFail := fail % 256 } } }).readyCheck)) := by
      refine congrArg (fun d => Host.Outcome.next (s.after d)) ?_
      have hgo : ¬((!c.prc.powered || m.init || m.trainFail != 0 || decide (p ≥ 16)) = true) := by
        simp [hpow, hinit, htrain, hp]
      exact if_neg hgo
    refine ⟨⟨_, hexec 0 (by decide), ?_⟩, fun fail h0 h1 => ⟨_, hexec fail h1, ?_, ?_⟩⟩
    · rw [State.after_mem, Core.readyCheck_mem, (Core.initFailed_spec _ _ _).1]
      rfl
    · rw [State.after_mem, Core.readyCheck_mem, (Core.initFailed_spec _ _ _).1]
      have hne : decide (fail = 0) = false := decide_eq_false (Nat.pos_iff_ne_zero.1 h0)
      rw [Nat.mod_eq_of_lt h1, hne]
    · rw [State.after_mem_failN _ _ (by decide)]
      exact Core.mem_failN_readyCheck (by decide) ((Core.initFailed_spec _ _ _).2 (.inl (setBits_eight_ne_nil h0 h1)))

end Sys2Proof.Machine

/-! # What the waking of requests leaves as it is

The Gatehouse completes, hands over and fetches in many places. A relation that stands over a completion, over the start of a request on a
link, and over every change of the parts below stands over all of them. -/

namespace Sys2Proof.Machine

set_option Elab.async false

/-- The parts that the ends of segments and fetches move beside the completions and the requests on the links. -/
def gateParts : List Part := [.pool, .dir, .runs, .ctr, .xfers, .segs, .ctxs, .pow, .keep]

/-- A relation between dies that the ends of segments and fetches keep. -/
structure Steady (R : Core → Core → Prop) : Prop where
  refl : ∀ c, R c c
  trans : ∀ {c d e}, R c d → R d e → R c e
  moves : ∀ {c d}, c.Moves gateParts d → R c d
  post : ∀ c x, R c (c.post x)
  originate : ∀ c tr label r role, R c (Core.originate c tr label r role).1

namespace Steady

variable {R : Core → Core → Prop} (h : Steady R)

include h

theorem of {v : List Part} {c d : Core} (hm : c.Moves v d) (hv : v.all gateParts.contains = true := by decide) : R c d :=
  h.moves (hm.mono hv)

omit h in
theorem ite {p : Prop} [Decidable p] {c d e : Core} (h1 : R c d) (h2 : R c e) : R c (if p then d else e) := by
  split
  · exact h1
  · exact h2

theorem foldl {α : Type} (f : Core → α → Core) (hf : ∀ d x, R d (f d x)) (xs : List α) (c : Core) : R c (xs.foldl f c) := by
  induction xs generalizing c with
  | nil => exact h.refl c
  | cons x xs ih => exact h.trans (hf c x) (ih _)

theorem foldl_fst {α β : Type} (f : Core × β → α → Core × β) (hf : ∀ r x, R r.1 (f r x).1) (xs : List α) (r : Core × β) :
    R r.1 (xs.foldl f r).1 := by
  induction xs generalizing r with
  | nil => exact h.refl r.1
  | cons x xs ih => exact h.trans (hf r x) (ih _)

variable (c : Core) (tr : Trim)

theorem complete (r : Req) (a b : Nat) : R c (c.complete r a b) := h.post c _

theorem completeAll (rs : List Req) (a b : Nat) : R c (c.completeAll rs a b) := h.foldl _ (fun d r => h.complete d r a b) rs c

theorem finishSeg (s : Seg) (a b : Nat) : R c (Core.finishSeg tr c s a b) := by
  have hpins := Core.Moves.foldl (c := c) (w := gateParts) (fun (d : Core) i => d.updDesc i (fun x => { x with pins := x.pins - 1 }))
    (fun d i => (d.moves_updDesc i _).mono) s.pinned
  exact h.trans (h.trans (h.moves (((hpins.then (Core.moves_releaseUnits _ (.image s.id))).then (Core.moves_dropClaim _ s)).then
    (Core.moves_dropSave _ s))) (h.post _ _)) (h.of (Core.moves_dropSeg _ s.id))

theorem cancelSeg (s : Seg) (a b : Nat) : R c (Core.cancelSeg tr c s a b) := h.finishSeg c tr _ a b

theorem refuseSeg (s : Seg) (a b : Nat) : R c (Core.refuseSeg tr c s a b) :=
  h.trans (h.of (c.moves_bump _ 1)) (h.cancelSeg _ tr s a b)

theorem completeFetch (i : Nat) (f : Fetch) (code : Nat) : R c (c.completeFetch i f code) := by
  unfold Core.completeFetch
  split
  · exact h.trans (h.complete c _ _ _) (h.completeAll _ _ _ _)
  · exact h.completeAll c _ _ _

theorem fetchFail (i code : Nat) : R c (c.fetchFail tr i code) := by
  cases hf : (c.desc i).fetch with
  | none =>
    unfold Core.fetchFail
    dsimp only
    rw [hf]
    exact h.refl c
  | some f =>
    obtain ⟨c1, hmove, -, -, heq⟩ := c.fetchFail_eq tr i code hf
    rw [heq]
    exact h.trans (h.trans (h.of hmove) (h.completeFetch _ _ _ _)) (h.foldl _ (fun d s => h.cancelSeg d tr s _ _) _ _)

theorem startFetch (i : Nat) (training keepLocal : Bool) (req : Option Req) : R c (c.startFetch tr i training keepLocal req) := by
  have hclaim (v : Desc) : R c (c.setDesc i v) := h.of (c.moves_setDesc i v)
  have hsent (d : Core) (ps : List (Nat × Nat)) (label : Nat) (req : Nat × Nat → ReqF) := h.foldl_fst
    (fun (r : Core × Nat) p => if r.2 ≠ 0 then r else r.1.originate tr label (req p) (.fetch i))
    (fun r p => by
      split
      · exact h.refl r.1
      · exact h.originate r.1 tr label (req p) (.fetch i)) ps (d, 0)
  unfold Core.startFetch
  exact Steady.ite (h.trans (hclaim _) (h.fetchFail _ tr _ _)) (Steady.ite
    (Steady.ite (h.trans (h.trans (hclaim _) (hsent _ _ _ _)) (h.fetchFail _ tr _ _)) (h.trans (hclaim _) (hsent _ _ _ _))) (hclaim _))

theorem kick : R c (c.kick tr) := by
  refine Steady.ite (h.refl c) (h.foldl _ (fun d s => ?_) _ _)
  split
  · exact Steady.ite (h.foldl _ (fun d i => Steady.ite (h.startFetch d tr _ _ _ _) (h.refl d)) _ _) (h.refl d)
  · exact h.refl d

theorem placeImage (s : Seg) : R c (Core.placeImage tr c s) := by
  unfold Core.placeImage
  split
  · exact Steady.ite (h.moves (((c.moves_claimResupport s).mono.then (Core.moves_setSeg _ _)).then (Core.moves_allocUnits _ _ _)))
      (h.moves ((c.moves_claimResupport s).mono.then (Core.moves_setSeg _ _)))
  · exact h.refuseSeg c tr _ _ _

theorem unpark : R c (c.unpark tr) := by
  refine Steady.ite (h.refl c) (h.trans (h.of c.moves_grant) (h.foldl _ (fun d s => ?_) _ _))
  split
  · exact Steady.ite (h.placeImage d tr _) (h.refl d)
  · exact h.refl d

theorem wake : R c (c.wake tr) := h.trans (h.trans (h.kick c tr) (h.of (Core.moves_pinParked _))) (h.unpark _ tr)

theorem withdraw (p : Seg → Bool) (code : Nat) : R c (c.withdraw tr p code) := by
  refine h.foldl _ (fun d s => ?_) _ _
  split
  · exact Steady.ite (h.trans (h.of (d.moves_leaveSteps _)) (h.cancelSeg _ tr _ _ _)) (h.refl d)
  · exact h.refl d

theorem disableCtx (x : Nat) : R c (c.disableCtx tr x) := by
  unfold Core.disableCtx
  split
  · exact h.refl c
  · refine Steady.ite (h.refl c) ?_
    extract_lets busy c1 c2 c3 c4 c5
    have hoff : R c c1 := h.moves (((c.moves_updCtx _ _).mono.then (Core.moves_releaseUnits _ _)).then (Core.moves_endProg _ _))
    have hgone : R c c3 := h.trans (h.trans hoff (h.withdraw _ tr _ _)) (h.withdraw _ tr _ _)
    have hdome : R c c4 := h.trans hgone
      (h.moves (((c3.moves_abandon _).mono.then (Core.moves_freeTransient _ _)).then (Core.moves_updCtx _ _ _)))
    clear_value c4
    exact h.trans (Steady.ite (h.trans hdome (h.moves ((c4.moves_dueSettle).mono.then (Core.moves_noteReset _ _ _))))
      (h.trans hdome (h.of c4.moves_dueSettle))) (h.wake _ tr)

end Steady

/-! ## What a completion leaves of the functions -/

/-- A function but for its queue pairs and MSI-X table. -/
def HostFn.served (x : HostFn) : HostFn := { x with pairs := [], msix := [] }

/-- A port but for its functions. -/
def Port.bare (p : Port) : Port := { p with fns := [] }

/-- The ports list their functions in rising order. -/
def Core.hostForm (c : Core) : Prop := ∀ p ∈ c.ports, p.fns.rising = true

/-- From `c` to `d` of the host side only queue pairs and MSI-X tables change. -/
def Core.Hosts (c d : Core) : Prop :=
  c.hostForm → d.hostForm ∧ d.ports.length = c.ports.length ∧ (∀ f, (d.fn f).served = (c.fn f).served) ∧ ∀ p, (d.port p).bare = (c.port p).bare

namespace Core

variable {c d e : Core}

theorem Hosts.of_ports (h : d.ports = c.ports) : c.Hosts d := fun hc =>
  ⟨by rw [hostForm, h]; exact hc, by rw [h], fun f => by rw [fn_of_ports h], fun p => by rw [port, port, h]⟩

theorem Hosts.refl (c : Core) : c.Hosts c := .of_ports rfl

theorem Hosts.trans (h : c.Hosts d) (g : d.Hosts e) : c.Hosts e := fun hc => by
  obtain ⟨hform, hlen, hfn, hport⟩ := h hc
  obtain ⟨hform', hlen', hfn', hport'⟩ := g hform
  exact ⟨hform', hlen'.trans hlen, fun f => (hfn' f).trans (hfn f), fun p => (hport' p).trans (hport p)⟩

theorem Moves.hosts {v : List Part} (h : c.Moves v d) (hv : v.contains .ports = false) : c.Hosts d := .of_ports (h.frame .ports hv)

theorem hostForm_setFn (f : FnId) (x : HostFn) (h : c.hostForm) : (c.setFn f x).hostForm := by
  intro p hp
  by_cases hf : f.port < c.ports.length
  · obtain hp | rfl := List.mem_or_eq_of_mem_set hp
    · exact h p hp
    · exact SMap.rising_set _ _ (port_rising h hf)
  · rw [setFn_of_no_port hf] at hp
    exact h p hp

theorem bare_setFn (f : FnId) (x : HostFn) (p : Nat) : ((c.setFn f x).port p).bare = (c.port p).bare := by
  by_cases hf : f.port < c.ports.length
  · rw [setFn, port_setPort _ _ _ _ hf]
    split
    · next h => rw [h]; rfl
    · rfl
  · rw [setFn_of_no_port hf]

theorem hosts_setFn {f : FnId} {x : HostFn} (hx : x.served = (c.fn f).served) : c.Hosts (c.setFn f x) := by
  intro hc
  refine ⟨hostForm_setFn f x hc, List.length_set, fun g => ?_, bare_setFn f x⟩
  by_cases hf : f.port < c.ports.length
  · rw [fn_setFn c f g x hf (port_rising hc hf)]
    split
    · next h => rw [h]; exact hx
    · rfl
  · rw [setFn_of_no_port hf]

theorem hosts_fire (c : Core) (f : FnId) (v : Nat) : c.Hosts (c.fire f v) := by
  unfold fire
  dsimp only
  split
  · exact .refl c
  · split
    · exact hosts_setFn rfl
    · exact .of_ports rfl

theorem hosts_setPair (c : Core) (f : FnId) (q : Nat) (x : Pair) : c.Hosts (c.setPair f q x) := hosts_setFn rfl

theorem hosts_dma (c : Core) (f : FnId) (a : Nat) (bs : List Byte) : c.Hosts (c.dma f a bs) := (c.moves_dma f a bs).hosts rfl

theorem hosts_writePost (c : Core) (x : Post) : c.Hosts (c.writePost x) := by
  obtain ⟨c1, hc1, hrec⟩ : ∃ c1 : Core, (if x.req.result ≠ 0 ∧ x.record ≠ [] then c.dma x.req.f x.req.result x.record else c) = c1 ∧ c.Hosts c1 := by
    refine ⟨_, rfl, ?_⟩
    split
    · exact c.hosts_dma _ _ _
    · exact .refl c
  unfold writePost
  dsimp only
  rw [hc1]
  split
  · exact ((hrec.trans (c1.hosts_dma _ _ _)).trans (hosts_setPair _ _ _ _)).trans (hosts_fire _ _ _)
  · exact (hrec.trans (c1.hosts_dma _ _ _)).trans (hosts_setPair _ _ _ _)

theorem steady_hosts : Steady Hosts where
  refl := Hosts.refl
  trans := Hosts.trans
  moves h := h.hosts rfl
  post c x := by
    unfold post
    split
    · exact .refl c
    · split
      · exact .of_ports rfl
      · exact c.hosts_writePost x
  originate c tr label r role := (c.moves_originate tr label r role).hosts rfl

end Core

/-- Delivery changes MSI-X tables at most. -/
theorem State.hosts_after (s : State) (c : Core) : c.Hosts (s.after c).core := by
  unfold State.after State.deliver
  dsimp only
  have hfail (d : Core) (n : Nat) : d.Hosts (d.failN n) := (d.moves_failN n).hosts rfl
  have hempty : c.Hosts { c with outbox := [] } := .of_ports rfl
  split
  · split
    · exact (hempty.trans (Core.hosts_fire _ _ _)).trans (hfail _ _)
    · exact hempty.trans (hfail _ _)
  · split
    · exact hempty.trans (Core.hosts_fire _ _ _)
    · exact hempty

/-! ## What it leaves of the key slots -/

/-- From `c` to `d` a key slot changes its nonce at most. -/
def Core.SlotsKept (c d : Core) : Prop :=
  c.keep.slots.rising = true → d.keep.slots.rising = true ∧ ∀ k, (d.slot k).st = (c.slot k).st ∧ (d.slot k).fn = (c.slot k).fn

namespace Core

variable {c d e : Core}

theorem SlotsKept.of_slots (h : d.keep.slots = c.keep.slots) : c.SlotsKept d := fun hc => by
  refine ⟨by rw [h]; exact hc, fun k => ?_⟩
  rw [slot, slot, h]
  exact ⟨rfl, rfl⟩

theorem SlotsKept.refl (c : Core) : c.SlotsKept c := .of_slots rfl

theorem SlotsKept.trans (h : c.SlotsKept d) (g : d.SlotsKept e) : c.SlotsKept e := fun hc => by
  obtain ⟨hr, hk⟩ := h hc
  obtain ⟨hr', hk'⟩ := g hr
  exact ⟨hr', fun k => ⟨(hk' k).1.trans (hk k).1, (hk' k).2.trans (hk k).2⟩⟩

theorem Moves.slotsKept {v : List Part} (h : c.Moves v d) (hv : v.contains .slots = false) : c.SlotsKept d :=
  .of_slots (h.frame .slots hv)

theorem slotsKept_setNonce (c : Core) (i n : Nat) : c.SlotsKept (c.setSlot i { c.slot i with nonce := n }) := fun hc => by
  refine ⟨SMap.rising_set _ _ hc, fun k => ?_⟩
  have hget : (c.setSlot i { c.slot i with nonce := n }).slot k = if k = i then { c.slot i with nonce := n } else c.slot k :=
    SMap.get_set _ _ _ _ _ hc
  rw [hget]
  split
  · next h => rw [h]; exact ⟨rfl, rfl⟩
  · exact ⟨rfl, rfl⟩

theorem SlotsKept.sendBy (h : c.SlotsKept d) (label : Nat) (fr : Frame) (slot : Nat) : c.SlotsKept (d.sendBy label fr slot) :=
  h.trans ((d.moves_sendBy label fr slot).slotsKept rfl)

theorem slotsKept_originate (c : Core) (tr : Trim) (label : Nat) (r : ReqF) (role : XferRole) :
    c.SlotsKept (c.originate tr label r role).1 := by
  have hfst {p : Prop} [Decidable p] {a b : Core × Nat} (ha : c.SlotsKept a.1) (hb : c.SlotsKept b.1) : c.SlotsKept (if p then a else b).1 := by
    split
    · exact ha
    · exact hb
  unfold originate
  split
  · exact .refl c
  · refine hfst (.refl c) (hfst (.refl c) (SlotsKept.sendBy ?_ _ _ _))
    exact (c.slotsKept_setNonce (if r.object = 3 then 0xFFFF else r.slot) _).trans (.of_slots rfl)

theorem steady_slotsKept : Steady SlotsKept where
  refl := SlotsKept.refl
  trans := SlotsKept.trans
  moves h := h.slotsKept rfl
  post c x := (c.moves_post x).slotsKept rfl
  originate := slotsKept_originate

end Core

end Sys2Proof.Machine

/-! # Functions reset and served (O48) -/

namespace Sys2Proof.Machine

set_option Elab.async false


section Reset

variable {c : Core} {f : FnId} (tr : Trim)

theorem HostFn.enable_of_served {x y : HostFn} (h : x.served = y.served) : x.enable = y.enable :=
  show x.served.enable = y.served.enable from congrArg HostFn.enable h

theorem HostFn.tdi_of_served {x y : HostFn} (h : x.served = y.served) : x.tdi = y.tdi :=
  show x.served.tdi = y.served.tdi from congrArg HostFn.tdi h

theorem HostFn.flr_of_served {x y : HostFn} (h : x.served = y.served) : x.flr = y.flr :=
  show x.served.flr = y.served.flr from congrArg HostFn.flr h

/-- The die once the pairs and vectors of a function are dropped. -/
def Core.emptied (c : Core) (f : FnId) : Core := c.setFn f { c.fn f with
    pairs := (c.fn f).pairs.map (fun (p : Nat × Pair) => (p.1, { Pair.reset with epoch := p.2.epoch + 1 })), msix := [] }

theorem Core.dropFn_eq (c : Core) (tr : Trim) (f : FnId) :
    c.dropFn tr f = ((c.emptied f).withdraw tr (fun s => s.req.f = f && s.st = .parked) 0x0A21).wake tr := rfl

theorem Core.hosts_dropFn (c : Core) (tr : Trim) (f : FnId) : c.Hosts (c.dropFn tr f) := by
  have hset : c.Hosts (c.emptied f) := Core.hosts_setFn rfl
  exact hset.trans (Core.steady_hosts.trans (Core.steady_hosts.withdraw _ tr _ _) (Core.steady_hosts.wake _ tr))

theorem Core.slotsKept_dropFn (c : Core) (tr : Trim) (f : FnId) : c.SlotsKept (c.dropFn tr f) := by
  have hset : c.SlotsKept (c.emptied f) := .of_slots rfl
  exact hset.trans (Core.steady_slotsKept.trans (Core.steady_slotsKept.withdraw _ tr _ _) (Core.steady_slotsKept.wake _ tr))

/-- With no segment there is nothing to withdraw or to wake. -/
theorem Core.dropFn_of_no_segs (h : c.segs = []) : c.dropFn tr f = c.emptied f := by
  have hnone (d : Core) (hd : d.segs = []) (p : Seg → Bool) : d.withdraw tr p 0x0A21 = d := by
    unfold Core.withdraw
    rw [hd]
    rfl
  rw [Core.dropFn_eq, hnone (c.emptied f) h, Core.wake_of_no_segs (c.emptied f) tr h]

theorem SMap.get_map_pairs (m : SMap Pair) (q : Nat) :
    (SMap.get Pair.reset (m.map (fun (p : Nat × Pair) => (p.1, { Pair.reset with epoch := p.2.epoch + 1 }))) q).st = .disabled ∧
    (SMap.get Pair.reset (m.map (fun (p : Nat × Pair) => (p.1, { Pair.reset with epoch := p.2.epoch + 1 }))) q).taken = 0 := by
  induction m with
  | nil => exact ⟨rfl, rfl⟩
  | cons e m ih =>
    obtain ⟨i, p⟩ := e
    simp only [List.map_cons, SMap.get]
    split
    · exact ⟨rfl, rfl⟩
    · split
      · exact ⟨rfl, rfl⟩
      · exact ih

variable (hlen : c.ports.length = 2) (hform : c.hostForm) (hf : f.port < 2)

include hlen hform hf

theorem Core.fn_setFn_self {d : Core} (h : c.Hosts d) (x : HostFn) : (d.setFn f x).fn f = x := by
  obtain ⟨hd, hl, -, -⟩ := h hform
  have hp : f.port < d.ports.length := by rw [hl, hlen]; exact hf
  rw [Core.fn_setFn d f f x hp (Core.port_rising hd hp), if_pos rfl]

/-- The function as a function-level reset leaves it. -/
theorem Core.flr_fn : ((c.flr tr f).fn f).tdi = .unlocked ∧ ((c.flr tr f).fn f).flr = true ∧ ((c.flr tr f).fn f).enable = (c.fn f).enable := by
  have hdrop := c.hosts_dropFn tr f
  have hset := Core.fn_setFn_self hlen hform hf hdrop { (c.dropFn tr f).fn f with tdi := .unlocked, flr := true }
  obtain ⟨-, -, hfn, -⟩ := hdrop hform
  unfold Core.flr
  dsimp only
  rw [hset]
  have henable : ((c.dropFn tr f).fn f).enable = (c.fn f).enable := HostFn.enable_of_served (hfn f)
  exact ⟨rfl, rfl, henable⟩

theorem Core.flr_pairs (hsegs : c.segs = []) (q : Nat) : ((c.flr tr f).pair f q).st = .disabled ∧ ((c.flr tr f).pair f q).taken = 0 := by
  have hset := Core.fn_setFn_self hlen hform hf (c.hosts_dropFn tr f) { (c.dropFn tr f).fn f with tdi := .unlocked, flr := true }
  have hpair : (c.flr tr f).pair f q = ((c.dropFn tr f).fn f).pairs.get .reset q := by
    unfold Core.flr Core.pair
    dsimp only
    rw [hset]
  rw [hpair, Core.dropFn_of_no_segs tr hsegs, Core.emptied, Core.fn_setFn_self hlen hform hf (.refl c)]
  exact SMap.get_map_pairs _ q

omit hlen hf in
theorem Core.hostForm_flr : (c.flr tr f).hostForm := Core.hostForm_setFn _ _ (c.hosts_dropFn tr f hform).1

end Reset

/-- Delivery leaves a function but for its MSI-X table. -/
theorem State.after_served (s : State) {c : Core} (h : c.hostForm) (f : FnId) :
    ((s.after c).core.fn f) = { c.fn f with msix := ((s.after c).core.fn f).msix } :=
  State.deliver_fn (u := { s with core := c }) (st := s.core.stamp) h f

theorem State.after_fn_parts (s : State) {c : Core} (h : c.hostForm) (f : FnId) : ((s.after c).core.fn f).tdi = (c.fn f).tdi ∧
    ((s.after c).core.fn f).flr = (c.fn f).flr ∧ ((s.after c).core.fn f).enable = (c.fn f).enable ∧ ∀ q, (s.after c).core.pair f q = c.pair f q := by
  have hsame := State.after_served s h f
  refine ⟨by rw [hsame], by rw [hsame], by rw [hsame], fun q => ?_⟩
  unfold Core.pair
  rw [hsame]

/-! ## A VF is unserved -/

/-- From `c` to `d` a function out of service stays out, and a port keeps what it has beside its functions. -/
def Core.Falls (c d : Core) : Prop :=
  c.hostForm → d.hostForm ∧ d.ports.length = c.ports.length ∧ (∀ f, (c.fn f).enable = false → (d.fn f).enable = false) ∧
    ∀ p, (d.port p).bare = (c.port p).bare

namespace Core

variable {c d e : Core} {f : FnId} (tr : Trim)

theorem Hosts.falls (h : c.Hosts d) : c.Falls d := fun hc => by
  obtain ⟨hd, hl, hfn, hp⟩ := h hc
  exact ⟨hd, hl, fun f hf => (HostFn.enable_of_served (hfn f)).trans hf, hp⟩

theorem Falls.trans (h : c.Falls d) (g : d.Falls e) : c.Falls e := fun hc => by
  obtain ⟨hd, hl, hfn, hp⟩ := h hc
  obtain ⟨he, hl', hfn', hp'⟩ := g hd
  exact ⟨he, hl'.trans hl, fun f hf => hfn' f (hfn f hf), fun p => (hp' p).trans (hp p)⟩

theorem falls_setFn {x : HostFn} (hx : (c.fn f).enable = false → x.enable = false) : c.Falls (c.setFn f x) := fun hc => by
  refine ⟨hostForm_setFn f x hc, List.length_set, fun g hg => ?_, bare_setFn f x⟩
  by_cases hp : f.port < c.ports.length
  · rw [fn_setFn c f g x hp (port_rising hc hp)]
    split
    · next h => rw [h] at hg; exact hx hg
    · exact hg
  · rw [setFn_of_no_port hp]
    exact hg

theorem falls_tdiError (c : Core) (f : FnId) : c.Falls (c.tdiError tr f) := by
  unfold tdiError
  split
  · exact (Hosts.refl c).falls
  · have hset : (c.dropFn tr f).Falls ((c.dropFn tr f).setFn f { (c.dropFn tr f).fn f with tdi := .error }) := falls_setFn id
    exact ((c.hosts_dropFn tr f).falls.trans hset).trans (Hosts.of_ports rfl).falls

theorem slotsKept_tdiError (c : Core) (f : FnId) : c.SlotsKept (c.tdiError tr f) := by
  unfold tdiError
  split
  · exact .refl c
  · exact (c.slotsKept_dropFn tr f).trans (.of_slots rfl)

/-- The keys that a function going out of service holds. -/
def keysOf (c : Core) (f : FnId) : List Nat :=
  (c.keep.slots.filter (fun k => decide (k.1 < 4096) && k.2.fn = f && (k.2.st = .enabled || k.2.st = .active))).map (fun k => k.1)

/-- The disabling of the contexts that `f` owns. -/
def disown (c : Core) (f : FnId) : Core :=
  ((c.ctxs.filter (fun x => x.2.owner = f)).map (fun x => x.1)).foldl (fun (c : Core) x => c.disableCtx tr x) c

/-- A served VF, no longer enabled and in ERROR. -/
def unserved (c : Core) (f : FnId) : Core := (c.setFn f { c.fn f with enable := false }).tdiError tr f

theorem vfDisable_eq (h0 : f.fn ≠ 0) (hon : (c.fn f).enable = true) :
    c.vfDisable tr f = ((((c.unserved tr f).keysOf f).foldl retire (c.unserved tr f)).disown tr f) := by
  have hgo : ¬(f.fn = 0 ∨ (!(c.fn f).enable) = true) := by simp [h0, hon]
  unfold vfDisable
  rw [if_neg hgo]
  rfl

theorem hosts_disown (c : Core) (f : FnId) : c.Hosts (c.disown tr f) :=
  steady_hosts.foldl _ (fun d x => steady_hosts.disableCtx d tr x) _ _

theorem slotsKept_disown (c : Core) (f : FnId) : c.SlotsKept (c.disown tr f) :=
  steady_slotsKept.foldl _ (fun d x => steady_slotsKept.disableCtx d tr x) _ _

theorem hosts_retire (c : Core) (i : Nat) : c.Hosts (c.retire i) := by
  unfold retire retireNow
  dsimp only
  split
  · split
    · exact .refl c
    · exact .of_ports rfl
  · split
    · exact .of_ports rfl
    · exact .of_ports rfl
    · exact .refl c

theorem hosts_retires (ks : List Nat) (c : Core) : c.Hosts (ks.foldl retire c) := steady_hosts.foldl _ hosts_retire ks c

theorem hosts_vfDisable_rest (c : Core) (f : FnId) : c.Hosts (((c.keysOf f).foldl retire c).disown tr f) :=
  (hosts_retires _ c).trans (hosts_disown tr _ f)

theorem falls_unserved (c : Core) (f : FnId) : c.Falls (c.unserved tr f) := by
  have hset : c.Falls (c.setFn f { c.fn f with enable := false }) := falls_setFn (fun _ => rfl)
  exact hset.trans (falls_tdiError tr _ f)

theorem falls_vfDisable (c : Core) (f : FnId) : c.Falls (c.vfDisable tr f) := by
  by_cases hgo : f.fn ≠ 0 ∧ (c.fn f).enable = true
  · obtain ⟨h0, hon⟩ := hgo
    rw [vfDisable_eq tr h0 hon]
    exact (falls_unserved tr c f).trans (hosts_vfDisable_rest tr _ f).falls
  · have hstay : f.fn = 0 ∨ (!(c.fn f).enable) = true := by
      by_cases h0 : f.fn = 0
      · exact .inl h0
      · exact .inr (by simpa [h0] using hgo)
    unfold vfDisable
    rw [if_pos hstay]
    exact (Hosts.refl c).falls

section Served

variable (hform : c.hostForm) (hf : f.port < c.ports.length)

include hform hf

theorem fn_setFn_form (x : HostFn) : (c.setFn f x).fn f = x := by
  rw [fn_setFn c f f x hf (port_rising hform hf), if_pos rfl]

theorem tdiError_tdi : ((c.tdiError tr f).fn f).tdi = .error := by
  unfold tdiError
  split
  · next h => exact h
  · obtain ⟨hd, hl, -, -⟩ := c.hosts_dropFn tr f hform
    have hset := fn_setFn_form hd (by rw [hl]; exact hf) { (c.dropFn tr f).fn f with tdi := .error }
    show (((c.dropFn tr f).setFn f { (c.dropFn tr f).fn f with tdi := .error }).fn f).tdi = .error
    rw [hset]

theorem unserved_fn : ((c.unserved tr f).fn f).tdi = .error ∧ ((c.unserved tr f).fn f).enable = false := by
  have hset := fn_setFn_form hform hf { c.fn f with enable := false }
  have hlen : f.port < (c.setFn f { c.fn f with enable := false }).ports.length := by rw [setFn, setPort, List.length_set]; exact hf
  refine ⟨tdiError_tdi tr (hostForm_setFn f _ hform) hlen, ?_⟩
  obtain ⟨-, -, hoff, -⟩ := falls_tdiError tr _ f (hostForm_setFn f { c.fn f with enable := false } hform)
  exact hoff f (by rw [hset])

theorem vfDisable_fn (h0 : f.fn ≠ 0) (hon : (c.fn f).enable = true) :
    ((c.vfDisable tr f).fn f).tdi = .error ∧ ((c.vfDisable tr f).fn f).enable = false := by
  obtain ⟨htdi, hoff⟩ := unserved_fn tr hform hf
  obtain ⟨-, -, hfn, -⟩ := hosts_vfDisable_rest tr _ f ((falls_unserved tr c f) hform).1
  rw [vfDisable_eq tr h0 hon]
  exact ⟨(HostFn.tdi_of_served (hfn f)).trans htdi, (HostFn.enable_of_served (hfn f)).trans hoff⟩

theorem vfDisable_off (h0 : f.fn ≠ 0) : ((c.vfDisable tr f).fn f).enable = false := by
  by_cases hon : (c.fn f).enable = true
  · exact (vfDisable_fn tr hform hf h0 hon).2
  · obtain ⟨-, -, hoff, -⟩ := falls_vfDisable tr c f hform
    exact hoff f (Bool.eq_false_iff.2 hon)

end Served

/-! ### The keys of a function out of service -/

/-- The state a key slot retires to. -/
def retired : SlotSt → SlotSt
  | .enabled => .free
  | .active => .retiring
  | x => x

end Core

namespace Core

variable {c : Core} {f : FnId} (tr : Trim)

/-- No activation window of the Keep holds retirements back. -/
def retires (c : Core) : Prop := c.keep.slots.rising = true ∧ ¬(c.keep.fwState = 2 ∧ c.keep.fwKind = 1)

theorem slot_setSlot_rising (h : c.keep.slots.rising = true) (i k : Nat) (x : KeySlot) :
    (c.setSlot i x).slot k = if k = i then x else c.slot k := SMap.get_set _ _ _ _ _ h

theorem retire_slot (h : c.retires) (i : Nat) :
    (c.retire i).retires ∧ ∀ k, ((c.retire i).slot k).st = if k = i then retired (c.slot k).st else (c.slot k).st := by
  obtain ⟨hr, hw⟩ := h
  have hset (x : KeySlot) (hx : x.st = retired (c.slot i).st) : (c.setSlot i x).retires ∧
      ∀ k, ((c.setSlot i x).slot k).st = if k = i then retired (c.slot k).st else (c.slot k).st := by
    refine ⟨⟨SMap.rising_set _ _ hr, hw⟩, fun k => ?_⟩
    rw [slot_setSlot_rising hr]
    split
    · next hk => rw [hx, hk]
    · rfl
  unfold retire
  rw [if_neg hw]
  unfold retireNow
  dsimp only
  split
  · next hst => exact hset _ (by rw [hst]; rfl)
  · next hst => exact hset _ (by rw [hst]; rfl)
  · next hne hna =>
    refine ⟨⟨hr, hw⟩, fun k => ?_⟩
    split
    · next hk =>
      rw [hk]
      unfold retired
      split
      · next hst => exact absurd hst hne
      · next hst => exact absurd hst hna
      · rfl
    · rfl

theorem retired_retired (x : SlotSt) : retired (retired x) = retired x := by cases x <;> rfl

theorem retires_slot (ks : List Nat) : ∀ {c : Core}, c.retires →
    ∀ k, ((ks.foldl retire c).slot k).st = if k ∈ ks then retired (c.slot k).st else (c.slot k).st := by
  induction ks with
  | nil => intro c _ k; rw [if_neg List.not_mem_nil]; rfl
  | cons i ks ih =>
    intro c h k
    obtain ⟨hretires, hst⟩ := retire_slot h i
    rw [List.foldl_cons, ih hretires k, hst k]
    by_cases hi : k = i
    · rw [if_pos hi, if_pos (List.mem_cons.2 (.inl hi)), retired_retired, ite_self]
    · rw [if_neg hi]
      by_cases hk : k ∈ ks
      · rw [if_pos hk, if_pos (List.mem_cons_of_mem _ hk)]
      · rw [if_neg hk, if_neg (fun h => (List.mem_cons.1 h).elim hi hk)]

theorem slot_of_slots {d : Core} (h : d.keep.slots = c.keep.slots) (k : Nat) : d.slot k = c.slot k := by rw [slot, slot, h]

theorem retires_rising (ks : List Nat) : ∀ {c : Core}, c.retires → (ks.foldl retire c).keep.slots.rising = true := by
  induction ks with
  | nil => exact fun h => h.1
  | cons i ks ih => exact fun h => ih (retire_slot h i).1

theorem mem_keysOf {k : Nat} (hk : k < 4096) (hfn : (c.slot k).fn = f) (hst : (c.slot k).st = .enabled ∨ (c.slot k).st = .active) :
    k ∈ c.keysOf f := by
  have hne : c.slot k ≠ .reset := fun h => by
    rw [h] at hst
    exact hst.elim (fun h => nomatch h) (fun h => nomatch h)
  refine List.mem_map.2 ⟨(k, c.slot k), List.mem_filter.2 ⟨SMap.mem_of_get_ne hne, ?_⟩, rfl⟩
  simp [hk, hfn, hst]

theorem vfDisable_slot (h : c.retires) (h0 : f.fn ≠ 0) (hon : (c.fn f).enable = true) {k : Nat} (hk : k < 4096) (hfn : (c.slot k).fn = f)
    (hst : (c.slot k).st = .enabled ∨ (c.slot k).st = .active) : ((c.vfDisable tr f).slot k).st = retired (c.slot k).st := by
  obtain ⟨hr, hw⟩ := h
  have hkept : c.SlotsKept (c.unserved tr f) := (SlotsKept.of_slots rfl).trans (slotsKept_tdiError tr (c.setFn f { c.fn f with enable := false }) f)
  have hfw : Part.view .fws (c.unserved tr f) = Part.view .fws c :=
    ((c.setFn f { c.fn f with enable := false }).moves_tdiError tr f).frame .fws rfl
  obtain ⟨hrise, hsame⟩ := hkept hr
  have hret : (c.unserved tr f).retires := ⟨hrise, by
    rw [show (c.unserved tr f).keep.fwState = c.keep.fwState from congrArg (fun x => x.2.1) hfw,
      show (c.unserved tr f).keep.fwKind = c.keep.fwKind from congrArg (fun x => x.2.2.1) hfw]
    exact hw⟩
  have hmem : k ∈ (c.unserved tr f).keysOf f := mem_keysOf hk ((hsame k).2.trans hfn) (by rw [(hsame k).1]; exact hst)
  obtain ⟨-, hlast⟩ := slotsKept_disown tr _ f (retires_rising ((c.unserved tr f).keysOf f) hret)
  rw [vfDisable_eq tr h0 hon, (hlast k).1, retires_slot _ hret k, if_pos hmem, (hsame k).1]

end Core

/-! ## NumVFs and PERST# -/

namespace Core

variable {c : Core} (tr : Trim)

theorem bare_port_eq {x y : Port} (h : x.bare = y.bare) : x.numVfs = y.numVfs ∧ x.up = y.up ∧ x.secure = y.secure ∧ x.linkIde = y.linkIde :=
  ⟨(congrArg Port.numVfs h : x.bare.numVfs = y.bare.numVfs), (congrArg Port.up h : x.bare.up = y.bare.up),
    (congrArg Port.secure h : x.bare.secure = y.bare.secure), (congrArg Port.linkIde h : x.bare.linkIde = y.bare.linkIde)⟩

/-- The VFs of a port above `n` go out of service. -/
def vfsOff (c : Core) (port n : Nat) (ks : List Nat) : Core := ks.foldl (fun (c : Core) k => if k > n then c.vfDisable tr ⟨port, k⟩ else c) c

theorem falls_vfsOff (port n : Nat) (ks : List Nat) : ∀ c : Core, c.Falls (vfsOff tr c port n ks) := by
  induction ks with
  | nil => exact fun c => (Hosts.refl c).falls
  | cons k ks ih =>
    intro c
    have hstep : c.Falls (if k > n then c.vfDisable tr ⟨port, k⟩ else c) := by
      split
      · exact falls_vfDisable tr c _
      · exact (Hosts.refl c).falls
    exact hstep.trans (ih _)

theorem vfsOff_off {port n k : Nat} (hn : n < k) (ks : List Nat) : ∀ {c : Core}, c.hostForm → port < c.ports.length → k ∈ ks →
    ((vfsOff tr c port n ks).fn ⟨port, k⟩).enable = false := by
  induction ks with
  | nil => intro c _ _ hk; exact absurd hk List.not_mem_nil
  | cons i ks ih =>
    intro c hform hp hk
    obtain ⟨hform', hl, -, -⟩ := falls_vfsOff tr port n [i] c hform
    obtain rfl | hk := List.mem_cons.1 hk
    · have hoff : ((vfsOff tr c port n [k]).fn ⟨port, k⟩).enable = false := by
        show ((if k > n then c.vfDisable tr ⟨port, k⟩ else c).fn ⟨port, k⟩).enable = false
        rw [if_pos hn]
        exact vfDisable_off tr hform hp (by show k ≠ 0; omega)
      exact (falls_vfsOff tr port n ks _ hform').2.2.1 _ hoff
    · have hp' : port < (vfsOff tr c port n [i]).ports.length := by rw [hl]; exact hp
      exact ih hform' hp' hk

/-- The port with NumVFs set. -/
def numbered (c : Core) (port n : Nat) : Core := c.setPort port { c.port port with numVfs := n }

theorem vfChange_eq {port n : Nat} (hp : port < 2) (hn : n ≤ 63) : vfChange port n tr c = vfsOff tr (c.numbered port n) port n (List.range' 1 63) :=
  if_neg (by omega)

theorem hostForm_setPort {port : Nat} {x : Port} (h : c.hostForm) (hx : x.fns.rising = true) : (c.setPort port x).hostForm := fun p hp => by
  obtain hp | rfl := List.mem_or_eq_of_mem_set hp
  · exact h p hp
  · exact hx

theorem numbered_spec {port : Nat} (n : Nat) (h : c.hostForm) (hp : port < c.ports.length) :
    (c.numbered port n).hostForm ∧ (c.numbered port n).ports.length = c.ports.length ∧ ((c.numbered port n).port port).numVfs = n := by
  refine ⟨hostForm_setPort h (port_rising h hp), List.length_set, ?_⟩
  rw [numbered, port_setPort _ _ _ _ hp, if_pos rfl]

theorem vfChange_spec {port n : Nat} (hform : c.hostForm) (hlen : c.ports.length = 2) (hp : port < 2) (hn : n ≤ 63) :
    (vfChange port n tr c).hostForm ∧ (vfChange port n tr c).ports.length = 2 ∧ ((vfChange port n tr c).port port).numVfs = n ∧
      ∀ k, n < k → k ≤ 63 → ((vfChange port n tr c).fn ⟨port, k⟩).enable = false := by
  obtain ⟨hf, hl, hnum⟩ := numbered_spec (c := c) n hform (by rw [hlen]; exact hp)
  obtain ⟨hf', hl', -, hport⟩ := falls_vfsOff tr port n (List.range' 1 63) _ hf
  rw [vfChange_eq tr hp hn]
  refine ⟨hf', by rw [hl', hl, hlen], (bare_port_eq (hport port)).1.trans hnum, fun k hnk hk => ?_⟩
  exact vfsOff_off tr hnk _ hf (by rw [hl, hlen]; exact hp) (List.mem_range'_1.2 (by omega))

/-- From `c` to `d` functions change their stream at most. -/
def Rebound (c d : Core) : Prop :=
  c.hostForm → d.hostForm ∧ (∀ f, (d.fn f).tdi = (c.fn f).tdi ∧ (d.fn f).flr = (c.fn f).flr) ∧ ∀ p, (d.port p).bare = (c.port p).bare

theorem rebound_unbinds (fs : List FnId) : ∀ c : Core, c.Rebound (fs.foldl (fun (c : Core) f => c.setFn f { c.fn f with stream := none }) c) := by
  induction fs with
  | nil => exact fun c h => ⟨h, fun f => ⟨rfl, rfl⟩, fun p => rfl⟩
  | cons f fs ih =>
    intro c h
    obtain ⟨hd, hfn, hp⟩ := ih (c.setFn f { c.fn f with stream := none }) (hostForm_setFn f _ h)
    refine ⟨hd, fun g => ?_, fun p => (hp p).trans (bare_setFn f _ p)⟩
    have hone : ((c.setFn f { c.fn f with stream := none }).fn g).tdi = (c.fn g).tdi ∧
        ((c.setFn f { c.fn f with stream := none }).fn g).flr = (c.fn g).flr := by
      by_cases hlen : f.port < c.ports.length
      · rw [fn_setFn c f g _ hlen (port_rising h hlen)]
        split
        · next hg => rw [hg]; exact ⟨rfl, rfl⟩
        · exact ⟨rfl, rfl⟩
      · rw [setFn_of_no_port hlen]
        exact ⟨rfl, rfl⟩
    exact ⟨(hfn g).1.trans hone.1, (hfn g).2.trans hone.2⟩

theorem perst_spec {port : Nat} (hform : c.hostForm) (hlen : c.ports.length = 2) (hp : port < 2) :
    (perst port tr c).hostForm ∧ ((perst port tr c).port port).up = false ∧ ((perst port tr c).port port).secure = [] ∧
      ((perst port tr c).port port).linkIde = false ∧ ((perst port tr c).port port).numVfs = 0 ∧
      ((perst port tr c).fn ⟨port, 0⟩).tdi = .unlocked ∧ ((perst port tr c).fn ⟨port, 0⟩).flr = true := by
  obtain ⟨hf1, hl1, hn1, -⟩ := vfChange_spec tr hform hlen hp (Nat.zero_le 63)
  generalize hc1 : vfChange port 0 tr c = c1 at hf1 hl1 hn1
  have hf2 : (c1.flr tr ⟨port, 0⟩).hostForm := hostForm_flr tr hf1
  obtain ⟨htdi, hflr, -⟩ := flr_fn tr hl1 hf1 (f := ⟨port, 0⟩) hp
  have hdrop := c1.hosts_dropFn tr ⟨port, 0⟩ hf1
  have hbare : ((c1.flr tr ⟨port, 0⟩).port port).bare = (c1.port port).bare :=
    (bare_setFn ⟨port, 0⟩ _ port).trans (hdrop.2.2.2 port)
  have hl2 : port < (c1.flr tr ⟨port, 0⟩).ports.length := by
    rw [show (c1.flr tr ⟨port, 0⟩).ports.length = (c1.dropFn tr ⟨port, 0⟩).ports.length from List.length_set, hdrop.2.1, hl1]
    exact hp
  generalize hc2 : c1.flr tr ⟨port, 0⟩ = c2 at *
  let x : Port := { c2.port port with up := false, rate := 0, width := 0, secure := [], linkIde := false }
  have hperst : perst port tr c = (c2.setPort port x).unbind port (fun x => x.stream.isSome) := by
    unfold perst
    rw [if_neg (by omega), hc1, hc2]
  have hx : (c2.setPort port x).port port = x := by rw [port_setPort _ _ _ _ hl2, if_pos rfl]
  have hfn : (c2.setPort port x).fn ⟨port, 0⟩ = c2.fn ⟨port, 0⟩ := by
    rw [fn, hx]
    rfl
  obtain ⟨hd, hsame, hport⟩ := rebound_unbinds (((c2.setPort port x).fnsOf port (fun x => x.stream.isSome))) _
    (hostForm_setPort hf2 (port_rising hf2 hl2) : (c2.setPort port x).hostForm)
  obtain ⟨e1, e2, e3, e4⟩ := bare_port_eq (hport port)
  rw [hx] at e1 e2 e3 e4
  obtain ⟨s1, s2⟩ := hsame ⟨port, 0⟩
  rw [hfn] at s1 s2
  rw [hperst]
  exact ⟨hd, e2, e3, e4, e1.trans ((bare_port_eq hbare).1.trans hn1), s1.trans htdi, s2.trans hflr⟩

end Core

/-! ## The commands -/

namespace Core

variable (c : Core) (f : FnId)

/-- The die as FLR_COMPLETE leaves it, before the reset is noted. -/
def served (c : Core) (f : FnId) : Core :=
  ((c.setFn f { c.fn f with flr := false }).bump (hstBase f.port + 0xB0) 1).raise (sysEvent 0x0608 0 0 0 f.port)

theorem flrDone_eq (h : (c.fn f).flr = true) : flrDone f c = (c.served f).noteReset 4 0 :=
  if_neg (by simp [h])

theorem served_outbox : ∃ pre, (c.served f).outbox = c.outbox ++ pre ++ [⟨0x0608, 0xFFFF, 0, 0, 0, 0xFFFF, f.port⟩] := by
  obtain ⟨pre, hpre⟩ := ((c.setFn f { c.fn f with flr := false }).moves_bump (hstBase f.port + 0xB0) 1).more
  refine ⟨pre, ?_⟩
  rw [served, raise, hpre, sysEvent_of_lt _ _ (by decide) (by decide)]
  rfl

theorem served_ports : (c.served f).ports = (c.setFn f { c.fn f with flr := false }).ports := by
  rw [served, raise_ports, bump_ports]

theorem served_resets : (c.served f).keep.resets = c.keep.resets := by
  rw [served, raise_keep, bump_keep]
  rfl

end Core

/-- A function-level reset, as its command leaves the module. -/
theorem exec_flr (s : State) {f : FnId} (hlen : s.core.ports.length = 2) (hform : s.core.hostForm) (hf : f.port < 2) :
    ∃ t, exec (.functionLevelReset f) s = .next t ∧ (t.core.fn f).tdi = .unlocked ∧ (t.core.fn f).flr = true ∧
      (t.core.fn f).enable = (s.core.fn f).enable ∧
      (s.core.segs = [] → ∀ q, (t.core.pair f q).st = .disabled ∧ (t.core.pair f q).taken = 0) := by
  refine ⟨s.after (s.core.flr s.trim f), rfl, ?_⟩
  obtain ⟨htdi, hflr, hen, hpair⟩ := State.after_fn_parts s (Core.hostForm_flr s.trim hform) f
  obtain ⟨h1, h2, h3⟩ := Core.flr_fn s.trim hlen hform hf
  refine ⟨htdi.trans h1, hflr.trans h2, hen.trans h3, fun hsegs q => ?_⟩
  rw [hpair q]
  exact Core.flr_pairs s.trim hlen hform hf hsegs q

theorem exec_flrComplete (s : State) {f : FnId} (hlen : s.core.ports.length = 2) (hform : s.core.hostForm) (hf : f.port < 2)
    (h : (s.core.fn f).flr = true) :
    ∃ (t : State) (pre : List Event), exec (.flrComplete f) s = .next t ∧ (t.core.fn f).flr = false ∧
      t.core.keep.resets = { s.core.keep.resets with flr := min (2 ^ 32 - 1) (s.core.keep.resets.flr + 1) } ∧
      t.evr = (s.evr.takeAll s.core.stamp (s.core.outbox ++ pre ++ [⟨0x0608, 0xFFFF, 0, 0, 0, 0xFFFF, f.port⟩])).1 := by
  obtain ⟨pre, hout⟩ := s.core.served_outbox f
  have hports := s.core.served_ports f
  have hformed : ((s.core.served f).noteReset 4 0).hostForm := by
    have hset := Core.hostForm_setFn f { s.core.fn f with flr := false } hform
    show ∀ p ∈ (s.core.served f).ports, _
    rw [hports]
    exact hset
  refine ⟨s.after ((s.core.served f).noteReset 4 0), pre, ?_, ?_, ?_, ?_⟩
  · show Host.Outcome.next (s.after (Core.flrDone f s.core)) = _
    rw [Core.flrDone_eq _ _ h]
  · rw [(State.after_fn_parts s hformed f).2.1, Core.fn_of_ports (c := s.core.setFn f { s.core.fn f with flr := false }) (d := (s.core.served f).noteReset 4 0) hports,
      Core.fn_setFn_form hform (by rw [hlen]; exact hf)]
  · rw [State.after_keep]
    show { (s.core.served f).keep.resets with flr := incSat 32 (s.core.served f).keep.resets.flr } = _
    rw [s.core.served_resets f]
    rfl
  · rw [State.after_evr]
    exact congrArg (fun o => (s.evr.takeAll s.core.stamp o).1) hout

theorem exec_hstVfEnableSet (s : State) {port : Nat} (hp : port < 2) (hoff : (s.core.fn (s.core.selFn port)).enable = false) :
    let c := s.core
    let f := c.selFn port
    let refused (code : Nat) : State := s.after (c.setReg (hstBase f.port + 8) (code + f.fn * 2 ^ 16))
    ((f.fn = 0 ∨ (c.port port).numVfs < f.fn) → exec (.hstVfEnableSet s.trim.admin port) s = .next (refused 0x0602)) ∧
    (f.fn ≠ 0 → f.fn ≤ (c.port port).numVfs → 2048 < c.vectorsOf port + (c.fn f).vectors →
      exec (.hstVfEnableSet s.trim.admin port) s = .next (refused 0x0603)) ∧
    (f.fn ≠ 0 → f.fn ≤ (c.port port).numVfs → c.vectorsOf port + (c.fn f).vectors ≤ 2048 →
      exec (.hstVfEnableSet s.trim.admin port) s = .next (s.after (c.setFn f { c.fn f with enable := true }))) := by
  intro c f refused
  have hexec : exec (.hstVfEnableSet s.trim.admin port) s = .next (s.after (Core.vfEnable port c)) := adminAct_admin s _
  have hgo : ¬((c.fn f).enable = true ∨ port ≥ 2) := by
    rw [show (c.fn f).enable = false from hoff]
    simp; omega
  have hpart : Core.vfEnable port c = if f.fn = 0 ∨ (c.port port).numVfs < f.fn then c.vfRefuse f 0x0602
      else if c.vectorsOf port + (c.fn f).vectors > 2048 then c.vfRefuse f 0x0603
      else c.setFn f { c.fn f with enable := true } := if_neg hgo
  rw [hexec, hpart]
  refine ⟨fun h => ?_, fun h0 hn hv => ?_, fun h0 hn hv => ?_⟩
  · rw [if_pos h]
    rfl
  · rw [if_neg (by omega), if_pos hv]
    rfl
  · rw [if_neg (by omega), if_neg (by omega)]

theorem exec_hstVfEnableClear (s : State) {port : Nat} (hlen : s.core.ports.length = 2) (hform : s.core.hostForm)
    (hp : (s.core.selFn port).port < 2) (h0 : (s.core.selFn port).fn ≠ 0) (hon : (s.core.fn (s.core.selFn port)).enable = true) :
    let c := s.core
    ∃ t, exec (.hstVfEnableClear s.trim.admin port) s = .next t ∧ (t.core.fn (c.selFn port)).enable = false ∧
      (t.core.fn (c.selFn port)).tdi = .error ∧
      (c.keep.slots.rising = true → ¬(c.keep.fwState = 2 ∧ c.keep.fwKind = 1) → ∀ k, k < 4096 → (c.slot k).fn = c.selFn port →
        ((c.slot k).st = .active → (t.core.slot k).st = .retiring) ∧ ((c.slot k).st = .enabled → (t.core.slot k).st = .free)) := by
  intro c
  have hlt : (c.selFn port).port < c.ports.length := by rw [hlen]; exact hp
  obtain ⟨htdi, hoff⟩ := Core.vfDisable_fn s.trim hform hlt h0 hon
  obtain ⟨etdi, -, een, -⟩ := State.after_fn_parts s ((Core.falls_vfDisable s.trim c (c.selFn port)) hform).1 (c.selFn port)
  have hexec : exec (.hstVfEnableClear s.trim.admin port) s = .next (s.after (c.vfDisable s.trim (c.selFn port))) :=
    congrArg (fun d => Host.Outcome.next (s.after d)) (if_pos rfl)
  refine ⟨s.after (c.vfDisable s.trim (c.selFn port)), hexec, een.trans hoff, etdi.trans htdi, fun hr hw k hk hfn => ?_⟩
  have hslot (hst : (c.slot k).st = .enabled ∨ (c.slot k).st = .active) := Core.vfDisable_slot s.trim ⟨hr, hw⟩ h0 hon hk hfn hst
  rw [State.after_slot]
  refine ⟨fun h => ?_, fun h => ?_⟩
  · rw [hslot (.inr h), h]
    rfl
  · rw [hslot (.inl h), h]
    rfl

theorem exec_vfEnableChange (s : State) {port n : Nat} (hlen : s.core.ports.length = 2) (hform : s.core.hostForm) (hp : port < 2)
    (hn : n ≤ 63) : ∃ t, exec (.vfEnableChange port n) s = .next t ∧ (t.core.port port).numVfs = n ∧
      ∀ k, n < k → k ≤ 63 → (t.core.fn ⟨port, k⟩).enable = false := by
  obtain ⟨hf, -, hnum, hoff⟩ := Core.vfChange_spec s.trim hform hlen hp hn
  obtain ⟨-, -, -, hport⟩ := s.hosts_after (Core.vfChange port n s.trim s.core) hf
  refine ⟨s.after (Core.vfChange port n s.trim s.core), rfl, (Core.bare_port_eq (hport port)).1.trans hnum, fun k hk hle => ?_⟩
  rw [(State.after_fn_parts s hf ⟨port, k⟩).2.2.1]
  exact hoff k hk hle

theorem exec_perst (s : State) {port : Nat} (hlen : s.core.ports.length = 2) (hform : s.core.hostForm) (hp : port < 2) :
    ∃ t, exec (.perst port) s = .next t ∧ (t.core.port port).up = false ∧ (t.core.port port).secure = [] ∧
      (t.core.port port).linkIde = false ∧ (t.core.port port).numVfs = 0 ∧ (t.core.fn ⟨port, 0⟩).tdi = .unlocked ∧
      (t.core.fn ⟨port, 0⟩).flr = true := by
  obtain ⟨hf, hup, hsec, hide, hnum, htdi, hflr⟩ := Core.perst_spec s.trim hform hlen hp
  obtain ⟨-, -, -, hport⟩ := s.hosts_after (Core.perst port s.trim s.core) hf
  obtain ⟨enum, eup, esec, eide⟩ := Core.bare_port_eq (hport port)
  obtain ⟨etdi, eflr, -, -⟩ := State.after_fn_parts s hf ⟨port, 0⟩
  exact ⟨s.after (Core.perst port s.trim s.core), rfl, eup.trans hup, esec.trans hsec, eide.trans hide, enum.trans hnum,
    etdi.trans htdi, eflr.trans hflr⟩

/-- Settles O48: what a reset or a VF going out of service does beyond the function itself leaves the host side but for queue pairs
and MSI-X tables, and the key slots but for nonces. -/
theorem functionsResetAndServed : Obligations.FunctionsResetAndServed := by
  unfold Obligations.FunctionsResetAndServed
  intro s c hlen hform
  refine ⟨fun f hf => ⟨exec_flr s hlen hform hf, exec_flrComplete s hlen hform hf, fun h => ?_⟩, fun port rate width hp h1 h5 hw1 hw16 => ?_,
    fun port hp hoff => exec_hstVfEnableSet s hp hoff, fun port hp h0 hon => exec_hstVfEnableClear s hlen hform hp h0 hon,
    fun port n hp hn => exec_vfEnableChange s hlen hform hp hn, fun port hp => exec_perst s hlen hform hp⟩
  · exact congrArg (fun d => Host.Outcome.next (s.after d)) (if_pos (by simp [show (s.core.fn f).flr = false from h]))
  · intro c'
    have hin : ¬((!(within 1 5 rate && within 1 16 width && decide (port < 2))) = true) := by
      simp [within]; omega
    show Host.Outcome.next (s.after (Core.pcieTrained port rate width c)) = _
    unfold Core.pcieTrained
    rw [if_neg hin, sysEvent_of_lt _ _ (by omega) (by omega)]
    by_cases hfull : rate = 5 ∧ width = 16
    · rw [if_pos hfull, if_neg (by omega)]
    · rw [if_neg hfull, if_pos (by omega)]

end Sys2Proof.Machine

/-! # Segments that no parked request stands for

What goes on without a segment: while no request is parked under its id, the Gatehouse's waking of others leaves it as it is, but for the
beat at which a closing step settles. -/

namespace Sys2Proof.Machine

set_option Elab.async false

/-- A segment but for the beat of its settlement. -/
def Seg.undue (s : Seg) : Seg := { s with due := 0 }

/-- The segments under an id. -/
def Core.segsOf (c : Core) (i : Nat) : List Seg := (c.segs.filter (fun y => decide (y.id = i))).map Seg.undue

/-- No request is parked under id `i`. -/
def Core.unparked (i : Nat) (c : Core) : Prop := ∀ y ∈ c.segs, y.id = i → y.st ≠ .parked

/-- From `c` to `d` the segments under an id that none is parked under stay. -/
def Core.KeepsId (i : Nat) (c d : Core) : Prop := c.unparked i → d.segsOf i = c.segsOf i

namespace Core

variable {c d e : Core} {i : Nat}

theorem of_segsOf_eq (h : d.segsOf i = c.segsOf i) {y : Seg} (hy : y ∈ d.segs) (hi : y.id = i) : ∃ z ∈ c.segs, z.id = i ∧ z.undue = y.undue := by
  have hmem : y.undue ∈ c.segsOf i := by
    rw [← h]
    exact List.mem_map_of_mem (List.mem_filter.2 ⟨hy, by simpa using hi⟩)
  obtain ⟨z, hz, heq⟩ := List.mem_map.1 hmem
  exact ⟨z, (List.mem_filter.1 hz).1, by simpa using (List.mem_filter.1 hz).2, heq⟩

theorem st_of_undue {y z : Seg} (h : z.undue = y.undue) : z.st = y.st := (congrArg Seg.st h : z.undue.st = y.undue.st)

theorem unparked_of_eq (h : d.segsOf i = c.segsOf i) (hc : c.unparked i) : d.unparked i := fun y hy hi => by
  obtain ⟨z, hz, hzi, heq⟩ := of_segsOf_eq h hy hi
  rw [← st_of_undue heq]
  exact hc z hz hzi

namespace KeepsId

theorem of_segs (h : d.segs = c.segs) : c.KeepsId i d := fun _ => by rw [segsOf, segsOf, h]

theorem refl (c : Core) : c.KeepsId i c := fun _ => rfl

theorem trans (h : c.KeepsId i d) (g : d.KeepsId i e) : c.KeepsId i e := fun hc => (g (unparked_of_eq (h hc) hc)).trans (h hc)

theorem of_moves {v : List Part} (h : c.Moves v d) (hv : v.contains .segs = false) : c.KeepsId i d := of_segs (h.frame .segs hv)

theorem ite {p : Prop} [Decidable p] (h1 : c.KeepsId i d) (h2 : c.KeepsId i e) : c.KeepsId i (if p then d else e) := by
  split
  · exact h1
  · exact h2

theorem foldl {α : Type} (f : Core → α → Core) (hf : ∀ (d : Core) (x : α), d.KeepsId i (f d x)) (xs : List α) (c : Core) : c.KeepsId i (xs.foldl f c) := by
  induction xs generalizing c with
  | nil => exact refl c
  | cons x xs ih => exact (hf c x).trans (ih _)

/-- A change of segments one by one that leaves those under `i`. -/
theorem of_map (f : Seg → Seg) (hid : ∀ y, (f y).id = i ↔ y.id = i) (hf : ∀ y ∈ c.segs, y.id = i → (f y).undue = y.undue)
    (h : d.segs = c.segs.map f) : c.KeepsId i d := fun _ => by
  rw [segsOf, segsOf, h]
  generalize c.segs = xs at hf
  induction xs with
  | nil => rfl
  | cons y ys ih =>
    have hys := ih (fun z hz => hf z (List.mem_cons_of_mem _ hz))
    rw [List.map_cons]
    by_cases hy : y.id = i
    · rw [List.filter_cons_of_pos (by simpa [hid y] using hy), List.filter_cons_of_pos (by simpa using hy), List.map_cons, List.map_cons, hys,
        hf y List.mem_cons_self hy]
    · rw [List.filter_cons_of_neg (by simpa [hid y] using hy), List.filter_cons_of_neg (by simpa using hy), hys]

theorem setSeg {s : Seg} (hs : s.id ≠ i) (c : Core) : c.KeepsId i (c.setSeg s) := by
  refine of_map (fun x => if x.id = s.id then s else x) (fun y => ?_) (fun y _ hy => ?_) rfl
  · split
    · next h => exact ⟨fun g => absurd g hs, fun g => absurd (h.symm.trans g) hs⟩
    · rfl
  · rw [if_neg (fun h => hs (h.symm.trans hy))]

theorem dropSeg {j : Nat} (hj : j ≠ i) (c : Core) : c.KeepsId i (c.dropSeg j) := fun _ => by
  unfold segsOf Core.dropSeg
  rw [List.filter_filter]
  refine congrArg _ (List.filter_congr fun y _ => ?_)
  by_cases hy : y.id = i
  · simp [hy, Ne.symm hj]
  · simp [hy]

theorem dueSettle (c : Core) : c.KeepsId i c.dueSettle := by
  obtain ⟨f, hf, hdue⟩ : ∃ f : Seg → Seg, c.dueSettle.segs = c.segs.map f ∧ ∀ y, (f y).id = y.id ∧ (f y).undue = y.undue := by
    refine ⟨_, rfl, fun y => ?_⟩
    split
    · exact ⟨rfl, rfl⟩
    · exact ⟨rfl, rfl⟩
  exact of_map f (fun y => by rw [(hdue y).1]) (fun y _ _ => (hdue y).2) hf

theorem leaveSteps (c : Core) (s : Seg) : c.KeepsId i (c.leaveSteps s) :=
  (foldl _ (fun d x => of_moves (d.moves_updCtx x _) rfl) _ c).trans (dueSettle _)

end KeepsId

/-! ## The end of a segment -/

/-- The die once the pins, the pool units, the claim and the save of a segment that ends are given up. -/
def closed (c : Core) (s : Seg) : Core :=
  (((s.pinned.foldl (fun (c : Core) i => c.updDesc i (fun d => { d with pins := d.pins - 1 })) c).releaseUnits (.image s.id)).dropClaim s).dropSave s

theorem moves_closed (c : Core) (s : Seg) : c.Moves [.dir, .pool, .runs] (c.closed s) :=
  (((Moves.foldl (fun (d : Core) i => d.updDesc i (fun x => { x with pins := x.pins - 1 })) (fun d i => (d.moves_updDesc i _).mono) s.pinned).then
    (moves_releaseUnits _ (.image s.id))).then (moves_dropClaim _ s)).then (moves_dropSave _ s)

/-- The completion that the end of a segment posts. -/
def lastPost (tr : Trim) (s : Seg) (status arg : Nat) : Post :=
  ⟨s.req, status, s.committed % 2 ^ 16 + s.heldCount % 2 ^ 16 * 2 ^ 16 + arg % 2 ^ 16 * 2 ^ 32, segRecord tr s⟩

theorem finishSeg_eq (tr : Trim) (c : Core) (s : Seg) (status arg : Nat) :
    c.finishSeg tr s status arg = ((c.closed s).post (lastPost tr s status arg)).dropSeg s.id := rfl

theorem finishSeg_dma (tr : Trim) (c : Core) (s : Seg) (status arg : Nat) :
    ((c.closed s).post (lastPost tr s status arg)).out.dma <+: (c.finishSeg tr s status arg).out.dma := List.prefix_rfl

theorem segs_finishSeg (tr : Trim) (c : Core) (s : Seg) (status arg : Nat) :
    (c.finishSeg tr s status arg).segs = c.segs.filter (fun y => y.id != s.id) := by
  rw [finishSeg_eq, dropSeg]
  show ((c.closed s).post (lastPost tr s status arg)).segs.filter _ = _
  rw [show ((c.closed s).post (lastPost tr s status arg)).segs = (c.closed s).segs from (moves_post _ _).frame .segs rfl,
    show (c.closed s).segs = c.segs from (c.moves_closed s).frame .segs rfl]

theorem segs_cancelSeg (tr : Trim) (c : Core) (s : Seg) (status arg : Nat) :
    (c.cancelSeg tr s status arg).segs = c.segs.filter (fun y => y.id != s.id) := segs_finishSeg tr c _ status arg

theorem segs_refuseSeg (tr : Trim) (c : Core) (s : Seg) (status arg : Nat) :
    (c.refuseSeg tr s status arg).segs = c.segs.filter (fun y => y.id != s.id) := by
  rw [refuseSeg, segs_cancelSeg, show (c.bump (hstBase s.req.f.port + 0xA8) 1).segs = c.segs from (c.moves_bump _ _).frame .segs rfl]

theorem segsOf_of_filter (h : d.segs = c.segs.filter (fun y => y.id != i)) : d.segsOf i = [] := by
  rw [segsOf, h, List.filter_filter]
  simp

theorem not_mem_of_segsOf (h : d.segsOf i = []) : ∀ y ∈ d.segs, y.id ≠ i := fun y hy hi => by
  have hmem : y.undue ∈ d.segsOf i := List.mem_map_of_mem (List.mem_filter.2 ⟨hy, by simpa using hi⟩)
  rw [h] at hmem
  exact nomatch hmem

theorem KeepsId.gone (h : c.KeepsId i d) (hc : c.segsOf i = []) : d.segsOf i = [] :=
  (h (fun y hy hi => absurd hi (not_mem_of_segsOf hc y hy))).trans hc

namespace KeepsId

variable (tr : Trim)

theorem finishSeg {s : Seg} (hs : s.id ≠ i) (c : Core) (a b : Nat) : c.KeepsId i (c.finishSeg tr s a b) :=
  ((of_moves (c.moves_closed s) rfl).trans (of_moves (moves_post _ _) rfl)).trans (dropSeg hs _)

theorem cancelSeg {s : Seg} (hs : s.id ≠ i) (c : Core) (a b : Nat) : c.KeepsId i (c.cancelSeg tr s a b) := by
  unfold Core.cancelSeg
  exact finishSeg tr (by exact hs) c a b

theorem refuseSeg {s : Seg} (hs : s.id ≠ i) (c : Core) (a b : Nat) : c.KeepsId i (c.refuseSeg tr s a b) :=
  (of_moves (c.moves_bump _ 1) rfl).trans (cancelSeg tr hs _ a b)

theorem fetchFail (c : Core) (j code : Nat) : c.KeepsId i (c.fetchFail tr j code) := by
  intro hc
  refine KeepsId.trans (d := c) (refl c) ?_ hc
  cases hf : (c.desc j).fetch with
  | none =>
    unfold Core.fetchFail
    dsimp only
    rw [hf]
    exact refl c
  | some f =>
    obtain ⟨c1, hmove, -, -, heq⟩ := c.fetchFail_eq tr j code hf
    have hne : ∀ s ∈ c.parkedOn j, s.id ≠ i := fun s hs hi => by
      obtain ⟨hmem, hst⟩ := List.mem_filter.1 hs
      exact hc s hmem hi (by simp at hst; exact hst.1.1)
    have hcancels (xs : List Seg) (hxs : ∀ s ∈ xs, s.id ≠ i) : ∀ d : Core, d.KeepsId i (xs.foldl (fun c s => c.cancelSeg tr s code 0) d) := by
      induction xs with
      | nil => exact refl
      | cons s xs ih => exact fun d => (cancelSeg tr (hxs s List.mem_cons_self) d _ _).trans (ih (fun z hz => hxs z (List.mem_cons_of_mem _ hz)) _)
    rw [heq]
    exact ((of_moves hmove rfl).trans (of_moves (moves_completeFetch _ _ _ _) rfl)).trans (hcancels _ hne _)

theorem startFetch (c : Core) (j : Nat) (training keepLocal : Bool) (req : Option Req) : c.KeepsId i (c.startFetch tr j training keepLocal req) := by
  have hclaim (v : Desc) : c.KeepsId i (c.setDesc j v) := of_moves (c.moves_setDesc j v) rfl
  have hsent (d : Core) (ps : List (Nat × Nat)) (label : Nat) (req : Nat × Nat → ReqF) : d.KeepsId i (ps.foldl
      (fun (r : Core × Nat) p => if r.2 ≠ 0 then r else r.1.originate tr label (req p) (.fetch j)) (d, 0)).1 :=
    of_moves (v := [.slots, .xfers, .links, .ctr]) (.foldl_fst (r := (d, 0))
      (fun (r : Core × Nat) p => if r.2 ≠ 0 then r else r.1.originate tr label (req p) (.fetch j)) (fun r p => .ite_fst (.refl r.1) (r.1.moves_originate tr label (req p) (.fetch j))) ps) rfl
  unfold Core.startFetch
  exact ite ((hclaim _).trans (fetchFail tr _ _ _)) (ite (ite (((hclaim _).trans (hsent _ _ _ _)).trans (fetchFail tr _ _ _))
    ((hclaim _).trans (hsent _ _ _ _))) (hclaim _))

theorem seg?_ne {s : Seg} {j : Nat} (h : c.seg? j = some s) (hp : s.st = .parked) (hc : c.unparked i) : s.id ≠ i :=
  fun hi => hc s (List.mem_of_find?_eq_some h) hi hp

theorem kick (c : Core) : c.KeepsId i (c.kick tr) := by
  refine ite (refl c) (foldl _ (fun d s => ?_) _ _)
  split
  · exact ite (foldl _ (fun d j => ite (startFetch tr d _ _ _ _) (refl d)) _ _) (refl d)
  · exact refl d

theorem pinParked (c : Core) : c.KeepsId i c.pinParked := by
  intro hc
  have hpins (xs : List Seg) : (∀ s ∈ xs, s.id ≠ i) → ∀ d : Core, d.KeepsId i (xs.foldl (fun (c : Core) s0 => match c.seg? s0.id with
      | some s => (c.setSeg { s with pinned := s.pinned ++ c.toPin s }).pinAll (c.toPin s)
      | none => c) d) := by
    induction xs with
    | nil => exact fun _ => refl
    | cons s xs ih =>
      refine fun hxs d => trans ?_ (ih (fun z hz => hxs z (List.mem_cons_of_mem _ hz)) _)
      dsimp only
      split
      · next y hy =>
        have hid : y.id ≠ i := by
          rw [show y.id = s.id by simpa using List.find?_some hy]
          exact hxs s List.mem_cons_self
        exact (setSeg (s := { y with pinned := y.pinned ++ d.toPin y }) hid d).trans (of_moves (moves_pinAll _ _) rfl)
      · exact refl d
  refine hpins _ (fun s hs hi => ?_) c hc
  obtain ⟨hmem, hst⟩ := List.mem_filter.1 hs
  exact hc s hmem hi (by simpa using hst)

theorem grant (c : Core) : c.KeepsId i c.grant := by
  intro hc
  refine of_map (d := c.grant) (fun s => if s.st = .parked ∧ c.ready s ∧ s.overAt.getD c.clk.total = c.clk.total then { s with granted := true } else s)
    (fun y => ?_) (fun y hy hi => ?_) rfl hc
  · split <;> rfl
  · rw [if_neg (fun h => hc y hy hi h.1)]

theorem placeImage {s : Seg} (hs : s.id ≠ i) (c : Core) : c.KeepsId i (Core.placeImage tr c s) := by
  unfold Core.placeImage
  split
  · exact ite (((of_moves (c.moves_claimResupport s) rfl).trans (setSeg (by exact hs) _)).trans (of_moves (moves_allocUnits _ _ _) rfl))
      ((of_moves (c.moves_claimResupport s) rfl).trans (setSeg (by exact hs) _))
  · exact refuseSeg tr hs c _ _

theorem unpark (c : Core) : c.KeepsId i (c.unpark tr) := by
  refine ite (refl c) ((grant c).trans (foldl _ (fun d s => ?_) _ _))
  split
  · next y hy =>
    intro hd
    by_cases hp : y.st = .parked
    · exact ite (placeImage tr (seg?_ne hy hp hd) d) (refl d) hd
    · rw [if_neg (fun h => hp h.1)]
  · exact refl d

theorem wake (c : Core) : c.KeepsId i (c.wake tr) := ((kick tr c).trans (pinParked _)).trans (unpark tr _)

end KeepsId

end Core

/-- The end of a segment completes its command, whatever goes before without the host side. -/
theorem State.completes_of_finishSeg {s : State} {c d : Core} {y : Seg} {w : List Part} {status arg : Nat} (h : s.core.Moves w c)
    (hports : w.contains .ports = false) (hcores : w.contains .cores = false) (hfws : w.contains .fws = false)
    (ha : s.core.answers y.req) (hd : (c.finishSeg s.trim y status arg).out.dma <+: d.out.dma) : s.completes (s.after d) y.req status := by
  have hall : s.core.Moves (.dir :: .pool :: .runs :: w) (c.closed y) :=
    (h.mono (by simp +contextual [List.all_eq_true])).then (Core.moves_closed c y) rfl
  exact State.completes_of_moves (x := Core.lastPost s.trim y status arg) hall hports hcores hfws ha hd

theorem State.completes_of_cancelSeg {s : State} {c d : Core} {y : Seg} {w : List Part} {status arg : Nat} (h : s.core.Moves w c)
    (hports : w.contains .ports = false) (hcores : w.contains .cores = false) (hfws : w.contains .fws = false)
    (ha : s.core.answers y.req) (hd : (c.cancelSeg s.trim y status arg).out.dma <+: d.out.dma) : s.completes (s.after d) y.req status := by
  unfold Core.cancelSeg at hd
  exact State.completes_of_finishSeg (y := { y with
    elapsed := 0, stall := 0, wait := 0, slip := 0, energy := 0, committed := 0, heldCount := 0, endTime := c.clk.time, endCp := c.cp })
    h hports hcores hfws (by exact ha) hd

end Sys2Proof.Machine

/-! # Release programs (O24) -/

namespace Sys2Proof.Machine

set_option Elab.async false

namespace Core

variable {c : Core} {x op : Nat} {v : Ctx} {r : ProgRun}

theorem progOp_of_standsAt (f : Core → Ctx → ProgRun → Nat → Core) (h : c.standsAt x op v r) :
    c.progOp x op f = f c v r (v.prog.getD r.idx 0) := by
  obtain ⟨hctx, hrun, hen, hwait, hop⟩ := h
  unfold progOp
  simp only [hctx, hrun]
  exact if_neg (by rw [hen, hwait, hop]; simp)

theorem updCtx_of_ctx (h : c.ctx? x = some v) (f : Ctx → Ctx) : c.updCtx x f = c.setCtx x (f v) := by
  unfold updCtx
  rw [h]

theorem goto_of_ctx (h : c.ctx? x = some v) (r' : ProgRun) : c.goto x r' = c.setCtx x { v with running := some r' } :=
  updCtx_of_ctx h _

/-- An operation that only moves the program on, or waits. -/
theorem next_of_standsAt (s : State) (f : Core → Ctx → ProgRun → Nat → Core) {d : Core} (h : s.core.standsAt x op v r)
    (hf : f s.core v r (v.prog.getD r.idx 0) = d) : s.act (progOp x op f) = .next (s.after d) := by
  rw [State.act_next, progOp_of_standsAt f h, hf]

end Core

section Program

variable (s : State) {x : Nat} {v : Ctx} {r : ProgRun}

/-- The state with the program gone on. -/
def State.went (s : State) (x : Nat) (v : Ctx) (r : ProgRun) : State := s.after (s.core.setCtx x { v with running := some r })

/-- The operations that wait for a place in time. -/
theorem exec_waits :
    let c := s.core
    let w := v.prog.getD r.idx 0
    (c.standsAt x 2 v r → atOrAfter c.cp ((r.anchor + pArg w) % 2 ^ 64) = true → exec (.waitRel x) s = .next (s.went x v { r with idx := r.idx + 1 })) ∧
    (c.standsAt x 2 v r → atOrAfter c.cp ((r.anchor + pArg w) % 2 ^ 64) = false → exec (.waitRel x) s = .next (s.after c)) ∧
    (c.standsAt x 3 v r → atOrAfter c.cp ((r.anchor / 2 ^ 24 + pArg w) % 2 ^ 40 * 2 ^ 24) = true → c.inSlot = true →
      exec (.waitPulse x) s = .next (s.went x v { r with idx := r.idx + 1 })) ∧
    (c.standsAt x 3 v r → (atOrAfter c.cp ((r.anchor / 2 ^ 24 + pArg w) % 2 ^ 40 * 2 ^ 24) = false ∨ c.inSlot = false) →
      exec (.waitPulse x) s = .next (s.after c)) := by
  intro c w
  refine ⟨fun h ht => ?_, fun h ht => ?_, fun h ht hs => ?_, fun h ht => ?_⟩
  · exact Core.next_of_standsAt s _ h ((if_pos ht).trans (Core.goto_of_ctx h.1 _))
  · exact Core.next_of_standsAt s _ h (if_neg (Bool.eq_false_iff.1 ht))
  · exact Core.next_of_standsAt s _ h ((if_pos (by simpa using ⟨ht, hs⟩)).trans (Core.goto_of_ctx h.1 _))
  · refine Core.next_of_standsAt s _ h (if_neg ?_)
    rw [Bool.and_eq_true]
    rintro ⟨h1, h2⟩
    exact ht.elim (fun g => Bool.eq_false_iff.1 g h1) (fun g => Bool.eq_false_iff.1 g h2)

theorem exec_loops :
    let c := s.core
    let w := v.prog.getD r.idx 0
    (c.standsAt x 6 v r → bits w 48 8 = 0 → exec (.releaseLoop x) s = .next (s.went x v { r with idx := bits w 0 6 })) ∧
    (c.standsAt x 6 v r → r.loops.get 0 r.idx < bits w 48 8 → exec (.releaseLoop x) s = .next (s.went x v { r with
      idx := bits w 0 6, loops := r.loops.set 0 r.idx (r.loops.get 0 r.idx + 1) })) ∧
    (c.standsAt x 6 v r → bits w 48 8 ≠ 0 → bits w 48 8 ≤ r.loops.get 0 r.idx →
      exec (.releaseLoop x) s = .next (s.went x v { r with idx := r.idx + 1, loops := r.loops.erase r.idx })) := by
  intro c w
  refine ⟨fun h hn => ?_, fun h hk => ?_, fun h hn hk => ?_⟩
  · exact Core.next_of_standsAt s _ h ((if_pos hn).trans (Core.goto_of_ctx h.1 _))
  · exact Core.next_of_standsAt s _ h (((if_neg (Nat.ne_of_gt (Nat.zero_lt_of_lt hk))).trans (if_pos hk)).trans (Core.goto_of_ctx h.1 _))
  · exact Core.next_of_standsAt s _ h (((if_neg hn).trans (if_neg (Nat.not_lt.2 hk))).trans (Core.goto_of_ctx h.1 _))

theorem exec_forecast (h : s.core.standsAt x 4 v r) :
    let c := s.core
    let w := v.prog.getD r.idx 0
    let c' : Core := { c with pow := { c.pow with
      reservations := c.pow.reservations ++ [(⟨x, bits w 40 16, c.window, bits w 24 16⟩ : Reservation)] } }
    (c.prc.state = .holdover → exec (.forecast x) s = .next (s.after c)) ∧
    (c.prc.state ≠ .holdover →
      (c'.fits c'.loads c'.eighths = true → exec (.forecast x) s = .next (s.after (c'.setCtx x { v with running := some { r with idx := r.idx + 1 } }))) ∧
      (c'.fits c'.loads c'.eighths = false → exec (.forecast x) s = .next (s.after c))) := by
  intro c w c'
  refine ⟨fun hh => ?_, fun hh => ⟨fun hf => ?_, fun hf => ?_⟩⟩
  · exact Core.next_of_standsAt s _ h (if_neg (by simp [show s.core.prc.state = .holdover from hh]))
  · have hgo : (c.prc.state != .holdover && c'.fits c'.loads c'.eighths) = true := by rw [hf, Bool.and_true]; exact bne_iff_ne.2 hh
    exact Core.next_of_standsAt s _ h ((if_pos hgo).trans (Core.goto_of_ctx (c := c') h.1 _))
  · have hstay : (c.prc.state != .holdover && c'.fits c'.loads c'.eighths) = false := by rw [hf, Bool.and_false]
    exact Core.next_of_standsAt s _ h (if_neg (Bool.eq_false_iff.1 hstay))

/-- The ballast that a program adds. -/
def Core.ballastOf (c : Core) (x w : Nat) : Ballast :=
  let free := (List.range 64).filter (fun t => (c.tower t).seg.isNone && !(c.tower t).fenced)
  ⟨x, free, min (min (bits w 40 16) c.pow.maxPower) (free.length * 16 * 8 / c.eighths), c.window, bits w 24 16, c.pow.rampDown⟩

theorem exec_ballast (h : s.core.standsAt x 5 v r) :
    let c := s.core
    let w := v.prog.getD r.idx 0
    (c.prc.state = .holdover → exec (.ballast x) s = .next (s.after (c.setCtx x { v with running := some { r with idx := r.idx + 1 } }))) ∧
    (c.prc.state ≠ .holdover → exec (.ballast x) s = .next (s.after (({ c with pow := { c.pow with
      ballast := c.pow.ballast ++ [c.ballastOf x w] } } : Core).setCtx x { v with running := some { r with idx := r.idx + 1 } }))) := by
  intro c w
  refine ⟨fun hh => ?_, fun hh => ?_⟩
  · exact Core.next_of_standsAt s _ h ((congrArg (fun d => Core.goto d x _) (if_pos hh)).trans (Core.goto_of_ctx h.1 _))
  · exact Core.next_of_standsAt s _ h ((congrArg (fun d => Core.goto d x _) (if_neg hh)).trans (Core.goto_of_ctx (c := { c with pow := { c.pow with
      ballast := c.pow.ballast ++ [c.ballastOf x w] } }) h.1 _))

/-- A segment that another operation is to release completes, and is gone. -/
theorem exec_release_mismatch {y : Seg} (h : s.core.standsAt x 1 v r)
    (hy : s.core.segs.find? (fun z => z.ctx = x && z.st = .queued) = some y) (hff : y.img.releaseIndex ≠ 0xFF) (hidx : y.img.releaseIndex ≠ r.idx) :
    ∃ t, exec (.release x) s = .next t ∧ (∀ z ∈ t.core.segs, z.id ≠ y.id) ∧ t.core.towers = s.core.towers ∧
      (s.core.answers y.req → State.completes s t y.req 0x030B) := by
  have hexec : exec (.release x) s = .next (s.after ((s.core.leaveSteps y).cancelSeg s.trim y 0x030B 0)) := by
    show Host.Outcome.next (s.after (s.core.progOp x 1 _)) = _
    rw [Core.progOp_of_standsAt _ h]
    simp only [hy]
    rw [if_pos ⟨hff, hidx⟩]
  have hleave := s.core.moves_leaveSteps y
  refine ⟨_, hexec, ?_, ?_, fun ha => State.completes_of_cancelSeg hleave rfl rfl rfl ha List.prefix_rfl⟩
  · rw [State.after_segs]
    exact Core.not_mem_of_segsOf (Core.segsOf_of_filter (Core.segs_cancelSeg s.trim _ y 0x030B 0))
  · rw [State.after_towers]
    exact (hleave.mono.then (w := .ctxs :: Core.handParts) (Core.moves_cancelSeg _ s.trim y 0x030B 0)).frame .towers rfl

/-- A segment as its release leaves it, with what its towers had saved still at hand. -/
def Core.begun (c : Core) (y : Seg) : Seg :=
  if y.st = .swapped then { y with st := .running } else
    { y with
      st := .running, latches := y.img.members.map c.latch
      chain := ((c.ctx? y.ctx).map (fun (v : Ctx) => v.chain)).getD []
      rules := if y.img.training then ((c.ctx? y.ctx).map (fun (v : Ctx) => v.rules)).getD [] else []
      own := ((c.ctx? y.ctx).map (fun (v : Ctx) => (⟨v.seed, v.stream, v.commit.step, v.heritage⟩ : Seeding))).getD ⟨0, 0, 0, false⟩
      start := c.clk.total, startNominal := c.clk.nominal, stall := 0, wait := 0 }

/-- A tower that segment `y`, released as `b`, takes. -/
def Core.takeTower (b y : Seg) (offs : List (Nat × Nat)) (c : Core) (k : Nat) : Core :=
  let off := ((offs.find? (fun o => o.1 = k)).map (fun o => o.2)).getD 0
  match y.saved.find? (fun x => x.1 = k) with
  | some x => c.setTower k ((c.tower k).resume b x.2 off c.clk.total)
  | none => match y.img.prog k with
    | some p => c.setTower k ((c.tower k).start b p off)
    | none => c

/-- The towers of a segment taken. -/
def Core.takeTowers (c : Core) (y : Seg) (offs : List (Nat × Nat)) : Core := (towersOf y.img.towerSet).foldl (Core.takeTower (c.begun y) y offs) c

theorem Core.releaseSeg_eq (c : Core) (y : Seg) (offs : List (Nat × Nat)) : ∃ d : Core, (c.takeTowers y offs).Moves [.dir, .pow] d ∧
    c.releaseSeg y offs = d.setSeg { c.begun y with saved := [] } := by
  unfold releaseSeg
  extract_lets im ts v s' c1 c2 cut bs pw c3
  have hs : s' = c.begun y := rfl
  have h1 : c1 = c.takeTowers y offs := by
    unfold takeTowers
    rw [← hs]
    clear_value s'
    refine congrArg (fun f => List.foldl f c (towersOf y.img.towerSet)) (funext fun d => funext fun k => ?_)
    unfold takeTower
    cases y.saved.find? (fun x => decide (x.1 = k)) with
    | some z => rfl
    | none =>
      cases y.img.prog k with
      | some p => rfl
      | none => rfl
  rw [← h1]
  clear_value c1 s'
  subst hs
  have hdesc : c1.Moves [.dir] c2 := .foldl (fun (d : Core) i => d.updDesc i (fun x => { x with lastRelease := d.clk.total })) (fun d i => d.moves_updDesc i _) im.adapts
  exact ⟨c3, hdesc.mono.then (moves_pow _ _), rfl⟩

theorem Core.takeTowers_segs (c : Core) (y : Seg) (offs : List (Nat × Nat)) : c.Moves [.towers] (c.takeTowers y offs) := by
  refine .foldl _ (fun d k => ?_) _
  unfold takeTower
  split
  · exact d.moves_setTower _ _
  · split
    · exact d.moves_setTower _ _
    · exact .refl d

theorem Core.begun_st (c : Core) (y : Seg) : (c.begun y).st = .running ∧ (c.begun y).id = y.id := by
  unfold begun
  split
  · exact ⟨rfl, rfl⟩
  · exact ⟨rfl, rfl⟩

theorem Core.segs_releaseSeg (c : Core) (y : Seg) (offs : List (Nat × Nat)) :
    (c.releaseSeg y offs).segs = c.segs.map (fun z => if z.id = y.id then { c.begun y with saved := [] } else z) := by
  obtain ⟨d, hmove, heq⟩ := c.releaseSeg_eq y offs
  have hsegs : d.segs = c.segs := ((c.takeTowers_segs y offs).mono.trans hmove.mono : c.Moves [.towers, .dir, .pow] d).frame .segs rfl
  rw [heq, setSeg, hsegs]
  show c.segs.map (fun z => if z.id = (c.begun y).id then _ else z) = _
  rw [(c.begun_st y).2]

/-- The segments of a released id run. -/
theorem Core.of_mem_releaseSeg {c : Core} {y : Seg} {offs : List (Nat × Nat)} {z : Seg} (hz : z ∈ (c.releaseSeg y offs).segs) (hid : z.id = y.id) :
    z = { c.begun y with saved := [] } := by
  rw [segs_releaseSeg] at hz
  obtain ⟨w, -, hw⟩ := List.mem_map.1 hz
  split at hw
  · exact hw.symm
  · next hne => exact absurd (hw ▸ hid) hne

theorem exec_release_match {y : Seg} {offs : List (Nat × Nat)} (h : s.core.standsAt x 1 v r)
    (hy : s.core.segs.find? (fun z => z.ctx = x && z.st = .queued) = some y)
    (hm : y.img.releaseIndex = 0xFF ∨ y.img.releaseIndex = r.idx) (hn : s.core.nextRelease (fun z => z.id = y.id) = some (y, offs)) :
    ∃ t, exec (.release x) s = .next t ∧ (∀ z ∈ t.core.segs, z.id = y.id → z.st = .running) ∧
      (∀ z ∈ t.core.pow.reservations, z.ctx ≠ x) ∧
      ∃ v' : Ctx, t.core.ctx? x = some v' ∧ v'.running = some { r with
        idx := r.idx + 1, anchor := s.core.cp, waitEnd := if pFlags (v.prog.getD r.idx 0) = 1 then some y.id else none } := by
  let c1 := (s.core.releaseSeg y offs).withoutReservations x
  have hmove : s.core.Moves [.towers, .dir, .pow, .segs] c1 := (s.core.moves_releaseSeg y offs).then (Core.moves_withoutReservations _ x)
  have hctx : c1.ctx? x = some v := by
    rw [Core.ctx?, show c1.ctxs = s.core.ctxs from hmove.frame .ctxs rfl]
    exact h.1
  have hcp : c1.cp = s.core.cp := congrArg cpOf (hmove.frame .blf rfl)
  let r' : ProgRun := { r with
    idx := r.idx + 1, anchor := c1.cp, waitEnd := if pFlags (v.prog.getD r.idx 0) = 1 then some y.id else none }
  have hexec : exec (.release x) s = .next (s.after (c1.setCtx x { v with running := some r' })) := by
    show Host.Outcome.next (s.after (s.core.progOp x 1 _)) = _
    rw [Core.progOp_of_standsAt _ h]
    simp only [hy, hn]
    rw [if_neg (fun g => hm.elim g.1 g.2)]
    exact congrArg (fun d => Host.Outcome.next (s.after d)) (Core.goto_of_ctx hctx _)
  refine ⟨_, hexec, fun z hz hid => ?_, fun z hz => ?_, { v with running := some r' }, ?_, ?_⟩
  · rw [State.after_segs] at hz
    have heq := Core.of_mem_releaseSeg (c := s.core) (y := y) (offs := offs) hz hid
    rw [heq]
    exact (s.core.begun_st y).1
  · rw [State.after_pow] at hz
    have hmem : z ∈ (s.core.releaseSeg y offs).pow.reservations.filter (fun r => r.ctx != x) := hz
    exact bne_iff_ne.1 (List.mem_filter.1 hmem).2
  · rw [Core.ctx?, State.after_ctxs]
    exact (Core.ctx_setCtx _ x x _).trans (if_pos rfl)
  · show some r' = _
    rw [← hcp]

end Program

/-- Settles O24: each operation as the meaning of the one the program stands at. -/
theorem programsRun : Obligations.ProgramsRun := by
  unfold Obligations.ProgramsRun
  refine ⟨fun s x v r => ?_, fun s x v r => ?_⟩
  · intro c w go
    obtain ⟨hrel, hrel', hpulse, hpulse'⟩ := exec_waits s (x := x) (v := v) (r := r)
    obtain ⟨hloop0, hloopk, hloopn⟩ := exec_loops s (x := x) (v := v) (r := r)
    exact ⟨hrel, hrel', hpulse, hpulse', fun h => Core.next_of_standsAt s _ h (Core.goto_of_ctx h.1 _), hloop0, hloopk, hloopn,
      fun h => Core.next_of_standsAt s _ h (Core.updCtx_of_ctx h.1 _)⟩
  · intro c w
    refine ⟨fun y offs h hy hm hn => exec_release_match s h hy hm hn, fun y h hy hff hidx => exec_release_mismatch s h hy hff hidx,
      fun h => (exec_forecast s h).1, fun h => (exec_ballast s h).1, ?_, fun h hh => ?_⟩
    · intro c' h
      exact (exec_forecast s h).2
    · refine ⟨_, c.ballastOf x w, (exec_ballast s h).2 hh, ?_, rfl, rfl, rfl, ?_, ?_, fun k hk => ?_, { v with running := some { r with idx := r.idx + 1 } }, ?_, rfl⟩
      · rw [State.after_pow]
        rfl
      · exact (Nat.min_le_left _ _).trans (Nat.min_le_left _ _)
      · exact (Nat.min_le_left _ _).trans (Nat.min_le_right _ _)
      · have hfree : k ∈ (List.range 64).filter (fun t => (c.tower t).seg.isNone && !(c.tower t).fenced) := hk
        simpa using (List.mem_filter.1 hfree).2
      · rw [Core.ctx?, State.after_ctxs]
        exact (Core.ctx_setCtx _ x x _).trans (if_pos rfl)

end Sys2Proof.Machine

/-! # Segments admitted, waiting and expiring (O20, O21) -/

namespace Sys2Proof.Machine

set_option Elab.async false

section Admission

variable {c : Core} {x : Seg} (tr : Trim)

/-- The die once BLF_LAST_REFUSAL and the recorder name a segment's refusal. -/
def Core.named (c : Core) (x : Seg) (code arg : Nat) : Core :=
  let c := { c with blf := { c.blf with refCode := code, refCtx := x.ctx } }
  c.raise (c.ctxEvent code x.ctx arg 0 0 0)

theorem Core.moves_named (c : Core) (x : Seg) (code arg : Nat) : c.Moves [.blf] (c.named x code arg) := (c.moves_blf _).then (moves_raise _ _)

variable (hfind : c.segs.find? (fun y => y.st = .handed) = some x) (hgo : ¬(c.blf.stopped = true ∨ (c.keep.fwState = 2 ∧ c.keep.fwKind = 4)))

include hfind hgo

theorem Core.admission_admitted {arg : Nat} (h : c.admitCode x = (0, arg)) :
    Core.admission tr c = (c.setSeg { x with st := .queued }).joinSteps { x with st := .queued } := by
  unfold Core.admission
  simp only [hfind, h]
  exact if_neg hgo

theorem Core.admission_refused {code arg : Nat} (h : c.admitCode x = (code, arg)) (hcode : code ≠ 0) :
    Core.admission tr c = ((c.named x code arg).refuseSeg tr x code arg).unpark tr := by
  unfold Core.admission
  simp only [hfind, h]
  rw [if_neg hgo]
  cases code with
  | zero => exact absurd rfl hcode
  | succ n => rfl

end Admission

theorem Core.joinSteps_of_serving {c : Core} {x : Seg} (h : x.img.training = false) : c.joinSteps x = c := if_pos (by simp [h])

theorem Core.of_mem_joinSteps {c : Core} {x y : Seg} (h : x.img.training = true) (hy : y ∈ (c.joinSteps x).segs) (hid : y.id = x.id) :
    y = { x with steps := x.img.ctxs } := by
  unfold joinSteps at hy
  rw [if_neg (by simp [h])] at hy
  obtain ⟨z, -, hz⟩ := List.mem_map.1 hy
  split at hz
  · exact hz.symm
  · next hne => exact absurd (hz ▸ hid) hne

/-- Settles O20: a segment that fails is completed and dropped, and the waking of parked requests brings no segment of its id. -/
theorem segmentsAdmitted : Obligations.SegmentsAdmitted := by
  unfold Obligations.SegmentsAdmitted
  intro s x c hfind hstop hwin
  have hexec : exec .segmentAdmission s = .next (s.after (Core.admission s.trim c)) := rfl
  have hgo : ¬(c.blf.stopped = true ∨ (c.keep.fwState = 2 ∧ c.keep.fwKind = 4)) := by
    rintro (h | h)
    · exact Bool.eq_false_iff.1 hstop h
    · exact hwin h
  have hqueued := (c.moves_setSeg { x with st := .queued }).mono.then (w := [.ctxs, .runs, .segs]) (Core.moves_joinSteps _ { x with st := .queued })
  refine ⟨fun arg h htr => ?_, fun arg h htr => ?_, fun code arg h hcode => ?_⟩
  · rw [hexec, Core.admission_admitted s.trim hfind hgo h, Core.joinSteps_of_serving (by exact htr)]
  · rw [hexec, Core.admission_admitted s.trim hfind hgo h]
    refine ⟨_, rfl, fun y hy hid => ?_, ?_, ?_⟩
    · rw [State.after_segs] at hy
      rw [Core.of_mem_joinSteps (by exact htr) hy hid]
      exact ⟨rfl, rfl⟩
    · rw [State.after_towers]
      exact hqueued.frame .towers rfl
    · rw [State.after_blf]
      exact hqueued.frame .blf rfl
  · rw [hexec, Core.admission_refused s.trim hfind hgo h hcode]
    have hnamed := c.moves_named x code arg
    have hrest : (c.named x code arg).Moves Core.handParts (((c.named x code arg).refuseSeg s.trim x code arg).unpark s.trim) :=
      ((c.named x code arg).moves_refuseSeg s.trim x code arg).mono.trans (Core.moves_unpark _ s.trim)
    refine ⟨_, rfl, ?_, ?_, ?_, fun ha => ?_⟩
    · rw [State.after_blf]
      exact hrest.frame .blf rfl
    · rw [State.after_segs]
      exact Core.not_mem_of_segsOf ((Core.KeepsId.unpark s.trim _).gone (Core.segsOf_of_filter (Core.segs_refuseSeg s.trim _ x code arg)))
    · rw [State.after_towers]
      exact (hrest.frame .towers rfl).trans (hnamed.frame .towers rfl)
    · have hbump := hnamed.mono.then (w := [.blf, .ctr]) (Core.moves_bump _ (hstBase x.req.f.port + 0xA8) 1)
      exact State.completes_of_cancelSeg hbump rfl rfl rfl ha (Core.moves_unpark _ s.trim).dma

/-! ## Waiting images -/

namespace Core

variable {c d : Core} {x : Seg} (tr : Trim)

theorem mem_segsOf {y : Seg} (hy : y ∈ c.segs) : y.undue ∈ c.segsOf y.id :=
  List.mem_map_of_mem (List.mem_filter.2 ⟨hy, by simp⟩)

/-- A segment set over those of its id: there is no other under the id. -/
theorem of_mem_setSeg {y z : Seg} (hz : z ∈ (c.setSeg y).segs) (hid : z.id = y.id) : z = y := by
  obtain ⟨w, -, hw⟩ := List.mem_map.1 hz
  split at hw
  · exact hw.symm
  · next hne => exact absurd (hw ▸ hid) hne

theorem mem_setSeg {y z : Seg} (hz : z ∈ c.segs) (hid : z.id = y.id) : y ∈ (c.setSeg y).segs :=
  List.mem_map.2 ⟨z, hz, if_pos hid⟩

/-- A segment set to a state other than parked keeps it, its pool units and its id through the waking of parked requests. -/
theorem KeepsId.mem {y : Seg} (h : (c.setSeg y).KeepsId y.id d) (hp : y.st ≠ .parked) {z : Seg} (hz : z ∈ c.segs) (hid : z.id = y.id) :
    ∃ u ∈ d.segs, u.id = y.id ∧ u.undue = y.undue := by
  have hfree : (c.setSeg y).unparked y.id := fun w hw hi => by
    rw [of_mem_setSeg hw hi]
    exact hp
  have hmem := mem_segsOf (mem_setSeg hz hid)
  rw [← h hfree] at hmem
  obtain ⟨u, hu, heq⟩ := List.mem_map.1 hmem
  exact ⟨u, (List.mem_filter.1 hu).1, by simpa using (List.mem_filter.1 hu).2, heq⟩

theorem moves_imagePlaced (s : Seg) : c.Moves handParts ((placeImage tr c s).unpark tr) := (c.moves_placeImage tr s).trans (moves_unpark _ tr)

theorem erase_sublist {α : Type} (m : SMap α) (k : Nat) : (SMap.erase m k).Sublist m := by
  induction m with
  | nil => exact List.Sublist.refl _
  | cons e m ih =>
    obtain ⟨i, v⟩ := e
    unfold SMap.erase
    split
    · exact List.sublist_cons_self _ _
    · split
      · exact List.Sublist.refl _
      · exact ih.cons_cons _

theorem erases_sublist (xs : List Copy0) : ∀ m : SMap UnitClaim, (xs.foldl (fun (m : SMap UnitClaim) k => m.erase k.unit) m).Sublist m := by
  induction xs with
  | nil => exact List.Sublist.refl
  | cons x xs ih => exact fun m => (ih _).trans (erase_sublist m x.unit)

/-- Tier-0 copies that go take no unit of another claim with them. -/
theorem poolUsed_dropCopies (c : Core) (i : Nat) : (c.dropCopies i).poolUsed ≤ c.poolUsed :=
  ((erases_sublist _ c.gate.units).filter _).length_le

theorem poolUsed_claimResupport (c : Core) (s : Seg) : (c.claimResupport s).poolUsed ≤ c.poolUsed := by
  have hfold (is : List Nat) (f : Desc → Desc) : ∀ c : Core, (is.foldl (fun (c : Core) i => (c.updDesc i f).dropCopies i) c).poolUsed ≤ c.poolUsed := by
    induction is with
    | nil => exact fun _ => Nat.le_refl _
    | cons i is ih => exact fun c => (ih _).trans (poolUsed_dropCopies (c.updDesc i f) i)
  unfold claimResupport
  split
  · exact Nat.le_refl _
  · exact hfold _ _ c

theorem unitsFor_of_segs (h : d.segs = c.segs) (n : Nat) : d.unitsFor n = c.unitsFor n := by
  unfold unitsFor imageUsed
  rw [h]

theorem placeImage_placed (h : c.handCode x = 0) (hup : c.coreUp 3 = true) (hroom : c.poolUsed + c.unitsFor x.raw.length ≤ poolSize) :
    placeImage tr c x = ((c.claimResupport x).setSeg { x with st := .handed, pooled := c.unitsFor x.raw.length }).allocUnits (.image x.id)
      (c.unitsFor x.raw.length) := by
  have hmove := c.moves_claimResupport x
  have hunits := unitsFor_of_segs (hmove.frame .segs rfl) x.raw.length
  have hcores : Part.view .cores (c.claimResupport x) = Part.view .cores c := hmove.frame .cores rfl
  have hup' : (c.claimResupport x).coreUp 3 = true := by
    rw [← hup]
    exact congrArg (fun v : Bool × List Bool × List Bool × Bool => !v.2.2.1.getD 3 false) hcores
  have hroom' := Nat.add_le_add_right (poolUsed_claimResupport c x) (c.unitsFor x.raw.length)
  unfold placeImage
  rw [h]
  dsimp only
  rw [hunits]
  exact if_pos ⟨hup', hroom'.trans hroom⟩

theorem placeImage_refused (h : c.handCode x ≠ 0) : placeImage tr c x = c.refuseSeg tr x (c.handCode x) 0 := by
  unfold placeImage
  split
  · next h0 => exact absurd h0 h
  · rfl

end Core

theorem exec_imagePlacement (s : State) {x : Seg} (hup : s.core.coreUp 3 = true) (hfind : s.core.segs.find? s.core.fitsNow = some x) :
    exec .imagePlacement s = .next (s.after ((Core.placeImage s.trim s.core x).unpark s.trim)) := by
  show Host.Outcome.next (s.after (Core.imagePlacement s.trim s.core)) = _
  unfold Core.imagePlacement
  simp [hup, hfind]

theorem imagePlacement_places (s : State) {x : Seg} (hup : s.core.coreUp 3 = true) (hfind : s.core.segs.find? s.core.fitsNow = some x)
    (h : s.core.handCode x = 0) : ∃ t, exec .imagePlacement s = .next t ∧ t.core.towers = s.core.towers ∧
      ∃ y ∈ t.core.segs, y.id = x.id ∧ y.st = .handed ∧ y.pooled = s.core.unitsFor x.raw.length := by
  have hfits := List.find?_some hfind
  simp only [Core.fitsNow, Bool.and_eq_true, decide_eq_true_eq] at hfits
  obtain ⟨⟨-, hroom⟩, -⟩ := hfits
  have hplace := Core.placeImage_placed s.trim h hup hroom
  refine ⟨_, exec_imagePlacement s hup hfind, ?_, ?_⟩
  · rw [State.after_towers]
    exact (s.core.moves_imagePlaced s.trim x).frame .towers rfl
  · rw [State.after_segs, hplace]
    have hmem : x ∈ (s.core.claimResupport x).segs := by
      rw [show (s.core.claimResupport x).segs = s.core.segs from (s.core.moves_claimResupport x).frame .segs rfl]
      exact List.mem_of_find?_eq_some hfind
    obtain ⟨y, hy, hid, heq⟩ := Core.KeepsId.mem (y := { x with st := .handed, pooled := s.core.unitsFor x.raw.length })
      ((Core.KeepsId.of_moves (Core.moves_allocUnits _ (.image x.id) _) rfl).trans (Core.KeepsId.unpark s.trim _)) (by simp) hmem rfl
    exact ⟨y, hy, hid, Core.st_of_undue heq, (congrArg Seg.pooled heq : y.undue.pooled = _)⟩

theorem imagePlacement_refuses (s : State) {x : Seg} (hup : s.core.coreUp 3 = true) (hfind : s.core.segs.find? s.core.fitsNow = some x)
    (h : s.core.handCode x ≠ 0) : ∃ t, exec .imagePlacement s = .next t ∧ t.core.towers = s.core.towers ∧ (∀ y ∈ t.core.segs, y.id ≠ x.id) ∧
      (s.core.answers x.req → State.completes s t x.req (s.core.handCode x)) := by
  have hplace := Core.placeImage_refused s.trim h
  refine ⟨_, exec_imagePlacement s hup hfind, ?_, ?_, fun ha => ?_⟩
  · rw [State.after_towers]
    exact (s.core.moves_imagePlaced s.trim x).frame .towers rfl
  · rw [State.after_segs, hplace]
    exact Core.not_mem_of_segsOf ((Core.KeepsId.unpark s.trim _).gone (Core.segsOf_of_filter (Core.segs_refuseSeg s.trim _ x _ _)))
  · rw [hplace]
    exact State.completes_of_cancelSeg (s.core.moves_bump (hstBase x.req.f.port + 0xA8) 1) rfl rfl rfl ha (Core.moves_unpark _ s.trim).dma

/-! ## Late drops, halted cores, park deadlines -/

theorem Core.releasable_of_tooLate {c : Core} {x : Seg} (h : c.tooLate x = true) : c.releasable x = none := by
  have hstart : c.startable x = none := if_neg (by simp [h])
  unfold releasable
  rw [hstart]

theorem dropLate_drops (s : State) {x : Seg} (hfind : s.core.segs.find? s.core.tooLate = some x) :
    s.core.releasable x = none ∧ ∃ t, exec .dropLateExpiry s = .next t ∧ (∀ y ∈ t.core.segs, y.id ≠ x.id) ∧ t.core.towers = s.core.towers ∧
      (s.core.answers x.req → State.completes s t x.req 0x0305) := by
  have hleave := s.core.moves_leaveSteps x
  have hexec : exec .dropLateExpiry s = .next (s.after ((s.core.leaveSteps x).cancelSeg s.trim x 0x0305 0)) := by
    show Host.Outcome.next (s.after (Core.dropLate s.trim s.core)) = _
    unfold Core.dropLate
    simp only [hfind]
  refine ⟨Core.releasable_of_tooLate (List.find?_some hfind), _, hexec, ?_, ?_, fun ha => State.completes_of_cancelSeg hleave rfl rfl rfl ha List.prefix_rfl⟩
  · rw [State.after_segs]
    exact Core.not_mem_of_segsOf (Core.segsOf_of_filter (Core.segs_cancelSeg s.trim _ x 0x0305 0))
  · rw [State.after_towers]
    exact (hleave.mono.then (w := .ctxs :: Core.handParts) (Core.moves_cancelSeg _ s.trim x 0x0305 0)).frame .towers rfl

theorem coreHalt_halts (s : State) {k : Nat} (hk : k < 4) (hrun : s.core.gate.halted.getD k true = false) :
    ∃ t, exec (.coreHalt k) s = .next t ∧
      t.core.gate = { s.core.gate with halted := s.core.gate.halted.set k true, run := s.core.gate.run.set k false } ∧
      2 ∈ t.core.out.failN ∧ t.core.segs = s.core.segs ∧
      t.evr = (s.evr.takeAll s.core.stamp (s.core.outbox ++ [⟨0x0A0E, 0xFFFF, k, 0, 0, 0xFFFF, k⟩])).1 := by
  have hevent : sysEvent 0x0A0E k 0 0 k = ⟨0x0A0E, 0xFFFF, k, 0, 0, 0xFFFF, k⟩ := sysEvent_of_lt _ _ (by omega) (by decide)
  have hexec : exec (.coreHalt k) s = .next (s.after (Core.coreHalt k s.core)) := rfl
  rw [hexec, Core.coreHalt, if_neg (by rw [hrun]; decide), hevent]
  refine ⟨_, rfl, ?_, ?_, ?_, ?_⟩
  · rw [State.after_gate, Core.failN_gate]
    rfl
  · exact (State.after_mem_failN s _ (by decide)).2 (Core.mem_failN.2 (.inl rfl))
  · rw [State.after_segs, Core.failN_segs]
    rfl
  · rw [State.after_evr, Core.failN_outbox]
    rfl

theorem parkDeadlineExpired_completes (s : State) {x : Seg} (hup : s.core.coreUp 2 = true) (hfind : s.core.segs.find? s.core.parkOver = some x) :
    ∃ t, exec .parkDeadlineExpired s = .next t ∧ (∀ y ∈ t.core.segs, y.id ≠ x.id) ∧ t.core.towers = s.core.towers ∧
      (s.core.answers x.req → State.completes s t x.req 0x0A06) := by
  have hbump := s.core.moves_bump 0x448 1
  have hexec : exec .parkDeadlineExpired s = .next (s.after (((s.core.bump 0x448 1).cancelSeg s.trim x 0x0A06 0).wake s.trim)) := by
    show Host.Outcome.next (s.after (Core.parkExpired s.trim s.core)) = _
    unfold Core.parkExpired
    simp [hup, hfind]
  refine ⟨_, hexec, ?_, ?_, fun ha => State.completes_of_cancelSeg hbump rfl rfl rfl ha (Core.moves_wake _ s.trim).dma⟩
  · rw [State.after_segs]
    exact Core.not_mem_of_segsOf ((Core.KeepsId.wake s.trim _).gone (Core.segsOf_of_filter (Core.segs_cancelSeg s.trim _ x 0x0A06 0)))
  · rw [State.after_towers]
    exact ((hbump.mono.then (w := Core.fetchParts) (Core.moves_cancelSeg _ s.trim x 0x0A06 0)).then (Core.moves_wake _ s.trim)).frame .towers rfl

/-- Settles O21: a placed image stays handed over, and a completed request stays gone, while parked requests are woken. -/
theorem segmentsWaitAndExpire : Obligations.SegmentsWaitAndExpire := by
  unfold Obligations.SegmentsWaitAndExpire
  refine ⟨⟨fun s x hup hfind => ?_, fun s x hfind => dropLate_drops s hfind⟩, fun s k hk hrun => coreHalt_halts s hk hrun,
    fun s x hup hfind => parkDeadlineExpired_completes s hup ?_⟩
  · exact ⟨imagePlacement_places s hup hfind, imagePlacement_refuses s hup hfind⟩
  · rw [← hfind]
    refine congrArg (fun p => s.core.segs.find? p) (funext fun y => ?_)
    unfold Core.parkOver
    cases y.overAt with
    | none => rfl
    | some b => rfl

end Sys2Proof.Machine

/-! # Segments end (O23) -/

namespace Sys2Proof.Machine

set_option Elab.async false

/-- A tower as the end of its segment leaves it, free from a beat on. -/
def Tower.freed (t : Tower) (from_ : Nat) : Tower :=
  { t with st := if t.st = .faulted then .faulted else .idle, seg := none, ctx := 0xFFFF, cause := 0, wait := 0
           atBarrier := false, swapLeft := 0, jobs := [], landing := [], checks := [], flightIn := [], flightOut := [], freeFrom := from_
           holds := List.replicate 8 ⟨0, 0, 0⟩ }

/-- The members of a TRAINING segment's steps, each with its place. -/
def Seg.closing (s : Seg) : List (Nat × Nat) := if s.img.training then s.img.ctxs.zipIdx.filter (fun x => s.steps.contains x.1) else []

/-- Segment `y` is segment `s` once ended: its outcome, its request and its id stand, and it leaves the steps it closes. -/
def Seg.endOf (s y : Seg) : Prop :=
  y.id = s.id ∧ y.req = s.req ∧ y.out = s.out ∧ y.st = .ended ∧ y.left = if s.stepEnd then s.closing.map (·.1) else []

namespace Core

variable {c d : Core} {x : Seg} (tr : Trim)

/-- The data of contexts disabled meanwhile go. -/
def freeDisabled (c : Core) (xs : List Nat) : Core := xs.foldl (fun (c : Core) x =>
    if ((c.ctx? x).map (fun (v : Ctx) => v.enable)).getD false then c else c.freeTransient x) c

theorem moves_freeDisabled (c : Core) (xs : List Nat) : c.Moves [.ctxs, .runs] (c.freeDisabled xs) :=
  .foldl _ (fun d x => .ite (.refl d) (d.moves_freeTransient x)) _

theorem Moves.same_towers {w : List Part} (h : c.Moves w d) (hw : w.contains .towers = false) : d.towers = c.towers := h.frame .towers hw

theorem freeTowers_congr {y : Seg} (h : d.towers = c.towers) (hid : y.id = x.id) (n : Nat) :
    (d.freeTowers y n).towers = (c.freeTowers x n).towers := by
  unfold freeTowers
  rw [h, hid]

/-- The segment's end: its towers freed, and then its command completed, or the segment left to its settlement. -/
theorem endSeg_eq (c : Core) (s : Seg) (from_ : Nat) : ∃ (d : Core) (y : Seg), s.endOf y ∧
    c.Moves [.ctxs, .pool, .free, .pow, .towers] d ∧ d.towers = (c.freeTowers s from_).towers ∧
    c.endSeg tr s from_ = (if y.left = [] then d.dueSettle.finishSeg tr y y.out.fault 0 else (d.setSeg { y with status := 0 }).dueSettle).freeDisabled
      (s.ctx :: s.img.ctxs) := by
  unfold endSeg
  extract_lets im ts lag slip members y base pw c1 c2 c3 c4 c5 c6 c7
  have h1 : c.Moves [.free, .pow] c1 := (c.moves_fresh).mono.then (moves_pow _ _)
  have h2 : c.Moves [.free, .pow] c2 := h1.trans (.ite (.refl c1) (c1.moves_raise _).mono)
  have h2t := h2.same_towers rfl
  clear_value c2 slip lag
  have h3 : c2.Moves [.towers, .pool] c3 := ((c2.moves_freeTowers y from_).mono).then (moves_releaseUnits _ _)
  have h3t : c3.towers = (c2.freeTowers y from_).towers := rfl
  have h4 : c3.Moves [.pow] c4 := .ite (c3.moves_endBallast _) (.refl _)
  have h5 : c4.Moves [.ctxs] c5 := .foldl _ (fun d m => d.moves_updCtx _ _) _
  have h6 : c5.Moves [.ctxs] c6 := moves_ctxs _ _ (SMap.rising_map (fun _ => rfl))
  have hrest : c3.Moves [.pow, .ctxs] c6 := (h4.mono.trans h5.mono).trans h6.mono
  refine ⟨c6, y, ⟨rfl, rfl, rfl, rfl, rfl⟩, (h2.mono.trans h3.mono).trans hrest.mono, ?_, rfl⟩
  exact ((hrest.same_towers rfl).trans h3t).trans (freeTowers_congr h2t rfl from_)

/-- The tail of a segment's end, before requests are woken. -/
def ended (c : Core) (s y : Seg) : Core :=
  (if y.left = [] then c.dueSettle.finishSeg tr y y.out.fault 0 else (c.setSeg { y with status := 0 }).dueSettle).freeDisabled (s.ctx :: s.img.ctxs)

theorem moves_ended (c : Core) (s y : Seg) : c.Moves (.ctxs :: handParts) (c.ended tr s y) :=
  .trans (.ite ((moves_dueSettle _).mono.then (moves_finishSeg _ _ _ _ _)) ((moves_setSeg _ _).mono.then (moves_dueSettle _)))
    (moves_freeDisabled _ _).mono

theorem segmentEnd_eq (hfind : c.segs.find? (fun s => s.st = .running && c.allTowers s.img (s.over c.clk.total)) = some x) :
    ∃ (d : Core) (y : Seg), x.endOf y ∧ c.Moves [.ctxs, .pool, .free, .pow, .towers, .dir] d ∧
      d.towers = (c.freeTowers x (if x.out.fault = 0 then c.clk.total else c.clk.total + 1)).towers ∧
      Core.segmentEnd tr c = (d.ended tr x y).wake tr := by
  have hclaim : c.Moves [.dir, .free] ((c.resupported x).dropClaim x) := (c.moves_resupported x).then (moves_dropClaim _ x)
  obtain ⟨d, y, hy, hmove, htowers, heq⟩ := endSeg_eq tr ((c.resupported x).dropClaim x) x (if x.out.fault = 0 then c.clk.total else c.clk.total + 1)
  refine ⟨d, y, hy, hclaim.mono.trans hmove.mono, ?_, ?_⟩
  · exact htowers.trans (freeTowers_congr (hclaim.frame .towers rfl) rfl _)
  · unfold segmentEnd
    simp only [hfind]
    rw [heq]
    rfl

theorem tower_freeTowers (c : Core) (s : Seg) (n k : Nat) : (c.freeTowers s n).tower k =
    if (c.tower k).seg = some s.id then (c.tower k).freed n else c.tower k := by
  unfold tower freeTowers
  dsimp only
  by_cases hk : k < c.towers.length
  · rw [List.getD_eq_getElem _ _ (by rw [List.length_map]; exact hk), List.getElem_map, List.getD_eq_getElem _ _ hk]
    rfl
  · rw [List.getD_eq_default _ _ (by rw [List.length_map]; omega), List.getD_eq_default _ _ (by omega)]
    rfl

theorem closing_ne_nil (htr : x.img.training = true) {z : Nat} (hz : z ∈ x.img.ctxs) (hs : z ∈ x.steps) : x.closing.map (·.1) ≠ [] := by
  obtain ⟨i, hi, heq⟩ := List.getElem_of_mem hz
  have hmem : (z, i) ∈ x.closing := by
    unfold Seg.closing
    rw [if_pos htr]
    refine List.mem_filter.2 ⟨?_, by simpa using hs⟩
    rw [List.mem_zipIdx_iff_getElem?]
    rw [List.getElem?_eq_getElem hi, heq]
  exact List.ne_nil_of_mem (List.mem_map_of_mem hmem)

end Core

/-- Settles O23: the end frees the towers of the segment alone, and then completes it, or leaves it ended for its settlement. -/
theorem segmentsEnd : Obligations.SegmentsEnd := by
  unfold Obligations.SegmentsEnd
  intro s x c hfind
  obtain ⟨d, y, hy, hmove, htowers, heq⟩ := Core.segmentEnd_eq s.trim hfind
  obtain ⟨hid, hreq, hout, hst, hleft⟩ := hy
  have hend := d.moves_ended s.trim x y
  have hwake := Core.moves_wake (d.ended s.trim x y) s.trim
  have hexec : exec .segmentEnd s = .next (s.after ((d.ended s.trim x y).wake s.trim)) := by
    show Host.Outcome.next (s.after (Core.segmentEnd s.trim s.core)) = _
    rw [heq]
  have htower (k : Nat) : (s.after ((d.ended s.trim x y).wake s.trim)).core.tower k =
      if (c.tower k).seg = some x.id then (c.tower k).freed (if x.out.fault = 0 then c.clk.total else c.clk.total + 1) else c.tower k := by
    rw [← Core.tower_freeTowers]
    unfold Core.tower
    rw [State.after_towers, show ((d.ended s.trim x y).wake s.trim).towers = (d.ended s.trim x y).towers from hwake.frame .towers rfl,
      show (d.ended s.trim x y).towers = d.towers from hend.frame .towers rfl, htowers]
  refine ⟨_, hexec, fun k hk => ?_, fun k hk => ?_, fun hstep => ?_, fun hstep htr hclose => ?_⟩
  · rw [htower k, if_pos hk]
    exact ⟨rfl, rfl, rfl⟩
  · rw [htower k, if_neg hk]
  · have hnone : y.left = [] := by rw [hleft, hstep]; rfl
    have hended : d.ended s.trim x y = (d.dueSettle.finishSeg s.trim y y.out.fault 0).freeDisabled (x.ctx :: x.img.ctxs) :=
      congrArg (fun e => Core.freeDisabled e _) (if_pos hnone)
    have hfree := Core.moves_freeDisabled (d.dueSettle.finishSeg s.trim y y.out.fault 0) (x.ctx :: x.img.ctxs)
    rw [hended]
    refine ⟨?_, fun ha => ?_⟩
    · rw [State.after_segs]
      rw [← hid]
      exact Core.not_mem_of_segsOf ((Core.KeepsId.wake s.trim _).gone ((Core.KeepsId.of_moves hfree rfl).gone
        (Core.segsOf_of_filter (Core.segs_finishSeg s.trim _ y _ 0))))
    · rw [← hout, ← hreq]
      exact State.completes_of_finishSeg (hmove.mono.then (w := [.ctxs, .pool, .free, .pow, .towers, .dir, .segs]) (Core.moves_dueSettle d)) rfl rfl rfl
        (by rw [hreq]; exact ha) (hfree.dma.trans (Core.moves_wake _ s.trim).dma)
  · obtain ⟨z, hz, hzs⟩ := hclose
    have hsome : y.left ≠ [] := by rw [hleft, if_pos hstep]; exact Core.closing_ne_nil htr hz hzs
    have hended : d.ended s.trim x y = ((d.setSeg { y with status := 0 }).dueSettle).freeDisabled (x.ctx :: x.img.ctxs) :=
      congrArg (fun e => Core.freeDisabled e _) (if_neg hsome)
    rw [hended, State.after_segs]
    have hkeeps : (d.setSeg { y with status := 0 }).KeepsId y.id ((((d.setSeg { y with status := 0 }).dueSettle).freeDisabled (x.ctx :: x.img.ctxs)).wake s.trim) :=
      ((Core.KeepsId.dueSettle _).trans (.of_moves (Core.moves_freeDisabled _ _) rfl)).trans (Core.KeepsId.wake s.trim _)
    intro w hw hwid
    have hfree : (d.setSeg { y with status := 0 }).unparked y.id := fun u hu hi => by
      rw [Core.of_mem_setSeg hu hi]
      show y.st ≠ .parked
      rw [hst]
      decide
    obtain ⟨u, hu, hui, heq⟩ := Core.of_segsOf_eq (hkeeps hfree) hw (hwid.trans hid.symm)
    rw [← Core.st_of_undue heq, Core.of_mem_setSeg hu hui]
    exact hst

end Sys2Proof.Machine

/-! # Segments released (O22) -/

namespace Sys2Proof.Machine

set_option Elab.async false

namespace Core

variable {c d e : Core} {x : Seg}

/-- The first segment that can be released is not outranked. -/
theorem nextRelease_not_outranked {ok : Seg → Bool} {offs : List (Nat × Nat)} (h : c.nextRelease ok = some (x, offs)) : c.outranked x = false := by
  have hfold (xs : List Seg) (r : Option (Seg × List (Nat × Nat))) (hr : ∀ z o, r = some (z, o) → c.outranked z = false) :
      ∀ z o, xs.foldl (fun r s => if ok s && !c.outranked s then match c.releasable s with
        | none => r
        | some offs => match r with
          | none => some (s, offs)
          | some x => if s.before x.1 then some (s, offs) else r
        else r) r = some (z, o) → c.outranked z = false := by
    induction xs generalizing r with
    | nil => exact hr
    | cons s xs ih =>
      refine ih _ (fun z o hz => ?_)
      dsimp only at hz
      split at hz
      · next hs =>
        have hout : c.outranked s = false := by
          rw [Bool.and_eq_true, Bool.not_eq_true'] at hs
          exact hs.2
        have hset {o' : List (Nat × Nat)} (hh : some (s, o') = some (z, o)) : c.outranked z = false := by
          have heq : s = z := congrArg Prod.fst (Option.some.inj hh)
          rw [← heq]
          exact hout
        split at hz
        · exact hr z o hz
        · split at hz
          · exact hset hz
          · split at hz
            · exact hset hz
            · exact hr z o hz
      · exact hr z o hz
  exact hfold c.segs none (fun _ _ h => nomatch h) x offs h

theorem releasable_of_not_outranked (h : c.outranked x = false) {y : Seg} (hy : y ∈ c.segs) (hid : y.id ≠ x.id) (hs : y.shares x = true)
    (hb : y.before x = true) (ho : c.byDefault y = true ∨ c.progSeg y = true) : c.releasable y = none := by
  unfold outranked at h
  have hnot := List.any_eq_false.1 h y hy
  rw [← Option.not_isSome_iff_eq_none]
  intro hsome
  refine hnot ?_
  have hor : (c.byDefault y || c.progSeg y) = true := by simpa using ho
  simp [hid, hs, hb, hor, hsome]

/-! ## The towers of a released segment -/

theorem tower_setTower_of_ne (c : Core) {j k : Nat} (t : Tower) (h : k ≠ j) : (c.setTower j t).tower k = c.tower k := by
  by_cases hj : j < c.towers.length
  · rw [tower_setTower c j k t hj, if_neg h]
  · rw [setTower, List.set_eq_of_length_le (by omega)]

variable (b y : Seg) (offs : List (Nat × Nat))

theorem takeTower_other (c : Core) {j k : Nat} (h : k ≠ j) : (takeTower b y offs c j).tower k = c.tower k := by
  unfold takeTower
  dsimp only
  split
  · exact c.tower_setTower_of_ne _ h
  · split
    · exact c.tower_setTower_of_ne _ h
    · rfl

theorem takeTower_length (c : Core) (j : Nat) : (takeTower b y offs c j).towers.length = c.towers.length := by
  unfold takeTower
  dsimp only
  split
  · exact List.length_set
  · split
    · exact List.length_set
    · rfl

/-- What a tower of a released segment starts from. -/
def TakenBy (k : Nat) (t : Tower) : Prop :=
  ∃ (t0 : Tower) (off now : Nat), (∃ z, y.saved.find? (fun x => x.1 = k) = some z ∧ t = t0.resume b z.2 off now) ∨
    (y.saved.find? (fun x => x.1 = k) = none ∧ ∃ p, y.img.prog k = some p ∧ t = t0.start b p off)

theorem takeTower_same (c : Core) {k : Nat} (hk : k < c.towers.length) {p : TowerProg} (hp : y.img.prog k = some p) :
    TakenBy b y k ((takeTower b y offs c k).tower k) := by
  unfold takeTower
  dsimp only
  split
  · next z hz =>
    rw [tower_setTower _ _ _ _ hk, if_pos rfl]
    exact ⟨_, _, _, .inl ⟨z, hz, rfl⟩⟩
  · next hz =>
    rw [hp]
    dsimp only
    rw [tower_setTower _ _ _ _ hk, if_pos rfl]
    exact ⟨_, _, 0, .inr ⟨hz, p, hp, rfl⟩⟩

theorem takes_other {k : Nat} (ks : List Nat) : ∀ c : Core, k ∉ ks → (ks.foldl (takeTower b y offs) c).tower k = c.tower k := by
  induction ks with
  | nil => exact fun _ _ => rfl
  | cons j ks ih =>
    intro c hk
    rw [List.foldl_cons, ih _ (fun h => hk (List.mem_cons_of_mem _ h)), takeTower_other b y offs c (fun h => hk (by rw [h]; exact List.mem_cons_self))]

theorem takes_same {k : Nat} {p : TowerProg} (hp : y.img.prog k = some p) (ks : List Nat) : ∀ c : Core, k < c.towers.length → k ∈ ks →
    TakenBy b y k ((ks.foldl (takeTower b y offs) c).tower k) := by
  induction ks with
  | nil => exact fun _ _ h => absurd h List.not_mem_nil
  | cons j ks ih =>
    intro c hlen hk
    rw [List.foldl_cons]
    by_cases hrest : k ∈ ks
    · exact ih _ (by rw [takeTower_length]; exact hlen) hrest
    · obtain rfl : k = j := (List.mem_cons.1 hk).resolve_right hrest
      rw [takes_other b y offs ks _ hrest]
      exact takeTower_same b y offs c hlen hp

theorem releaseSeg_tower (c : Core) (y : Seg) (offs : List (Nat × Nat)) (k : Nat) : (c.releaseSeg y offs).tower k = (c.takeTowers y offs).tower k := by
  obtain ⟨d, hmove, heq⟩ := c.releaseSeg_eq y offs
  have htowers : (c.releaseSeg y offs).towers = (c.takeTowers y offs).towers := by
    rw [heq]
    exact hmove.same_towers rfl
  rw [tower, tower, htowers]

/-! ## The words of a save put back -/

/-- From tower `t` to `u` only words of groups change. -/
def Reloads (t u : Tower) : Prop :=
  ∃ gs : List Group, u = { t with groups := gs } ∧ gs.map (fun g => (g.full, g.level)) = t.groups.map (fun g => (g.full, g.level))

theorem Reloads.refl (t : Tower) : Reloads t t := ⟨t.groups, rfl, rfl⟩

theorem Reloads.trans {t u v : Tower} (h : Reloads t u) (g : Reloads u v) : Reloads t v := by
  obtain ⟨gs, rfl, hgs⟩ := h
  obtain ⟨hs, rfl, hhs⟩ := g
  exact ⟨hs, rfl, hhs.trans hgs⟩

theorem reloads_group (t : Tower) (i : Nat) {g : Group} (hg : g.full = (t.groups.getD i .empty).full ∧ g.level = (t.groups.getD i .empty).level) :
    Reloads t { t with groups := t.groups.set i g } := by
  refine ⟨_, rfl, ?_⟩
  by_cases hi : i < t.groups.length
  · rw [List.getD_eq_getElem _ _ hi] at hg
    have hget : (t.groups.map (fun g => (g.full, g.level)))[i]'(by rw [List.length_map]; exact hi) = (t.groups[i].full, t.groups[i].level) :=
      List.getElem_map _
    rw [List.map_set, hg.1, hg.2, ← hget, List.set_getElem_self]
  · rw [List.set_eq_of_length_le (by omega)]

/-- From `c` to `d` a tower changes words of its groups alone. -/
def Restores (c d : Core) : Prop := d.towers.length = c.towers.length ∧ ∀ k, Reloads (c.tower k) (d.tower k)

theorem Restores.trans {c d e : Core} (h : Restores c d) (g : Restores d e) : Restores c e :=
  ⟨g.1.trans h.1, fun k => (h.2 k).trans (g.2 k)⟩

theorem Restores.of_moves {c d : Core} {w : List Part} (h : c.Moves w d) (hw : w.contains .towers = false) : Restores c d := by
  have htowers := h.same_towers hw
  refine ⟨by rw [htowers], fun k => ?_⟩
  rw [tower, tower, htowers]
  exact .refl _

/-- One part of a save put back. -/
def restorePart (s : Seg) (dr : Dram) (c : Core) (x : Nat × Nat × Nat × Nat) : Core :=
  let u := s.savePage x.1 x.2.2.1 x.2.2.2
  let r := c.readPage dr (16384 + s.ctx) u (List.range 64)
  let t := r.1.tower x.2.1
  let g := (t.groups.getD x.2.2.1 .empty).loadLines x.2.2.2 r.2
  (r.1.noDeadline (u % 16) (List.range 64)).setTower x.2.1 { t with groups := t.groups.set x.2.2.1 g }

theorem restoreSeg_eq (c : Core) (dr : Dram) (s : Seg) :
    c.restoreSeg dr s = ((Seg.saveParts s.saved).foldl (restorePart s dr) c).dropSave s := rfl

theorem restores_setTower (c : Core) (j : Nat) {t : Tower} (h : Reloads (c.tower j) t) : Restores c (c.setTower j t) := by
  refine ⟨List.length_set, fun k => ?_⟩
  by_cases hj : j < c.towers.length
  · rw [tower_setTower _ _ _ _ hj]
    split
    · next hk => rw [hk]; exact h
    · exact .refl _
  · rw [setTower, List.set_eq_of_length_le (by omega)]
    exact .refl _

theorem loadLines_kept (g : Group) (p : Nat) (ls : Except Nat (List Line)) : (g.loadLines p ls).full = g.full ∧ (g.loadLines p ls).level = g.level := by
  unfold Group.loadLines
  dsimp only
  exact ⟨rfl, rfl⟩

theorem restores_part (s : Seg) (dr : Dram) (c : Core) (x : Nat × Nat × Nat × Nat) : Restores c (restorePart s dr c x) ∧
    ∀ k, x.2.1 ≠ k → (restorePart s dr c x).tower k = c.tower k := by
  unfold restorePart
  extract_lets u r t g
  have hread : c.Moves [.ctr, .chans] r.1 := (c.moves_readPage dr (16384 + s.ctx) u (List.range 64)).mono
  have hline := r.1.moves_noDeadline (u % 16) (List.range 64)
  have htower (k : Nat) : (r.1.noDeadline (u % 16) (List.range 64)).tower k = r.1.tower k := by rw [tower, tower, hline.same_towers rfl]
  have hback (k : Nat) : r.1.tower k = c.tower k := by rw [tower, tower, hread.same_towers rfl]
  refine ⟨((Restores.of_moves hread rfl).trans (.of_moves hline rfl)).trans (restores_setTower _ _ ?_), fun k hk => ?_⟩
  · rw [htower]
    exact reloads_group t _ (loadLines_kept _ _ _)
  · rw [tower_setTower_of_ne _ _ (Ne.symm hk), htower, hback]

theorem restores_parts (s : Seg) (dr : Dram) (xs : List (Nat × Nat × Nat × Nat)) : ∀ c : Core, Restores c (xs.foldl (restorePart s dr) c) ∧
    ∀ k, (∀ x ∈ xs, x.2.1 ≠ k) → (xs.foldl (restorePart s dr) c).tower k = c.tower k := by
  induction xs with
  | nil => exact fun c => ⟨⟨rfl, fun k => .refl _⟩, fun k _ => rfl⟩
  | cons x xs ih =>
    intro c
    obtain ⟨hpart, hother⟩ := restores_part s dr c x
    obtain ⟨hrest, hsame⟩ := ih (restorePart s dr c x)
    rw [List.foldl_cons]
    refine ⟨hpart.trans hrest, fun k hk => ?_⟩
    exact (hsame k (fun y hy => hk y (List.mem_cons_of_mem _ hy))).trans (hother k (hk x List.mem_cons_self))

theorem saveParts_tower {ts : List (Nat × Tower)} {x : Nat × Nat × Nat × Nat} (hx : x ∈ Seg.saveParts ts) : ∃ z ∈ ts, z.1 = x.2.1 := by
  unfold Seg.saveParts at hx
  obtain ⟨⟨z, i⟩, hz, hx⟩ := List.mem_flatMap.1 hx
  obtain ⟨g, -, hx⟩ := List.mem_flatMap.1 hx
  obtain ⟨p, -, rfl⟩ := List.mem_map.1 hx
  exact ⟨z, (List.mem_zipIdx hz).2.2 ▸ List.getElem_mem _, rfl⟩

/-- The die once the segment is released. -/
theorem release_eq {offs : List (Nat × Nat)} (dr : Dram) (h : c.nextRelease c.byDefault = some (x, offs)) :
    c.release dr = (c.releaseSeg x offs).restoreSeg dr x := by
  unfold release
  simp only [h]

end Core

/-- The commands' release, tower by tower. -/
theorem Core.release_tower (c : Core) (dr : Dram) (x : Seg) (offs : List (Nat × Nat)) (k : Nat) :
    Core.Reloads ((c.takeTowers x offs).tower k) (((c.releaseSeg x offs).restoreSeg dr x).tower k) ∧
    ((∀ z ∈ x.saved, z.1 ≠ k) → ((c.releaseSeg x offs).restoreSeg dr x).tower k = (c.takeTowers x offs).tower k) := by
  obtain ⟨hrest, hsame⟩ := Core.restores_parts x dr (Seg.saveParts x.saved) (c.releaseSeg x offs)
  have hdrop : ((c.releaseSeg x offs).restoreSeg dr x).tower k = ((Seg.saveParts x.saved).foldl (Core.restorePart x dr) (c.releaseSeg x offs)).tower k := by
    rw [Core.restoreSeg_eq, Core.tower, Core.tower, (Core.moves_dropSave _ x).same_towers rfl]
  rw [hdrop, ← Core.releaseSeg_tower c x offs k]
  refine ⟨hrest.2 k, fun hz => hsame k (fun y hy => ?_)⟩
  obtain ⟨z, hmem, heq⟩ := Core.saveParts_tower hy
  rw [← heq]
  exact hz z hmem

/-- Settles O22: the towers of the set are taken one by one, and a save's words come back into their groups alone. -/
theorem segmentsReleased : Obligations.SegmentsReleased := by
  unfold Obligations.SegmentsReleased
  intro s x offs c h
  have hout := Core.nextRelease_not_outranked h
  have hexec : exec .segmentRelease s = .next (s.after ((c.releaseSeg x offs).restoreSeg s.dram x)) := by
    show s.actM (fun c d => (c.release d, d)) = _
    rw [State.actM_next, Core.release_eq s.dram h]
    rfl
  have htower (k : Nat) : (s.after ((c.releaseSeg x offs).restoreSeg s.dram x)).core.tower k = ((c.releaseSeg x offs).restoreSeg s.dram x).tower k := by
    rw [Core.tower, Core.tower, State.after_towers]
  refine ⟨fun y hy hid hs hb ho => Core.releasable_of_not_outranked hout hy hid hs hb ho, _, hexec, fun y hy hid => ?_, fun k hk hlen p hp => ?_,
    fun hz k hk => ?_⟩
  · rw [State.after_segs, show ((c.releaseSeg x offs).restoreSeg s.dram x).segs = (c.releaseSeg x offs).segs from
      (Core.moves_restoreSeg _ s.dram x).frame .segs rfl] at hy
    rw [Core.of_mem_releaseSeg hy hid]
    refine ⟨(c.begun_st x).1, rfl, fun hq => ?_⟩
    have hbegun : c.begun x = _ := if_neg (by rw [hq]; decide)
    rw [hbegun]
    exact ⟨rfl, rfl⟩
  · rw [htower k]
    obtain ⟨⟨gs, heq, hgs⟩, -⟩ := Core.release_tower c s.dram x offs k
    have htaken := Core.takes_same (c.begun x) x offs hp (towersOf x.img.towerSet) c hlen hk
    rw [heq]
    change Core.TakenBy (c.begun x) x k ((c.takeTowers x offs).tower k) at htaken
    have hctx : (c.begun x).ctx = x.ctx := by
      unfold Core.begun
      split <;> rfl
    have hid : some (c.begun x).id = some x.id := by rw [(c.begun_st x).2]
    obtain ⟨t0, off, now, ⟨z, hz, ht⟩ | ⟨hz, p', -, ht⟩⟩ := htaken
    · rw [ht] at hgs ⊢
      refine ⟨rfl, hid, fun hnil => ?_, fun old hold => ?_⟩
      · rw [hnil] at hz
        exact nomatch hz
      · rw [hold] at hz
        have hsome : (k, old) = z := Option.some.inj hz
        rw [← hsome] at hgs ⊢
        exact ⟨rfl, hgs, rfl, rfl⟩
    · rw [ht]
      refine ⟨rfl, hid, fun _ => ⟨rfl, hctx⟩, fun old hold => ?_⟩
      rw [hold] at hz
      exact nomatch hz
  · rw [htower k, (Core.release_tower c s.dram x offs k).2 (fun z hmem heq => hk (heq ▸ hz z hmem))]
    exact Core.takes_other _ x offs _ c hk

end Sys2Proof.Machine

/-! # What a bundle does when it issues (O25)

The four slots of a bundle start operations: of its tower they move planes, groups, holds, the units' times and the operations under way. The
queue sub-ops move its queues, the control slot what its operation says, and the end of the issue beat the registers and the position. -/

namespace Sys2Proof.Machine

set_option Elab.async false

/-! ## The slots -/

section Slots

variable (e : TEnv) (b : Nat) (r : Tower) (o : BOut)

theorem matrixSlot_tower : ∃ (ac sh : List Plane) (ho : List Hold) (ar lo : Nat) (js : List Job), (matrixSlot e b r o).t =
    { o.t with active := ac, shadow := sh, holds := ho, arrayUntil := ar, loadUntil := lo, jobs := o.t.jobs ++ js } := by
  have hsame : ∃ (ac sh : List Plane) (ho : List Hold) (ar lo : Nat) (js : List Job), o.t =
      { o.t with active := ac, shadow := sh, holds := ho, arrayUntil := ar, loadUntil := lo, jobs := o.t.jobs ++ js } :=
    ⟨_, _, _, _, _, [], by rw [List.append_nil]⟩
  unfold matrixSlot
  split
  · dsimp only
    split
    · exact hsame
    · exact ⟨_, _, _, _, _, _, rfl⟩
  · unfold passSlot
    dsimp only
    split
    · exact ⟨_, _, _, _, _, _, rfl⟩
    · exact ⟨_, _, _, _, _, _, rfl⟩
  · exact hsame

theorem deltaSlot_tower : ∃ js : List Job, (deltaSlot e b r o).t = { o.t with jobs := o.t.jobs ++ js } := by
  unfold deltaSlot
  split
  · exact ⟨_, rfl⟩
  · exact ⟨[], by rw [List.append_nil]⟩

theorem vectorSlot_tower : ∃ (ho : List Hold) (ch : Nat) (js : List Job),
    (vectorSlot e b r o).t = { o.t with holds := ho, chainUntil := ch, jobs := o.t.jobs ++ js } := by
  have hsame : ∃ (ho : List Hold) (ch : Nat) (js : List Job), o.t = { o.t with holds := ho, chainUntil := ch, jobs := o.t.jobs ++ js } :=
    ⟨_, _, [], by rw [List.append_nil]⟩
  unfold vectorSlot
  split
  · exact hsame
  · split
    · split
      · exact hsame
      · dsimp only
        split
        · exact ⟨_, _, _, rfl⟩
        · exact ⟨_, _, _, rfl⟩
    · dsimp only
      split
      · exact ⟨_, _, _, rfl⟩
      · exact ⟨_, _, _, rfl⟩

theorem checks_tower (sp : Bool) (g : Nat) (sel : Nat → Bool) : ∃ gs : List Group, gs.length = o.t.groups.length ∧
    (o.checks sp g sel).t = { o.t with groups := gs } := by
  unfold BOut.checks
  split
  · exact ⟨_, by rw [List.length_set]; exact List.length_set, rfl⟩
  · exact ⟨_, List.length_set, rfl⟩

theorem setNodes_tower (t : Tower) (g : Nat) (ns : List (Nat × SMap Nat)) : ∃ gs : List Group, gs.length = t.groups.length ∧
    t.setNodes g ns = { t with groups := gs } := by
  have htwo (a b : Group) : ∃ gs : List Group, gs.length = t.groups.length ∧ (t.setGroup g a).setGroup (g + 1) b = { t with groups := gs } :=
    ⟨_, by rw [List.length_set]; exact List.length_set, rfl⟩
  unfold Tower.setNodes
  split
  · exact htwo _ _
  · exact htwo _ _
  · exact htwo _ _

/-- The groups that the accumulator slot holds. -/
def accGroups (e : TEnv) (b : Nat) : List Nat :=
  (if e.im.spire then [bAGroup b, bAGroup b + 1] else [bAGroup b]) ++
    (if bAop b = 4 then (if e.im.spire then [bGroup2 b, bGroup2 b + 1] else [bGroup2 b]) else [])

/-- The accumulator unit busy, with its groups held, to beat `u`. -/
def BOut.busyAcc (o : BOut) (gs : List Nat) (u : Nat) : BOut := { o with t := { o.t with accUntil := u }.hold gs ⟨4, u, u⟩ }

theorem accSlot_zero (h : bAop b = 1) : accSlot e b r o = BOut.busyAcc
    { o with t := if e.im.spire then o.t.setNodes (bAGroup b) [] else o.t.setGroup (bAGroup b) .empty } (accGroups e b) (e.now + 1) := by
  unfold accSlot accGroups
  rw [h]
  rfl

theorem accSlot_tile (h : bAop b = 2 ∨ bAop b = 3) : accSlot e b r o = (o.busyAcc (accGroups e b) (e.now + 256)).keep
    (.acc ⟨e.opId b 4 r, b, (r.areg (bAReg b)).val, (o.t.group (bAGroup b)).full,
      storeRead o.t.store (tileEntry (r.areg (bAReg b)).val 0) 8, []⟩) := by
  unfold accSlot accGroups
  obtain h | h := h
  · rw [h]
    rfl
  · rw [h]
    rfl

theorem accSlot_copy (h : bAop b = 4) : accSlot e b r o = BOut.busyAcc { o.checks e.im.spire (bAGroup b) (fun _ => true) with
      t := if e.im.spire then (o.checks e.im.spire (bAGroup b) (fun _ => true)).t.setNodes (bGroup2 b) ((o.checks e.im.spire (bAGroup b) (fun _ => true)).t.nodes (bAGroup b))
        else (o.checks e.im.spire (bAGroup b) (fun _ => true)).t.setGroup (bGroup2 b)
          { (o.checks e.im.spire (bAGroup b) (fun _ => true)).t.group (bAGroup b) with full := true, err := [] } } (accGroups e b) (e.now + 256) := by
  unfold accSlot accGroups
  rw [h]
  rfl

theorem accSlot_none (h1 : bAop b ≠ 1) (h2 : bAop b ≠ 2) (h3 : bAop b ≠ 3) (h4 : bAop b ≠ 4) : accSlot e b r o = o := by
  unfold accSlot
  extract_lets
  split
  · next h => exact absurd h h1
  · next h => exact absurd h h2
  · next h => exact absurd h h3
  · next h => exact absurd h h4
  · rfl

theorem busyAcc_tower (gs : List Nat) (u : Nat) : ∃ ho : List Hold, (o.busyAcc gs u).t = { o.t with holds := ho, accUntil := u } := ⟨_, rfl⟩

/-- The accumulator unit's output `w` from `o`: groups, holds, the unit's time and operations are all it moves. -/
def BOut.accFrom (o w : BOut) : Prop :=
  ∃ (gs : List Group) (ho : List Hold) (ab : Nat) (js : List Job), gs.length = o.t.groups.length ∧
    w.t = { o.t with groups := gs, holds := ho, accUntil := ab, jobs := o.t.jobs ++ js }

theorem accFrom_busyAcc {w : BOut} {gs : List Group} (hlen : gs.length = o.t.groups.length) (hw : w.t = { o.t with groups := gs })
    (hs : List Nat) (u : Nat) : o.accFrom (w.busyAcc hs u) := by
  obtain ⟨ho, heq⟩ := busyAcc_tower w hs u
  exact ⟨gs, ho, u, [], hlen, by rw [heq, hw, List.append_nil]⟩

theorem accSlot_tower : o.accFrom (accSlot e b r o) := by
  by_cases h1 : bAop b = 1
  · rw [accSlot_zero e b r o h1]
    by_cases hsp : e.im.spire = true
    · obtain ⟨gs, hlen, heq⟩ := setNodes_tower o.t (bAGroup b) []
      exact accFrom_busyAcc o hlen ((if_pos hsp).trans heq) _ _
    · exact accFrom_busyAcc o (gs := o.t.groups.set (bAGroup b) .empty) List.length_set (if_neg hsp) _ _
  · by_cases h23 : bAop b = 2 ∨ bAop b = 3
    · rw [accSlot_tile e b r o h23]
      exact ⟨_, _, _, _, rfl, rfl⟩
    · by_cases h4 : bAop b = 4
      · rw [accSlot_copy e b r o h4]
        obtain ⟨gs, hlen, heq⟩ := checks_tower o e.im.spire (bAGroup b) (fun _ => true)
        generalize o.checks e.im.spire (bAGroup b) (fun _ => true) = o1 at heq ⊢
        by_cases hsp : e.im.spire = true
        · obtain ⟨gs', hlen', heq'⟩ := setNodes_tower o1.t (bGroup2 b) (o1.t.nodes (bAGroup b))
          exact accFrom_busyAcc o (gs := gs') (by rw [hlen', heq]; exact hlen) ((if_pos hsp).trans (by rw [heq', heq])) _ _
        · refine accFrom_busyAcc o (gs := o1.t.groups.set (bGroup2 b) { o1.t.group (bAGroup b) with full := true, err := [] })
            (by rw [List.length_set, heq]; exact hlen) ((if_neg hsp).trans ?_) _ _
          rw [Tower.setGroup, heq]
      · rw [accSlot_none e b r o h1 (fun h => h23 (.inl h)) (fun h => h23 (.inr h)) h4]
        exact ⟨_, _, _, [], rfl, by rw [List.append_nil]⟩

end Slots

/-! ## The issue -/

/-- What the four slots of a bundle make of a tower whose queues have moved; `r` is the tower whose registers they read. -/
def slotsOut (e : TEnv) (b : Nat) (r y : Tower) : BOut := accSlot e b r (vectorSlot e b r (deltaSlot e b r (matrixSlot e b r (.of y))))

/-- What the slots leave of a tower. -/
def Tower.slotsFrom (y u : Tower) : Prop :=
  ∃ (ac sh : List Plane) (gs : List Group) (ho : List Hold) (ar lo ch ab : Nat) (js : List Job), gs.length = y.groups.length ∧
    u = { y with active := ac, shadow := sh, groups := gs, holds := ho, arrayUntil := ar, loadUntil := lo, chainUntil := ch, accUntil := ab
                 jobs := y.jobs ++ js }

theorem slotsOut_tower (e : TEnv) (b : Nat) (r y : Tower) : y.slotsFrom (slotsOut e b r y).t := by
  obtain ⟨ac, sh, ho, ar, lo, js, hm⟩ := matrixSlot_tower e b r (.of y)
  obtain ⟨js', hd⟩ := deltaSlot_tower e b r (matrixSlot e b r (.of y))
  obtain ⟨ho', ch, js'', hv⟩ := vectorSlot_tower e b r (deltaSlot e b r (matrixSlot e b r (.of y)))
  obtain ⟨gs, ho'', ab, js''', hlen, ha⟩ := accSlot_tower e b r (vectorSlot e b r (deltaSlot e b r (matrixSlot e b r (.of y))))
  refine ⟨ac, sh, gs, ho'', ar, lo, ch, ab, ((js ++ js') ++ js'') ++ js''', ?_, ?_⟩
  · rw [hlen, hv, hd, hm]
    rfl
  · rw [slotsOut, ha, hv, hd, hm]
    simp only [BOut.of, List.append_assoc]

/-- The end of the issue beat: registers, position, and the tower's counts. -/
def Tower.issuedFrom (u x : Tower) (b : Nat) (loads : List (Nat × Nat)) : Tower :=
  { u with
    aregs := x.aregs.zipIdx.map (fun a => aregUpdate b loads a.2 a.1)
    last := some x.sched, pc := (loopNext x.pc (loopPush b x.pc x.loops)).1, loops := (loopNext x.pc (loopPush b x.pc x.loops)).2
    wait := 0, cause := 0, ops := x.ops + 1 }

theorem issueEffect_tower (e : TEnv) (b : Nat) (x y : Tower) (loads : List (Nat × Nat)) :
    (issueEffect e b x y loads).t = (controlSlot e b (slotsOut e b x y)).t.issuedFrom x b loads := rfl

section Control

variable (e : TEnv) {b : Nat} (o : BOut)

theorem controlSlot_barrier (h : bCtl b = 2) : (controlSlot e b o).t =
    if e.im.barriers[bBarrier b]?.map (·.2) == some true then
      { o.t with atBarrier := true, barriers := o.t.barriers + 1, store := [], tags := [], tiles := List.replicate 4 []
                 active := List.replicate 4 .clear, shadow := List.replicate 4 .clear }
    else { o.t with atBarrier := true, barriers := o.t.barriers + 1 } := by
  unfold controlSlot
  rw [h]
  exact apply_ite BOut.t _ _ _

theorem controlSlot_end (h : bCtl b = 3) : (controlSlot e b o).t =
    { o.t with done := true, doneAt := e.now, queues := List.replicate 16 .empty, flightIn := [] } := by
  unfold controlSlot
  rw [h]
  rfl

theorem controlSlot_other (h2 : bCtl b ≠ 2) (h3 : bCtl b ≠ 3) : controlSlot e b o = o := by
  unfold controlSlot
  extract_lets
  split
  · next h => exact absurd h h2
  · next h => exact absurd h h3
  · rfl

end Control

/-- Sub-op `i` of a bundle at tower `t`, with the loads and the poison of the one before. -/
def subOp (e : TEnv) (b : Nat) (t : Tower) (loads : List (Nat × Nat)) (poison : Option (Nat × Nat)) (i : Nat) : QueueRes :=
  if bQop b i = 0 then .ok t loads poison
  else match queueAct (t.queue (bQueue b i)) (bQop b i) with
    | none => if bQop b i = 1 ∨ bQop b i = 3 then .waits else .fault i
    | some (q, k) => .ok (t.setQueue (bQueue b i) (if bQop b i = 2 then q.setEntry k { QEntry.free with freeAt := e.now + 1 } else q))
        (if bQop b i = 1 ∨ bQop b i = 3 then loads ++ [(bQReg b i, slotOf e.prog (bQueue b i) k)] else loads)
        (match poison with
          | some x => some x
          | none => if bQop b i = 1 ∧ ((t.queue (bQueue b i)).entry k).poison ≠ 0 then some (i, ((t.queue (bQueue b i)).entry k).poison) else none)

theorem queueOps_eq (e : TEnv) (b : Nat) (t : Tower) : queueOps e b t = match subOp e b t [] none 0 with
    | .ok t' loads poison => subOp e b t' loads poison 1
    | .waits => .waits
    | .fault i => .fault i := by
  have hfold (g : QueueRes → Nat → QueueRes) (hok : ∀ t l p i, g (.ok t l p) i = subOp e b t l p i) (hwaits : ∀ i, g .waits i = .waits)
      (hfault : ∀ j i, g (.fault j) i = .fault j) : [0, 1].foldl g (.ok t [] none) = match subOp e b t [] none 0 with
        | .ok t' loads poison => subOp e b t' loads poison 1
        | .waits => .waits
        | .fault i => .fault i := by
    rw [List.foldl_cons, List.foldl_cons, List.foldl_nil, hok]
    cases subOp e b t [] none 0 with
    | ok t' loads poison => exact hok _ _ _ _
    | waits => exact hwaits _
    | fault i => exact hfault _ _
  exact hfold _ (fun _ _ _ _ => rfl) (fun _ => rfl) (fun _ _ => rfl)

theorem subOp_tower {e : TEnv} {b i : Nat} {t y : Tower} {l loads : List (Nat × Nat)} {p poison : Option (Nat × Nat)}
    (h : subOp e b t l p i = .ok y loads poison) : ∃ qs : List Queue, y = { t with queues := qs } := by
  unfold subOp at h
  split at h
  · injection h with ht
    exact ⟨t.queues, ht.symm⟩
  · split at h
    · split at h
      · exact nomatch h
      · exact nomatch h
    · injection h with ht
      exact ⟨_, ht.symm⟩

/-- The queue sub-ops move queues alone. -/
theorem queueOps_tower {e : TEnv} {b : Nat} {x y : Tower} {loads : List (Nat × Nat)} {poison : Option (Nat × Nat)}
    (h : queueOps e b x = .ok y loads poison) : ∃ qs : List Queue, y = { x with queues := qs } := by
  rw [queueOps_eq] at h
  split at h
  · next t1 l1 p1 h1 =>
    obtain ⟨qs, rfl⟩ := subOp_tower h1
    obtain ⟨qs', rfl⟩ := subOp_tower h
    exact ⟨qs', rfl⟩
  · exact nomatch h
  · exact nomatch h

/-! ## The segment that a tower sees -/

namespace Core

variable {c : Core} {k : Nat} {sg : Seg} {e : TEnv}

theorem env_spec (h : c.env k = some (sg, e)) : (c.tower k).seg.bind c.seg? = some sg ∧ ∃ p, sg.img.prog k = some p ∧
    e = ⟨sg.img, p, c.clk.total, sg.latches, sg.chain, sg.rules, sg.own⟩ := by
  unfold env at h
  split at h
  · next s hs =>
    split at h
    · next p hp =>
      injection h with h
      injection h with h1 h2
      subst h1
      exact ⟨hs, p, hp, h2.symm⟩
    · exact nomatch h
  · exact nomatch h

theorem env_lt (h : c.env k = some (sg, e)) : k < c.towers.length := by
  obtain ⟨hseg, -⟩ := env_spec h
  by_contra hk
  have hnone : c.tower k = .reset 0 := List.getD_eq_default _ _ (by omega)
  rw [hnone] at hseg
  exact nomatch hseg

theorem env_now (h : c.env k = some (sg, e)) : e.now = c.clk.total := by
  obtain ⟨-, p, -, he⟩ := env_spec h
  rw [he]

/-- What an issued bundle gives beside its tower leaves the towers. -/
theorem issued_towers (c : Core) (s : Seg) (t : Nat) (o : BOut) : (c.issued s t o).towers = (c.setTower t o.t).towers := by
  have hmarks (xs : List (Nat × Nat × Nat)) (d : Core) (n : SegOut) : d.Moves []
      (xs.foldl (fun (r : Core × SegOut) (x : Nat × Nat × Nat) =>
        if r.1.marked { s with out := r.2 } x.1 x.2.1 then r
        else (r.1.raise (r.1.ctxEvent 0x0114 (s.img.ctxs.getD x.1 s.ctx) x.2.1 (x.2.2 / 2 ^ 16) x.2.2 t),
          { r.2 with singular := r.2.singular ++ [x] })) (d, n)).1 :=
    .foldl_fst (r := (d, n)) _ (fun r x => .ite_fst (.refl r.1) (r.1.moves_raise _)) xs
  have hrest : (c.setTower t o.t).Moves [.ctr, .segs] (c.issued s t o) :=
    ((((.foldl _ (fun d e => (d.moves_bundleEvent s t o.frozen e).mono) _ : Moves _ _ _).trans
      (hmarks _ _ _).mono).then (moves_bump _ _ _)).then (moves_bump _ _ _)).then (moves_setSeg _ _)
  exact hrest.same_towers rfl

end Core

/-- Each operation of a bundle has a command that issues the bundle that carries it. -/
theorem issue_of_carries {b k : Nat} {i : Instr} (h : carries b k i) : ∃ sel : Nat → Bool, sel b = true ∧
    ∀ s, exec i s = .next (s.after (Core.issue sel k s.core)) := by
  unfold carries at h
  rcases h with ⟨rfl, h⟩ | ⟨rfl, h⟩ | ⟨rfl, h⟩ | ⟨rfl, h⟩ | ⟨rfl, h⟩ | ⟨rfl, h⟩ | ⟨rfl, h⟩ | ⟨rfl, h⟩ | ⟨rfl, h⟩ | ⟨rfl, h⟩ | ⟨rfl, h⟩ | ⟨rfl, h⟩ |
    ⟨rfl, h⟩ | ⟨rfl, h⟩ | ⟨rfl, h⟩ | ⟨rfl, h⟩ | ⟨rfl, h⟩ | ⟨rfl, h⟩ | ⟨rfl, h⟩ | ⟨rfl, h⟩ | ⟨rfl, h⟩ | ⟨rfl, h⟩ | ⟨rfl, h⟩ | ⟨rfl, h⟩
  all_goals exact ⟨_, by simpa using h, fun _ => rfl⟩

/-! ## A bundle that may issue -/

theorem Core.seg?_setSeg {c : Core} {i : Nat} {s s' : Seg} (h : c.seg? i = some s) (hid : s'.id = s.id) : (c.setSeg s').seg? i = some s' := by
  unfold seg? at h ⊢
  unfold setSeg
  dsimp only
  have hi : s.id = i := by simpa using List.find?_some h
  generalize c.segs = xs at h ⊢
  induction xs with
  | nil => exact nomatch h
  | cons z zs ih =>
    rw [List.map_cons]
    by_cases hz : z.id = i
    · rw [if_pos (by rw [hz, hid, hi]), List.find?_cons_of_pos (by simpa using hid.trans hi)]
    · rw [List.find?_cons_of_neg (by simpa using hz)] at h
      rw [if_neg (by rw [hid, hi]; exact hz), List.find?_cons_of_neg (by simpa using hz)]
      exact ih h

section Issue

variable {c : Core} {k : Nat} {sg : Seg} {e : TEnv} {y : Tower} {loads : List (Nat × Nat)}

/-- The bundle that tower `k` stands before, issued. -/
def Core.effect (c : Core) (k : Nat) (e : TEnv) (y : Tower) (loads : List (Nat × Nat)) : BOut :=
  issueEffect e (e.bundle (c.tower k)) (c.tower k) y loads

theorem Core.issue_of_mayIssue (h : c.mayIssue k sg e y loads) {sel : Nat → Bool} (hsel : sel (e.bundle (c.tower k)) = true) :
    Core.issue sel k c = if (c.effect k e y loads).t.done then (c.issued sg k (c.effect k e y loads)).rowChecks k
      else c.issued sg k (c.effect k e y loads) := by
  obtain ⟨henv, hfault, hhold, hdue, hwaits, hnone, poison, hq⟩ := h
  have htry : tryIssue e (c.tower k) = .issued (c.effect k e y loads) := by
    unfold tryIssue
    simp only [hdue, hwaits, hnone, hq]
    rfl
  unfold Core.issue
  simp only [henv]
  rw [if_neg (by simp [hsel, hhold]), if_neg (by simp [hfault]), htry]

/-- The tower's running state, and what its bundle leaves of it. -/
theorem Core.effect_tower (h : c.mayIssue k sg e y loads) :
    ∃ u : Tower, (∃ qs, y = { c.tower k with queues := qs }) ∧ y.slotsFrom u ∧ (slotsOut e (e.bundle (c.tower k)) (c.tower k) y).t = u ∧
      (c.effect k e y loads).t = (controlSlot e (e.bundle (c.tower k)) (slotsOut e (e.bundle (c.tower k)) (c.tower k) y)).t.issuedFrom
        (c.tower k) (e.bundle (c.tower k)) loads := by
  obtain ⟨-, -, -, -, -, -, poison, hq⟩ := h
  exact ⟨_, queueOps_tower hq, slotsOut_tower e _ _ y, rfl, rfl⟩

theorem Core.not_done_of_mayIssue (h : c.mayIssue k sg e y loads) : (c.tower k).done = false ∧ (c.tower k).atBarrier = false ∧ (c.tower k).st = .running := by
  obtain ⟨-, -, -, hdue, -⟩ := h
  unfold TEnv.isDue at hdue
  simp only [Bool.and_eq_true, decide_eq_true_eq, Bool.not_eq_true'] at hdue
  obtain ⟨⟨⟨⟨⟨⟨hst, hdone⟩, hbar⟩, -⟩, -⟩, -⟩, -⟩ := hdue
  exact ⟨hdone, hbar, hst⟩

/-- What no bundle moves of its tower but at a yield point or at END. -/
theorem Core.effect_keeps (h : c.mayIssue k sg e y loads) :
    (c.effect k e y loads).t.seg = (c.tower k).seg ∧ (c.effect k e y loads).t.sched = (c.tower k).sched ∧
      (c.effect k e y loads).t.st = (c.tower k).st ∧ (c.effect k e y loads).t.checks = (c.tower k).checks ∧
      (bCtl (e.bundle (c.tower k)) ≠ 2 → (c.effect k e y loads).t.store = (c.tower k).store ∧ (c.effect k e y loads).t.tags = (c.tower k).tags) ∧
      (bCtl (e.bundle (c.tower k)) ≠ 3 → (c.effect k e y loads).t.done = false) := by
  obtain ⟨u, ⟨qs, hy⟩, ⟨ac, sh, gs, ho, ar, lo, ch, ab, js, -, hu⟩, hslots, heq⟩ := Core.effect_tower h
  obtain ⟨hdone, -, -⟩ := Core.not_done_of_mayIssue h
  rw [heq]
  rw [← hslots] at hu
  by_cases h2 : bCtl (e.bundle (c.tower k)) = 2
  · rw [controlSlot_barrier e _ h2]
    split
    · rw [hu, hy]
      exact ⟨rfl, rfl, rfl, rfl, fun h => absurd h2 h, fun _ => hdone⟩
    · rw [hu, hy]
      exact ⟨rfl, rfl, rfl, rfl, fun h => absurd h2 h, fun _ => hdone⟩
  · by_cases h3 : bCtl (e.bundle (c.tower k)) = 3
    · rw [controlSlot_end e _ h3, hu, hy]
      exact ⟨rfl, rfl, rfl, rfl, fun _ => ⟨rfl, rfl⟩, fun h => absurd h3 h⟩
    · rw [controlSlot_other e _ h2 h3, hu, hy]
      exact ⟨rfl, rfl, rfl, rfl, fun _ => ⟨rfl, rfl⟩, fun _ => hdone⟩

theorem Core.effect_advanced (h : c.mayIssue k sg e y loads) : (c.tower k).advanced (c.effect k e y loads).t (e.bundle (c.tower k)) := by
  obtain ⟨hseg, hsched, hst, -, -, -⟩ := Core.effect_keeps h
  exact ⟨rfl, rfl, rfl, hseg, hsched, hst⟩

theorem Core.issued_tower (h : c.mayIssue k sg e y loads) (o : BOut) (j : Nat) :
    (c.issued sg k o).tower j = if j = k then o.t else c.tower j := by
  obtain ⟨henv, -⟩ := h
  rw [Core.tower, Core.issued_towers]
  exact Core.tower_setTower c k j o.t (Core.env_lt henv)

end Issue

/-! ## Row checks that END completes -/

/-- A tower but for what a fault of its delta lane stops. -/
def Tower.unstopped (t : Tower) : Tower :=
  { t with st := .idle, fault := ⟨0, 0, 0, 0, 0⟩, flightIn := [], flightOut := [], checks := [], wait := 0, cause := 0, swapLeft := 0, dropped := 0
           queues := [], jobs := [], landing := [] }

/-- An operation but for its delta lane. -/
def Job.unlaned : Job → Job
  | .pass p => .pass { p with lane := none, deltas := [] }
  | j => j

/-- Row checks take tower `t` to `u`: they stop it at most, with its delta lane. -/
structure Tower.Checked (t u : Tower) : Prop where
  rest : u.unstopped = t.unstopped
  queues : t.queues = List.replicate 16 .empty → u.queues = List.replicate 16 .empty
  flight : t.flightIn = [] → u.flightIn = []
  jobs : ∀ j ∈ t.jobs, ∃ j' ∈ u.jobs, j'.unlaned = j.unlaned

namespace Tower.Checked

theorem refl (t : Tower) : t.Checked t := ⟨rfl, id, id, fun j hj => ⟨j, hj, rfl⟩⟩

theorem trans {t u v : Tower} (h : t.Checked u) (g : u.Checked v) : t.Checked v where
  rest := g.rest.trans h.rest
  queues hq := g.queues (h.queues hq)
  flight hf := g.flight (h.flight hf)
  jobs j hj := by
    obtain ⟨j1, hj1, h1⟩ := h.jobs j hj
    obtain ⟨j2, hj2, h2⟩ := g.jobs j1 hj1
    exact ⟨j2, hj2, h2.trans h1⟩

theorem of_checks (t : Tower) (ks : List RowCheck) : t.Checked { t with checks := ks } := ⟨rfl, id, id, fun j hj => ⟨j, hj, rfl⟩⟩

theorem stop (t : Tower) (f : TFault) : t.Checked (t.stop f) where
  rest := rfl
  queues hq := by
    show t.queues.map _ = _
    rw [hq]
    rfl
  flight _ := rfl
  jobs j hj := ⟨j, hj, rfl⟩

theorem stopLane_unlaned (p : PassJob) (m : SMap Nat) (n : Nat) : (Job.pass (p.stopLane m n)).unlaned = (Job.pass p).unlaned := by
  unfold PassJob.stopLane
  split
  · rfl
  · rfl

theorem stopLanes (t : Tower) (n : Nat) : t.Checked (t.stopLanes n) where
  rest := rfl
  queues := id
  flight := id
  jobs j hj := by
    refine ⟨_, List.mem_map_of_mem hj, ?_⟩
    cases j with
    | pass p => exact stopLane_unlaned p t.store n
    | load _ => rfl
    | merge _ => rfl
    | chain _ => rfl
    | rule _ => rfl
    | acc _ => rfl

end Tower.Checked

namespace Core

variable {c : Core} {k : Nat}

/-- Tower `k` sees a program of a segment. -/
def sees (c : Core) (k : Nat) : Prop := ∃ s p, (c.tower k).seg.bind c.seg? = some s ∧ s.img.prog k = some p

theorem env_isSome_of_sees (h : c.sees k) : ∃ s e, c.env k = some (s, e) := by
  obtain ⟨s, p, hs, hp⟩ := h
  unfold env
  simp only [hs, hp]
  exact ⟨_, _, rfl⟩

theorem sees_of_env {s : Seg} {e : TEnv} (h : c.env k = some (s, e)) : c.sees k := by
  obtain ⟨hs, p, hp, -⟩ := env_spec h
  exact ⟨s, p, hs, hp⟩

theorem faultSeg_segs (c : Core) (s : Seg) (code : Nat) :
    (c.faultSeg s code).segs = if s.out.fault = 0 then (c.setSeg { s with out := { s.out with fault := code } }).segs else c.segs := by
  unfold faultSeg
  split
  · exact (moves_endBallast _ s).frame .segs rfl
  · rfl

/-- A fault of tower `k`: it stops, and its segment takes the code if it is the first. -/
theorem towerFault_eq {s : Seg} (h : (c.tower k).seg.bind c.seg? = some s) (hst : (c.tower k).st ≠ .faulted) (f : TFault) (a : Nat) :
    (c.towerFault k f (some a)).towers = (c.setTower k ((c.tower k).stop f)).towers ∧
      (c.towerFault k f (some a)).segs = (c.faultSeg s f.code).segs := by
  unfold towerFault
  simp only [h]
  rw [if_neg hst]
  refine ⟨?_, ?_⟩
  · exact (moves_faultSeg _ _ _).same_towers rfl
  · rw [faultSeg_segs, faultSeg_segs]
    rfl

theorem towerFault_of_faulted (hst : (c.tower k).st = .faulted) (f : TFault) (ev : Option Nat) : c.towerFault k f ev = c := by
  unfold towerFault
  dsimp only
  split
  · rfl
  · exact if_pos hst

/-- From `c` to `d` row checks of tower `k` alone act. -/
structure RowChecked (k : Nat) (c d : Core) : Prop where
  length : d.towers.length = c.towers.length
  other : ∀ j, j ≠ k → d.tower j = c.tower j
  tower : (c.tower k).Checked (d.tower k)
  sees : c.sees k → d.sees k

theorem RowChecked.refl (c : Core) : RowChecked k c c := ⟨rfl, fun _ _ => rfl, .refl _, id⟩

theorem RowChecked.trans {c d e : Core} (h : RowChecked k c d) (g : RowChecked k d e) : RowChecked k c e where
  length := g.length.trans h.length
  other j hj := (g.other j hj).trans (h.other j hj)
  tower := h.tower.trans g.tower
  sees hs := g.sees (h.sees hs)

theorem sees_of_seg {d : Core} (h : c.sees k) (hseg : (d.tower k).seg = (c.tower k).seg) (hsegs : d.segs = c.segs) : d.sees k := by
  obtain ⟨s, p, hs, hp⟩ := h
  refine ⟨s, p, ?_, hp⟩
  rw [hseg, show d.seg? = c.seg? from funext fun i => by rw [seg?, seg?, hsegs]]
  exact hs

theorem rowChecked_setTower (hk : k < c.towers.length) {t : Tower} (ht : (c.tower k).Checked t) : RowChecked k c (c.setTower k t) := by
  have hsame : (c.setTower k t).tower k = t := by rw [tower_setTower _ _ _ _ hk, if_pos rfl]
  refine ⟨List.length_set, fun j hj => tower_setTower_of_ne c t hj, by rw [hsame]; exact ht, fun hs => sees_of_seg hs ?_ rfl⟩
  rw [hsame]
  exact (congrArg Tower.seg ht.rest : t.unstopped.seg = (c.tower k).unstopped.seg)

theorem seg?_faultSeg {i : Nat} {s : Seg} (h : c.seg? i = some s) (code : Nat) : ∃ s', (c.faultSeg s code).seg? i = some s' ∧ s'.img = s.img := by
  have hfind (d : Core) (hd : d.segs = (c.faultSeg s code).segs) : d.seg? i = (c.faultSeg s code).seg? i := by rw [seg?, seg?, hd]
  by_cases h0 : s.out.fault = 0
  · refine ⟨{ s with out := { s.out with fault := code } }, ?_, rfl⟩
    rw [← hfind (c.setSeg { s with out := { s.out with fault := code } }) (by rw [faultSeg_segs, if_pos h0])]
    exact seg?_setSeg h rfl
  · exact ⟨s, by rw [← hfind c (by rw [faultSeg_segs, if_neg h0]), h], rfl⟩

theorem rowChecked_towerFault (hk : k < c.towers.length) (f : TFault) (a : Nat) : RowChecked k c (c.towerFault k f (some a)) := by
  by_cases hst : (c.tower k).st = .faulted
  · rw [towerFault_of_faulted hst]
    exact .refl c
  · cases hs : (c.tower k).seg.bind c.seg? with
    | none =>
      have heq : c.towerFault k f (some a) = c := by
        unfold towerFault
        simp only [hs]
      rw [heq]
      exact .refl c
    | some s =>
      obtain ⟨htowers, hsegs⟩ := towerFault_eq hs hst f a
      have hset := rowChecked_setTower hk (Tower.Checked.stop (c.tower k) f)
      have htower (j : Nat) : (c.towerFault k f (some a)).tower j = (c.setTower k ((c.tower k).stop f)).tower j := by rw [Core.tower, Core.tower, htowers]
      refine ⟨by rw [htowers]; exact hset.length, fun j hj => by rw [htower]; exact hset.other j hj, by rw [htower]; exact hset.tower, fun h => ?_⟩
      obtain ⟨s1, p, hs1, hp⟩ := h
      rw [hs] at hs1
      injection hs1 with hs1
      subst hs1
      obtain ⟨i, hi, hsi⟩ := Option.bind_eq_some_iff.1 hs
      obtain ⟨s', hs', himg⟩ := seg?_faultSeg hsi f.code
      refine ⟨s', p, ?_, by rw [himg]; exact hp⟩
      rw [htower, show ((c.setTower k ((c.tower k).stop f)).tower k).seg = some i by rw [tower_setTower _ _ _ _ hk, if_pos rfl]; exact hi]
      show (c.towerFault k f (some a)).seg? i = some s'
      rw [← hs', seg?, seg?, hsegs]

theorem rowChecked_rowCheck (c : Core) (k : Nat) : RowChecked k c (c.rowCheck k) := by
  unfold rowCheck
  split
  · next s e h hs henv hchecks =>
    have hk := env_lt henv
    have hset := rowChecked_setTower hk (Tower.Checked.of_checks (c.tower k) hs)
    dsimp only
    split
    · exact hset
    · have hstop := rowChecked_setTower hk ((Tower.Checked.of_checks (c.tower k) hs).trans (.stopLanes _ c.clk.total))
      exact hstop.trans (rowChecked_towerFault (by rw [hstop.length]; exact hk) _ _)
  · exact .refl c

theorem rowChecked_rowChecks (c : Core) (k : Nat) : RowChecked k c (c.rowChecks k) := by
  unfold rowChecks
  generalize (c.tower k).checks = ks
  induction ks generalizing c with
  | nil => exact .refl c
  | cons h hs ih => exact (rowChecked_rowCheck c k).trans (ih _)

theorem rowChecks_of_none (h : (c.tower k).checks = []) : c.rowChecks k = c := by
  unfold rowChecks
  rw [h]
  rfl

end Core

/-- The command of an operation that a due bundle carries, and the tower it leaves. -/
theorem exec_of_mayIssue {s : State} {k : Nat} {sg : Seg} {e : TEnv} {y : Tower} {loads : List (Nat × Nat)} (h : s.core.mayIssue k sg e y loads)
    {i : Instr} (hi : carries (e.bundle (s.core.tower k)) k i) : ∃ t, exec i s = .next t ∧ t.core.clk = s.core.clk ∧ t.core.blf = s.core.blf ∧
      (bCtl (e.bundle (s.core.tower k)) ≠ 3 ∨ (s.core.tower k).checks = [] → t.core.tower k = (s.core.effect k e y loads).t) ∧
      ((s.core.effect k e y loads).t.Checked (t.core.tower k)) ∧
      (∀ j, j ≠ k → t.core.tower j = s.core.tower j) := by
  obtain ⟨sel, hsel, hexec⟩ := issue_of_carries hi
  have hmove := s.core.moves_issue sel k
  have htower (j : Nat) : (s.after (Core.issue sel k s.core)).core.tower j = (Core.issue sel k s.core).tower j := by
    rw [Core.tower, Core.tower, State.after_towers]
  have hissued := Core.issued_tower h (s.core.effect k e y loads)
  obtain ⟨-, -, -, hchecks, -, hdone⟩ := Core.effect_keeps h
  have hissue := Core.issue_of_mayIssue h hsel
  have hsame : ((s.core.issued sg k (s.core.effect k e y loads)).tower k) = (s.core.effect k e y loads).t := by rw [hissued k, if_pos rfl]
  refine ⟨_, hexec s, ?_, ?_, fun hno => ?_, ?_, fun j hj => ?_⟩
  · rw [State.after_clk]
    exact hmove.frame .clk rfl
  · rw [State.after_blf]
    exact hmove.frame .blf rfl
  · rw [htower, hissue]
    obtain h3 | hnone := hno
    · rw [if_neg (by simp [hdone h3]), hsame]
    · rw [Core.rowChecks_of_none (by rw [hsame, hchecks, hnone]), ite_self, hsame]
  · rw [htower, hissue, ← hsame]
    split
    · exact (Core.rowChecked_rowChecks _ k).tower
    · exact .refl _
  · rw [htower, hissue]
    split
    · rw [(Core.rowChecked_rowChecks _ k).other j hj, hissued, if_neg hj]
    · rw [hissued, if_neg hj]

/-- Settles O25: all 24 commands are the one issue, which takes the bundle whole. -/
theorem bundlesIssue : Obligations.BundlesIssue := by
  unfold Obligations.BundlesIssue
  refine ⟨fun s k sg e y loads h i hi => ?_, fun s k sg e i henv hfault hi hno => ?_⟩
  · obtain ⟨t, hexec, hclk, hblf, hwhole, hchecked, hother⟩ := exec_of_mayIssue h hi
    obtain ⟨-, -, -, -, hstore, -⟩ := Core.effect_keeps h
    refine ⟨t, hexec, fun h3 => ⟨hwhole h3, by rw [hwhole h3]; exact Core.effect_advanced h⟩, fun h2 => ?_, hother, hclk, hblf⟩
    have hrest := hchecked.rest
    exact ⟨(congrArg Tower.store hrest : (t.core.tower k).unstopped.store = _).trans (hstore h2).1,
      (congrArg Tower.tags hrest : (t.core.tower k).unstopped.tags = _).trans (hstore h2).2⟩
  · have hissue (sel : Nat → Bool) : Core.issue sel k s.core = s.core := by
      unfold Core.issue
      simp only [henv]
      by_cases hsel : (!sel (e.bundle (s.core.tower k)) || s.core.blf.hold != 0) = true
      · exact if_pos hsel
      · have hhold : s.core.blf.hold = 0 := by
          rw [Bool.or_eq_true, not_or] at hsel
          simpa using hsel.2
        rw [if_neg hsel, if_neg (by simp [hfault])]
        unfold tryIssue
        by_cases hdue : e.isDue (s.core.tower k) = true
        · have hwaits : e.waits (s.core.tower k) = true := by
            obtain h | h | h := hno
            · rw [h] at hdue
              exact nomatch hdue
            · exact h
            · exact absurd hhold h
          simp [hdue, hwaits]
        · simp [hdue]
    have hexec : ∃ sel, exec i s = .next (s.after (Core.issue sel k s.core)) := by
      simp only [List.mem_cons, List.not_mem_nil, or_false] at hi
      rcases hi with rfl | rfl | rfl | rfl | rfl | rfl | rfl | rfl | rfl | rfl | rfl | rfl | rfl | rfl | rfl | rfl | rfl | rfl | rfl | rfl | rfl | rfl | rfl | rfl
      all_goals exact ⟨_, rfl⟩
    obtain ⟨sel, hsel⟩ := hexec
    rw [hsel, hissue sel]

end Sys2Proof.Machine

/-! # The control slot and the queue sub-ops (O26) -/

namespace Sys2Proof.Machine

set_option Elab.async false

section Effect

variable {c : Core} {k : Nat} {sg : Seg} {e : TEnv} {y : Tower} {loads : List (Nat × Nat)}

/-! ## Registers and position -/

theorem Tower.areg_issuedFrom (u x : Tower) (b : Nat) (loads : List (Nat × Nat)) {r : Nat} (hr : r < x.aregs.length) :
    (u.issuedFrom x b loads).areg r = aregUpdate b loads r (x.areg r) := by
  unfold Tower.areg Tower.issuedFrom
  dsimp only
  rw [List.getD_eq_getElem _ _ (by rw [List.length_map, List.length_zipIdx]; exact hr), List.getElem_map, List.getElem_zipIdx,
    List.getD_eq_getElem _ _ hr, Nat.zero_add]

theorem Core.effect_areg (c : Core) (k : Nat) (e : TEnv) (y : Tower) (loads : List (Nat × Nat)) {r : Nat} (hr : r < (c.tower k).aregs.length) :
    (c.effect k e y loads).t.areg r = aregUpdate (e.bundle (c.tower k)) loads r ((c.tower k).areg r) :=
  Tower.areg_issuedFrom _ _ _ _ hr

theorem not_loaded {r : Nat} (h : ∀ l ∈ loads, l.1 ≠ r) : (loads.filter (·.1 = r)).getLast? = none := by
  rw [List.filter_eq_nil_iff.2 (fun l hl => by simpa using h l hl)]
  rfl

theorem aregUpdate_set {b r : Nat} (a : AReg) (h : ∀ l ∈ loads, l.1 ≠ r) (hctl : bCtl b = 4) (hreg : bCReg b = r) :
    (aregUpdate b loads r a).val = bCVal b := by
  unfold aregUpdate
  dsimp only
  rw [not_loaded h]
  exact if_pos ⟨hctl, hreg⟩

theorem aregUpdate_add {b r : Nat} (a : AReg) (h : ∀ l ∈ loads, l.1 ≠ r) (hctl : bCtl b = 5) (hreg : bCReg b = r) (hm : bMop b = 0)
    (hd : bDop b = 0) (hv : bVop b = 0) (ha : bAop b = 0) : (aregUpdate b loads r a).val = adr (a.val + bCVal b) := by
  unfold aregUpdate
  dsimp only
  rw [not_loaded h]
  simp [hctl, hreg, hm, hd, hv, ha]

theorem aregUpdate_step {b r : Nat} (a : AReg) (loads : List (Nat × Nat)) (hctl : bCtl b = 6) (hreg : bCReg b = r) :
    (aregUpdate b loads r a).step = bCVal b := if_pos ⟨hctl, hreg⟩

theorem aregUpdate_load {b r v : Nat} (a : AReg) : (aregUpdate b [(r, v)] r a).val = v := by
  unfold aregUpdate
  simp

theorem loopNext_push {b pc : Nat} {ls : List LoopFrame} (hctl : bCtl b = 1) (hbody : 1 < bLoopBody b) (hno : ls.any (fun l => l.first = pc) = false) :
    loopNext pc (loopPush b pc ls) = (pc + 1, ⟨pc, pc + bLoopBody b - 1, bLoopCount b - 1⟩ :: ls) := by
  unfold loopPush
  rw [if_pos ⟨hctl, by rw [hno]; rfl⟩]
  unfold loopNext
  exact if_pos (by dsimp only; omega)

/-! ## Slots that start nothing -/

theorem slotsOut_none {b : Nat} (x y : Tower) (hm : bMop b = 0) (hd : bDop b = 0) (hv : bVop b = 0) (ha : bAop b = 0) : slotsOut e b x y = .of y := by
  have hmat : matrixSlot e b x (.of y) = .of y := by
    unfold matrixSlot
    rw [hm]
    rfl
  have hdel : deltaSlot e b x (.of y) = .of y := if_neg (by omega)
  have hvec : vectorSlot e b x (.of y) = .of y := if_pos hv
  rw [slotsOut, hmat, hdel, hvec, accSlot_none e b x _ (by omega) (by omega) (by omega) (by omega)]

/-! ## The queue sub-ops -/

theorem subOp_none (e : TEnv) {b i : Nat} (t : Tower) (l : List (Nat × Nat)) (p : Option (Nat × Nat)) (h : bQop b i = 0) :
    subOp e b t l p i = .ok t l p := if_pos h

/-- With no second sub-op the first makes the tower. -/
theorem first_of_queueOps {b : Nat} {x : Tower} {poison : Option (Nat × Nat)} (h : queueOps e b x = .ok y loads poison) (h1 : bQop b 1 = 0) :
    subOp e b x [] none 0 = .ok y loads poison := by
  rw [queueOps_eq] at h
  split at h
  · next t l p hs =>
    rw [subOp_none e t l p h1] at h
    rw [hs, h]
  · exact nomatch h
  · exact nomatch h

/-- A sub-op that acts: the queue and the entry it took, and what it loads. -/
theorem subOp_acts {b : Nat} {x : Tower} {poison : Option (Nat × Nat)} (h : subOp e b x [] none 0 = .ok y loads poison) (h0 : bQop b 0 ≠ 0) :
    ∃ q j, queueAct (x.queue (bQueue b 0)) (bQop b 0) = some (q, j) ∧
      y = x.setQueue (bQueue b 0) (if bQop b 0 = 2 then q.setEntry j { QEntry.free with freeAt := e.now + 1 } else q) ∧
      loads = if bQop b 0 = 1 ∨ bQop b 0 = 3 then [(bQReg b 0, slotOf e.prog (bQueue b 0) j)] else [] := by
  unfold subOp at h
  rw [if_neg h0] at h
  split at h
  · split at h
    · exact nomatch h
    · exact nomatch h
  · next q j hq =>
    injection h with ht hl hp
    exact ⟨q, j, hq, ht.symm, hl.symm.trans (by simp)⟩

theorem of_acted {p : Prop} [Decidable p] {a : Queue × Nat} {q : Queue} {j : Nat} (h : (if p then some a else none) = some (q, j)) :
    p ∧ q = a.1 ∧ j = a.2 := by
  obtain ⟨hp, ha⟩ := Option.ite_none_right_eq_some.1 h
  rw [Option.some.inj ha]
  exact ⟨hp, rfl, rfl⟩

theorem queueAct_pop {w q : Queue} {j : Nat} (h : queueAct w 1 = some (q, j)) : (w.entry w.mid).st = .present ∧
    q = { w.setEntry w.mid { w.entry w.mid with st := .inUse } with mid := (w.mid + 1) % 16 } ∧ j = w.mid :=
  of_acted h

theorem queueAct_retire {w q : Queue} {j : Nat} (h : queueAct w 2 = some (q, j)) : (w.entry w.tail).st = .inUse ∧
    q = { w.setEntry w.tail .free with tail := (w.tail + 1) % 16 } ∧ j = w.tail :=
  of_acted h

theorem queueAct_open {w q : Queue} {j : Nat} (h : queueAct w 3 = some (q, j)) : (w.entry w.head).st = .free ∧
    q = { w.setEntry w.head { w.entry w.head with st := .opened } with head := (w.head + 1) % 16 } ∧ j = w.head :=
  of_acted h

theorem queueAct_push {w q : Queue} {j : Nat} (h : queueAct w 4 = some (q, j)) : (w.entry w.mid).st = .opened ∧
    q = { w.setEntry w.mid { w.entry w.mid with st := .pushed } with mid := (w.mid + 1) % 16 } ∧ j = w.mid :=
  of_acted h

/-- A bundle that is no END leaves the queues as its sub-ops moved them. -/
theorem Core.effect_queues (h : c.mayIssue k sg e y loads) (h3 : bCtl (e.bundle (c.tower k)) ≠ 3) : (c.effect k e y loads).t.queues = y.queues := by
  obtain ⟨u, -, ⟨ac, sh, gs, ho, ar, lo, ch, ab, js, -, hu⟩, hslots, heq⟩ := Core.effect_tower h
  rw [heq]
  rw [← hslots] at hu
  by_cases h2 : bCtl (e.bundle (c.tower k)) = 2
  · rw [controlSlot_barrier e _ h2]
    split
    · rw [hu]; rfl
    · rw [hu]; rfl
  · rw [controlSlot_other e _ h2 h3, hu]
    rfl

end Effect

/-! ## Row checks at END -/

namespace Core

variable {c : Core} {k : Nat} {sg : Seg} {e : TEnv} {y : Tower} {loads : List (Nat × Nat)}

theorem issued_segs (c : Core) (s : Seg) (t : Nat) (o : BOut) : ∃ out : SegOut, out.fault = s.out.fault ∧
    out.frozen = s.out.frozen ++ o.frozen ∧ (c.issued s t o).segs = (c.setSeg { s with out := out }).segs := by
  let mark (r : Core × SegOut) (x : Nat × Nat × Nat) : Core × SegOut := if r.1.marked { s with out := r.2 } x.1 x.2.1 then r
    else (r.1.raise (r.1.ctxEvent 0x0114 (s.img.ctxs.getD x.1 s.ctx) x.2.1 (x.2.2 / 2 ^ 16) x.2.2 t), { r.2 with singular := r.2.singular ++ [x] })
  have hmarks (xs : List (Nat × Nat × Nat)) : ∀ r : Core × SegOut, (xs.foldl mark r).1.segs = r.1.segs ∧ (xs.foldl mark r).2.fault = r.2.fault ∧
      (xs.foldl mark r).2.frozen = r.2.frozen := by
    induction xs with
    | nil => exact fun r => ⟨rfl, rfl, rfl⟩
    | cons x xs ih =>
      intro r
      obtain ⟨h1, h2, h3⟩ := ih (mark r x)
      have hone : (mark r x).1.segs = r.1.segs ∧ (mark r x).2.fault = r.2.fault ∧ (mark r x).2.frozen = r.2.frozen := by
        dsimp only [mark]
        split
        · exact ⟨rfl, rfl, rfl⟩
        · exact ⟨rfl, rfl, rfl⟩
      exact ⟨h1.trans hone.1, h2.trans hone.2.1, h3.trans hone.2.2⟩
  let d := o.events.foldl (fun (c : Core) e => c.bundleEvent s t o.frozen e) (c.setTower t o.t)
  have hevents : (c.setTower t o.t).Moves [] d := .foldl _ (fun d e => (d.moves_bundleEvent s t o.frozen e).mono) _
  obtain ⟨h1, h2, h3⟩ := hmarks o.singular (d, s.out)
  let r := o.singular.foldl mark (d, s.out)
  let d2 := (r.1.bump (twrBase t + 0xC0) o.arrayBeats).bump (twrBase t + 0xC8) o.laneBeats
  have hbumps : d2.segs = c.segs := by
    rw [show d2.segs = r.1.segs from ((moves_bump _ _ _).trans (moves_bump _ _ _)).frame .segs rfl]
    exact h1.trans (hevents.frame .segs rfl)
  refine ⟨{ r.2 with reports := r.2.reports ++ o.reports.map (fun x => (t, x.1, x.2)), pages := r.2.pages ++ o.pages
                     frozen := r.2.frozen ++ o.frozen }, h2, congrArg (· ++ o.frozen) h3, ?_⟩
  show (d2.setSeg _).segs = _
  unfold setSeg
  rw [hbumps]

theorem sees_issued (h : c.mayIssue k sg e y loads) : (c.issued sg k (c.effect k e y loads)).sees k := by
  have henv := h.1
  obtain ⟨hs, p, hp, -⟩ := env_spec henv
  obtain ⟨i, hi, hsi⟩ := Option.bind_eq_some_iff.1 hs
  obtain ⟨out, -, -, hsegs⟩ := c.issued_segs sg k (c.effect k e y loads)
  refine ⟨{ sg with out := out }, p, ?_, hp⟩
  rw [issued_tower h, if_pos rfl, (effect_keeps h).1, hi]
  show (c.issued sg k (c.effect k e y loads)).seg? i = _
  rw [seg?, hsegs]
  exact seg?_setSeg hsi rfl

theorem rowCheck_checks (h : c.sees k) (hk : k < c.towers.length) {r : RowCheck} {rs : List RowCheck} (hr : (c.tower k).checks = r :: rs) :
    ((c.rowCheck k).tower k).checks = rs ∨ ((c.rowCheck k).tower k).checks = [] := by
  obtain ⟨s, e, henv⟩ := env_isSome_of_sees h
  have hset (t : Tower) : (c.setTower k t).tower k = t := by rw [tower_setTower _ _ _ _ hk, if_pos rfl]
  unfold rowCheck
  simp only [henv, hr]
  split
  · left
    rw [hset]
  · generalize hx : ({ c.tower k with checks := rs } : Tower).stopLanes c.clk.total = x
    have hchecks : x.checks = rs := by rw [← hx]; rfl
    generalize (⟨0x010F, 2, r.group, r.bundle, r.sched⟩ : TFault) = f
    by_cases hst : ((c.setTower k x).tower k).st = .faulted
    · rw [towerFault_of_faulted hst, hset]
      exact .inl hchecks
    · obtain ⟨s', p', hs', -⟩ := (rowChecked_setTower hk (t := x) (hx ▸ (Tower.Checked.of_checks (c.tower k) rs).trans (.stopLanes _ _))).sees h
      obtain ⟨htowers, -⟩ := towerFault_eq hs' hst f s.ctx
      right
      rw [Core.tower, htowers]
      show (((c.setTower k x).setTower k (((c.setTower k x).tower k).stop f)).tower k).checks = []
      rw [tower_setTower _ _ _ _ (by rw [setTower, List.length_set]; exact hk), if_pos rfl]
      rfl

theorem rowCheck_of_none (h : (c.tower k).checks = []) : c.rowCheck k = c := by
  unfold rowCheck
  rw [h]
  split
  · next hnil => exact nomatch hnil
  · rfl

theorem rowChecks_checks (h : c.sees k) (hk : k < c.towers.length) : ((c.rowChecks k).tower k).checks = [] := by
  have hfold (ks : List RowCheck) : ∀ c : Core, c.sees k → k < c.towers.length → (c.tower k).checks = ks ∨ (c.tower k).checks = [] →
      ((ks.foldl (fun (c : Core) _ => c.rowCheck k) c).tower k).checks = [] := by
    induction ks with
    | nil => exact fun c _ _ h => h.elim id id
    | cons r rs ih =>
      intro c hs hlen hks
      have hstep := rowChecked_rowCheck c k
      refine ih _ (hstep.sees hs) (by rw [hstep.length]; exact hlen) ?_
      obtain hr | hnone := hks
      · exact rowCheck_checks hs hlen hr
      · dsimp only
        rw [rowCheck_of_none hnone]
        exact .inr hnone
  exact hfold _ c h hk (.inl rfl)

end Core

/-- END completes every row check, whatever each gives. -/
theorem exec_endSeg_checks {s : State} {k : Nat} {sg : Seg} {e : TEnv} {y : Tower} {loads : List (Nat × Nat)} (h : s.core.mayIssue k sg e y loads)
    (h3 : bCtl (e.bundle (s.core.tower k)) = 3) : ∃ t, exec (.endSeg k) s = .next t ∧ (t.core.tower k).checks = [] := by
  have hissue := Core.issue_of_mayIssue h (sel := fun b => bCtl b = 3) (by simpa using h3)
  have hdone : (s.core.effect k e y loads).t.done = true := by
    obtain ⟨u, -, -, -, heq⟩ := Core.effect_tower h
    rw [heq, controlSlot_end e _ h3]
    rfl
  rw [if_pos hdone] at hissue
  refine ⟨_, rfl, ?_⟩
  show ((s.after (Core.issue (fun b => bCtl b = 3) k s.core)).core.tower k).checks = []
  rw [Core.tower, State.after_towers]
  show ((Core.issue (fun b => bCtl b = 3) k s.core).tower k).checks = []
  rw [hissue]
  refine Core.rowChecks_checks (Core.sees_issued h) ?_
  rw [Core.issued_towers, Core.setTower, List.length_set]
  exact Core.env_lt h.1

/-! ## The commands -/

theorem bHasQ_of_first {b op : Nat} (h : bQop b 0 = op) : bHasQ op b = true := by simp [bHasQ, h]

section Control

variable {s : State} {k : Nat} {sg : Seg} {e : TEnv} {y : Tower} {loads : List (Nat × Nat)} (h : s.core.mayIssue k sg e y loads)

include h

/-- An operation of a bundle that is no END. -/
theorem exec_whole {i : Instr} (hi : carries (e.bundle (s.core.tower k)) k i) (h3 : bCtl (e.bundle (s.core.tower k)) ≠ 3) :
    ∃ t, exec i s = .next t ∧ t.core.tower k = (s.core.effect k e y loads).t := by
  obtain ⟨t, hexec, -, -, hwhole, -⟩ := exec_of_mayIssue h hi
  exact ⟨t, hexec, hwhole (.inl h3)⟩

theorem exec_nop (hb : bEmpty (e.bundle (s.core.tower k)) = true) : ∃ t, exec (.nop k) s = .next t ∧
    (s.core.tower k).advanced (t.core.tower k) (e.bundle (s.core.tower k)) ∧ (t.core.tower k).store = (s.core.tower k).store ∧
    (t.core.tower k).groups = (s.core.tower k).groups ∧ (t.core.tower k).active = (s.core.tower k).active ∧
    (t.core.tower k).shadow = (s.core.tower k).shadow ∧ (t.core.tower k).queues = (s.core.tower k).queues := by
  have hempty := hb
  unfold bEmpty at hempty
  simp only [Bool.and_eq_true, decide_eq_true_eq] at hempty
  obtain ⟨⟨⟨⟨⟨⟨hctl, hm⟩, hd⟩, hv⟩, ha⟩, hq0⟩, hq1⟩ := hempty
  obtain ⟨t, hexec, htower⟩ := exec_whole h (i := .nop k) (.inl ⟨rfl, hb⟩) (by omega)
  obtain ⟨-, -, -, -, -, -, poison, hq⟩ := h
  have hy : s.core.tower k = y := by
    have hfirst := first_of_queueOps hq hq1
    rw [subOp_none e _ _ _ hq0] at hfirst
    injection hfirst
  have heffect : (s.core.effect k e y loads).t = y.issuedFrom (s.core.tower k) (e.bundle (s.core.tower k)) loads := by
    rw [Core.effect, issueEffect_tower, slotsOut_none _ _ hm hd hv ha, controlSlot_other e _ (by omega) (by omega)]
    rfl
  refine ⟨t, hexec, ?_⟩
  rw [htower, heffect, ← hy]
  exact ⟨⟨rfl, rfl, rfl, rfl, rfl, rfl⟩, rfl, rfl, rfl, rfl, rfl⟩

theorem exec_loop (hctl : bCtl (e.bundle (s.core.tower k)) = 1) (hbody : 1 < bLoopBody (e.bundle (s.core.tower k)))
    (hno : (s.core.tower k).loops.any (fun l => l.first = (s.core.tower k).pc) = false) :
    ∃ t, exec (.loop k) s = .next t ∧ (t.core.tower k).pc = (s.core.tower k).pc + 1 ∧
      (t.core.tower k).loops = ⟨(s.core.tower k).pc, (s.core.tower k).pc + bLoopBody (e.bundle (s.core.tower k)) - 1,
        bLoopCount (e.bundle (s.core.tower k)) - 1⟩ :: (s.core.tower k).loops := by
  obtain ⟨t, hexec, htower⟩ := exec_whole h (i := .loop k) (.inr (.inl ⟨rfl, hctl⟩)) (by omega)
  obtain ⟨-, hpos, -⟩ := Core.effect_advanced h
  rw [loopNext_push hctl hbody hno] at hpos
  injection hpos with hpc hloops
  refine ⟨t, hexec, ?_⟩
  rw [htower]
  exact ⟨hpc, hloops⟩

theorem exec_barrier (hctl : bCtl (e.bundle (s.core.tower k)) = 2) :
    ∃ t, exec (.barrier k) s = .next t ∧ (t.core.tower k).atBarrier = true ∧ (t.core.tower k).barriers = (s.core.tower k).barriers + 1 ∧
      (e.im.barriers[bBarrier (e.bundle (s.core.tower k))]?.map (·.2) = some true →
        (t.core.tower k).store = [] ∧ (t.core.tower k).active = List.replicate 4 .clear ∧ (t.core.tower k).shadow = List.replicate 4 .clear) := by
  obtain ⟨t, hexec, htower⟩ := exec_whole h (i := .barrier k) (.inr (.inr (.inl ⟨rfl, hctl⟩))) (by omega)
  obtain ⟨u, ⟨qs, hy⟩, ⟨ac, sh, gs, ho, ar, lo, ch, ab, js, -, hu⟩, hslots, heq⟩ := Core.effect_tower h
  refine ⟨t, hexec, ?_⟩
  rw [htower, heq, controlSlot_barrier e _ hctl, hslots, hu, hy]
  split
  · exact ⟨rfl, rfl, fun _ => ⟨rfl, rfl, rfl⟩⟩
  · next hno => exact ⟨rfl, rfl, fun hyes => absurd (by rw [hyes]; rfl) hno⟩

theorem exec_endSeg (hctl : bCtl (e.bundle (s.core.tower k)) = 3) :
    ∃ t, exec (.endSeg k) s = .next t ∧ (t.core.tower k).done = true ∧ (t.core.tower k).doneAt = s.core.clk.total ∧
      (t.core.tower k).queues = List.replicate 16 .empty ∧ (t.core.tower k).flightIn = [] ∧ (t.core.tower k).checks = [] := by
  obtain ⟨t, hexec, -, -, -, hchecked, -⟩ := exec_of_mayIssue h (i := .endSeg k) (.inr (.inr (.inr (.inl ⟨rfl, hctl⟩))))
  obtain ⟨t', hexec', hchecks⟩ := exec_endSeg_checks h hctl
  rw [hexec'] at hexec
  injection hexec with hsame
  subst hsame
  obtain ⟨u, -, -, -, heq⟩ := Core.effect_tower h
  rw [controlSlot_end e _ hctl] at heq
  have hrest := hchecked.rest
  refine ⟨t', hexec', (congrArg Tower.done hrest : (t'.core.tower k).unstopped.done = _).trans ?_,
    (congrArg Tower.doneAt hrest : (t'.core.tower k).unstopped.doneAt = _).trans ?_, hchecked.queues ?_, hchecked.flight ?_, hchecks⟩
  · rw [heq]; rfl
  · rw [← Core.env_now h.1, heq]; rfl
  · rw [heq]; rfl
  · rw [heq]; rfl

theorem exec_aregSet (hctl : bCtl (e.bundle (s.core.tower k)) = 4) (hr : bCReg (e.bundle (s.core.tower k)) < (s.core.tower k).aregs.length)
    (hl : ∀ l ∈ loads, l.1 ≠ bCReg (e.bundle (s.core.tower k))) : ∃ t, exec (.aregSet k) s = .next t ∧
      ((t.core.tower k).areg (bCReg (e.bundle (s.core.tower k)))).val = bCVal (e.bundle (s.core.tower k)) := by
  obtain ⟨t, hexec, htower⟩ := exec_whole h (i := .aregSet k) (.inr (.inr (.inr (.inr (.inl ⟨rfl, hctl⟩))))) (by omega)
  refine ⟨t, hexec, ?_⟩
  rw [htower, Core.effect_areg _ _ _ _ _ hr]
  exact aregUpdate_set _ hl hctl rfl

theorem exec_aregAdd (hctl : bCtl (e.bundle (s.core.tower k)) = 5) (hm : bMop (e.bundle (s.core.tower k)) = 0)
    (hd : bDop (e.bundle (s.core.tower k)) = 0) (hv : bVop (e.bundle (s.core.tower k)) = 0) (ha : bAop (e.bundle (s.core.tower k)) = 0)
    (hr : bCReg (e.bundle (s.core.tower k)) < (s.core.tower k).aregs.length) (hl : ∀ l ∈ loads, l.1 ≠ bCReg (e.bundle (s.core.tower k))) :
    ∃ t, exec (.aregAdd k) s = .next t ∧ ((t.core.tower k).areg (bCReg (e.bundle (s.core.tower k)))).val =
      adr (((s.core.tower k).areg (bCReg (e.bundle (s.core.tower k)))).val + bCVal (e.bundle (s.core.tower k))) := by
  obtain ⟨t, hexec, htower⟩ := exec_whole h (i := .aregAdd k) (.inr (.inr (.inr (.inr (.inr (.inl ⟨rfl, hctl⟩)))))) (by omega)
  refine ⟨t, hexec, ?_⟩
  rw [htower, Core.effect_areg _ _ _ _ _ hr]
  exact aregUpdate_add _ hl hctl rfl hm hd hv ha

theorem exec_aregStep (hctl : bCtl (e.bundle (s.core.tower k)) = 6) (hr : bCReg (e.bundle (s.core.tower k)) < (s.core.tower k).aregs.length) :
    ∃ t, exec (.aregStep k) s = .next t ∧
      ((t.core.tower k).areg (bCReg (e.bundle (s.core.tower k)))).step = bCVal (e.bundle (s.core.tower k)) := by
  obtain ⟨t, hexec, htower⟩ := exec_whole h (i := .aregStep k) (.inr (.inr (.inr (.inr (.inr (.inr (.inl ⟨rfl, hctl⟩))))))) (by omega)
  refine ⟨t, hexec, ?_⟩
  rw [htower, Core.effect_areg _ _ _ _ _ hr]
  exact aregUpdate_step _ _ hctl rfl

/-! ## The queue sub-ops alone -/

/-- The queues after a bundle whose first sub-op acts and which holds no second one and no END. -/
theorem effect_of_acts (h1 : bQop (e.bundle (s.core.tower k)) 1 = 0) (h3 : bCtl (e.bundle (s.core.tower k)) ≠ 3)
    (h0 : bQop (e.bundle (s.core.tower k)) 0 ≠ 0) :
    ∃ q j, queueAct ((s.core.tower k).queue (bQueue (e.bundle (s.core.tower k)) 0)) (bQop (e.bundle (s.core.tower k)) 0) = some (q, j) ∧
      (s.core.effect k e y loads).t.queues = (s.core.tower k).queues.set (bQueue (e.bundle (s.core.tower k)) 0)
        (if bQop (e.bundle (s.core.tower k)) 0 = 2 then q.setEntry j { QEntry.free with freeAt := s.core.clk.total + 1 } else q) ∧
      loads = if bQop (e.bundle (s.core.tower k)) 0 = 1 ∨ bQop (e.bundle (s.core.tower k)) 0 = 3
        then [(bQReg (e.bundle (s.core.tower k)) 0, slotOf e.prog (bQueue (e.bundle (s.core.tower k)) 0) j)] else [] := by
  have hqueues := Core.effect_queues h h3
  have hnow := Core.env_now h.1
  obtain ⟨-, -, -, -, -, -, poison, hq⟩ := h
  obtain ⟨q, j, hact, hy, hloads⟩ := subOp_acts (first_of_queueOps hq h1) h0
  refine ⟨q, j, hact, ?_, hloads⟩
  rw [hqueues, hy, hnow]
  rfl

omit h in
theorem loaded_areg (hr : bQReg (e.bundle (s.core.tower k)) 0 < (s.core.tower k).aregs.length) {v : Nat}
    (hl : loads = [(bQReg (e.bundle (s.core.tower k)) 0, v)]) :
    ((s.core.effect k e y loads).t.areg (bQReg (e.bundle (s.core.tower k)) 0)).val = v := by
  rw [Core.effect_areg _ _ _ _ _ hr, hl]
  exact aregUpdate_load _

/-- A command of a queue sub-op that stands alone. -/
theorem exec_queueOp (h1 : bQop (e.bundle (s.core.tower k)) 1 = 0) (h3 : bCtl (e.bundle (s.core.tower k)) ≠ 3)
    (hr : bQReg (e.bundle (s.core.tower k)) 0 < (s.core.tower k).aregs.length) {i : Instr} (hi : carries (e.bundle (s.core.tower k)) k i) {op : Nat}
    (hop : op ≠ 0) (h0 : bQop (e.bundle (s.core.tower k)) 0 = op) :
    ∃ t q j, exec i s = .next t ∧ queueAct ((s.core.tower k).queue (bQueue (e.bundle (s.core.tower k)) 0)) op = some (q, j) ∧
      (t.core.tower k).queues = (s.core.tower k).queues.set (bQueue (e.bundle (s.core.tower k)) 0)
        (if op = 2 then q.setEntry j { QEntry.free with freeAt := s.core.clk.total + 1 } else q) ∧
      (op = 1 ∨ op = 3 → ((t.core.tower k).areg (bQReg (e.bundle (s.core.tower k)) 0)).val = slotOf e.prog (bQueue (e.bundle (s.core.tower k)) 0) j) := by
  obtain ⟨t, hexec, htower⟩ := exec_whole h hi h3
  obtain ⟨q, j, hact, hqueues, hloads⟩ := effect_of_acts h h1 h3 (h0 ▸ hop)
  rw [h0] at hact hqueues hloads
  refine ⟨t, q, j, hexec, hact, by rw [htower, hqueues], fun hload => ?_⟩
  rw [if_pos hload] at hloads
  rw [htower]
  exact loaded_areg hr hloads

theorem exec_pop (h1 : bQop (e.bundle (s.core.tower k)) 1 = 0) (h3 : bCtl (e.bundle (s.core.tower k)) ≠ 3)
    (hr : bQReg (e.bundle (s.core.tower k)) 0 < (s.core.tower k).aregs.length) {q : Nat} (hq : bQueue (e.bundle (s.core.tower k)) 0 = q) {w : Queue}
    (hw : (s.core.tower k).queue q = w) (h0 : bQop (e.bundle (s.core.tower k)) 0 = 1) :
    ∃ t, exec (.pop k) s = .next t ∧ (w.entry w.mid).st = .present ∧ (t.core.tower k).queues = (s.core.tower k).queues.set q
        { w.setEntry w.mid { w.entry w.mid with st := .inUse } with mid := (w.mid + 1) % 16 } ∧
      ((t.core.tower k).areg (bQReg (e.bundle (s.core.tower k)) 0)).val = slotOf e.prog q w.mid := by
  have hcarries : carries (e.bundle (s.core.tower k)) k (.pop k) := by simp [carries, bHasQ_of_first h0]
  obtain ⟨t, q', j, hexec, hact, hqueues, hload⟩ := exec_queueOp h h1 h3 hr hcarries one_ne_zero h0
  rw [hq] at hact hqueues hload
  rw [hw] at hact
  obtain ⟨hst, rfl, rfl⟩ := queueAct_pop hact
  exact ⟨t, hexec, hst, hqueues, hload (.inl rfl)⟩

theorem exec_retire (h1 : bQop (e.bundle (s.core.tower k)) 1 = 0) (h3 : bCtl (e.bundle (s.core.tower k)) ≠ 3)
    (hr : bQReg (e.bundle (s.core.tower k)) 0 < (s.core.tower k).aregs.length) {q : Nat} (hq : bQueue (e.bundle (s.core.tower k)) 0 = q) {w : Queue}
    (hw : (s.core.tower k).queue q = w) (h0 : bQop (e.bundle (s.core.tower k)) 0 = 2) :
    ∃ t, exec (.retire k) s = .next t ∧ (w.entry w.tail).st = .inUse ∧ (t.core.tower k).queues = (s.core.tower k).queues.set q
        { w.setEntry w.tail { QEntry.free with freeAt := s.core.clk.total + 1 } with tail := (w.tail + 1) % 16 } := by
  have hcarries : carries (e.bundle (s.core.tower k)) k (.retire k) := by simp [carries, bHasQ_of_first h0]
  obtain ⟨t, q', j, hexec, hact, hqueues, -⟩ := exec_queueOp h h1 h3 hr hcarries two_ne_zero h0
  rw [hq] at hact hqueues
  rw [hw] at hact
  obtain ⟨hst, rfl, rfl⟩ := queueAct_retire hact
  refine ⟨t, hexec, hst, hqueues.trans (congrArg _ ?_)⟩
  simp [Queue.setEntry, List.set_set]

theorem exec_openOut (h1 : bQop (e.bundle (s.core.tower k)) 1 = 0) (h3 : bCtl (e.bundle (s.core.tower k)) ≠ 3)
    (hr : bQReg (e.bundle (s.core.tower k)) 0 < (s.core.tower k).aregs.length) {q : Nat} (hq : bQueue (e.bundle (s.core.tower k)) 0 = q) {w : Queue}
    (hw : (s.core.tower k).queue q = w) (h0 : bQop (e.bundle (s.core.tower k)) 0 = 3) :
    ∃ t, exec (.openOut k) s = .next t ∧ (w.entry w.head).st = .free ∧ (t.core.tower k).queues = (s.core.tower k).queues.set q
        { w.setEntry w.head { w.entry w.head with st := .opened } with head := (w.head + 1) % 16 } ∧
      ((t.core.tower k).areg (bQReg (e.bundle (s.core.tower k)) 0)).val = slotOf e.prog q w.head := by
  have hcarries : carries (e.bundle (s.core.tower k)) k (.openOut k) := by simp [carries, bHasQ_of_first h0]
  obtain ⟨t, q', j, hexec, hact, hqueues, hload⟩ := exec_queueOp h h1 h3 hr hcarries three_ne_zero h0
  rw [hq] at hact hqueues hload
  rw [hw] at hact
  obtain ⟨hst, rfl, rfl⟩ := queueAct_open hact
  exact ⟨t, hexec, hst, hqueues, hload (.inr rfl)⟩

theorem exec_push (h1 : bQop (e.bundle (s.core.tower k)) 1 = 0) (h3 : bCtl (e.bundle (s.core.tower k)) ≠ 3)
    (hr : bQReg (e.bundle (s.core.tower k)) 0 < (s.core.tower k).aregs.length) {q : Nat} (hq : bQueue (e.bundle (s.core.tower k)) 0 = q) {w : Queue}
    (hw : (s.core.tower k).queue q = w) (h0 : bQop (e.bundle (s.core.tower k)) 0 = 4) :
    ∃ t, exec (.push k) s = .next t ∧ (w.entry w.mid).st = .opened ∧ (t.core.tower k).queues = (s.core.tower k).queues.set q
        { w.setEntry w.mid { w.entry w.mid with st := .pushed } with mid := (w.mid + 1) % 16 } := by
  have hcarries : carries (e.bundle (s.core.tower k)) k (.push k) := by simp [carries, bHasQ_of_first h0]
  obtain ⟨t, q', j, hexec, hact, hqueues, -⟩ := exec_queueOp h h1 h3 hr hcarries four_ne_zero h0
  rw [hq] at hact hqueues
  rw [hw] at hact
  obtain ⟨hst, rfl, rfl⟩ := queueAct_push hact
  exact ⟨t, hexec, hst, hqueues⟩

end Control

/-- Settles O26: each command issues the whole bundle, and the clause reads one part of it. -/
theorem controlAndQueueBundles : Obligations.ControlAndQueueBundles :=
  ⟨fun _ _ _ _ _ _ h => ⟨exec_nop h, exec_loop h, exec_barrier h, exec_endSeg h, exec_aregSet h, exec_aregAdd h, exec_aregStep h⟩,
    fun _ _ _ _ _ _ h h1 h3 hr => ⟨exec_pop h h1 h3 hr rfl rfl, exec_retire h h1 h3 hr rfl rfl, exec_openOut h h1 h3 hr rfl rfl,
      exec_push h h1 h3 hr rfl rfl⟩⟩

end Sys2Proof.Machine

/-! # The matrix, delta, vector and accumulator slots (O27)

First a beat of each operation; then what a bundle leaves of its tower's units, slot by slot. -/

namespace Sys2Proof.Machine

set_option Elab.async false

/-! ## Beats -/

theorem length_setBits (v : Nat) : (setBits 4 v).length = popcount 4 v := by
  have hbit (i : Nat) : bit v i = decide (v / 2 ^ i % 2 = 1) := by rw [bit, Nat.shiftRight_eq_div_pow]
  have hmod (n : Nat) : (if n % 2 = 1 then 1 else 0) = n % 2 := by split <;> omega
  have hlen (p : Nat → Bool) (xs : List Nat) (x : Nat) : ((x :: xs).filter p).length = (if p x = true then 1 else 0) + (xs.filter p).length := by
    rw [List.filter_cons]
    split
    · rw [List.length_cons, Nat.add_comm]
    · rw [Nat.zero_add]
  rw [setBits, show List.range 4 = [0, 1, 2, 3] from rfl, hlen, hlen, hlen, hlen]
  simp only [hbit, decide_eq_true_eq, hmod, popcount, Nat.div_div_eq_div_mul, List.filter_nil, List.length_nil]
  simp

theorem mem_setBits {v p : Nat} (hp : p < 4) (h : bit v p = true) : p ∈ setBits 4 v := List.mem_filter.2 ⟨List.mem_range.2 hp, h⟩

/-- Planes set one after another: those named take a new one of format `f`, the others stay. -/
theorem getD_foldl_set (g : Nat × Nat → Plane) {f : Nat} (hg : ∀ x, (g x).fmt = f) (xs : List (Nat × Nat)) {p : Nat} : ∀ ps : List Plane, p < ps.length →
    (p ∈ xs.map Prod.fst → ((xs.foldl (fun ps x => ps.set x.1 (g x)) ps).getD p .clear).fmt = f) ∧
    (p ∉ xs.map Prod.fst → (xs.foldl (fun ps x => ps.set x.1 (g x)) ps).getD p .clear = ps.getD p .clear) := by
  induction xs with
  | nil => exact fun ps _ => ⟨fun h => absurd h List.not_mem_nil, fun _ => rfl⟩
  | cons x xs ih =>
    intro ps hp
    obtain ⟨hin, hout⟩ := ih (ps.set x.1 (g x)) (by rw [List.length_set]; exact hp)
    refine ⟨fun h => ?_, fun h => ?_⟩
    · by_cases hrest : p ∈ xs.map Prod.fst
      · exact hin hrest
      · rw [List.foldl_cons, hout hrest]
        obtain rfl | h := List.mem_cons.1 h
        · rw [List.getD_eq_getElem _ _ (by rw [List.length_set]; exact hp), List.getElem_set_self]
          exact hg x
        · exact absurd h hrest
    · rw [List.map_cons, List.mem_cons, not_or] at h
      rw [List.foldl_cons, hout h.2]
      simp [List.getD, Ne.symm h.1]

theorem Tower.shadow_loadPlanes (t : Tower) (mask : List Nat) (f : Nat) (got : SMap Nat) {p : Nat} (hp : p < t.shadow.length) :
    (p ∈ mask → ((t.loadPlanes mask f got).shadow.getD p .clear).fmt = f) ∧
    (p ∉ mask → (t.loadPlanes mask f got).shadow.getD p .clear = t.shadow.getD p .clear) := by
  have h := getD_foldl_set (fun e => ⟨f, (List.range (planeBytes f / 64)).filterMap (fun i =>
    let v := got.get 0 (e.2 * (planeBytes f / 64) + i)
    if v = 0 then none else some (i, v))⟩) (fun _ => rfl) mask.zipIdx t.shadow hp
  rw [List.zipIdx_map_fst] at h
  exact h

theorem LoadJob.beat_spec (e : TEnv) (o : BOut) (j : LoadJob) (hlen : o.t.shadow.length = 4) :
    (e.now - j.op.at_ + 1 ≠ j.mask.length * planeBeats j.fmt → (j.beat e o).t.shadow = o.t.shadow) ∧
    (e.now - j.op.at_ + 1 = j.mask.length * planeBeats j.fmt → (j.beat e o).t.jobs = o.t.jobs ∧ ∀ p, p < 4 →
      (p ∈ j.mask → ((j.beat e o).t.shadow.getD p .clear).fmt = j.fmt) ∧
      (p ∉ j.mask → (j.beat e o).t.shadow.getD p .clear = o.t.shadow.getD p .clear)) ∧
    (j.beat e o).t.active = o.t.active := by
  unfold LoadJob.beat
  extract_lets d n a j' o'
  by_cases hlast : d + 1 = j.mask.length * planeBeats j.fmt
  · rw [if_pos hlast]
    refine ⟨fun h => absurd hlast h, fun _ => ⟨rfl, fun p hp => ?_⟩, rfl⟩
    exact o.t.shadow_loadPlanes j.mask j.fmt j'.got (by omega)
  · rw [if_neg hlast]
    exact ⟨fun _ => rfl, fun h => absurd h hlast, rfl⟩

theorem PassJob.read_groups (j : PassJob) (d : Nat) (o : BOut) : (j.read d o).2.t.groups = o.t.groups := by
  unfold PassJob.read
  extract_lets
  split
  · rfl
  · rfl

theorem PassJob.laneBeat_of_none {j : PassJob} (h : j.lane = none) (n : Nat) (o : BOut) : j.laneBeat n o = (j, o) := by
  unfold PassJob.laneBeat
  rw [h]

theorem PassJob.beat_groups (e : TEnv) (o : BOut) (j : PassJob) (hlane : j.lane = none)
    (hrow : ∀ r, e.now - j.op.at_ ≠ bRowBeats j.b * (r + 1) + 5) : (j.beat e o).t.groups = o.t.groups := by
  unfold PassJob.beat
  rw [PassJob.laneBeat_of_none hlane]
  extract_lets d busy per x y o2 o1 z
  have hno : ¬ (per + 5 ≤ d ∧ (d - 5) % per = 0 ∧ (d - 5) / per ≤ bMRows j.b) := by
    rintro ⟨hle, hmod, -⟩
    obtain ⟨q, hq⟩ := Nat.dvd_of_mod_eq_zero hmod
    cases q with
    | zero => exact hrow 0 (by show d = per * (0 + 1) + 5; rw [Nat.mul_zero] at hq; omega)
    | succ q => exact hrow q (by show d = per * (q + 1) + 5; omega)
  have hgroups : o1.t.groups = o.t.groups := by
    refine Eq.trans ?_ (j.read_groups d o)
    dsimp only [o1]
    split
    · rfl
    · rfl
  have hz : z.2 = o1 := by
    dsimp only [z]
    rw [if_neg hno]
  rw [← hgroups, ← hz]
  split
  · rfl
  · rfl

theorem MergeJob.beat_spec (e : TEnv) (o : BOut) (j : MergeJob) :
    (e.now - j.op.at_ < 16 → ∃ w, (j.beat e o).t.landing = o.t.landing ++ [w] ∧ w.beat = e.now + 4 ∧ w.tile = none ∧
      w.addr = j.dst + 256 * (e.now - j.op.at_) ∧ w.n = 256 ∧ w.tag = j.tag ∧
      w.v = mergeSum o.t.store (j.src + 256 * (e.now - j.op.at_)) (j.dst + 256 * (e.now - j.op.at_))) ∧
    (16 ≤ e.now - j.op.at_ → (j.beat e o).t.landing = o.t.landing) ∧ (j.beat e o).laneBeats = o.laneBeats + 1 := by
  unfold MergeJob.beat
  extract_lets d s t o1 o2
  have hkeep (w : BOut) (m : MergeJob) : (if d + 1 = 20 then w else w.keep (.merge m)).t.landing = w.t.landing ∧
      (if d + 1 = 20 then w else w.keep (.merge m)).laneBeats = w.laneBeats := by
    split
    · exact ⟨rfl, rfl⟩
    · exact ⟨rfl, rfl⟩
  rw [(hkeep o2 j).1, (hkeep o2 j).2]
  by_cases hd : d < 16
  · have ho : o2 = (o1.use j.op [⟨bankOf s, false⟩, ⟨bankOf t, false⟩]).land [⟨j.op, e.now + 4, none, t, 256, mergeSum o1.t.store s t, j.tag, true⟩] :=
      if_pos hd
    rw [ho]
    exact ⟨fun _ => ⟨_, rfl, rfl, rfl, rfl, rfl, rfl, rfl⟩, fun h => absurd hd (by omega), rfl⟩
  · have ho : o2 = o1 := if_neg hd
    rw [ho]
    exact ⟨fun h => absurd h hd, fun _ => rfl, rfl⟩

theorem RuleJob.beat_frozen (e : TEnv) (o : BOut) (j : RuleJob) (h : j.frozen = true) :
    (j.beat e o).t.landing = o.t.landing ∧ (j.beat e o).t.store = o.t.store ∧ (j.beat e o).pages = o.pages := by
  unfold RuleJob.beat
  extract_lets d p o1 i b r w x a
  have hx : x = (j, o1) := if_neg (by simp [h])
  rw [if_neg (by simp [h]), hx]
  split
  · exact ⟨rfl, rfl, rfl⟩
  · exact ⟨rfl, rfl, rfl⟩


/-! ## What later slots leave of a slot's work -/

section Later

variable (e : TEnv) (b : Nat) (x y : Tower)

/-- The tower after the matrix slot, the delta slot and the vector slot. -/
def matrixOut (e : TEnv) (b : Nat) (x y : Tower) : BOut := matrixSlot e b x (.of y)
def deltaOut (e : TEnv) (b : Nat) (x y : Tower) : BOut := deltaSlot e b x (matrixOut e b x y)
def vectorOut (e : TEnv) (b : Nat) (x y : Tower) : BOut := vectorSlot e b x (deltaOut e b x y)

theorem slotsOut_eq : slotsOut e b x y = accSlot e b x (vectorOut e b x y) := rfl

theorem slotsOut_of_vector : (slotsOut e b x y).t.chainUntil = (vectorOut e b x y).t.chainUntil ∧
    ∃ js, (slotsOut e b x y).t.jobs = (vectorOut e b x y).t.jobs ++ js := by
  obtain ⟨gs, ho, ab, js, -, h⟩ := accSlot_tower e b x (vectorOut e b x y)
  rw [slotsOut_eq, h]
  exact ⟨rfl, js, rfl⟩

theorem slotsOut_of_delta : ∃ js, (slotsOut e b x y).t.jobs = (deltaOut e b x y).t.jobs ++ js := by
  obtain ⟨-, js, h⟩ := slotsOut_of_vector e b x y
  obtain ⟨ho, ch, js', hv⟩ := vectorSlot_tower e b x (deltaOut e b x y)
  exact ⟨js' ++ js, by rw [h, vectorOut, hv, List.append_assoc]⟩

theorem slotsOut_of_matrix : (slotsOut e b x y).t.loadUntil = (matrixOut e b x y).t.loadUntil ∧
    (slotsOut e b x y).t.arrayUntil = (matrixOut e b x y).t.arrayUntil ∧ (slotsOut e b x y).t.active = (matrixOut e b x y).t.active ∧
    (slotsOut e b x y).t.shadow = (matrixOut e b x y).t.shadow ∧ ∃ js, (slotsOut e b x y).t.jobs = (matrixOut e b x y).t.jobs ++ js := by
  obtain ⟨gs, ho, ab, js, -, ha⟩ := accSlot_tower e b x (vectorOut e b x y)
  obtain ⟨ho', ch, js', hv⟩ := vectorSlot_tower e b x (deltaOut e b x y)
  obtain ⟨js'', hd⟩ := deltaSlot_tower e b x (matrixOut e b x y)
  rw [slotsOut_eq, ha, vectorOut, hv, deltaOut, hd]
  exact ⟨rfl, rfl, rfl, rfl, js'' ++ (js' ++ js), by simp only [List.append_assoc]⟩

theorem length_groups_vectorOut : (vectorOut e b x y).t.groups.length = y.groups.length := by
  obtain ⟨ho', ch, js', hv⟩ := vectorSlot_tower e b x (deltaOut e b x y)
  obtain ⟨js'', hd⟩ := deltaSlot_tower e b x (matrixOut e b x y)
  obtain ⟨ac, sh, ho, ar, lo, js, hm⟩ := matrixSlot_tower e b x (.of y)
  rw [vectorOut, hv, deltaOut, hd, matrixOut, hm]
  rfl

theorem accSlot_frozen (o : BOut) : (accSlot e b x o).frozen = o.frozen := by
  by_cases h1 : bAop b = 1
  · rw [accSlot_zero e b x o h1]
    rfl
  · by_cases h23 : bAop b = 2 ∨ bAop b = 3
    · rw [accSlot_tile e b x o h23]
      rfl
    · by_cases h4 : bAop b = 4
      · rw [accSlot_copy e b x o h4]
        show (o.checks e.im.spire (bAGroup b) (fun _ => true)).frozen = o.frozen
        unfold BOut.checks
        split
        · rfl
        · rfl
      · rw [accSlot_none e b x o h1 (fun h => h23 (.inl h)) (fun h => h23 (.inr h)) h4]

theorem controlSlot_frozen (o : BOut) : (controlSlot e b o).frozen = o.frozen := by
  unfold controlSlot
  extract_lets
  split
  · split
    · rfl
    · rfl
  · rfl
  · rfl

theorem deltaOut_frozen : (deltaOut e b x y).frozen = [] := by
  have hm : (matrixOut e b x y).frozen = [] := by
    unfold matrixOut matrixSlot
    split
    · dsimp only
      split
      · rfl
      · rfl
    · unfold passSlot
      dsimp only
      split
      · rfl
      · rfl
    · rfl
  unfold deltaOut deltaSlot
  split
  · exact hm
  · exact hm

theorem issueEffect_frozen (loads : List (Nat × Nat)) : (issueEffect e b x y loads).frozen = (vectorOut e b x y).frozen :=
  (controlSlot_frozen e b (slotsOut e b x y)).trans (accSlot_frozen e b x _)

end Later

/-! ## The units of a tower -/

/-- Towers `u` and `v` have the same unit times, groups and operations, but for the delta lane of one. -/
structure Tower.Works (u v : Tower) : Prop where
  array : v.arrayUntil = u.arrayUntil
  load : v.loadUntil = u.loadUntil
  chain : v.chainUntil = u.chainUntil
  acc : v.accUntil = u.accUntil
  groups : v.groups = u.groups
  jobs : ∀ j ∈ u.jobs, ∃ j' ∈ v.jobs, j'.unlaned = j.unlaned

theorem Tower.Checked.works {u v : Tower} (h : u.Checked v) : u.Works v where
  array := (congrArg Tower.arrayUntil h.rest : v.unstopped.arrayUntil = _)
  load := (congrArg Tower.loadUntil h.rest : v.unstopped.loadUntil = _)
  chain := (congrArg Tower.chainUntil h.rest : v.unstopped.chainUntil = _)
  acc := (congrArg Tower.accUntil h.rest : v.unstopped.accUntil = _)
  groups := (congrArg Tower.groups h.rest : v.unstopped.groups = _)
  jobs := h.jobs

theorem Tower.Works.trans {u v w : Tower} (h : u.Works v) (g : v.Works w) : u.Works w where
  array := g.array.trans h.array
  load := g.load.trans h.load
  chain := g.chain.trans h.chain
  acc := g.acc.trans h.acc
  groups := g.groups.trans h.groups
  jobs j hj := by
    obtain ⟨j1, hj1, h1⟩ := h.jobs j hj
    obtain ⟨j2, hj2, h2⟩ := g.jobs j1 hj1
    exact ⟨j2, hj2, h2.trans h1⟩

section Jobs

variable {u v : Tower} (h : u.Works v)

include h

theorem Tower.Works.loadJob {j : LoadJob} (hj : .load j ∈ u.jobs) : .load j ∈ v.jobs := by
  obtain ⟨j', hj', heq⟩ := h.jobs _ hj
  cases j' with
  | load l => exact (show Job.load l = .load j from heq) ▸ hj'
  | _ => exact nomatch heq

theorem Tower.Works.mergeJob {j : MergeJob} (hj : .merge j ∈ u.jobs) : .merge j ∈ v.jobs := by
  obtain ⟨j', hj', heq⟩ := h.jobs _ hj
  cases j' with
  | merge l => exact (show Job.merge l = .merge j from heq) ▸ hj'
  | _ => exact nomatch heq

theorem Tower.Works.chainJob {j : ChainJob} (hj : .chain j ∈ u.jobs) : .chain j ∈ v.jobs := by
  obtain ⟨j', hj', heq⟩ := h.jobs _ hj
  cases j' with
  | chain l => exact (show Job.chain l = .chain j from heq) ▸ hj'
  | _ => exact nomatch heq

theorem Tower.Works.ruleJob {j : RuleJob} (hj : .rule j ∈ u.jobs) : .rule j ∈ v.jobs := by
  obtain ⟨j', hj', heq⟩ := h.jobs _ hj
  cases j' with
  | rule l => exact (show Job.rule l = .rule j from heq) ▸ hj'
  | _ => exact nomatch heq

theorem Tower.Works.accJob {j : AccJob} (hj : .acc j ∈ u.jobs) : .acc j ∈ v.jobs := by
  obtain ⟨j', hj', heq⟩ := h.jobs _ hj
  cases j' with
  | acc l => exact (show Job.acc l = .acc j from heq) ▸ hj'
  | _ => exact nomatch heq

/-- A PASS goes on with the same bundle and planes, whatever its lane. -/
theorem Tower.Works.passJob {j : PassJob} (hj : .pass j ∈ u.jobs) : ∃ p : PassJob, .pass p ∈ v.jobs ∧ p.op = j.op ∧ p.b = j.b ∧ p.planes = j.planes := by
  obtain ⟨j', hj', heq⟩ := h.jobs _ hj
  cases j' with
  | pass p =>
    injection heq with heq
    exact ⟨p, hj', (congrArg PassJob.op heq :), (congrArg PassJob.b heq :), (congrArg PassJob.planes heq :)⟩
  | _ => exact nomatch heq

end Jobs

theorem laneBusy_of_merge {t : Tower} {j : MergeJob} (h : .merge j ∈ t.jobs) : t.laneBusy = true := List.any_eq_true.2 ⟨_, h, rfl⟩

theorem laneBusy_of_pass {t : Tower} {j : PassJob} (h : .pass j ∈ t.jobs) (hl : j.lane.isSome = true) : t.laneBusy = true :=
  List.any_eq_true.2 ⟨_, h, hl⟩

section Effect

variable {c : Core} {k : Nat} {sg : Seg} {e : TEnv} {y : Tower} {loads : List (Nat × Nat)}

/-- The control slot and the end of the issue beat leave the units at work. -/
theorem Core.effect_works (c : Core) (k : Nat) (e : TEnv) (y : Tower) (loads : List (Nat × Nat)) :
    (slotsOut e (e.bundle (c.tower k)) (c.tower k) y).t.Works (c.effect k e y loads).t ∧
    (c.effect k e y loads).t.jobs = (slotsOut e (e.bundle (c.tower k)) (c.tower k) y).t.jobs ∧
    (bCtl (e.bundle (c.tower k)) ≠ 2 → (c.effect k e y loads).t.active = (slotsOut e (e.bundle (c.tower k)) (c.tower k) y).t.active ∧
      (c.effect k e y loads).t.shadow = (slotsOut e (e.bundle (c.tower k)) (c.tower k) y).t.shadow) := by
  have hsame (j : Job) (w : Tower) (h : j ∈ w.jobs) : ∃ j' ∈ w.jobs, j'.unlaned = j.unlaned := ⟨j, h, rfl⟩
  rw [Core.effect, issueEffect_tower]
  generalize slotsOut e (e.bundle (c.tower k)) (c.tower k) y = o
  by_cases h2 : bCtl (e.bundle (c.tower k)) = 2
  · rw [controlSlot_barrier e o h2]
    split
    · exact ⟨⟨rfl, rfl, rfl, rfl, rfl, fun j => hsame j o.t⟩, rfl, fun h => absurd h2 h⟩
    · exact ⟨⟨rfl, rfl, rfl, rfl, rfl, fun j => hsame j o.t⟩, rfl, fun h => absurd h2 h⟩
  · by_cases h3 : bCtl (e.bundle (c.tower k)) = 3
    · rw [controlSlot_end e o h3]
      exact ⟨⟨rfl, rfl, rfl, rfl, rfl, fun j => hsame j o.t⟩, rfl, fun _ => ⟨rfl, rfl⟩⟩
    · rw [controlSlot_other e o h2 h3]
      exact ⟨⟨rfl, rfl, rfl, rfl, rfl, fun j => hsame j o.t⟩, rfl, fun _ => ⟨rfl, rfl⟩⟩

end Effect

section Commands

variable {s : State} {k : Nat} {sg : Seg} {e : TEnv} {y : Tower} {loads : List (Nat × Nat)} (h : s.core.mayIssue k sg e y loads)

include h

/-- A command of an operation: the units at work are those that the slots started. -/
theorem exec_works {i : Instr} (hi : carries (e.bundle (s.core.tower k)) k i) : ∃ t, exec i s = .next t ∧
    (slotsOut e (e.bundle (s.core.tower k)) (s.core.tower k) y).t.Works (t.core.tower k) ∧
    (bCtl (e.bundle (s.core.tower k)) ≠ 2 → (t.core.tower k).active = (slotsOut e (e.bundle (s.core.tower k)) (s.core.tower k) y).t.active ∧
      (t.core.tower k).shadow = (slotsOut e (e.bundle (s.core.tower k)) (s.core.tower k) y).t.shadow) ∧
    (bCtl (e.bundle (s.core.tower k)) ≠ 3 ∨ (s.core.tower k).checks = [] →
      (t.core.tower k).jobs = (slotsOut e (e.bundle (s.core.tower k)) (s.core.tower k) y).t.jobs) := by
  obtain ⟨t, hexec, -, -, hwhole, hchecked, -⟩ := exec_of_mayIssue h hi
  obtain ⟨hworks, hjobs, hplanes⟩ := Core.effect_works s.core k e y loads
  refine ⟨t, hexec, hworks.trans hchecked.works, fun h2 => ?_, fun hno => by rw [hwhole hno, hjobs]⟩
  obtain ⟨hactive, hshadow⟩ := hplanes h2
  exact ⟨(congrArg Tower.active hchecked.rest : (t.core.tower k).unstopped.active = _).trans hactive,
    (congrArg Tower.shadow hchecked.rest : (t.core.tower k).unstopped.shadow = _).trans hshadow⟩

omit h in
/-- LOAD in the matrix slot. -/
theorem matrixOut_load {b : Nat} (x : Tower) (hb : bMop b = 1) (hne : setBits 4 (bMask b) ≠ []) : matrixOut e b x y =
    BOut.keep { BOut.of y with t := { y with loadUntil := e.now + (setBits 4 (bMask b)).length * planeBeats (bWFmt b) } }
      (.load ⟨e.opId b 1 x, setBits 4 (bMask b), bWFmt b, (x.areg (bMReg b)).val, []⟩) := by
  unfold matrixOut matrixSlot
  rw [hb]
  exact if_neg hne

omit h in
/-- PASS in the matrix slot. -/
theorem matrixOut_pass {b : Nat} (x : Tower) (hb : bMop b = 2) : ∃ (ho : List Hold) (p : PassJob), (matrixOut e b x y).t =
      { y with active := if bSwap b then y.shadow else y.active, shadow := if bSwap b then y.active else y.shadow, holds := ho
               arrayUntil := e.now + bBusy b, jobs := y.jobs ++ [.pass p] } ∧
    p.op = e.opId b 1 x ∧ p.b = b ∧ p.planes = (if bSwap b then y.shadow else y.active) ∧ (bDop b = 1 ∨ bDop b = 2 → p.lane.isSome = true) := by
  unfold matrixOut matrixSlot
  rw [hb]
  show ∃ ho p, (passSlot e b x (.of y)).t = _ ∧ _
  unfold passSlot
  extract_lets g o busy att t
  have hlane (h : bDop b = 1 ∨ bDop b = 2) : (if att = true then some (Lane.start (e.dctx b x)) else none).isSome = true := by
    rw [if_pos (by dsimp only [att]; simp only [Bool.or_eq_true, decide_eq_true_eq]; exact h)]
    rfl
  by_cases hs : bSwap b = true
  · have ho : o = { BOut.of y with t := y.swapPlanes } := if_pos hs
    have ht : t = o.t.hold (if e.im.spire then [g, g + 1] else [g]) ⟨if att then 2 else 1, e.now + busy + 6, e.now + busy⟩ := rfl
    rw [ho] at ht
    rw [ho, ht]
    simp only [hs, if_true]
    exact ⟨_, _, rfl, rfl, rfl, rfl, hlane⟩
  · have ho : o = BOut.of y := if_neg hs
    have ht : t = o.t.hold (if e.im.spire then [g, g + 1] else [g]) ⟨if att then 2 else 1, e.now + busy + 6, e.now + busy⟩ := rfl
    rw [ho] at ht
    rw [ho, ht]
    simp only [hs]
    exact ⟨_, _, rfl, rfl, rfl, rfl, hlane⟩

omit h in
theorem mem_append_last {js ks : List Job} {j : Job} : j ∈ (js ++ [j]) ++ ks := by simp

theorem exec_load (hm : bMop (e.bundle (s.core.tower k)) = 1) (hmask : ∃ p, p < 4 ∧ bit (bMask (e.bundle (s.core.tower k))) p = true) :
    ∃ (t : State) (j : LoadJob), exec (.load k) s = .next t ∧ (t.core.tower k).loadUntil = s.core.clk.total +
        popcount 4 (bMask (e.bundle (s.core.tower k))) * planeBeats (bWFmt (e.bundle (s.core.tower k))) ∧ .load j ∈ (t.core.tower k).jobs ∧
      j.op.at_ = s.core.clk.total ∧ j.mask = setBits 4 (bMask (e.bundle (s.core.tower k))) ∧ j.fmt = bWFmt (e.bundle (s.core.tower k)) ∧
      j.addr = ((s.core.tower k).areg (bMReg (e.bundle (s.core.tower k)))).val := by
  obtain ⟨p, hp, hbit⟩ := hmask
  have hne : setBits 4 (bMask (e.bundle (s.core.tower k))) ≠ [] := List.ne_nil_of_mem (mem_setBits hp hbit)
  obtain ⟨t, hexec, hworks, -, -⟩ := exec_works h (i := .load k) (by simp [carries, hm])
  obtain ⟨hload, -, -, -, js, hjobs⟩ := slotsOut_of_matrix e (e.bundle (s.core.tower k)) (s.core.tower k) y
  rw [matrixOut_load _ hm hne] at hload hjobs
  refine ⟨t, _, hexec, ?_, hworks.loadJob (by rw [hjobs]; exact mem_append_last), Core.env_now h.1, rfl, rfl, rfl⟩
  rw [hworks.load, hload, ← length_setBits, ← Core.env_now h.1]
  rfl

theorem exec_pass (hm : bMop (e.bundle (s.core.tower k)) = 2) : ∃ (t : State) (j : PassJob), exec (.pass k) s = .next t ∧
    (t.core.tower k).arrayUntil = s.core.clk.total + bBusy (e.bundle (s.core.tower k)) ∧
    (bCtl (e.bundle (s.core.tower k)) ≠ 2 →
      (t.core.tower k).active = (if bSwap (e.bundle (s.core.tower k)) then (s.core.tower k).shadow else (s.core.tower k).active) ∧
      (t.core.tower k).shadow = (if bSwap (e.bundle (s.core.tower k)) then (s.core.tower k).active else (s.core.tower k).shadow)) ∧
    .pass j ∈ (t.core.tower k).jobs ∧ j.op.at_ = s.core.clk.total ∧ j.b = e.bundle (s.core.tower k) ∧
    j.planes = (if bSwap (e.bundle (s.core.tower k)) then (s.core.tower k).shadow else (s.core.tower k).active) := by
  obtain ⟨-, ⟨qs, hy⟩, -⟩ := Core.effect_tower h
  obtain ⟨t, hexec, hworks, hplanes, -⟩ := exec_works h (i := .pass k) (by simp [carries, hm])
  obtain ⟨-, harray, hactive, hshadow, js, hjobs⟩ := slotsOut_of_matrix e (e.bundle (s.core.tower k)) (s.core.tower k) y
  obtain ⟨ho, p, ht, hop, hb, hpl, -⟩ := matrixOut_pass (y := y) (e := e) (s.core.tower k) hm
  rw [ht] at harray hactive hshadow hjobs
  obtain ⟨j, hj, hjop, hjb, hjp⟩ := hworks.passJob (j := p) (by rw [hjobs]; exact mem_append_last)
  refine ⟨t, j, hexec, by rw [hworks.array, harray, ← Core.env_now h.1], fun h2 => ?_, hj, ?_, by rw [hjb, hb], by rw [hjp, hpl, hy]⟩
  · obtain ⟨ha, hs⟩ := hplanes h2
    rw [ha, hs, hactive, hshadow, hy]
    exact ⟨rfl, rfl⟩
  · rw [hjop, hop]
    exact Core.env_now h.1

omit h in
theorem passed_of_attached {b : Nat} {x : Tower} (hno : issueFault e b x = none) (hd : bDop b = 1 ∨ bDop b = 2) : bMop b = 2 := by
  unfold issueFault at hno
  extract_lets f at hno
  split at hno
  · exact nomatch hno
  split at hno
  · exact nomatch hno
  · next hgroup =>
    unfold groupSlot at hgroup
    extract_lets gs at hgroup
    split at hgroup
    · exact nomatch hgroup
    split at hgroup
    · exact nomatch hgroup
    · next hatt => exact by_contra fun hm => hatt ⟨hd, by simp [hm]⟩

/-- A delta operation attached to a PASS. -/
theorem exec_attached {i : Instr} (hi : carries (e.bundle (s.core.tower k)) k i)
    (hd : bDop (e.bundle (s.core.tower k)) = 1 ∨ bDop (e.bundle (s.core.tower k)) = 2)
    (hno : bCtl (e.bundle (s.core.tower k)) ≠ 3 ∨ (s.core.tower k).checks = []) : ∃ t, exec i s = .next t ∧ (t.core.tower k).laneBusy = true ∧
      (t.core.tower k).arrayUntil = s.core.clk.total + bBusy (e.bundle (s.core.tower k)) := by
  have hm : bMop (e.bundle (s.core.tower k)) = 2 := by
    obtain ⟨-, -, -, -, -, hfault, -⟩ := h
    exact passed_of_attached hfault hd
  obtain ⟨t, hexec, hworks, -, hjobs'⟩ := exec_works h hi
  obtain ⟨-, harray, -, -, js, hjobs⟩ := slotsOut_of_matrix e (e.bundle (s.core.tower k)) (s.core.tower k) y
  obtain ⟨ho, p, ht, -, -, -, hlane⟩ := matrixOut_pass (y := y) (e := e) (s.core.tower k) hm
  rw [ht] at harray hjobs
  refine ⟨t, hexec, laneBusy_of_pass (j := p) ?_ (hlane hd), by rw [hworks.array, harray, ← Core.env_now h.1]⟩
  rw [hjobs' hno, hjobs]
  exact mem_append_last

theorem exec_merge (hd : bDop (e.bundle (s.core.tower k)) = 3) : ∃ (t : State) (j : MergeJob), exec (.merge k) s = .next t ∧
    (t.core.tower k).laneBusy = true ∧ .merge j ∈ (t.core.tower k).jobs ∧ j.op.at_ = s.core.clk.total ∧
    j.src = ((s.core.tower k).areg (bDSrc (e.bundle (s.core.tower k)))).val ∧
    j.dst = ((s.core.tower k).areg (bDDst (e.bundle (s.core.tower k)))).val := by
  obtain ⟨t, hexec, hworks, -, -⟩ := exec_works h (i := .merge k) (by simp [carries, hd])
  obtain ⟨js, hjobs⟩ := slotsOut_of_delta e (e.bundle (s.core.tower k)) (s.core.tower k) y
  unfold deltaOut deltaSlot at hjobs
  rw [if_pos hd] at hjobs
  have hj := hworks.mergeJob (by rw [hjobs]; exact mem_append_last)
  exact ⟨t, _, hexec, laneBusy_of_merge hj, hj, Core.env_now h.1, rfl, rfl⟩

/-- A chain operation. -/
theorem exec_chain {i : Instr} (hi : carries (e.bundle (s.core.tower k)) k i) (h0 : bVop (e.bundle (s.core.tower k)) ≠ 0)
    (h4 : bVop (e.bundle (s.core.tower k)) ≠ 4) : ∃ (t : State) (j : ChainJob), exec i s = .next t ∧
      (t.core.tower k).chainUntil = s.core.clk.total + (e.cctx (e.bundle (s.core.tower k))).busy ∧
      .chain j ∈ (t.core.tower k).jobs ∧ j.op.at_ = s.core.clk.total ∧ j.b = e.bundle (s.core.tower k) ∧ j.aregs = (s.core.tower k).aregs := by
  obtain ⟨t, hexec, hworks, -, -⟩ := exec_works h hi
  obtain ⟨hchain, js, hjobs⟩ := slotsOut_of_vector e (e.bundle (s.core.tower k)) (s.core.tower k) y
  unfold vectorOut vectorSlot at hchain hjobs
  rw [if_neg h0, if_neg h4] at hchain hjobs
  refine ⟨t, _, hexec, ?_, hworks.chainJob (by rw [hjobs]; exact mem_append_last), Core.env_now h.1, rfl, rfl⟩
  rw [hworks.chain, hchain, ← Core.env_now h.1]
  dsimp only [BOut.keep]
  split
  · rfl
  · rfl

omit h in
/-- RULE in the vector slot. -/
theorem vectorOut_rule {b : Nat} {x : Tower} {rc : RuleCtx} (hv : bVop b = 4) (hrc : e.ruleCtx b x = some rc) :
    (vectorOut e b x y).t.chainUntil = e.now + 16 + bVRows b * ruleP rc.prog ∧
    (vectorOut e b x y).t.jobs = (deltaOut e b x y).t.jobs ++
      [.rule ⟨e.opId b 3 x, rc, bit rc.latch.frozen rc.gi, x.areg (bVSrc b), x.areg (bVDst b), bVRows b, []⟩] ∧
    (bit rc.latch.frozen rc.gi = true → (vectorOut e b x y).frozen = [(rc.member, rc.gi, bVRows b)]) := by
  have hnone := deltaOut_frozen e b x y
  unfold vectorOut vectorSlot
  rw [if_neg (by omega), if_pos hv, hrc]
  dsimp only
  split
  · refine ⟨rfl, rfl, fun _ => ?_⟩
    show (deltaOut e b x y).frozen ++ _ = _
    rw [hnone, List.nil_append]
  · next hno => exact ⟨rfl, rfl, fun h => absurd h hno⟩

omit h in
/-- A row check leaves what a segment's RULEs have frozen. -/
theorem frozen_rowCheck {c : Core} {i : Nat} {F : List (Nat × Nat × Nat)} (hF : ∀ z ∈ c.segs, z.id = i → z.out.frozen = F) (k : Nat) :
    ∀ z ∈ (c.rowCheck k).segs, z.id = i → z.out.frozen = F := by
  unfold Core.rowCheck
  split
  · next s e r rs henv hchecks =>
    have hs : s ∈ c.segs := by
      obtain ⟨hbind, -⟩ := Core.env_spec henv
      obtain ⟨j, -, hj⟩ := Option.bind_eq_some_iff.1 hbind
      exact List.mem_of_find?_eq_some hj
    dsimp only
    split
    · exact hF
    · generalize hc : c.setTower k _ = d
      have hsegs : d.segs = c.segs := by rw [← hc]; rfl
      generalize (⟨0x010F, 2, r.group, r.bundle, r.sched⟩ : TFault) = f
      by_cases hst : (d.tower k).st = .faulted
      · rw [Core.towerFault_of_faulted hst, hsegs]
        exact hF
      · cases hb : (d.tower k).seg.bind d.seg? with
        | none =>
          have heq : d.towerFault k f (some s.ctx) = d := by
            unfold Core.towerFault
            simp only [hb]
          rw [heq, hsegs]
          exact hF
        | some s' =>
          have hs' : s' ∈ c.segs := by
            obtain ⟨j, -, hj⟩ := Option.bind_eq_some_iff.1 hb
            rw [← hsegs]
            exact List.mem_of_find?_eq_some hj
          rw [(Core.towerFault_eq hb hst f s.ctx).2, Core.faultSeg_segs, hsegs]
          split
          · intro z hz hid
            obtain ⟨w, hw, rfl⟩ := List.mem_map.1 hz
            split at hid
            · next hsame =>
              rw [if_pos hsame]
              exact hF s' hs' hid
            · next hne =>
              rw [if_neg hne]
              exact hF w (hsegs ▸ hw) hid
          · exact hF
  · exact hF

omit h in
theorem frozen_rowChecks {c : Core} {i : Nat} {F : List (Nat × Nat × Nat)} (hF : ∀ z ∈ c.segs, z.id = i → z.out.frozen = F) (k : Nat) :
    ∀ z ∈ (c.rowChecks k).segs, z.id = i → z.out.frozen = F := by
  unfold Core.rowChecks
  generalize (c.tower k).checks = rs
  induction rs generalizing c with
  | nil => exact hF
  | cons r rs ih => exact ih (frozen_rowCheck hF k)

/-- What an issue records as frozen stands with the segment. -/
theorem frozen_issue {sel : Nat → Bool} (hsel : sel (e.bundle (s.core.tower k)) = true) :
    ∀ z ∈ (Core.issue sel k s.core).segs, z.id = sg.id → z.out.frozen = sg.out.frozen ++ (s.core.effect k e y loads).frozen := by
  obtain ⟨out, -, hfrozen, hsegs⟩ := Core.issued_segs s.core sg k (s.core.effect k e y loads)
  have hissued : ∀ z ∈ (s.core.issued sg k (s.core.effect k e y loads)).segs, z.id = sg.id →
      z.out.frozen = sg.out.frozen ++ (s.core.effect k e y loads).frozen := by
    intro z hz hid
    rw [hsegs] at hz
    rw [Core.of_mem_setSeg hz hid]
    exact hfrozen
  rw [Core.issue_of_mayIssue h hsel]
  split
  · exact frozen_rowChecks hissued k
  · exact hissued

theorem exec_rule {rc : RuleCtx} (hv : bVop (e.bundle (s.core.tower k)) = 4) (hrc : e.ruleCtx (e.bundle (s.core.tower k)) (s.core.tower k) = some rc) :
    ∃ (t : State) (j : RuleJob), exec (.rule k) s = .next t ∧
      (t.core.tower k).chainUntil = s.core.clk.total + 16 + bVRows (e.bundle (s.core.tower k)) * ruleP rc.prog ∧
      .rule j ∈ (t.core.tower k).jobs ∧ j.op.at_ = s.core.clk.total ∧ j.ctx = rc ∧ j.rows = bVRows (e.bundle (s.core.tower k)) ∧
      j.frozen = bit rc.latch.frozen rc.gi ∧ (j.frozen = true → ∀ z ∈ t.core.segs, z.id = sg.id →
        z.out.frozen = sg.out.frozen ++ [(rc.member, rc.gi, bVRows (e.bundle (s.core.tower k)))]) := by
  obtain ⟨t, hexec, hworks, -, -⟩ := exec_works h (i := .rule k) (by simp [carries, hv])
  obtain ⟨hchain, js, hjobs⟩ := slotsOut_of_vector e (e.bundle (s.core.tower k)) (s.core.tower k) y
  obtain ⟨hbeats, hrule, hfrozen⟩ := vectorOut_rule (y := y) hv hrc
  rw [hbeats] at hchain
  rw [hrule] at hjobs
  refine ⟨t, _, hexec, by rw [hworks.chain, hchain, ← Core.env_now h.1], hworks.ruleJob (by rw [hjobs]; exact mem_append_last),
    Core.env_now h.1, rfl, rfl, rfl, fun hf => ?_⟩
  have hissue := frozen_issue h (sel := fun b => bVop b = 4) (by simpa using hv)
  rw [Core.effect, issueEffect_frozen, hfrozen hf] at hissue
  have ht : t = s.after (Core.issue (fun b => bVop b = 4) k s.core) := by
    have hsame : exec (.rule k) s = .next (s.after (Core.issue (fun b => bVop b = 4) k s.core)) := rfl
    rw [hexec] at hsame
    injection hsame
  rw [ht, State.after_segs]
  exact hissue

/-! ## The accumulator slot -/

omit h in
/-- The accumulator slot's unit time and groups, as the slot leaves them. -/
theorem slotsOut_zero {b : Nat} (x : Tower) (ha : bAop b = 1) : (slotsOut e b x y).t.accUntil = e.now + 1 ∧
    (e.im.spire = false → (slotsOut e b x y).t.groups = (vectorOut e b x y).t.groups.set (bAGroup b) .empty) := by
  rw [slotsOut_eq, accSlot_zero e b x _ ha]
  exact ⟨rfl, fun hsp => by rw [hsp]; rfl⟩

omit h in
theorem slotsOut_tile {b : Nat} (x : Tower) (ha : bAop b = 2 ∨ bAop b = 3) : (slotsOut e b x y).t.accUntil = e.now + 256 ∧
    ∃ j : AccJob, (slotsOut e b x y).t.jobs = (vectorOut e b x y).t.jobs ++ [.acc j] ∧ j.op = e.opId b 4 x ∧ j.b = b ∧
      j.addr = (x.areg (bAReg b)).val := by
  rw [slotsOut_eq, accSlot_tile e b x _ ha]
  exact ⟨rfl, _, rfl, rfl, rfl, rfl⟩

omit h in
theorem slotsOut_copy {b : Nat} (x : Tower) (ha : bAop b = 4) : (slotsOut e b x y).t.accUntil = e.now + 256 ∧
    (e.im.spire = false → ∃ (gs : List Group) (g : Group), gs.length = y.groups.length ∧ g.full = true ∧
      (slotsOut e b x y).t.groups = gs.set (bGroup2 b) g) := by
  rw [slotsOut_eq, accSlot_copy e b x _ ha]
  refine ⟨rfl, fun hsp => ?_⟩
  obtain ⟨gs, hlen, hchecks⟩ := checks_tower (vectorOut e b x y) e.im.spire (bAGroup b) (fun _ => true)
  rw [hchecks, hsp]
  exact ⟨gs, _, hlen.trans (length_groups_vectorOut e b x y), rfl, rfl⟩

theorem exec_zero (ha : bAop (e.bundle (s.core.tower k)) = 1) : ∃ t, exec (.zero k) s = .next t ∧
    (t.core.tower k).accUntil = s.core.clk.total + 1 ∧ (e.im.spire = false →
      bAGroup (e.bundle (s.core.tower k)) < (s.core.tower k).groups.length →
        (t.core.tower k).group (bAGroup (e.bundle (s.core.tower k))) = .empty) := by
  obtain ⟨-, ⟨qs, hy⟩, -⟩ := Core.effect_tower h
  obtain ⟨t, hexec, hworks, -, -⟩ := exec_works h (i := .zero k) (by simp [carries, ha])
  obtain ⟨hacc, hgroups⟩ := slotsOut_zero (e := e) (y := y) (s.core.tower k) ha
  refine ⟨t, hexec, by rw [hworks.acc, hacc, ← Core.env_now h.1], fun hsp hlt => ?_⟩
  rw [Tower.group, hworks.groups, hgroups hsp, List.getD_eq_getElem _ _ (by rw [List.length_set, length_groups_vectorOut, hy]; exact hlt),
    List.getElem_set_self]

theorem exec_tile {i : Instr} (hi : carries (e.bundle (s.core.tower k)) k i)
    (ha : bAop (e.bundle (s.core.tower k)) = 2 ∨ bAop (e.bundle (s.core.tower k)) = 3) : ∃ (t : State) (j : AccJob), exec i s = .next t ∧
      (t.core.tower k).accUntil = s.core.clk.total + 256 ∧ .acc j ∈ (t.core.tower k).jobs ∧ j.op.at_ = s.core.clk.total ∧
      j.b = e.bundle (s.core.tower k) ∧ j.addr = ((s.core.tower k).areg (bAReg (e.bundle (s.core.tower k)))).val := by
  obtain ⟨t, hexec, hworks, -, -⟩ := exec_works h hi
  obtain ⟨hacc, j, hjobs, hop, hb, haddr⟩ := slotsOut_tile (e := e) (y := y) (s.core.tower k) ha
  refine ⟨t, j, hexec, by rw [hworks.acc, hacc, ← Core.env_now h.1], hworks.accJob (by rw [hjobs]; exact List.mem_append_right _ (List.mem_singleton.2 rfl)),
    by rw [hop]; exact Core.env_now h.1, hb, haddr⟩

theorem exec_copy (ha : bAop (e.bundle (s.core.tower k)) = 4) : ∃ t, exec (.copy k) s = .next t ∧
    (t.core.tower k).accUntil = s.core.clk.total + 256 ∧ (e.im.spire = false →
      bGroup2 (e.bundle (s.core.tower k)) < (s.core.tower k).groups.length →
        ((t.core.tower k).group (bGroup2 (e.bundle (s.core.tower k)))).full = true) := by
  obtain ⟨-, ⟨qs, hy⟩, -⟩ := Core.effect_tower h
  obtain ⟨t, hexec, hworks, -, -⟩ := exec_works h (i := .copy k) (by simp [carries, ha])
  obtain ⟨hacc, hcopy⟩ := slotsOut_copy (e := e) (y := y) (s.core.tower k) ha
  refine ⟨t, hexec, by rw [hworks.acc, hacc, ← Core.env_now h.1], fun hsp hlt => ?_⟩
  obtain ⟨gs, g, hlen, hfull, hgroups⟩ := hcopy hsp
  rw [Tower.group, hworks.groups, hgroups, List.getD_eq_getElem _ _ (by rw [List.length_set, hlen, hy]; exact hlt), List.getElem_set_self, hfull]

end Commands

/-- Settles O27: the commands of the slots, and a beat of each operation. -/
theorem arrayAndVectorBundles : Obligations.ArrayAndVectorBundles := by
  refine ⟨fun s k sg e y loads h => ⟨exec_load h, exec_pass h, fun hd hno => exec_attached h (by simp [carries, hd]) (.inl hd) hno,
      fun hd hno => exec_attached h (by simp [carries, hd]) (.inr hd) hno, exec_merge h⟩, fun s k sg e y loads h => ?_,
    fun e o j _ _ hlen => j.beat_spec e o hlen, fun e o j hlane hrow => j.beat_groups e o hlane hrow, fun e o j => j.beat_spec e o,
    fun e o j hf => j.beat_frozen e o hf⟩
  refine ⟨fun hv => exec_chain h (by simp [carries, hv]) (by omega) (by omega), fun hv => exec_chain h (by simp [carries, hv]) (by omega) (by omega),
    fun hv => exec_chain h (by simp [carries, hv]) (by omega) (by omega), fun rc hv hrc => exec_rule h hv hrc, fun ha hsp hlt => ?_, fun ha _ => ?_,
    fun ha => exec_tile h (by simp [carries, ha]) (.inl ha), fun ha => exec_tile h (by simp [carries, ha]) (.inr ha), fun ha hsp hlt => ?_, fun ha _ => ?_⟩
  · obtain ⟨t, hexec, hacc, hgroup⟩ := exec_zero h ha
    exact ⟨t, hexec, hgroup hsp hlt, hacc⟩
  · obtain ⟨t, hexec, hacc, -⟩ := exec_zero h ha
    exact ⟨t, hexec, hacc⟩
  · obtain ⟨t, hexec, hacc, hgroup⟩ := exec_copy h ha
    exact ⟨t, hexec, hgroup hsp hlt, hacc⟩
  · obtain ⟨t, hexec, hacc, -⟩ := exec_copy h ha
    exact ⟨t, hexec, hacc⟩

end Sys2Proof.Machine

/-! # Faults of a tower (O29) -/

namespace Sys2Proof.Machine

set_option Elab.async false

namespace Core

variable {c : Core} {k : Nat} {sg : Seg} {e : TEnv}

/-- A fault of a tower that runs segment `sg`: the tower stops, the others stay, and the segment takes the first code. -/
theorem towerFault_spec (henv : c.env k = some (sg, e)) (hst : (c.tower k).st ≠ .faulted) (f : TFault) (a : Nat) :
    (c.towerFault k f (some a)).tower k = (c.tower k).stop f ∧ (∀ j, j ≠ k → (c.towerFault k f (some a)).tower j = c.tower j) ∧
    (sg.out.fault = 0 → ∀ z ∈ (c.towerFault k f (some a)).segs, z.id = sg.id → z.out.fault = f.code ∧ z.st = sg.st) := by
  obtain ⟨hseg, -⟩ := env_spec henv
  obtain ⟨htowers, hsegs⟩ := towerFault_eq hseg hst f a
  have htower (j : Nat) : (c.towerFault k f (some a)).tower j = (c.setTower k ((c.tower k).stop f)).tower j := by
    rw [Core.tower, Core.tower, htowers]
  refine ⟨?_, fun j hj => by rw [htower, tower_setTower_of_ne c _ hj], fun h0 z hz hid => ?_⟩
  · rw [htower, tower_setTower _ _ _ _ (env_lt henv), if_pos rfl]
  · rw [hsegs, faultSeg_segs, if_pos h0] at hz
    rw [of_mem_setSeg hz hid]
    exact ⟨rfl, rfl⟩

theorem stallLimit_eq (henv : c.env k = some (sg, e)) (hdue : e.isDue (c.tower k) = true) (hwaits : e.waits (c.tower k) = true)
    (hlimit : bits (c.reg (twrBase k + 0x30)) 0 32 < (c.tower k).wait) : c.stallLimit k = c.towerFault k
      ⟨0x010A, (waitSlot e (c.tower k)).1, (waitSlot e (c.tower k)).2, (c.tower k).pc, (c.tower k).sched⟩ (some sg.ctx) := by
  unfold stallLimit
  simp only [henv]
  exact if_pos (by simp [hdue, hwaits, hlimit])

/-- A due bundle of a segment that a fault has stopped elsewhere. -/
theorem issue_of_fault (henv : c.env k = some (sg, e)) (hfault : sg.out.fault ≠ 0) (hhold : c.blf.hold = 0) (hst : (c.tower k).st = .running)
    (hdue : e.isDue (c.tower k) = true) {sel : Nat → Bool} (hsel : sel (e.bundle (c.tower k)) = true) : issue sel k c =
      c.setTower k ((c.tower k).stop ⟨0x0101, 0, 0, (c.tower k).pc, (c.tower k).nextBeat (some e.prog)⟩) := by
  unfold issue
  simp only [henv]
  rw [if_neg (by simp [hsel, hhold]), if_pos hfault]
  unfold follow
  simp only [henv]
  exact if_pos ⟨hfault, hst, .inl hdue⟩

theorem rowCheck_ok (henv : c.env k = some (sg, e)) {h : RowCheck} {hs : List RowCheck} (hchecks : (c.tower k).checks = h :: hs)
    (hok : (List.range' h.first h.count).all (fun r => e.im.memberOf r = some h.member) = true) :
    c.rowCheck k = c.setTower k { c.tower k with checks := hs } := by
  unfold rowCheck
  simp only [henv, hchecks]
  exact if_pos hok

theorem rowCheck_bad (henv : c.env k = some (sg, e)) {h : RowCheck} {hs : List RowCheck} (hchecks : (c.tower k).checks = h :: hs)
    (hok : (List.range' h.first h.count).all (fun r => e.im.memberOf r = some h.member) = false) : c.rowCheck k =
      (c.setTower k (Tower.stopLanes { c.tower k with checks := hs } c.clk.total)).towerFault k ⟨0x010F, 2, h.group, h.bundle, h.sched⟩ (some sg.ctx) := by
  unfold rowCheck
  simp only [henv, hchecks]
  exact if_neg (by simp [hok])

end Core

theorem lane_stopLane (p : PassJob) (m : SMap Nat) (n : Nat) : (p.stopLane m n).lane = none := by
  unfold PassJob.stopLane
  split
  · next h => exact h
  · rfl

/-- No PASS of a tower whose lanes are stopped has one. -/
theorem lane_of_stopLanes {t : Tower} {n : Nat} {p : PassJob} (h : .pass p ∈ (t.stopLanes n).jobs) : p.lane = none := by
  obtain ⟨j, -, hj⟩ := List.mem_map.1 h
  cases j with
  | pass q =>
    injection hj with hj
    rw [← hj]
    exact lane_stopLane q t.store n
  | _ => exact nomatch hj

section Commands

variable {s : State} {k : Nat} {sg : Seg} {e : TEnv} (henv : s.core.env k = some (sg, e))

theorem tower_after (s : State) (d : Core) (j : Nat) : (s.after d).core.tower j = d.tower j := by rw [Core.tower, Core.tower, State.after_towers]

include henv

theorem exec_stallLimit (hdue : e.isDue (s.core.tower k) = true) (hwaits : e.waits (s.core.tower k) = true)
    (hlimit : bits (s.core.reg (twrBase k + 0x30)) 0 32 < (s.core.tower k).wait) :
    ∃ t, exec (.stallLimitExceeded k) s = .next t ∧ (t.core.tower k).st = .faulted ∧
      (t.core.tower k).fault = ⟨0x010A, (waitSlot e (s.core.tower k)).1, (waitSlot e (s.core.tower k)).2, (s.core.tower k).pc, (s.core.tower k).sched⟩ ∧
      (t.core.tower k).jobs = (s.core.tower k).jobs ∧
      (sg.out.fault = 0 → ∀ z ∈ t.core.segs, z.id = sg.id → z.out.fault = 0x010A ∧ z.st = sg.st) ∧
      (∀ j, j ≠ k → t.core.tower j = s.core.tower j) := by
  have hst : (s.core.tower k).st ≠ .faulted := by
    unfold TEnv.isDue at hdue
    intro h
    simp [h] at hdue
  obtain ⟨hstop, hother, hseg⟩ := Core.towerFault_spec henv hst
    ⟨0x010A, (waitSlot e (s.core.tower k)).1, (waitSlot e (s.core.tower k)).2, (s.core.tower k).pc, (s.core.tower k).sched⟩ sg.ctx
  rw [← Core.stallLimit_eq henv hdue hwaits hlimit] at hstop hother hseg
  refine ⟨s.after (s.core.stallLimit k), rfl, ?_⟩
  rw [tower_after, hstop, State.after_segs]
  exact ⟨rfl, rfl, rfl, hseg, fun j hj => by rw [tower_after, hother j hj]⟩

theorem exec_followed (hfault : sg.out.fault ≠ 0) (hhold : s.core.blf.hold = 0) (hst : (s.core.tower k).st = .running)
    (hdue : e.isDue (s.core.tower k) = true) {i : Instr} (hi : carries (e.bundle (s.core.tower k)) k i) :
    ∃ t, exec i s = .next t ∧ (t.core.tower k).st = .faulted ∧ (t.core.tower k).fault.code = 0x0101 ∧ (t.core.tower k).pc = (s.core.tower k).pc ∧
      (t.core.tower k).store = (s.core.tower k).store ∧ t.core.segs = s.core.segs ∧ (∀ j, j ≠ k → t.core.tower j = s.core.tower j) := by
  obtain ⟨sel, hsel, hexec⟩ := issue_of_carries hi
  refine ⟨_, hexec s, ?_⟩
  rw [tower_after, State.after_segs, Core.issue_of_fault henv hfault hhold hst hdue hsel,
    Core.tower_setTower _ _ _ _ (Core.env_lt henv), if_pos rfl]
  exact ⟨rfl, rfl, rfl, rfl, rfl, fun j hj => by rw [tower_after, Core.tower_setTower_of_ne _ _ hj]⟩

theorem exec_rowCheck {h : RowCheck} {hs : List RowCheck} (hchecks : (s.core.tower k).checks = h :: hs) :
    ((List.range' h.first h.count).all (fun r => e.im.memberOf r = some h.member) = true →
      exec (.deltaRowCheck k) s = .next (s.after (s.core.setTower k { s.core.tower k with checks := hs }))) ∧
    ((List.range' h.first h.count).all (fun r => e.im.memberOf r = some h.member) = false → (s.core.tower k).st ≠ .faulted →
      ∃ t, exec (.deltaRowCheck k) s = .next t ∧ (t.core.tower k).st = .faulted ∧ (t.core.tower k).fault = ⟨0x010F, 2, h.group, h.bundle, h.sched⟩ ∧
        (∀ p, .pass p ∈ (t.core.tower k).jobs → p.lane = none) ∧ (∀ j, j ≠ k → t.core.tower j = s.core.tower j)) := by
  refine ⟨fun hok => congrArg (fun d => Host.Outcome.next (s.after d)) (Core.rowCheck_ok henv hchecks hok), fun hbad hst => ?_⟩
  refine ⟨s.after (s.core.rowCheck k), rfl, ?_⟩
  have hlen := Core.env_lt henv
  have hsees : (s.core.setTower k (Tower.stopLanes { s.core.tower k with checks := hs } s.core.clk.total)).sees k :=
    (Core.rowChecked_setTower hlen ((Tower.Checked.of_checks (s.core.tower k) hs).trans (.stopLanes _ _))).sees (Core.sees_of_env henv)
  obtain ⟨sg', e', henv'⟩ := Core.env_isSome_of_sees hsees
  have hset : (s.core.setTower k (Tower.stopLanes { s.core.tower k with checks := hs } s.core.clk.total)).tower k =
      Tower.stopLanes { s.core.tower k with checks := hs } s.core.clk.total := by rw [Core.tower_setTower _ _ _ _ hlen, if_pos rfl]
  obtain ⟨hstop, hother, -⟩ := Core.towerFault_spec henv' (by rw [hset]; exact hst) ⟨0x010F, 2, h.group, h.bundle, h.sched⟩ sg.ctx
  rw [← Core.rowCheck_bad henv hchecks hbad] at hstop hother
  rw [tower_after, hstop, hset]
  exact ⟨rfl, rfl, fun p hp => lane_of_stopLanes hp, fun j hj => by rw [tower_after, hother j hj, Core.tower_setTower_of_ne _ _ hj]⟩

end Commands

/-- Settles O29: a fault stops its tower alone and gives its segment the first code. -/
theorem towersFault : Obligations.TowersFault :=
  ⟨fun _ _ _ _ henv hdue hwaits hlimit => exec_stallLimit henv hdue hwaits hlimit,
    fun _ _ _ _ _ henv hfault hhold hst hdue hi => exec_followed henv hfault hhold hst hdue hi,
    fun _ _ _ _ _ _ henv hchecks => exec_rowCheck henv hchecks⟩

end Sys2Proof.Machine

/-! # The fetch engine (O28) -/

namespace Sys2Proof.Machine

set_option Elab.async false

namespace Core

variable {c : Core} {k : Nat} {sg : Seg} {e : TEnv}

theorem makeFlight_of_room {ds : List Nat} {fls : List Flight} (h : fullFlight fls = false) : c.makeFlight ds k fls = fls := if_neg (by simp [h])

/-! ## Inbound repeats -/

section Inbound

variable (tr : Trim) (dr : Dram) {n i d : Nat} (hn : n = nextDesc e.prog.descs true (c.tower k).inPtr.1)
  (hi : i = if n = (c.tower k).inPtr.1 then (c.tower k).inPtr.2 else 0) (hd : d = e.prog.descs.getD n 0)

theorem inbound_of_done (h : (c.tower k).done = true) : inbound tr k c dr = c := by
  unfold inbound
  split
  · rfl
  · exact if_pos (by simp [h])

theorem inbound_of_full (henv : c.env k = some (sg, e)) (h : fullFlight (c.makeFlight e.prog.descs k (c.tower k).flightIn) = true) :
    inbound tr k c dr = c := by
  unfold inbound
  simp only [henv]
  exact ite_eq_left_iff.2 fun _ => if_pos (.inr (.inl h))

include hn hi hd

/-- A repeat that may issue joins those in flight, and its entry fills. -/
theorem inbound_issues (henv : c.env k = some (sg, e)) {q : Queue} (hq : q = (c.tower k).queue (dQueue d)) (hlt : n < e.prog.descs.length)
    (hst : (c.tower k).st = .running) (hdone : (c.tower k).done = false) (hstart : (c.tower k).startIn + (c.tower k).swapLeft = 0)
    (hissue : dIssueAt d i ≤ (c.tower k).sched) (hopen : (q.entry q.head).open_ c.clk.total = true) (hroom : fullFlight (c.tower k).flightIn = false)
    (hyield : yieldAhead e.im (c.tower k).barriers (dIssueAt d i) = false) (hfault : c.repeatFault sg d i = 0) :
    ∃ (w : Core) (y : Tower) (f : Flight), inbound tr k c dr = w.setTower k y ∧ w.towers = c.towers ∧ y.flightIn = (c.tower k).flightIn ++ [f] ∧
      f.desc = n ∧ f.rep = i ∧ f.queue = dQueue d ∧ f.entry = q.head ∧ f.landed = false ∧
      f.deadline = (c.clk.nominal : Int) + ((dDeadlineAt d i : Int) - ((c.tower k).sched : Int)) ∧
      y.inPtr = advance e.prog.descs true n i ∧ y.inBlocked = false ∧ y.store = (c.tower k).store := by
  subst hn hi hd hq
  unfold inbound
  simp only [henv]
  rw [if_neg (by simp only [hst, hdone, hstart]; simp only [not_or, ge_iff_le, not_le, not_lt]; exact ⟨hlt, by simp, by simp, by simp, hissue⟩),
    if_neg (by rw [makeFlight_of_room hroom, hopen, hroom, hyield]; simp), makeFlight_of_room hroom, hfault]
  generalize hr : (if dKind (e.prog.descs.getD _ 0) = 5 then _ else (c, 0) : Core × Nat) = r
  have hlink : c.Moves [.slots, .xfers, .links, .ctr] r.1 := by
    rw [← hr]
    exact .ite_fst (c.moves_linkRead _ _ _ _ _ _ _) (.refl c)
  have hclk : r.1.clk = c.clk := hlink.frame .clk rfl
  refine ⟨_, _, _, rfl, ?_, rfl, rfl, rfl, rfl, rfl, rfl, ?_, rfl, rfl, rfl⟩
  · exact ((moves_flightOf r.1 _ _ _ _ _ _ _).same_towers rfl).trans (hlink.same_towers rfl)
  · show ((r.1.clk.nominal : Int) + _) = _
    rw [hclk]

end Inbound

/-! ## Outbound repeats -/

section Outbound

variable {n i d : Nat} (hn : n = nextDesc e.prog.descs false (c.tower k).outPtr.1)
  (hi : i = if n = (c.tower k).outPtr.1 then (c.tower k).outPtr.2 else 0) (hd : d = e.prog.descs.getD n 0)

theorem outbound_of_checks (h : (c.tower k).checks ≠ []) : outbound k c = c := by
  unfold outbound
  split
  · rfl
  · exact if_pos (by simp [h])

include hn hi hd

/-- An outbound repeat that may issue joins those in flight. -/
theorem outbound_issues (henv : c.env k = some (sg, e)) {q : Queue} (hq : q = (c.tower k).queue (dQueue d)) (hchecks : (c.tower k).checks = [])
    (hlt : n < e.prog.descs.length) (hst : (c.tower k).st = .running) (hstart : (c.tower k).startIn + (c.tower k).swapLeft = 0)
    (hissue : dIssueAt d i ≤ (c.tower k).sched) (hroom : fullFlight (c.tower k).flightOut = false)
    (hentry : (q.entry q.tail).st = .pushed ∨ ((q.entry q.tail).st = .writing ∧ (q.entry q.tail).sealed = false)) (hfault : c.repeatFault sg d i = 0) :
    ∃ (w : Core) (y : Tower) (f : Flight), outbound k c = w.setTower k y ∧ w.towers = c.towers ∧ y.flightOut = (c.tower k).flightOut ++ [f] ∧
      f.desc = n ∧ f.rep = i ∧ f.queue = dQueue d ∧ f.entry = q.tail ∧ f.landed = false ∧
      f.deadline = (c.clk.nominal : Int) + ((dDeadlineAt d i : Int) - ((c.tower k).sched : Int)) ∧
      y.outPtr = advance e.prog.descs false n i ∧ y.store = (c.tower k).store := by
  subst hn hi hd hq
  unfold outbound
  simp only [henv]
  rw [if_neg (by
      rw [makeFlight_of_room hroom]
      simp only [hst, hstart, hroom, hchecks, not_or, ge_iff_le, not_le, not_lt]
      exact ⟨hlt, by simp, by simp, hissue, by simp, by simpa [or_iff_not_imp_left] using hentry, by simp⟩),
    makeFlight_of_room hroom, hfault]
  exact ⟨_, _, _, rfl, (c.moves_takeSlots _ _ _ _ _).same_towers rfl, rfl, rfl, rfl, rfl, rfl, rfl, rfl, rfl, rfl⟩

end Outbound

/-! ## Accepted writes -/

theorem queue_setQueue {t : Tower} {q : Nat} (h : q < t.queues.length) (w : Queue) : (t.setQueue q w).queue q = w := by
  unfold Tower.queue Tower.setQueue
  rw [List.getD_eq_getElem _ _ (by rw [List.length_set]; exact h), List.getElem_set_self]

theorem entry_setEntry {q : Queue} (h : q.entries.length = 16) (n : Nat) (x : QEntry) : (q.setEntry n x).entry n = x := by
  have hlt : n % 16 < q.entries.length := h ▸ Nat.mod_lt n (by omega)
  unfold Queue.entry Queue.setEntry
  rw [List.getD_eq_getElem _ _ (by rw [List.length_set]; exact hlt), List.getElem_set_self]

/-- A fault of its tower leaves a free entry free. -/
theorem entry_stop_of_free {t : Tower} {f : TFault} {q n : Nat} (h : (t.queue q).entry n = .free) : ((t.stop f).queue q).entry n = .free := by
  have hmap (g : Queue → Queue) (hg : g .empty = .empty) : (t.queues.map g).getD q .empty = g (t.queue q) := by
    rw [Tower.queue, List.getD_eq_getElem?_getD, List.getElem?_map, List.getD_eq_getElem?_getD]
    cases t.queues[q]? with
    | none => exact hg.symm
    | some w => rfl
  unfold Tower.queue Tower.stop
  dsimp only
  rw [hmap _ rfl]
  unfold Queue.entry at h ⊢
  dsimp only
  rw [List.getD_eq_getElem?_getD] at h ⊢
  rw [List.getElem?_map]
  cases hx : (t.queue q).entries[n % 16]? with
  | none => rfl
  | some x =>
    rw [hx] at h
    rw [show x = .free from h]
    rfl

/-- The write of an outbound entry is accepted, or faults its tower: its entry is free either way. -/
theorem accepted_spec (dr : Dram) {q n : Nat} (henv : c.env k = some (sg, e)) (hq : q < (c.tower k).queues.length)
    (hlen : ((c.tower k).queue q).entries.length = 16)
    (hfind : ((List.range 16).map (fun j => (((c.tower k).queue q).tail + 1 + j) % 16)).find?
      (fun j => (((c.tower k).queue q).entry j).st = .writing && (((c.tower k).queue q).entry j).sealed) = some n) :
    (((accepted k q c dr).1.tower k).queue q).entry n = .free := by
  have hlt := env_lt henv
  unfold accepted
  simp only [henv, hfind]
  generalize hr : (List.foldl _ (c, dr, 0, 0, 0) _ : Core × Dram × Nat × Nat × Nat) = r
  have hmoves : c.Moves [.ctr, .chans, .dir, .ctxs] r.1 := by
    rw [← hr]
    refine .foldl_fst (r := (c, _)) _ (fun r f => .ite_fst (.refl r.1) ?_) _
    exact (r.1.moves_lateLines _ _ _ _).mono.trans (moves_writeRepeat _ _ _ _ _ _)
  have htowers := hmoves.same_towers rfl
  have htower : r.1.tower k = c.tower k := by rw [Core.tower, Core.tower, htowers]
  generalize hy : ({ (r.1.tower k).setQueue q _ with flightOut := _ } : Tower) = y
  have hfree : ((y.queue q).entry n) = .free := by
    rw [← hy, htower]
    show ((((c.tower k).setQueue q _).queue q).entry n) = .free
    rw [queue_setQueue hq, entry_setEntry hlen]
  have hset : (r.1.setTower k y).tower k = y := by rw [tower_setTower _ _ _ _ (by rw [htowers]; exact hlt), if_pos rfl]
  split
  · by_cases hst : ((r.1.setTower k y).tower k).st = .faulted
    · rw [towerFault_of_faulted hst, hset]
      exact hfree
    · cases hseg : ((r.1.setTower k y).tower k).seg.bind (r.1.setTower k y).seg? with
      | none =>
        have heq (f : TFault) : (r.1.setTower k y).towerFault k f (some sg.ctx) = r.1.setTower k y := by
          unfold towerFault
          simp only [hseg]
        rw [heq, hset]
        exact hfree
      | some s' =>
        dsimp only
        rw [Core.tower, (towerFault_eq hseg hst _ _).1, ← Core.tower, tower_setTower _ _ _ _ (by rw [setTower, List.length_set, htowers]; exact hlt),
          if_pos rfl, hset]
        exact entry_stop_of_free hfree
  · rw [hset]
    exact hfree

/-! ## Entries whose last bytes land -/

/-- From `c` to `d` the towers stay as many, and tower `k` keeps its queues. -/
def QueuesKept (k : Nat) (c d : Core) : Prop := d.towers.length = c.towers.length ∧ (d.tower k).queues = (c.tower k).queues

theorem QueuesKept.refl (k : Nat) (c : Core) : QueuesKept k c c := ⟨rfl, rfl⟩

theorem QueuesKept.trans {c d w : Core} (h : QueuesKept k c d) (g : QueuesKept k d w) : QueuesKept k c w := ⟨g.1.trans h.1, g.2.trans h.2⟩

theorem QueuesKept.of_towers {c d : Core} (h : d.towers = c.towers) : QueuesKept k c d := by
  unfold QueuesKept Core.tower
  rw [h]
  exact ⟨rfl, rfl⟩

theorem queuesKept_setTower (c : Core) {t : Tower} (h : t.queues = (c.tower k).queues) : QueuesKept k c (c.setTower k t) := by
  refine ⟨List.length_set, ?_⟩
  by_cases hk : k < c.towers.length
  · rw [tower_setTower _ _ _ _ hk, if_pos rfl, h]
  · rw [Core.tower, setTower, List.set_eq_of_length_le (by omega)]
    rfl

theorem queuesKept_retryCause (c : Core) (e : TEnv) (k q n : Nat) : QueuesKept k c (c.retryCause e k q n) := by
  unfold retryCause
  dsimp only
  split
  · split
    · have hrecount := (c.moves_recount k (c.tower k).cause 3 (c.tower k).wait).same_towers rfl
      exact (QueuesKept.of_towers hrecount).trans (queuesKept_setTower _ (QueuesKept.of_towers hrecount).2.symm)
    · exact .refl k c
  · exact .refl k c

theorem landRows_queues (t : Tower) (base d : Nat) (rows : List (List Line)) : (t.landRows base d rows).queues = t.queues := by
  have hfold {α : Type} (g : Tower → α → Tower) (hg : ∀ t a, (g t a).queues = t.queues) (xs : List α) : ∀ t, (xs.foldl g t).queues = t.queues := by
    induction xs with
    | nil => exact fun _ => rfl
    | cons x xs ih => exact fun t => (ih _).trans (hg t x)
  unfold Tower.landRows
  extract_lets val
  split
  · refine hfold _ ?_ _ _
    exact fun _ _ => rfl
  · refine hfold _ ?_ _ _
    exact fun _ _ => rfl

theorem queuesKept_landRepeat (c : Core) (s : Seg) (e : TEnv) (k : Nat) (fl : Flight) (dome : Check) :
    QueuesKept k c (c.landRepeat s e k fl dome).1 := by
  have hread := (c.moves_lateLines fl.deadline fl.src.1 fl.src.2 fl.free).mono.trans
    (moves_fetchLines _ s k fl (e.prog.descs.getD fl.desc 0) dome)
  unfold landRepeat
  dsimp only
  split
  · next h => exact .of_towers ((Moves.of_eq h hread).same_towers rfl)
  · next h => exact (QueuesKept.of_towers ((Moves.of_eq h hread).same_towers rfl)).trans (queuesKept_setTower _ (landRows_queues _ _ _ _))

/-- The repeats of an entry land one after another: its tower keeps its queues, and the first poison stays. -/
theorem landed_spec {g : Core × Nat → Flight × Nat → Core × Nat} (hg : ∀ r f, QueuesKept k r.1 (g r f).1 ∧ (r.2 ≠ 0 → (g r f).2 = r.2))
    (fls : List (Flight × Nat)) : ∀ r : Core × Nat, QueuesKept k r.1 (fls.foldl g r).1 ∧ (r.2 ≠ 0 → (fls.foldl g r).2 = r.2) := by
  induction fls with
  | nil => exact fun r => ⟨.refl k r.1, fun _ => rfl⟩
  | cons f fls ih =>
    intro r
    obtain ⟨hkept, hpoison⟩ := hg r f
    obtain ⟨hkept', hpoison'⟩ := ih (g r f)
    exact ⟨hkept.trans hkept', fun h => (hpoison' (by rw [hpoison h]; exact h)).trans (hpoison h)⟩

theorem present_spec (retried : Bool) (dome : Check) {q n : Nat} (henv : c.env k = some (sg, e)) (hq : q < (c.tower k).queues.length)
    (hlen : ((c.tower k).queue q).entries.length = 16)
    (hfind : ((List.range 16).map (fun j => (((c.tower k).queue q).mid + j) % 16)).find?
      (fun j => decide ((((c.tower k).queue q).entry j).st = .filling)) = some n)
    (hsealed : (((c.tower k).queue q).entry n).sealed = true) (hxfers : ∀ z ∈ c.xfers, ∀ d r, z.role = .tower k q n d r → z.ended = true)
    (hturned : (c.tower k).turned e.prog.descs q n c.clk.total = true) :
    ((((present k q retried dome c).tower k).queue q).entry n).st = .present ∧
    (∀ f ∈ ((present k q retried dome c).tower k).flightIn, ¬(f.queue = q ∧ f.entry = n)) ∧
    ((((c.tower k).queue q).entry n).poison ≠ 0 →
      ((((present k q retried dome c).tower k).queue q).entry n).poison = (((c.tower k).queue q).entry n).poison) := by
  have hlt := env_lt henv
  unfold present
  simp only [henv, hfind]
  generalize hc : (if retried = true then c.retryCause e k q n else c) = c1
  have hkept : QueuesKept k c c1 ∧ c1.xfers = c.xfers ∧ c1.clk = c.clk := by
    rw [← hc]
    split
    · exact ⟨queuesKept_retryCause c e k q n, congrArg Prod.fst ((c.moves_retryCause e k q n).frame .xfers rfl), (c.moves_retryCause e k q n).frame .clk rfl⟩
    · exact ⟨.refl k c, rfl, rfl⟩
  obtain ⟨hkept, hx, hclk⟩ := hkept
  rw [if_neg (by
    simp only [Bool.or_eq_true, Bool.and_eq_true, hsealed, hclk, hturned, hx, List.any_eq_true, not_or]
    refine ⟨⟨by simp, ?_⟩, by simp⟩
    rintro ⟨-, z, hz, hmine, hend⟩
    cases hrole : z.role with
    | tower t' q' k' d r =>
      rw [hrole] at hmine
      simp only [Bool.and_eq_true, decide_eq_true_eq] at hmine
      obtain ⟨⟨rfl, rfl⟩, rfl⟩ := hmine
      rw [hxfers z hz d r hrole] at hend
      exact nomatch hend
    | _ => rw [hrole] at hmine; exact nomatch hmine)]
  generalize hc2 : (if retried = true then c1.retriedLine _ else c1) = c2
  have hkept2 : QueuesKept k c c2 := by
    rw [← hc2]
    split
    · exact hkept.trans (.of_towers ((c1.moves_retriedLine _).same_towers rfl))
    · exact hkept
  generalize hr : (List.foldl _ (c2, (((c.tower k).queue q).entry n).poison) _ : Core × Nat) = r
  have hland : QueuesKept k c2 r.1 ∧ ((((c.tower k).queue q).entry n).poison ≠ 0 → r.2 = (((c.tower k).queue q).entry n).poison) := by
    rw [← hr]
    refine landed_spec ?_ _ (c2, (((c.tower k).queue q).entry n).poison)
    exact fun r f => ⟨queuesKept_landRepeat _ _ _ _ _ _, fun h => if_neg h⟩
  obtain ⟨hland, hpoison⟩ := hland
  obtain ⟨htowers, hqueues⟩ := hkept2.trans hland
  have hqueue : (r.1.tower k).queue q = (c.tower k).queue q := by rw [Tower.queue, hqueues]; rfl
  show ((((r.1.setTower k _).tower k).queue q).entry n).st = _ ∧ (∀ f ∈ ((r.1.setTower k _).tower k).flightIn, _) ∧
    (_ → ((((r.1.setTower k _).tower k).queue q).entry n).poison = _)
  rw [tower_setTower _ _ _ _ (by rw [htowers]; exact hlt), if_pos rfl]
  generalize hy : (r.1.tower k).setQueue q _ = y
  have hentry : (y.queue q).entry n = { ((c.tower k).queue q).entry n with
      st := .present, poison := r.2, flight := 0, sealed := false
      causes := (((c.tower k).queue q).entry n).causes ||| (if retried then 8 else 0) } := by
    rw [← hy, queue_setQueue (by rw [hqueues]; exact hq), hqueue, entry_setEntry hlen]
  show ((y.queue q).entry n).st = _ ∧ _ ∧ (_ → ((y.queue q).entry n).poison = _)
  rw [hentry]
  refine ⟨rfl, fun f hf => ?_, hpoison⟩
  simpa [imp_iff_not_or] using (List.mem_filter.1 hf).2

end Core

/-! ## The commands -/

/-- Settles O28: each command of the fetch engine acts on its queue and its repeats in flight. -/
theorem fetchEngine : Obligations.FetchEngine := by
  refine ⟨fun s k sg e henv => ⟨fun h => ?_, fun h => ?_, fun hlt hst hdone hstart hissue hopen hroom hyield hfault => ?_⟩,
    fun s k sg e henv => ⟨fun h => ?_, fun hchecks hlt hst hstart hissue hroom hentry hfault => ?_⟩,
    fun s k q n sg e retried dome henv hq hlen hfind hsealed hxfers hturned => ?_, fun s k q n sg e henv hq hlen hfind => ?_⟩
  · show Host.Outcome.next (s.afterM (Core.inbound s.trim k s.core s.dram) s.dram) = _
    rw [Core.inbound_of_done s.trim s.dram h]
    rfl
  · show Host.Outcome.next (s.afterM (Core.inbound s.trim k s.core s.dram) s.dram) = _
    rw [Core.inbound_of_full s.trim s.dram henv h]
    rfl
  · obtain ⟨w, y, f, heq, htowers, hin, h1, h2, h3, h4, h5, h6, h7, h8, h9⟩ := Core.inbound_issues s.trim s.dram rfl rfl rfl henv rfl hlt hst hdone hstart
      hissue (by simpa [QEntry.open_] using hopen) hroom hyield hfault
    refine ⟨s.after (w.setTower k y), f, congrArg (fun d => Host.Outcome.next (s.after d)) heq, ?_⟩
    have hk : k < w.towers.length := by rw [htowers]; exact Core.env_lt henv
    rw [tower_after, Core.tower_setTower _ _ _ _ hk, if_pos rfl]
    refine ⟨hin, h1, h2, h3, h4, h5, h6, h7, h8, h9, fun j hj => ?_⟩
    rw [tower_after, Core.tower_setTower_of_ne _ _ hj, Core.tower, htowers]
    rfl
  · exact congrArg (fun d => Host.Outcome.next (s.after d)) (Core.outbound_of_checks h)
  · obtain ⟨w, y, f, heq, htowers, hout, h1, h2, h3, h4, h5, h6, h7, h8⟩ := Core.outbound_issues rfl rfl rfl henv rfl hchecks hlt hst hstart
      hissue hroom hentry hfault
    refine ⟨s.after (w.setTower k y), f, congrArg (fun d => Host.Outcome.next (s.after d)) heq, ?_⟩
    have hk : k < w.towers.length := by rw [htowers]; exact Core.env_lt henv
    rw [tower_after, Core.tower_setTower _ _ _ _ hk, if_pos rfl]
    refine ⟨hout, h1, h2, h3, h4, h5, h6, h7, h8, fun j hj => ?_⟩
    rw [tower_after, Core.tower_setTower_of_ne _ _ hj, Core.tower, htowers]
    rfl
  · refine ⟨s.after (Core.present k q retried dome s.core), rfl, ?_⟩
    rw [tower_after]
    exact Core.present_spec retried dome henv hq hlen hfind hsealed hxfers hturned
  · refine ⟨s.afterM (Core.accepted k q s.core s.dram).1 (Core.accepted k q s.core s.dram).2, rfl, ?_⟩
    rw [Core.tower, State.afterM_core]
    show ((((s.after (Core.accepted k q s.core s.dram).1).core.tower k).queue q).entry n) = _
    rw [tower_after]
    exact Core.accepted_spec s.dram henv hq hlen hfind

end Sys2Proof.Machine

/-! # Swap-out, the words of a save, and the self-test (O30) -/

namespace Sys2Proof.Machine

set_option Elab.async false

/-! ## Words of a save -/

theorem bits_mod {w lo n m : Nat} (h : lo + n ≤ m) : bits (w % 2 ^ m) lo n = bits w lo n := by
  obtain ⟨d, rfl⟩ := Nat.exists_eq_add_of_le h
  unfold bits
  rw [Nat.shiftRight_eq_div_pow, Nat.shiftRight_eq_div_pow, show lo + n + d = lo + (n + d) by omega, Nat.pow_add, Nat.mod_mul_right_div_self,
    Nat.mod_mod_of_dvd _ (Nat.pow_dvd_pow 2 (Nat.le_add_right n d))]

theorem bit_mod {w i m : Nat} (h : i + 1 ≤ m) : bit (w % 2 ^ m) i = bit w i := by
  have hbits := bits_mod (w := w) h
  unfold bits at hbits
  rw [Nat.pow_one] at hbits
  unfold bit
  rw [hbits]

/-- The bits above 63 of a word do not enter what RESTORE makes of it. -/
theorem entryClean_mod (w : Nat) : entryClean (w % 2 ^ 64) = entryClean w := by
  unfold entryClean entryVal entryInexact entryLevel entryNode
  rw [bits_mod (by decide), bits_mod (by decide), bits_mod (by decide), bit_mod (by decide), bit_mod (by decide), bit_mod (by decide)]

/-- Words below 2^64, one after another in a number: each is there. -/
theorem word_of_sum {a : Nat → Nat} (ha : ∀ k, a k < 2 ^ 64) (n : Nat) :
    (((List.range n).map (fun k => a k * 2 ^ (64 * k))).sum < 2 ^ (64 * n)) ∧
      ∀ k, k < n → ((List.range n).map (fun k => a k * 2 ^ (64 * k))).sum / 2 ^ (64 * k) % 2 ^ 64 = a k := by
  induction n with
  | zero => exact ⟨Nat.one_pos, fun k hk => absurd hk (Nat.not_lt_zero k)⟩
  | succ n ih =>
    obtain ⟨hlt, hword⟩ := ih
    rw [List.range_succ, List.map_append, List.sum_append, List.map_singleton, List.sum_singleton]
    generalize ((List.range n).map (fun k => a k * 2 ^ (64 * k))).sum = t at hlt hword ⊢
    refine ⟨?_, fun k hk => ?_⟩
    · calc t + a n * 2 ^ (64 * n) < 2 ^ (64 * n) + a n * 2 ^ (64 * n) := Nat.add_lt_add_right hlt _
        _ = (a n + 1) * 2 ^ (64 * n) := by rw [Nat.add_mul, Nat.one_mul, Nat.add_comm]
        _ ≤ 2 ^ 64 * 2 ^ (64 * n) := Nat.mul_le_mul_right _ (ha n)
        _ = 2 ^ (64 * (n + 1)) := by rw [← Nat.pow_add]; congr 1; omega
    · obtain hk | rfl := Nat.lt_succ_iff_lt_or_eq.1 hk
      · have hsplit : a n * 2 ^ (64 * n) = 2 ^ (64 * k) * (2 ^ 64 * (a n * 2 ^ (64 * n - 64 * k - 64))) := by
          rw [Nat.mul_left_comm (2 ^ 64), Nat.mul_left_comm (2 ^ (64 * k)), ← Nat.pow_add, ← Nat.pow_add]
          congr 2
          omega
        rw [hsplit, Nat.add_mul_div_left _ _ (Nat.two_pow_pos _), Nat.add_mul_mod_self_left, hword k hk]
      · rw [Nat.add_mul_div_right _ _ (Nat.two_pow_pos _), Nat.div_eq_of_lt hlt, Nat.zero_add, Nat.mod_eq_of_lt (ha k)]

/-- Line `l` of a part's save holds word `k` of its eight. -/
theorem word_of_saveLines (g : Group) (p : Nat) {l k : Nat} (hl : l < 64) (hk : k < 8) :
    bits (((g.saveLines p).map (fun x : Nat × Line => x.2)).getD l 0).toNat (64 * k) 64 = g.words.get 0 (512 * p + 8 * l + k) % 2 ^ 64 := by
  obtain ⟨hlt, hword⟩ := word_of_sum (a := fun k => g.words.get 0 (512 * p + 8 * l + k) % 2 ^ 64) (fun k => Nat.mod_lt _ (Nat.two_pow_pos 64)) 8
  unfold Group.saveLines bits
  rw [List.map_map, List.getD_eq_getElem _ _ (by rw [List.length_map, List.length_range]; exact hl), List.getElem_map, List.getElem_range,
    Nat.shiftRight_eq_div_pow]
  show (BitVec.ofNat 512 _).toNat / _ % _ = _
  rw [BitVec.toNat_ofNat, Nat.mod_eq_of_lt hlt, hword k hk]

/-- Words written out and read back. -/
theorem get_loadLines_saveLines (g h : Group) (p : Nat) {i : Nat} (hi : i < 512) (hr : h.words.rising = true)
    (hclean : entryClean (g.words.get 0 (512 * p + i)) = g.words.get 0 (512 * p + i)) :
    (h.loadLines p (.ok ((g.saveLines p).map (fun l => l.2)))).words.get 0 (512 * p + i) = g.words.get 0 (512 * p + i) := by
  have hfold (f : Nat → Nat) (is : List Nat) (m : SMap Nat) (hm : m.rising = true) : (is.foldl (fun m i => SMap.set 0 m (512 * p + i) (f i)) m).get 0 (512 * p + i) =
      if i ∈ is then f i else m.get 0 (512 * p + i) := by
    have hmap := SMap.get_sets 0 (fun j => f (j - 512 * p)) (is.map (fun i => 512 * p + i)) m hm (512 * p + i)
    rw [List.foldl_map] at hmap
    simp only [Nat.add_sub_cancel_left, List.mem_map, Nat.add_left_cancel_iff, exists_eq_right] at hmap
    exact hmap
  unfold Group.loadLines
  dsimp only
  rw [hfold _ _ _ hr, if_pos (List.mem_range.2 hi)]
  rw [word_of_saveLines g p (by omega) (Nat.mod_lt i (by decide)), entryClean_mod,
    show 512 * p + 8 * (i / 8) + i % 8 = 512 * p + i by omega, hclean]

/-! ## Swap-out -/

/-- A tower once its segment is swapped out. -/
def Tower.swappedOut (t : Tower) (now : Nat) : Tower :=
  { Tower.reset t.testEnd with
    st := .swapped, fault := t.fault, testDone := t.testDone, testPass := t.testPass, fenced := t.fenced, testUnit := t.testUnit
    swapLeft := t.swapBeats, holds := t.swapHolds (now + t.swapBeats), freeFrom := now + t.swapBeats }

namespace Core

variable {c : Core}

/-- The towers and the segment after a swap. -/
theorem swapSeg_spec (dr : Dram) (x : Seg) : (c.swapSeg dr x).1.towers = c.towers.map (fun t => if t.seg = some x.id then t.swappedOut c.clk.total else t) ∧
    (c.swapSeg dr x).1.segs = (c.setSeg { x with st := .swapped, saved := (towersOf x.img.towerSet).map (fun t => (t, (c.tower t).saved)) }).segs := by
  have hsave := c.moves_saveSeg dr x ((towersOf x.img.towerSet).map (fun t => (t, c.tower t)))
  unfold swapSeg
  extract_lets ts r now free w c'
  have hbump := (c'.setSeg { x with st := .swapped, saved := ts.map (fun x => (x.1, x.2.saved)) }).moves_bump 0x458 1
  have htowers : r.1.towers = c.towers := hsave.same_towers rfl
  have hsegs : r.1.segs = c.segs := hsave.frame .segs rfl
  refine ⟨?_, ?_⟩
  · rw [hbump.same_towers rfl]
    show r.1.towers.map _ = _
    rw [htowers]
    rfl
  · rw [show (((c'.setSeg _).bump 0x458 1).segs = _) from hbump.frame .segs rfl]
    show r.1.segs.map _ = c.segs.map _
    rw [hsegs, List.map_map]
    rfl

theorem swapOut_eq (tr : Trim) (dr : Dram) {k : Nat} {x : Seg} (hx : (c.tower k).seg.bind c.seg? = some x) (hst : x.st = .running)
    (hcore : c.coreUp 3 = true) (hswap : c.swappable x = true) (hwant : c.wanted x = true ∨ c.prc.state = .stopping)
    {y : Core × Nat} (hy : (c.evictFor tr dr x.saveFrames).saveSpace x = some y) :
    swapOut tr k c dr = y.1.swapSeg dr { x with saveAt := y.2 } := by
  unfold swapOut
  simp only [hx]
  rw [if_pos ⟨hst, hcore, hswap, hwant⟩]
  simp only [hy]

end Core

/-- Core 3 swaps a segment out. -/
theorem exec_swapOut {s : State} {k : Nat} {x : Seg} (hx : (s.core.tower k).seg.bind s.core.seg? = some x) (hst : x.st = .running)
    (hcore : s.core.coreUp 3 = true) (hswap : s.core.swappable x = true) (hwant : s.core.wanted x = true ∨ s.core.prc.state = .stopping)
    (hspace : ((s.core.evictFor s.trim s.dram x.saveFrames).saveSpace x).isSome = true) :
    ∃ t, exec (.swapOut k) s = .next t ∧
      t.core.segs = (s.core.setSeg { x with st := .swapped, saved := (towersOf x.img.towerSet).map (fun j => (j, (s.core.tower j).saved))
                                            saveAt := (((s.core.evictFor s.trim s.dram x.saveFrames).saveSpace x).getD (s.core, 0)).2 }).segs ∧
      ∀ j, t.core.tower j = if (s.core.tower j).seg = some x.id then (s.core.tower j).swappedOut s.core.clk.total else s.core.tower j := by
  obtain ⟨y, hy⟩ := Option.isSome_iff_exists.1 hspace
  have hmoves := (s.core.moves_evictFor s.trim s.dram x.saveFrames).mono.trans (Core.moves_saveSpace _ hy).mono (w := Core.evictParts)
  have htowers : y.1.towers = s.core.towers := hmoves.same_towers rfl
  have hsegs : y.1.segs = s.core.segs := hmoves.frame .segs rfl
  have hclk : y.1.clk = s.core.clk := hmoves.frame .clk rfl
  have htower (j : Nat) : y.1.tower j = s.core.tower j := by rw [Core.tower, Core.tower, htowers]
  obtain ⟨hsw, hsg⟩ := Core.swapSeg_spec (c := y.1) s.dram { x with saveAt := y.2 }
  have heq := Core.swapOut_eq s.trim s.dram hx hst hcore hswap hwant hy
  refine ⟨s.afterM (Core.swapOut s.trim k s.core s.dram).1 (Core.swapOut s.trim k s.core s.dram).2, rfl, ?_, fun j => ?_⟩
  · rw [State.afterM_core]
    show (s.after (Core.swapOut s.trim k s.core s.dram).1).core.segs = _
    rw [State.after_segs, heq, hsg, hy]
    simp only [htower]
    show y.1.segs.map _ = s.core.segs.map _
    rw [hsegs]
    rfl
  · rw [State.afterM_core]
    show (s.after (Core.swapOut s.trim k s.core s.dram).1).core.tower j = _
    rw [tower_after, heq, Core.tower, hsw, htowers, hclk, List.getD_eq_getElem?_getD, List.getElem?_map, Core.tower, List.getD_eq_getElem?_getD]
    cases s.core.towers[j]? with
    | none => rfl
    | some t => rfl

/-! ## The self-test -/

theorem Core.selfTest_eq {c : Core} {k : Nat} (hdone : (c.tower k).testDone = false) (hend : (c.tower k).testEnd ≤ c.clk.nominal) (u : Nat) :
    Core.selfTest k u c = (if u = 0 then id else fun d : Core => d.raise (sysEvent 0x010B u 0 0 k)) (c.setTower k { c.tower k with
      testDone := true, testPass := u = 0, testUnit := u
      fenced := decide (u ≠ 0) || (c.prc.regions.getD (k / 4) .reset).fenced }) := by
  unfold selfTest
  dsimp only
  rw [if_neg (by simp [hdone, hend])]
  split
  · rfl
  · rfl

theorem exec_selfTestDone {s : State} {k : Nat} (hk : k < s.core.towers.length) (hdone : (s.core.tower k).testDone = false)
    (hend : (s.core.tower k).testEnd ≤ s.core.clk.nominal) (u : Nat) : ∃ t, exec (.selfTestDone k u) s = .next t ∧
      t.core.tower k = { s.core.tower k with
        testDone := true, testPass := u = 0, testUnit := u
        fenced := decide (u ≠ 0) || (s.core.prc.regions.getD (k / 4) .reset).fenced } ∧
      (∀ j, j ≠ k → t.core.tower j = s.core.tower j) ∧
      t.evr = (s.evr.takeAll s.core.stamp (s.core.outbox ++ if u = 0 then [] else [⟨0x010B, 0xFFFF, u % 2 ^ 16, 0, 0, 0xFFFF, k⟩])).1 := by
  have htower (w : Tower) (j : Nat) : ((if u = 0 then id else fun d : Core => d.raise (sysEvent 0x010B u 0 0 k)) (s.core.setTower k w)).tower j =
      (s.core.setTower k w).tower j := by
    split
    · rfl
    · rfl
  refine ⟨s.after (Core.selfTest k u s.core), rfl, ?_, fun j hj => ?_, ?_⟩
  · rw [tower_after, Core.selfTest_eq hdone hend, htower, Core.tower_setTower _ _ _ _ hk, if_pos rfl]
  · rw [tower_after, Core.selfTest_eq hdone hend, htower, Core.tower_setTower_of_ne _ _ hj]
  · rw [State.after_evr, Core.selfTest_eq hdone hend]
    split
    · rw [List.append_nil]
      rfl
    · rfl

/-- Settles O30: what a swap leaves of its towers and keeps with its segment, the words of its save, and the end of a self-test. -/
theorem towersSwapAndTest : Obligations.TowersSwapAndTest := by
  refine ⟨fun s k x hx hst hcore hswap hwant hspace => ?_, fun g h p i hi hr hclean => get_loadLines_saveLines g h p hi hr hclean,
    fun s k u hk hdone hend => exec_selfTestDone hk hdone hend u⟩
  obtain ⟨t, hexec, hsegs, htowers⟩ := exec_swapOut hx hst hcore hswap hwant hspace
  refine ⟨t, hexec, fun y hy hid => ?_, fun j hj => ?_, fun j hj => by rw [htowers, if_neg hj]⟩
  · rw [hsegs] at hy
    rw [Core.of_mem_setSeg hy hid]
    refine ⟨rfl, ?_, fun j old hold => ?_⟩
    · show (List.map _ (List.map _ _)) = _
      rw [List.map_map]
      exact List.map_id' _
    · obtain ⟨j', -, heq⟩ := List.mem_map.1 hold
      injection heq with hj hsaved
      subst hj hsaved
      refine ⟨rfl, rfl, rfl, ?_⟩
      show (List.map _ (List.map _ _)) = _
      rw [List.map_map]
      rfl
  · rw [htowers, if_pos hj]
    exact ⟨rfl, rfl, rfl, rfl⟩

end Sys2Proof.Machine

/-! # Eviction and the tier-0 copies (O33) -/

namespace Sys2Proof.Machine

set_option Elab.async false

theorem SMap.get_insert_self {α : Type} (d : α) (m : SMap α) (k : Nat) (v : α) : SMap.get d (SMap.insert m k v) k = v := by
  induction m with
  | nil => exact if_pos rfl
  | cons e m ih =>
    obtain ⟨i, w⟩ := e
    unfold SMap.insert
    split
    · exact if_pos rfl
    · split
      · exact if_pos rfl
      · next hne hlt => exact (if_neg hne).trans ((if_neg hlt).trans ih)

/-- A map of rising keys lists each once. -/
theorem SMap.nodup_keys {α : Type} {m : SMap α} (h : m.rising = true) : (m.map (fun e => e.1)).Nodup := by
  induction m with
  | nil => exact List.nodup_nil
  | cons e m ih =>
    obtain ⟨hlt, hm⟩ := SMap.rising_cons.1 h
    refine List.nodup_cons.2 ⟨fun hmem => ?_, ih hm⟩
    obtain ⟨x, hx, heq⟩ := List.mem_map.1 hmem
    exact Nat.lt_irrefl _ (Nat.lt_of_lt_of_eq (hlt x hx) heq)

namespace Core

variable {c : Core}

theorem candidates_nodup (h : c.dir.rising = true) : c.candidates.Nodup := by
  unfold candidates
  refine ((List.mergeSort_perm _ _).map _).nodup_iff.2 ?_
  exact (SMap.nodup_keys h).sublist (List.filter_sublist.map _)

/-! ## One eviction -/

/-- A clean entry is REMOTE at once. -/
theorem evict_clean (tr : Trim) (dr : Dram) {i : Nat} (hr : c.dir.rising = true) (h : (c.desc i).dirty = false) :
    ((c.evict tr dr i).desc i).st = .remote := by
  have hdesc : (c.evict tr dr i).desc i = ((c.toRemote i).bump 0x450 1).desc i := by rw [evict, if_pos (by simp [h])]
  rw [hdesc, Core.desc, show ((c.toRemote i).bump 0x450 1).dir = (c.toRemote i).dir from ((c.toRemote i).moves_bump 0x450 1).frame .dir rfl]
  have hdrop (d : Core) : SMap.get .free (d.dropRun i).dir i = d.desc i := rfl
  rw [toRemote, hdrop, desc_updDesc _ _ _ (show (c.dropCopies i).dir.rising = true from hr)]

/-- A DIRTY entry with a host source that is served is claimed for its write-back. -/
theorem evict_dirty (tr : Trim) (dr : Dram) {i : Nat} (hr : c.dir.rising = true) (h : (c.desc i).dirty = true)
    (hsource : bits (c.desc i).tier2 0 2 = 2) (hserves : c.serves (c.desc i) 0 = true) :
    ((c.evict tr dr i).desc i).st = .evicting ∧ ((c.evict tr dr i).desc i).wb = some none := by
  have hdir : (c.dropCopies i).dir.rising = true := hr
  have hdesc := desc_setDesc (c.dropCopies i) i i { c.desc i with st := .evicting, claimant := 1, kind := 2, wb := some none } hdir
  rw [if_pos rfl] at hdesc
  unfold evict
  rw [if_neg (by simp [h])]
  generalize hd : (c.dropCopies i).setDesc i { c.desc i with st := .evicting, claimant := 1, kind := 2, wb := some none } = d at hdesc
  have hstart (b : Nat) : d.startWriteback tr dr i b = (d, 0) := by
    have hslot : d.serves (d.desc i) 0 = true := by
      rw [hdesc, ← hd]
      exact hserves
    unfold startWriteback
    rw [if_pos (by rw [hdesc]; exact hsource), if_pos hslot]
  dsimp only
  rw [hstart]
  exact hdesc ▸ ⟨rfl, rfl⟩

/-- From `c` to `d` the directory keeps its form, and entry `i` stays. -/
def KeepsDesc (i : Nat) (c d : Core) : Prop := c.dir.rising = true → d.dir.rising = true ∧ d.desc i = c.desc i

theorem KeepsDesc.trans {i : Nat} {c d w : Core} (h : KeepsDesc i c d) (g : KeepsDesc i d w) : KeepsDesc i c w := fun hr =>
  ⟨(g (h hr).1).1, (g (h hr).1).2.trans (h hr).2⟩

theorem KeepsDesc.of_dir {i : Nat} {c d : Core} (h : d.dir = c.dir) : KeepsDesc i c d := fun hr => ⟨h.symm ▸ hr, by rw [Core.desc, Core.desc, h]⟩

theorem keepsDesc_setDesc (c : Core) {i j : Nat} (h : i ≠ j) (x : Desc) : KeepsDesc i c (c.setDesc j x) := fun hr =>
  ⟨SMap.rising_set _ _ hr, by rw [desc_setDesc _ _ _ _ hr, if_neg h]⟩

/-- An eviction leaves the other entries. -/
theorem keepsDesc_evict (tr : Trim) (dr : Dram) (c : Core) {i j : Nat} (h : i ≠ j) : KeepsDesc i c (c.evict tr dr j) := by
  unfold evict
  dsimp only
  split
  · refine KeepsDesc.trans ?_ (.of_dir (((c.toRemote j).moves_bump 0x450 1).frame .dir rfl))
    have hcopies : KeepsDesc i c (c.dropCopies j) := .of_dir rfl
    have hdrop (d : Core) : KeepsDesc i d (d.dropRun j) := .of_dir rfl
    exact (hcopies.trans (keepsDesc_setDesc (c.dropCopies j) h _)).trans (hdrop _)
  · have hset := keepsDesc_setDesc (c.dropCopies j) h { c.desc j with st := .evicting, claimant := 1, kind := 2, wb := some none }
    have hstart (d : Core) (b : Nat) := (d.moves_startWriteback tr dr j b).frame .dir rfl
    have hfail (d : Core) (code : Nat) : KeepsDesc i d (d.writebackFail j code) := by
      unfold writebackFail
      dsimp only
      split
      · exact .of_dir rfl
      · split
        · exact (keepsDesc_setDesc d h _).trans (.of_dir ((moves_complete _ _ _ _).frame .dir rfl))
        · exact keepsDesc_setDesc d h _
    generalize (c.dropCopies j).setDesc j { c.desc j with st := .evicting, claimant := 1, kind := 2, wb := some none } = d at hset ⊢
    have hpost : KeepsDesc i d (d.startWriteback tr dr j d.defaultBudget).1 := .of_dir (hstart d _)
    have hcopies : KeepsDesc i c (c.dropCopies j) := .of_dir rfl
    split
    · next heq =>
      rw [heq] at hpost
      exact hcopies.trans (hset.trans hpost)
    · next heq =>
      rw [heq] at hpost
      exact hcopies.trans (hset.trans (hpost.trans (hfail _ _)))

/-- Evictions of other entries. -/
theorem keepsDesc_evictions {g : Core → Nat → Core} {i : Nat} (hg : ∀ d j, i ≠ j → KeepsDesc i d (g d j)) (is : List Nat) (hi : i ∉ is) :
    ∀ c, KeepsDesc i c (is.foldl g c) := by
  induction is with
  | nil => exact fun c => .of_dir rfl
  | cons j is ih =>
    rw [List.mem_cons, not_or] at hi
    exact fun c => (hg c j hi.1).trans (ih hi.2 _)

/-- The first candidate is evicted, and nothing after it touches it. -/
theorem eviction_desc (tr : Trim) (dr : Dram) {i : Nat} {is : List Nat} (hlow : c.freeFrames < bits (c.reg offTier1) 0 16 * 2 ^ 18)
    (hhigh : c.comingFrames < bits (c.reg offTier1) 16 16 * 2 ^ 18) (hcand : c.candidates = i :: is) (hr : c.dir.rising = true) :
    (c.evict tr dr i).dir.rising = true → (eviction tr c dr).desc i = (c.evict tr dr i).desc i := by
  intro hr'
  have hnodup := candidates_nodup hr
  rw [hcand] at hnodup
  have hi := (List.nodup_cons.1 hnodup).1
  unfold eviction
  rw [if_neg (show ¬ c.freeFrames ≥ bits (c.reg offTier1) 0 16 * 2 ^ 18 from Nat.not_le.2 hlow), hcand, List.foldl_cons,
    if_neg (show ¬ c.comingFrames ≥ bits (c.reg offTier1) 16 16 * 2 ^ 18 from Nat.not_le.2 hhigh)]
  refine (keepsDesc_evictions (fun d j hj => ?_) is hi _ hr').2
  split
  · exact .of_dir rfl
  · exact keepsDesc_evict tr dr d hj

/-! ## Tier-0 copies -/

theorem claimUnits_kept (p : UnitClaim) (n : Nat) : (c.claimUnits p n).gate.copies = c.gate.copies ∧ (c.claimUnits p n).clk = c.clk := ⟨rfl, rfl⟩

theorem get_claimUnits_one {u : Nat} {us : List Nat} (p : UnitClaim) (hp : p ≠ .free) (h : c.freeUnits = u :: us) :
    SMap.get .free (c.claimUnits p 1).gate.units u = p := by
  unfold claimUnits
  rw [h, List.take_succ_cons, List.take_zero, List.foldl_cons, List.foldl_nil, SMap.set, if_neg hp]
  exact SMap.get_insert_self _ _ _ _

theorem tier0Copy_eq (dr : Dram) {i bank page u : Nat} {us : List Nat} {c' : Core} {ls : List Line} (hst : (c.desc i).st = .resident)
    (hkind : (c.desc i).kind ≤ 1) (hpage : page < (c.desc i).pages) (hbank : bankFor (c.groupsOf i) (c.desc i).commit.bank page = bank)
    (hfree : c.freeUnits = u :: us) (hno : c.gate.copies.any (fun k => k.idx = i && k.bank = bank && k.page = page && !k.dead) = false)
    (hread : c.readPage dr i ((c.desc i).pageAt 0 bank page) (List.range 64) = (c', .ok ls)) :
    tier0Copy i bank page c dr = { c'.claimUnits .copy 1 with gate := { (c'.claimUnits .copy 1).gate with
      copies := (c'.claimUnits .copy 1).gate.copies ++ [⟨c'.freeUnits.headD 0, i, bank, page, (c'.claimUnits .copy 1).clk.total, false, ls⟩] } } := by
  have hfav : c.favoured i = c := if_pos (by rw [hfree]; exact List.cons_ne_nil _ _)
  unfold tier0Copy
  rw [hfav, if_neg (by
    simp only [not_or]
    exact ⟨not_not.2 hst, by omega, by omega, not_not.2 hbank, by simp [hno], by simp [hfree]⟩), hread]

end Core

/-! ## The commands -/

theorem exec_core2 (s : State) (f : Core → Dram → Core × Dram) (h : s.core.coreUp 2 = true) :
    s.actCore2 f = .next (s.afterM (f s.core s.dram).1 (f s.core s.dram).2) := by
  rw [State.actCore2, State.actM_next, if_pos h]

theorem exec_core2_halted (s : State) (f : Core → Dram → Core × Dram) (h : s.core.coreUp 2 = false) : s.actCore2 f = .next (s.after s.core) := by
  rw [State.actCore2, State.actM_next, if_neg (by simp [h])]
  rfl

theorem exec_eviction {s : State} {i : Nat} {is : List Nat} (hcore : s.core.coreUp 2 = true)
    (hlow : s.core.freeFrames < bits (s.core.reg offTier1) 0 16 * 2 ^ 18) (hhigh : s.core.comingFrames < bits (s.core.reg offTier1) 16 16 * 2 ^ 18)
    (hcand : s.core.candidates = i :: is) (hr : s.core.dir.rising = true) :
    ∃ t, exec .eviction s = .next t ∧ t.core.desc i = (s.core.evict s.trim s.dram i).desc i := by
  refine ⟨_, exec_core2 s (fun c d => (Core.eviction s.trim c d, d)) hcore, ?_⟩
  rw [State.afterM_core]
  exact (State.after_desc_of_dir s rfl i).trans (Core.eviction_desc s.trim s.dram hlow hhigh hcand hr
    (Core.keepsDesc_evict s.trim s.dram s.core (Nat.succ_ne_self i) hr).1)

theorem exec_tier0Copy {s : State} {i bank page u : Nat} {us : List Nat} {c' : Core} {ls : List Line} (hcore : s.core.coreUp 2 = true)
    (hfree : s.core.freeUnits = u :: us) (hread : s.core.readPage s.dram i ((s.core.desc i).pageAt 0 bank page) (List.range 64) = (c', .ok ls))
    (heq : Core.tier0Copy i bank page s.core s.dram = { c'.claimUnits .copy 1 with gate := { (c'.claimUnits .copy 1).gate with
      copies := (c'.claimUnits .copy 1).gate.copies ++ [⟨c'.freeUnits.headD 0, i, bank, page, (c'.claimUnits .copy 1).clk.total, false, ls⟩] } }) :
    ∃ t, exec (.tier0Copy i bank page) s = .next t ∧
      t.core.gate.copies = s.core.gate.copies ++ [⟨u, i, bank, page, s.core.clk.total, false, ls⟩] ∧
      SMap.get .free t.core.gate.units u = .copy ∧ t.dram = s.dram := by
  have hmoves : s.core.Moves [.ctr, .chans] c' := .of_eq hread (s.core.moves_readPage _ _ _ _)
  have hpool := hmoves.frame .pool rfl
  have hunits : c'.gate.units = s.core.gate.units := congrArg Prod.fst hpool
  have hcopies : c'.gate.copies = s.core.gate.copies := congrArg Prod.snd hpool
  have hclk : c'.clk = s.core.clk := hmoves.frame .clk rfl
  have hfree' : c'.freeUnits = u :: us := by rw [← hfree, Core.freeUnits, Core.freeUnits, hunits]
  refine ⟨_, exec_core2 s (fun c d => (Core.tier0Copy i bank page c d, d)) hcore, ?_⟩
  rw [State.afterM_core]
  show (s.after (Core.tier0Copy i bank page s.core s.dram)).core.gate.copies = _ ∧
    SMap.get .free (s.after (Core.tier0Copy i bank page s.core s.dram)).core.gate.units u = .copy ∧ _
  rw [State.after_gate, heq]
  have hget := Core.get_claimUnits_one .copy (by decide) hfree'
  obtain ⟨hkept, htotal⟩ := c'.claimUnits_kept .copy 1
  generalize c'.claimUnits .copy 1 = d at hget hkept htotal ⊢
  refine ⟨?_, hget, rfl⟩
  show d.gate.copies ++ [⟨c'.freeUnits.headD 0, i, bank, page, d.clk.total, false, ls⟩] = _
  rw [hkept, hcopies, hfree', htotal, hclk]
  rfl

/-- Settles O33: the first candidate goes, a copy takes the page it names, and a halted core 2 does nothing. -/
theorem tierZeroAndEviction : Obligations.TierZeroAndEviction := by
  refine ⟨fun s i is hcore hlow hhigh hcand hr => ?_, fun s i bank page u us c' ls hcore hst hkind hpage hbank hfree hno hread =>
      exec_tier0Copy hcore hfree hread (Core.tier0Copy_eq s.dram hst hkind hpage hbank hfree hno hread),
    fun s hcore => exec_core2 s (fun c d => (c.tier0Reclaim, d)) hcore, fun s i bank page code pages tags dome q hcore hq => ?_⟩
  · obtain ⟨t, hexec, hdesc⟩ := exec_eviction hcore hlow hhigh hcand hr
    refine ⟨fun h => ⟨t, hexec, by rw [hdesc]; exact Core.evict_clean _ _ hr h⟩, fun h hsource hserves => ⟨t, hexec, ?_⟩⟩
    rw [hdesc]
    exact Core.evict_dirty _ _ hr h hsource hserves
  · simp only [List.mem_cons, List.not_mem_nil, or_false] at hq
    rcases hq with rfl | rfl | rfl | rfl | rfl | rfl | rfl | rfl
    · exact exec_core2_halted s (fun c d => (Core.eviction s.trim c d, d)) hcore
    · exact exec_core2_halted s (fun c d => (Core.tier0Copy i bank page c d, d)) hcore
    · exact exec_core2_halted s (fun c d => (c.tier0Reclaim, d)) hcore
    · exact exec_core2_halted s (fun c d => (((Core.fetchDone i pages c d).1).wake s.trim, (Core.fetchDone i pages c d).2)) hcore
    · exact exec_core2_halted s (fun c d => ((c.fetchFail s.trim i (if code = 0x0A0B then 0x0A0B else 0x0A07)).wake s.trim, d)) hcore
    · exact exec_core2_halted s (fun c d => ((Core.tagList s.trim i tags dome c d).wake s.trim, d)) hcore
    · exact exec_core2_halted s (fun c d => ((Core.writebackDone i c d).wake s.trim, d)) hcore
    · show Host.Outcome.next (s.after (s.core.parkExpired s.trim)) = _
      rw [Core.parkExpired, if_pos (by simp [hcore])]

end Sys2Proof.Machine

/-! # Lines read and written (O34) -/

namespace Sys2Proof.Machine

set_option Elab.async false

/-- From `c` to `d` what reads and writes of lines look at stays: bad lines, waiting retries, the last answer, version roots, key slots and
the directory. -/
structure Core.LineKept (c d : Core) : Prop where
  retries : d.mem.retries = c.mem.retries
  last : d.mem.last = c.mem.last
  bad : d.mem.bad = c.mem.bad
  roots : d.mem.badRoots = c.mem.badRoots
  slots : d.keep.slots = c.keep.slots
  dir : d.dir = c.dir

namespace Core.LineKept

variable {c d w : Core}

theorem refl (c : Core) : c.LineKept c := ⟨rfl, rfl, rfl, rfl, rfl, rfl⟩

theorem trans (h : c.LineKept d) (g : d.LineKept w) : c.LineKept w :=
  ⟨g.retries.trans h.retries, g.last.trans h.last, g.bad.trans h.bad, g.roots.trans h.roots, g.slots.trans h.slots, g.dir.trans h.dir⟩

theorem of_counts (h : c.Moves [.ctr] d) : c.LineKept d := by
  have hmem := h.frame .chans rfl
  exact ⟨congrArg (fun m => m.2.1) hmem, congrArg (fun m => m.2.2.1) hmem, congrArg (fun m => m.2.2.2.1) hmem,
    congrArg (fun m => m.2.2.2.2.2) hmem, h.frame .slots rfl, h.frame .dir rfl⟩

theorem raise (c : Core) (e : Event) : c.LineKept (c.raise e) := ⟨rfl, rfl, rfl, rfl, rfl, rfl⟩

theorem errLog (c : Core) (pkg code ch n : Nat) : c.LineKept (c.errLog pkg code ch n) := ⟨rfl, rfl, rfl, rfl, rfl, rfl⟩

theorem foldl {α : Type} {g : Core → α → Core} (hg : ∀ (c : Core) a, c.LineKept (g c a)) (xs : List α) : ∀ c : Core, c.LineKept (xs.foldl g c) := by
  induction xs with
  | nil => exact refl
  | cons x xs ih => exact fun c => (hg c x).trans (ih _)

theorem ite {p : Prop} [Decidable p] (h : c.LineKept d) (g : c.LineKept w) : c.LineKept (if p then d else w) := by
  split
  · exact h
  · exact g

theorem chan (c : Core) (pkg k r n : Nat) : c.LineKept (c.chan pkg k r n) := .of_counts (c.moves_bump _ _)

theorem ueLine (c : Core) (pfn i : Nat) : c.LineKept (c.ueLine pfn i) := ((raise c _).trans (chan _ _ _ _ _)).trans (errLog _ _ _ _ _)

theorem retryLine (c : Core) (pfn i : Nat) : c.LineKept (c.retryLine pfn i) := .of_counts (c.moves_retryLine _ _)

theorem badLine (c : Core) (pfn i : Nat) : c.LineKept (c.badLine pfn i) := (retryLine c _ _).trans (ueLine _ _ _)

theorem tagFail (c : Core) (pfn : Nat) : c.LineKept (c.tagFail pfn) :=
  ((raise c _).trans (.of_counts (moves_bump _ _ _))).trans (errLog _ _ _ _ _)

section Reads

variable (h : c.LineKept d)

include h

theorem slot (k : Nat) : d.slot k = c.slot k := by rw [Core.slot, Core.slot, h.slots]

theorem plain (k : Nat) (e : RunEnt) (u i : Nat) (l : Line) : d.plain k e u i l = c.plain k e u i l := by
  unfold Core.plain
  rw [h.slot]

theorem cipher (k : Nat) (e : RunEnt) (u i : Nat) (l : Line) : d.cipher k e u i l = c.cipher k e u i l := by
  unfold Core.cipher
  rw [h.slot]

theorem treeKey : d.treeKey = c.treeKey := by rw [Core.treeKey, Core.treeKey, h.slot]

theorem storedLine (dr : Dram) (k u pfn i : Nat) : d.storedLine dr k u pfn i = c.storedLine dr k u pfn i := by
  unfold Core.storedLine
  rw [h.treeKey, Core.desc, Core.desc, h.dir]

theorem pathOk (dr : Dram) (pfn : Nat) : d.pathOk dr pfn = c.pathOk dr pfn := by
  unfold Core.pathOk
  rw [h.treeKey, h.roots]

theorem tagOk (dr : Dram) (e : RunEnt) (u pfn : Nat) : d.tagOk dr e u pfn = c.tagOk dr e u pfn := by
  unfold Core.tagOk
  rw [h.pathOk, h.slot]

theorem snapOk (e : RunEnt) (p : PageSnap) : d.snapOk e p = c.snapOk e p := by
  unfold Core.snapOk
  rw [h.slot]

theorem badLines (pfn : Nat) (is : List Nat) : d.badLines pfn is = c.badLines pfn is := by
  unfold Core.badLines
  rw [h.bad]

end Reads

end Core.LineKept

/-! ## Reads -/

namespace Core

variable {c : Core} {r : LineReq} {e : RunEnt} {pfn : Nat}

/-- Where a served line request finds its line. -/
theorem lineAt_ok (h : c.lineAt r = .ok (e, pfn)) : c.noMemory = false ∧ c.runEnt r.entry = some e ∧ e.frame r.u = some pfn := by
  unfold lineAt at h
  split at h
  · exact nomatch h
  · next hmem =>
    split at h
    · exact nomatch h
    · next hrun =>
      split at h
      · exact nomatch h
      · next hframe =>
        split at h
        · injection h with h
          injection h with he hp
          subst he hp
          exact ⟨by simpa using hmem, hrun, hframe⟩
        · exact nomatch h

theorem lineGood_ok {p : PageSnap} (hbad : (p.others r.line).bad = []) (hok : (e.tagged && !c.snapOk e p) = false) :
    c.lineGood r e pfn p = c.lineOut r 0 (c.plain r.entry e r.u r.line (p.line r.line)) := by
  have hverify : c.verify e pfn (p.others r.line) = (c, 0) := by
    unfold verify
    rw [hbad]
    exact if_neg (by rw [show c.snapOk e (p.others r.line) = c.snapOk e p from rfl, hok]; exact Bool.false_ne_true)
  unfold lineGood
  rw [hverify]
  rfl

theorem lineGood_tagFail {p : PageSnap} (hbad : (p.others r.line).bad = []) (htag : e.tagged = true) (hok : c.snapOk e p = false) :
    c.lineGood r e pfn p = (c.tagFail pfn).lineOut r 0x0404 0 := by
  have hverify : c.verify e pfn (p.others r.line) = (c.tagFail pfn, 0x0404) := by
    unfold verify
    rw [hbad]
    exact if_pos (by rw [show c.snapOk e (p.others r.line) = c.snapOk e p from rfl, hok, htag]; rfl)
  unfold lineGood
  rw [hverify]
  rfl

theorem lineRead_error {p : Nat} (chk : Check) (dr : Dram) (h : c.lineAt r = .error p) :
    (c.lineRead r chk dr).mem.last = some ⟨r.entry, r.u, r.line, p, 0⟩ := by
  unfold lineRead
  rw [h]
  rfl

/-- A line whose own words are good goes on to the rest of its page. -/
theorem lineRead_good {chk : Check} (dr : Dram) (h : c.lineAt r = .ok (e, pfn)) (hchk : chk ≠ .uncorrectable)
    (hbad : c.mem.bad.get 0 (64 * pfn + r.line) = 0) :
    ∃ d, c.LineKept d ∧ c.lineRead r chk dr = d.lineGood r e pfn (c.snapPage dr r.entry e r.u pfn [r.line]) := by
  unfold lineRead
  rw [h]
  dsimp only
  have h1 := LineKept.of_counts (c.moves_countLines (pfn % 16) 0 (if e.tagged = true then List.range 64 else [r.line]))
  generalize c.countLines (pfn % 16) 0 (if e.tagged = true then List.range 64 else [r.line]) = d1 at h1 ⊢
  have h2 : c.LineKept (if e.tagged = true then d1.countTag (pfn % 16) 0 (pfn / 16) else d1) :=
    .ite (h1.trans (.of_counts (d1.moves_countTag _ _ _))) h1
  generalize (if e.tagged = true then d1.countTag (pfn % 16) 0 (pfn / 16) else d1) = d2 at h2 ⊢
  rw [if_neg (by rw [h2.bad, hbad]; simp [hchk])]
  exact ⟨_, .ite (h2.trans ((LineKept.raise d2 _).trans (.chan _ _ _ _ _))) h2, rfl⟩

/-- A line that its check bytes cannot give waits for its retry. -/
theorem lineRead_retry (dr : Dram) (h : c.lineAt r = .ok (e, pfn)) :
    ∃ d, c.LineKept d ∧ c.lineRead r .uncorrectable dr = { d with mem := { d.mem with
      retries := d.mem.retries ++ [⟨r, c.snapPage dr r.entry e r.u pfn [r.line]⟩] } } := by
  unfold lineRead
  rw [h]
  dsimp only
  have h1 := LineKept.of_counts (c.moves_countLines (pfn % 16) 0 (if e.tagged = true then List.range 64 else [r.line]))
  generalize c.countLines (pfn % 16) 0 (if e.tagged = true then List.range 64 else [r.line]) = d1 at h1 ⊢
  rw [if_pos (.inl rfl)]
  exact ⟨_, .ite (h1.trans (.of_counts (d1.moves_countTag _ _ _))) h1, rfl⟩

/-! ### What a read takes -/

theorem snapPage_untagged (c : Core) (dr : Dram) (k u pfn line : Nat) (h : e.tagged = false) :
    (c.snapPage dr k e u pfn [line]).lines = [(line, c.storedLine dr k u pfn line)] ∧
      (c.snapPage dr k e u pfn [line]).bad = [line].filter (fun i => c.mem.bad.get 0 (64 * pfn + i) != 0) := by
  unfold snapPage
  rw [h]
  exact ⟨rfl, rfl⟩

theorem snapPage_tagged (c : Core) (dr : Dram) (k u pfn line : Nat) (h : e.tagged = true) :
    (c.snapPage dr k e u pfn [line]).lines = (List.range 64).map (fun i => (i, c.storedLine dr k u pfn i)) ∧
      (c.snapPage dr k e u pfn [line]).bad = (List.range 64).filter (fun i => c.mem.bad.get 0 (64 * pfn + i) != 0) := by
  unfold snapPage
  rw [h]
  exact ⟨rfl, rfl⟩

theorem find_mapped (f : Nat → Line) (is : List Nat) {i : Nat} (h : i ∈ is) : (is.map (fun j => (j, f j))).find? (fun l => l.1 = i) = some (i, f i) := by
  rw [List.find?_map]
  have hfind : is.find? ((fun l : Nat × Line => decide (l.1 = i)) ∘ fun j => (j, f j)) = some i := by
    induction is with
    | nil => exact nomatch h
    | cons j is ih =>
      by_cases hj : j = i
      · subst hj
        exact List.find?_cons_of_pos (by simp)
      · rw [List.find?_cons_of_neg (by simpa using hj)]
        exact ih ((List.mem_cons.1 h).resolve_left (Ne.symm hj))
  rw [hfind]
  rfl

/-- The line itself as a read of it takes it. -/
theorem line_snapPage (c : Core) (dr : Dram) (e : RunEnt) (k u pfn : Nat) {line : Nat} (hl : line < 64) :
    (c.snapPage dr k e u pfn [line]).line line = c.storedLine dr k u pfn line := by
  unfold PageSnap.line
  cases h : e.tagged with
  | false =>
    rw [(snapPage_untagged c dr k u pfn line h).1]
    exact congrArg (fun l => (l.map (fun l => l.2)).getD 0) (find_mapped (c.storedLine dr k u pfn) [line] (List.mem_singleton.2 rfl))
  | true =>
    rw [(snapPage_tagged c dr k u pfn line h).1, find_mapped _ _ (List.mem_range.2 hl)]
    rfl

theorem storedLine_of_data (c : Core) (dr : Dram) {k : Nat} (u pfn i : Nat) (h : systemEntry k = false) :
    c.storedLine dr k u pfn i = dr.lines.get 0 (64 * pfn + i) := by
  have hk : ¬ k ≥ 16642 := by
    unfold systemEntry at h
    exact of_decide_eq_false h
  unfold storedLine
  rw [if_neg (by omega), if_neg (by omega)]

theorem snapOk_snapPage (c : Core) (dr : Dram) {k : Nat} (u pfn line : Nat) (htag : e.tagged = true) (h : systemEntry k = false) :
    c.snapOk e (c.snapPage dr k e u pfn [line]) = c.tagOk dr e u pfn := by
  have hlines : (c.snapPage dr k e u pfn [line]).lines.map (fun l => l.2) = dr.page pfn := by
    rw [(snapPage_tagged c dr k u pfn line htag).1, List.map_map]
    exact List.map_congr_left fun i _ => storedLine_of_data c dr u pfn i h
  unfold snapOk
  rw [hlines]
  rfl

end Core

section Commands

variable {s : State} {entry u line slot gen : Nat} {e : RunEnt} {pfn : Nat}

theorem exec_lineRead (s : State) (entry u line slot gen : Nat) (chk : Check) : exec (.memLineRead entry u line slot gen chk) s =
    .next (s.after (Core.lineRead ⟨entry, u, line, slot, gen⟩ chk s.core s.dram)) := rfl

theorem lineRead_untagged {chk : Check} (hl : line < 64) (hat : s.core.lineAt ⟨entry, u, line, slot, gen⟩ = .ok (e, pfn)) (hchk : chk ≠ .uncorrectable)
    (hbad : s.core.mem.bad.get 0 (64 * pfn + line) = 0) (htag : e.tagged = false) :
    ∃ t, exec (.memLineRead entry u line slot gen chk) s = .next t ∧
      t.core.mem.last = some ⟨entry, u, line, 0, s.core.plain entry e u line (s.core.storedLine s.dram entry u pfn line)⟩ ∧
      (systemEntry entry = false → s.core.storedLine s.dram entry u pfn line = s.dram.lines.get 0 (64 * pfn + line)) ∧ t.dram = s.dram := by
  obtain ⟨d, hkept, heq⟩ := Core.lineRead_good (r := ⟨entry, u, line, slot, gen⟩) s.dram hat hchk hbad
  have hnone : ((s.core.snapPage s.dram entry e u pfn [line]).others line).bad = [] := by
    unfold PageSnap.others
    rw [(Core.snapPage_untagged s.core s.dram entry u pfn line htag).2]
    simp [hbad]
  refine ⟨_, exec_lineRead .., ?_, Core.storedLine_of_data s.core s.dram u pfn line, rfl⟩
  rw [State.after_mem, heq, Core.lineGood_ok hnone (by rw [htag]; rfl), hkept.plain, Core.line_snapPage _ _ _ _ _ _ hl]
  rfl

theorem lineRead_tagged {chk : Check} (hl : line < 64) (hat : s.core.lineAt ⟨entry, u, line, slot, gen⟩ = .ok (e, pfn)) (hchk : chk ≠ .uncorrectable)
    (hbad : s.core.mem.bad.get 0 (64 * pfn + line) = 0) (htag : e.tagged = true) (hall : ∀ i, i < 64 → s.core.mem.bad.get 0 (64 * pfn + i) = 0) :
    ∃ t, exec (.memLineRead entry u line slot gen chk) s = .next t ∧
      (s.core.snapOk e (s.core.snapPage s.dram entry e u pfn [line]) = true →
        t.core.mem.last = some ⟨entry, u, line, 0, s.core.plain entry e u line (s.core.storedLine s.dram entry u pfn line)⟩) ∧
      (s.core.snapOk e (s.core.snapPage s.dram entry e u pfn [line]) = false → t.core.mem.last = some ⟨entry, u, line, 0x0404, 0⟩) ∧
      (systemEntry entry = false → s.core.snapOk e (s.core.snapPage s.dram entry e u pfn [line]) = s.core.tagOk s.dram e u pfn) := by
  obtain ⟨d, hkept, heq⟩ := Core.lineRead_good (r := ⟨entry, u, line, slot, gen⟩) s.dram hat hchk hbad
  have hnone : ((s.core.snapPage s.dram entry e u pfn [line]).others line).bad = [] := by
    unfold PageSnap.others
    have hgood : (List.range 64).filter (fun i => s.core.mem.bad.get 0 (64 * pfn + i) != 0) = [] :=
      List.filter_eq_nil_iff.2 fun i hi => by simpa using hall i (List.mem_range.1 hi)
    rw [(Core.snapPage_tagged s.core s.dram entry u pfn line htag).2, hgood]
    rfl
  refine ⟨_, exec_lineRead .., fun hok => ?_, fun hok => ?_, Core.snapOk_snapPage s.core s.dram u pfn line htag⟩
  · rw [State.after_mem, heq, Core.lineGood_ok hnone (by rw [hkept.snapOk, hok, htag]; rfl), hkept.plain, Core.line_snapPage _ _ _ _ _ _ hl]
    rfl
  · rw [State.after_mem, heq, Core.lineGood_tagFail hnone htag (by rw [hkept.snapOk, hok])]
    rfl

theorem lineRead_waits (hat : s.core.lineAt ⟨entry, u, line, slot, gen⟩ = .ok (e, pfn)) :
    ∃ t, exec (.memLineRead entry u line slot gen .uncorrectable) s = .next t ∧
      t.core.mem.retries = s.core.mem.retries ++ [⟨⟨entry, u, line, slot, gen⟩, s.core.snapPage s.dram entry e u pfn [line]⟩] ∧
      t.core.mem.last = s.core.mem.last := by
  obtain ⟨d, hkept, heq⟩ := Core.lineRead_retry (r := ⟨entry, u, line, slot, gen⟩) s.dram hat
  refine ⟨_, exec_lineRead .., ?_⟩
  rw [State.after_mem, heq]
  exact ⟨congrArg (· ++ _) hkept.retries, hkept.last⟩

/-! ## Retries -/

theorem exec_retry (s : State) (chk : Check) : exec (.checkByteRetry chk) s = .next (s.after (Core.checkRetry chk s.core s.dram)) := rfl

theorem Core.lineAt_of_retries (c : Core) (rs : List Retry) (r : LineReq) :
    Core.lineAt { c with mem := { c.mem with retries := rs } } r = c.lineAt r := rfl

/-- The retry of a line that stays uncorrectable. -/
theorem Core.checkRetry_bad {c : Core} (dr : Dram) {r : LineReq} {p : PageSnap} {rs : List Retry} (hrs : c.mem.retries = ⟨r, p⟩ :: rs)
    (hat : c.lineAt r = .ok (e, pfn)) : ∃ d : Core, Core.LineKept { c with mem := { c.mem with retries := rs } } d ∧
      c.checkRetry .uncorrectable dr = Core.lineOut { d with mem := { d.mem with
        bad := if d.storedLine dr r.entry r.u pfn r.line = p.line r.line then d.mem.bad.set 0 (64 * pfn + r.line) 1 else d.mem.bad } } r 0x0403 0 := by
  have hat' : Core.lineAt { c with mem := { c.mem with retries := rs } } r = .ok (e, pfn) := hat
  unfold Core.checkRetry
  simp only [hrs]
  generalize ({ c with mem := { c.mem with retries := rs } } : Core) = c1 at hat' ⊢
  simp only [hat']
  rw [if_pos (.inl trivial)]
  exact ⟨_, ((Core.LineKept.retryLine c1 pfn r.line).trans (.ueLine _ _ _)).trans (.foldl (fun d j => .badLine d pfn j) _ _), rfl⟩

/-- The retry of a line that is good now. -/
theorem Core.checkRetry_good {c : Core} (dr : Dram) {chk : Check} {r : LineReq} {p : PageSnap} {rs : List Retry} (hrs : c.mem.retries = ⟨r, p⟩ :: rs)
    (hat : c.lineAt r = .ok (e, pfn)) (hchk : chk ≠ .uncorrectable) (hbad : c.mem.bad.get 0 (64 * pfn + r.line) = 0) :
    ∃ d : Core, Core.LineKept { c with mem := { c.mem with retries := rs } } d ∧ c.checkRetry chk dr = d.lineGood r e pfn p := by
  have hat' : Core.lineAt { c with mem := { c.mem with retries := rs } } r = .ok (e, pfn) := hat
  have hbad' : (({ c with mem := { c.mem with retries := rs } } : Core)).mem.bad.get 0 (64 * pfn + r.line) = 0 := hbad
  unfold Core.checkRetry
  simp only [hrs]
  generalize ({ c with mem := { c.mem with retries := rs } } : Core) = c1 at hat' hbad' ⊢
  simp only [hat']
  have hretry := Core.LineKept.retryLine c1 pfn r.line
  rw [if_neg (by rw [hretry.bad, hbad']; simp [hchk])]
  have hraise := hretry.trans (.raise _ (lineEvent 0x0402 pfn r.line))
  exact ⟨_, .ite (hraise.trans (.chan _ _ _ _ _)) hraise, rfl⟩

theorem retry_bad {r : LineReq} {p : PageSnap} {rs : List Retry} (hrs : s.core.mem.retries = ⟨r, p⟩ :: rs) (hat : s.core.lineAt r = .ok (e, pfn)) :
    ∃ t, exec (.checkByteRetry .uncorrectable) s = .next t ∧ t.core.mem.retries = rs ∧
      t.core.mem.last = some ⟨r.entry, r.u, r.line, 0x0403, 0⟩ ∧
      (s.core.storedLine s.dram r.entry r.u pfn r.line = p.line r.line → t.core.mem.bad = s.core.mem.bad.set 0 (64 * pfn + r.line) 1) := by
  obtain ⟨d, hkept, heq⟩ := Core.checkRetry_bad s.dram hrs hat
  refine ⟨_, exec_retry s _, ?_⟩
  rw [State.after_mem, heq]
  refine ⟨hkept.retries, rfl, fun hsame => ?_⟩
  have hstored : d.storedLine s.dram r.entry r.u pfn r.line = p.line r.line := (hkept.storedLine _ _ _ _ _).trans hsame
  have hbad : d.mem.bad = s.core.mem.bad := hkept.bad
  show (if _ then _ else _) = _
  rw [if_pos hstored, hbad]

theorem retry_good {chk : Check} {r : LineReq} {p : PageSnap} {rs : List Retry} (hrs : s.core.mem.retries = ⟨r, p⟩ :: rs)
    (hat : s.core.lineAt r = .ok (e, pfn)) (hchk : chk ≠ .uncorrectable) (hbad : s.core.mem.bad.get 0 (64 * pfn + r.line) = 0)
    (htag : e.tagged = false) (hown : ∀ i ∈ p.bad, i = r.line) : ∃ t, exec (.checkByteRetry chk) s = .next t ∧ t.core.mem.retries = rs ∧
      t.core.mem.last = some ⟨r.entry, r.u, r.line, 0, s.core.plain r.entry e r.u r.line (p.line r.line)⟩ := by
  obtain ⟨d, hkept, heq⟩ := Core.checkRetry_good s.dram hrs hat hchk hbad
  have hnone : (p.others r.line).bad = [] := List.filter_eq_nil_iff.2 fun i hi => by simpa using hown i hi
  refine ⟨_, exec_retry s chk, ?_⟩
  rw [State.after_mem, heq, Core.lineGood_ok hnone (by rw [htag]; rfl), hkept.plain]
  exact ⟨hkept.retries, rfl⟩

/-! ## Writes -/

theorem exec_lineWrite (s : State) (entry u line slot gen : Nat) (data : Line) : exec (.memLineWrite entry u line slot gen data) s =
    .next (s.afterM (Core.lineWrite ⟨entry, u, line, slot, gen⟩ data s.core s.dram).1 (Core.lineWrite ⟨entry, u, line, slot, gen⟩ data s.core s.dram).2) := rfl

namespace Core

variable {c : Core} {r : LineReq}

/-- A write that its page refuses stores nothing and answers the code. -/
theorem lineWrite_code (data : Line) (dr : Dram) (hat : c.lineAt r = .ok (e, pfn)) {d : Core} {code : Nat}
    (h : c.writeCode dr r.entry r.u e pfn [(r.line, data)] = (d, code)) (hcode : code ≠ 0) : c.lineWrite r data dr = (d.lineOut r code 0, dr) := by
  obtain ⟨-, hrun, hframe⟩ := lineAt_ok hat
  unfold lineWrite writePage
  simp only [hat, hrun, hframe, h]

/-- What a write that nothing stops leaves in external memory. -/
def writtenOut (d : Core) (dr : Dram) (k u : Nat) (e : RunEnt) (pfn : Nat) (ls : List (Nat × Line)) : Dram :=
  if systemEntry k then (d.writeSystem dr k u pfn ls).2
  else if !e.tagged then d.putLines dr k u e pfn ls
  else d.putTag (d.putLines dr k u e pfn ls) u e pfn (dr.versions.get 0 pfn + 1)

theorem lineWrite_stored (data : Line) (dr : Dram) (hat : c.lineAt r = .ok (e, pfn)) {d : Core}
    (h : c.writeCode dr r.entry r.u e pfn [(r.line, data)] = (d, 0)) : ∃ w : Core, c.lineWrite r data dr =
      (w.lineOut r 0 0, (d.countWrite e pfn [(r.line, data)]).writtenOut dr r.entry r.u e pfn [(r.line, data)]) := by
  obtain ⟨-, hrun, hframe⟩ := lineAt_ok hat
  unfold lineWrite writePage writtenOut
  simp only [hat, hrun, hframe, h]
  cases systemEntry r.entry with
  | true => exact ⟨_, rfl⟩
  | false => cases e.tagged with
    | false => exact ⟨_, rfl⟩
    | true => exact ⟨_, rfl⟩

theorem access_of_served (hat : c.lineAt r = .ok (e, pfn)) (h : systemEntry r.entry = true ∨ c.slotCode (pfn % 16) e.slot e.gen = 0) :
    c.access r.entry e pfn = 0 := by
  obtain ⟨hmem, -, -⟩ := lineAt_ok hat
  unfold access
  rw [hmem]
  split
  · rfl
  · next hno => exact h.resolve_left hno

theorem writeCode_untagged {k u : Nat} {ls : List (Nat × Line)} (dr : Dram) (hacc : c.access k e pfn = 0) (htag : e.tagged = false) :
    c.writeCode dr k u e pfn ls = (c, 0) := by
  unfold writeCode
  simp [hacc, htag]

theorem writeCode_exhausted {k u : Nat} {ls : List (Nat × Line)} {dr : Dram} (hacc : c.access k e pfn = 0) (htag : e.tagged = true)
    (hv : dr.versions.get 0 pfn = 2 ^ 32 - 1) : c.writeCode dr k u e pfn ls = (c, 0x0406) := by
  unfold writeCode
  rw [hacc]
  dsimp only
  rw [if_neg (by decide), if_neg (by decide)]
  exact if_pos ⟨htag, hv⟩

/-- A write to part of a tagged page whose other lines are good: its tag decides. -/
theorem writeCode_tagged {k u line : Nat} {data : Line} (dr : Dram) (hacc : c.access k e pfn = 0) (htag : e.tagged = true)
    (hv : dr.versions.get 0 pfn < 2 ^ 32 - 1) (hgood : ∀ i, i < 64 → c.mem.bad.get 0 (64 * pfn + i) = 0) :
    ∃ d, c.LineKept d ∧ c.writeCode dr k u e pfn [(line, data)] = (d, if c.tagOk dr e u pfn = true then 0 else 0x040B) := by
  unfold writeCode
  rw [hacc]
  dsimp only
  rw [if_neg (by decide), if_neg (by decide), if_neg (fun h => absurd h.2 (Nat.ne_of_lt hv))]
  have hpart : (e.tagged && decide ([(line, data)].length < 64)) = true := by rw [htag]; rfl
  simp only [hpart, if_true, Bool.true_and]
  have hothers : ∀ i ∈ (List.range 64).filter (fun i => !([(line, data)].any fun l => decide (l.1 = i))), i < 64 :=
    fun i hi => List.mem_range.1 (List.mem_filter.1 hi).1
  generalize (List.range 64).filter (fun i => !([(line, data)].any fun l => decide (l.1 = i))) = others at hothers ⊢
  have hkept := (LineKept.of_counts (c.moves_countLines (pfn % 16) 0 others)).trans (.of_counts (moves_countTag _ (pfn % 16) 0 (pfn / 16)))
  generalize (c.countLines (pfn % 16) 0 others).countTag (pfn % 16) 0 (pfn / 16) = d at hkept ⊢
  have hnone : d.badLines pfn others = [] := by
    rw [hkept.badLines]
    exact List.filter_eq_nil_iff.2 fun i hi => by simpa using hgood i (hothers i hi)
  rw [hnone]
  dsimp only
  rw [hkept.tagOk, hkept.pathOk]
  cases hok : c.tagOk dr e u pfn with
  | true =>
    have hpath : c.pathOk dr pfn = true := by
      unfold tagOk at hok
      exact (Bool.and_eq_true_iff.1 hok).1
    exact ⟨d, hkept, if_neg (by simp [hpath])⟩
  | false => exact ⟨_, hkept.trans (.errLog d _ _ _ _), if_pos (by simp)⟩

end Core

namespace Core

theorem cipher_countWrite (d : Core) (pfn : Nat) (ls : List (Nat × Line)) (k u i : Nat) (l : Line) :
    (d.countWrite e pfn ls).cipher k e u i l = d.cipher k e u i l := by
  have hslots : (d.countWrite e pfn ls).keep.slots = d.keep.slots := (d.moves_countWrite e pfn ls).frame .slots rfl
  unfold cipher slot
  rw [hslots]

theorem writtenOut_untagged (d : Core) (dr : Dram) {k : Nat} (u line : Nat) (data : Line) (hsys : systemEntry k = false) (htag : e.tagged = false) :
    (d.countWrite e pfn [(line, data)]).writtenOut dr k u e pfn [(line, data)] =
      { dr with lines := dr.lines.set 0 (64 * pfn + line) (d.cipher k e u line data) } := by
  unfold writtenOut
  rw [if_neg (by simp [hsys]), if_pos (by simp [htag]), ← cipher_countWrite d pfn [(line, data)]]
  rfl

theorem putTag_spec (d : Core) (dr : Dram) (u : Nat) (e : RunEnt) (pfn v : Nat) : (d.putTag dr u e pfn v).lines = dr.lines ∧
    (d.putTag dr u e pfn v).versions = dr.versions.set 0 pfn v := ⟨rfl, rfl⟩

theorem writtenOut_tagged (d : Core) (dr : Dram) {k : Nat} (u line : Nat) (data : Line) (hsys : systemEntry k = false) (htag : e.tagged = true) :
    ((d.countWrite e pfn [(line, data)]).writtenOut dr k u e pfn [(line, data)]).lines =
        dr.lines.set 0 (64 * pfn + line) (d.cipher k e u line data) ∧
      ((d.countWrite e pfn [(line, data)]).writtenOut dr k u e pfn [(line, data)]).versions = dr.versions.set 0 pfn (dr.versions.get 0 pfn + 1) := by
  unfold writtenOut
  rw [if_neg (by simp [hsys]), if_neg (by simp [htag]), ← cipher_countWrite d pfn [(line, data)]]
  exact putTag_spec _ _ _ _ _ _

end Core

theorem last_lineOut (s : State) (w : Core) (d : Dram) (r : LineReq) (code : Nat) (l : Line) :
    (s.afterM (w.lineOut r code l) d).core.mem.last = some ⟨r.entry, r.u, r.line, code, l⟩ := by
  rw [State.afterM_core]
  show (s.after (w.lineOut r code l)).core.mem.last = _
  rw [State.after_mem]
  rfl

section Served

variable (data : Line) (hat : s.core.lineAt ⟨entry, u, line, slot, gen⟩ = .ok (e, pfn))
  (hserve : systemEntry entry = true ∨ s.core.slotCode (pfn % 16) e.slot e.gen = 0)

include hat hserve

theorem lineWrite_untagged (htag : e.tagged = false) : ∃ t, exec (.memLineWrite entry u line slot gen data) s = .next t ∧
    (systemEntry entry = false → t.dram = { s.dram with lines := s.dram.lines.set 0 (64 * pfn + line) (s.core.cipher entry e u line data) }) ∧
    t.core.mem.last = some ⟨entry, u, line, 0, 0⟩ := by
  obtain ⟨w, heq⟩ := Core.lineWrite_stored data s.dram hat (Core.writeCode_untagged s.dram (Core.access_of_served hat hserve) htag)
  refine ⟨_, exec_lineWrite .., fun hsys => ?_, ?_⟩
  · rw [State.afterM_dram, heq]
    exact Core.writtenOut_untagged _ _ _ _ _ hsys htag
  · rw [heq]
    exact last_lineOut _ _ _ _ _ _

omit hserve in
/-- A refused write stores nothing. -/
theorem lineWrite_refused {d : Core} {code : Nat} (h : s.core.writeCode s.dram entry u e pfn [(line, data)] = (d, code)) (hcode : code ≠ 0) :
    ∃ t, exec (.memLineWrite entry u line slot gen data) s = .next t ∧ t.core.mem.last = some ⟨entry, u, line, code, 0⟩ ∧ t.dram = s.dram := by
  have heq := Core.lineWrite_code (r := ⟨entry, u, line, slot, gen⟩) data s.dram hat h hcode
  refine ⟨_, exec_lineWrite .., ?_, ?_⟩
  · rw [heq]
    exact last_lineOut _ _ _ _ _ _
  · rw [State.afterM_dram, heq]

theorem lineWrite_tagged (htag : e.tagged = true) (hsys : systemEntry entry = false) (hv : s.dram.versions.get 0 pfn < 2 ^ 32 - 1)
    (hgood : ∀ i, i < 64 → s.core.mem.bad.get 0 (64 * pfn + i) = 0) :
    (s.core.tagOk s.dram e u pfn = true → ∃ t, exec (.memLineWrite entry u line slot gen data) s = .next t ∧
      t.core.mem.last = some ⟨entry, u, line, 0, 0⟩ ∧ t.dram.lines = s.dram.lines.set 0 (64 * pfn + line) (s.core.cipher entry e u line data) ∧
      t.dram.versions = s.dram.versions.set 0 pfn (s.dram.versions.get 0 pfn + 1)) ∧
    (s.core.tagOk s.dram e u pfn = false → ∃ t, exec (.memLineWrite entry u line slot gen data) s = .next t ∧
      t.core.mem.last = some ⟨entry, u, line, 0x040B, 0⟩ ∧ t.dram = s.dram) := by
  obtain ⟨d, hkept, hcode⟩ := Core.writeCode_tagged (u := u) (line := line) (data := data) s.dram (Core.access_of_served hat hserve) htag hv hgood
  refine ⟨fun hok => ?_, fun hno => ?_⟩
  · rw [if_pos hok] at hcode
    obtain ⟨w, heq⟩ := Core.lineWrite_stored data s.dram hat hcode
    obtain ⟨hlines, hversions⟩ := Core.writtenOut_tagged (pfn := pfn) d s.dram u line data hsys htag
    rw [hkept.cipher] at hlines
    refine ⟨_, exec_lineWrite .., ?_, ?_⟩
    · rw [heq]
      exact last_lineOut _ _ _ _ _ _
    · rw [State.afterM_dram, heq]
      exact ⟨hlines, hversions⟩
  · rw [if_neg (by simp [hno])] at hcode
    exact lineWrite_refused data hat hcode (by decide)

end Served

end Commands

/-- Settles O34: what a read delivers, a retry settles, and a write stores. -/
theorem linesReadAndWritten : Obligations.LinesReadAndWritten := by
  refine ⟨⟨fun s entry u line slot gen chk e pfn hl => ⟨fun p h => ?_, fun hat hchk hbad htag => lineRead_untagged hl hat hchk hbad htag,
      fun hat hchk hbad htag hall => lineRead_tagged hl hat hchk hbad htag hall, fun hat hchk => hchk ▸ lineRead_waits hat⟩,
    fun s chk r p rs e pfn hrs hat => ⟨fun hchk => hchk ▸ retry_bad hrs hat, fun hchk hbad htag hown => retry_good hrs hat hchk hbad htag hown⟩⟩,
    fun s entry u line slot gen data e pfn hl hat hserve => ⟨fun htag => lineWrite_untagged data hat hserve htag,
      fun htag hsys hv hok hgood => (lineWrite_tagged data hat hserve htag hsys hv hgood).1 hok,
      fun htag hsys hv hno hgood => (lineWrite_tagged data hat hserve htag hsys hv hgood).2 hno,
      fun htag _ hv => lineWrite_refused data hat (Core.writeCode_exhausted (Core.access_of_served hat hserve) htag hv) (by decide)⟩⟩
  refine ⟨_, exec_lineRead .., ?_, rfl⟩
  rw [State.after_mem]
  exact Core.lineRead_error (r := ⟨entry, u, line, slot, gen⟩) chk s.dram h

end Sys2Proof.Machine

/-! # The operations of a session (O37, O38) -/

namespace Sys2Proof.Machine

set_option Elab.async false

/-- Inserting a key changes the lookup of that key alone, whatever the order of the list. -/
theorem SMap.get_insert_any {α : Type} (d : α) (m : SMap α) (k j : Nat) (v : α) :
    SMap.get d (SMap.insert m k v) j = if j = k then v else SMap.get d m j := by
  by_cases hj : j = k
  · rw [if_pos hj, hj, SMap.get_insert_self]
  · rw [if_neg hj]
    induction m with
    | nil => exact (if_neg (Ne.symm hj)).trans (ite_self d)
    | cons e m ih =>
      obtain ⟨i, w⟩ := e
      unfold SMap.insert
      split
      · next hi =>
        subst hi
        unfold SMap.get
        rw [if_neg (Ne.symm hj), if_neg (Ne.symm hj)]
      · split
        · next hlt =>
          show (if k = j then v else if j < k then d else SMap.get d ((i, w) :: m) j) = _
          rw [if_neg (Ne.symm hj)]
          split
          · next hlt' =>
            unfold SMap.get
            rw [if_neg (by omega), if_pos (by omega)]
          · rfl
        · show (if i = j then w else if j < i then d else SMap.get d (SMap.insert m k v) j) = _
          rw [ih]
          rfl

namespace Core

variable {c : Core}

/-- A key slot set to one that is not FREE at reset. -/
theorem slot_setSlot_any (c : Core) (k j : Nat) {x : KeySlot} (hx : x ≠ .reset) : (c.setSlot k x).slot j = if j = k then x else c.slot j := by
  unfold slot setSlot SMap.set
  rw [if_neg hx]
  exact SMap.get_insert_any _ _ _ _ _

theorem ne_reset_of_st {x : KeySlot} (h : x.st ≠ .free) : x ≠ .reset := fun heq => h (by rw [heq]; rfl)

/-! ## The frame of an operation -/

/-- The die with one more answer of the Keep. -/
def said (c : Core) (m : SpdmOut) : Core := { c with keep := { c.keep with out := c.keep.out ++ [m] } }

/-- Session `x` of operation `o`, its heartbeat restarted. -/
def heardBy (c : Core) (o : SessOp) (x : Session) : Core := c.setSession o.session { x with last := c.clk.nominal }

theorem sessOp_eq {o : SessOp} {x : Session} {op len : Nat} (h : c.inSessionOp o x op len) (hvia : o.via ≠ .relay)
    (f : Core → Session → Nat → List Byte → Core × Nat × List Byte) : Core.sessOp op len o f c =
      (f (c.heardBy o x) x (fieldLE o.payload 2 2) (o.payload.drop 8)).1.said ⟨o.via, op,
        (f (c.heardBy o x) x (fieldLE o.payload 2 2) (o.payload.drop 8)).2.1, (f (c.heardBy o x) x (fieldLE o.payload 2 2) (o.payload.drop 8)).2.2⟩ := by
  obtain ⟨hs, hopen, hx, hxvia, hup, hbusy, hlen, hop, h1, h4⟩ := h
  unfold sessOp
  simp only [hs]
  rw [if_neg (by simp [spdmOpen, hopen, hup, hx, hxvia]), if_neg (by simp [hbusy]), if_neg (by simp [hlen, hop, h1, h4]), touch_of_session _ _ _ hs]
  exact reply_of_direct hvia _ _

theorem via_of_tenantOk {o : SessOp} {x : Session} {op len n : Nat} (h : c.inSessionOp o x op len) (hok : c.tenantOk x n = true) : o.via ≠ .relay := by
  obtain ⟨-, -, -, hxvia, -⟩ := h
  unfold tenantOk at hok
  obtain ⟨-, hdoe, -⟩ := of_decide_eq_true hok
  rw [← hxvia, hdoe]
  exact fun h => nomatch h

theorem tenantOk_heardBy (c : Core) (o : SessOp) (x y : Session) (n : Nat) : (c.heardBy o x).tenantOk y n = c.tenantOk y n := rfl

/-- A tenant operation on its ACTIVE slot. -/
theorem tenantOp_eq {o : SessOp} {x : Session} {op len n : Nat} (h : c.inSessionOp o x op len) (hn : fieldLE o.payload 2 2 = n)
    (hok : c.tenantOk x n = true) (hst : (c.slot n).st = .active) (f : Core → Nat → List Byte → Core × Nat × List Byte) :
    Core.tenantOp op len o f c = (f (c.heardBy o x) n (o.payload.drop 8)).1.said
      ⟨o.via, op, (f (c.heardBy o x) n (o.payload.drop 8)).2.1, (f (c.heardBy o x) n (o.payload.drop 8)).2.2⟩ := by
  have hgo : ((c.heardBy o x).tenantOk x n && decide (((c.heardBy o x).slot n).st = .active)) = true := by
    rw [tenantOk_heardBy, hok, show (c.heardBy o x).slot n = c.slot n from rfl, hst]
    rfl
  unfold tenantOp
  rw [sessOp_eq h (via_of_tenantOk h hok), hn, if_pos hgo]

end Core

section Keys

variable {s : State} {o : SessOp} {x : Session} {n : Nat}

theorem after_slot_said (s : State) (d : Core) (m : SpdmOut) (j : Nat) : (s.after (d.said m)).core.slot j = d.slot j := by
  rw [State.after_slot]
  rfl

theorem after_out_said (s : State) (d : Core) (m : SpdmOut) : (s.after (d.said m)).core.keep.out = d.keep.out ++ [m] := by
  rw [State.after_keep]
  rfl

theorem exec_keyInstall (h : s.core.inSessionOp o x 0x01 40) (hn : fieldLE o.payload 2 2 = n) (hok : s.core.tenantOk x n = true)
    (hst : (s.core.slot n).st = .enabled) (hfloor : (s.core.slot n).floor ≤ fieldLE (o.payload.drop 8) 0 2)
    (hgen : fieldLE (o.payload.drop 8) 0 2 ≤ 0xFFFE) (hpolicy : fieldLE (o.payload.drop 8) 2 2 < 8) (hzero : fieldLE (o.payload.drop 8) 4 4 = 0) :
    ∃ t, exec (.keyInstall o) s = .next t ∧
      t.core.slot n = { s.core.slot n with
        st := .active, root := BitVec.ofNat 256 (fieldLE (o.payload.drop 8) 8 32), gen := fieldLE (o.payload.drop 8) 0 2
        policy := fieldLE (o.payload.drop 8) 2 2, nonce := 0, activeAt := s.core.clk.nominal, told := [] } ∧
      (∀ j, j ≠ n → t.core.slot j = s.core.slot j) ∧ t.core.keep.out = s.core.keep.out ++ [⟨o.via, 0x01, 0, []⟩] := by
  have hkey : keyInstall (s.core.heardBy o x) x n (o.payload.drop 8) = ((s.core.heardBy o x).setSlot n { s.core.slot n with
      st := .active, root := BitVec.ofNat 256 (fieldLE (o.payload.drop 8) 8 32), gen := fieldLE (o.payload.drop 8) 0 2
      policy := fieldLE (o.payload.drop 8) 2 2, nonce := 0, activeAt := s.core.clk.nominal, told := [] }, 0, []) := by
    unfold keyInstall
    rw [show (s.core.heardBy o x).slot n = s.core.slot n from rfl, show (s.core.heardBy o x).tenantOk x n = s.core.tenantOk x n from rfl]
    dsimp only
    rw [if_neg (by omega), if_neg (by simp [hok, hst]), if_neg (by simp [hfloor, hgen])]
    rfl
  have heq := Core.sessOp_eq h (Core.via_of_tenantOk h hok) keyInstall
  rw [hn, hkey] at heq
  refine ⟨_, congrArg (fun d => Host.Outcome.next (s.after d)) heq, ?_, fun j hj => ?_, ?_⟩
  · rw [after_slot_said, Core.slot_setSlot_any _ _ _ (Core.ne_reset_of_st (by nofun)), if_pos rfl]
  · rw [after_slot_said, Core.slot_setSlot_any _ _ _ (Core.ne_reset_of_st (by nofun)), if_neg hj]
    rfl
  · rw [after_out_said]
    rfl

theorem exec_keyRetire (h : s.core.inSessionOp o x 0x02 0) (hn : fieldLE o.payload 2 2 = n) (hok : s.core.tenantOk x n = true)
    (hst : (s.core.slot n).st = .active) : ∃ t, exec (.keyRetire o) s = .next t ∧
      t.core.slot n = { s.core.slot n with st := .retiring, deadline := s.core.clk.nominal + 62_500_000, told := [] } ∧
      t.core.keep.out = s.core.keep.out ++ [⟨o.via, 0x02, 0, []⟩] := by
  have hbusy : (s.core.heardBy o x).keep.fwState ≠ 2 := by
    obtain ⟨-, -, -, -, -, hbusy, -⟩ := h
    exact of_decide_eq_false hbusy
  have hretire : (s.core.heardBy o x).retire n = (s.core.heardBy o x).setSlot n
      { s.core.slot n with st := .retiring, deadline := s.core.clk.nominal + 62_500_000, told := [] } := by
    have hnow : (s.core.heardBy o x).retireNow n = (s.core.heardBy o x).setSlot n
        { s.core.slot n with st := .retiring, deadline := s.core.clk.nominal + drainBeats, told := [] } := by
      unfold Core.retireNow
      rw [show (s.core.heardBy o x).slot n = s.core.slot n from rfl]
      dsimp only
      rw [hst]
      rfl
    rw [Core.retire, if_neg (fun h => hbusy h.1), hnow]
    rfl
  have heq := Core.sessOp_eq h (Core.via_of_tenantOk h hok) (fun c s slot _ => if c.tenantOk s slot then (c.retire slot, 0, []) else (c, 0x0508, []))
  rw [hn, if_pos (show (s.core.heardBy o x).tenantOk x n = true from hok), hretire] at heq
  refine ⟨_, congrArg (fun d => Host.Outcome.next (s.after d)) heq, ?_, ?_⟩
  · rw [after_slot_said, Core.slot_setSlot_any _ _ _ (Core.ne_reset_of_st (by nofun)), if_pos rfl]
  · rw [after_out_said]
    rfl

theorem via_of_operator {tr : Trim} {via : Via} (h : operatorVia tr via = true) : via ≠ .relay := by
  unfold operatorVia at h
  obtain h | h := of_decide_eq_true h
  · exact h ▸ fun h => nomatch h
  · exact h ▸ fun h => nomatch h

theorem exec_baseKeyInstall {bs : Nat} (h : s.core.inSessionOp o x 0x10 40) (hop : operatorVia s.trim o.via = true)
    (hbs : fieldLE (o.payload.drop 8) 0 1 = bs) (hle : bs ≤ 1) (hn : fieldLE o.payload 2 2 = 4096 + bs) (h1 : fieldLE (o.payload.drop 8) 1 1 = 0)
    (h4 : fieldLE (o.payload.drop 8) 4 4 = 0) (hbase : (s.core.base bs).st = .empty) :
    ((s.core.slot (4096 + bs)).st ≠ .free → ∃ t, exec (.baseKeyInstall o) s = .next t ∧
      t.core.keep.slots = s.core.keep.slots ∧ t.core.keep.out = s.core.keep.out ++ [⟨o.via, 0x10, 0x0508, []⟩]) ∧
    ((s.core.slot (4096 + bs)).st = .free → (s.core.slot (4096 + bs)).floor ≤ fieldLE (o.payload.drop 8) 2 2 →
      fieldLE (o.payload.drop 8) 2 2 ≤ 0xFFFE → ∃ t, exec (.baseKeyInstall o) s = .next t ∧
        t.core.slot (4096 + bs) = { s.core.slot (4096 + bs) with
          st := .active, root := BitVec.ofNat 256 (fieldLE (o.payload.drop 8) 8 32), gen := fieldLE (o.payload.drop 8) 2 2, nonce := 0
          activeAt := s.core.clk.nominal, told := [] } ∧
        t.core.keep.out = s.core.keep.out ++ [⟨o.via, 0x10, 0, []⟩]) := by
  have hxvia : operatorVia s.trim x.via = true := by
    obtain ⟨-, -, -, hxvia, -⟩ := h
    rw [hxvia]
    exact hop
  have heq := Core.sessOp_eq h (via_of_operator hop) (baseKeyInstall s.trim)
  rw [hn] at heq
  have hslot : (s.core.heardBy o x).slot (4096 + bs) = s.core.slot (4096 + bs) := rfl
  have hbase' : ((s.core.heardBy o x).base bs).st = .empty := hbase
  refine ⟨fun hst => ?_, fun hst hfloor hgen => ?_⟩
  · have hkey : baseKeyInstall s.trim (s.core.heardBy o x) x (4096 + bs) (o.payload.drop 8) = (s.core.heardBy o x, 0x0508, []) := by
      unfold baseKeyInstall
      rw [hbs]
      dsimp only
      rw [hslot]
      rw [if_neg (by simp [h1, h4])]
      exact if_pos (.inr (.inr (.inr (.inr hst))))
    rw [hkey] at heq
    refine ⟨_, congrArg (fun d => Host.Outcome.next (s.after d)) heq, ?_, ?_⟩
    · rw [State.after_keep]
      rfl
    · rw [after_out_said]
      rfl
  · have hkey : baseKeyInstall s.trim (s.core.heardBy o x) x (4096 + bs) (o.payload.drop 8) = ((s.core.heardBy o x).setSlot (4096 + bs)
        { s.core.slot (4096 + bs) with
          st := .active, root := BitVec.ofNat 256 (fieldLE (o.payload.drop 8) 8 32), gen := fieldLE (o.payload.drop 8) 2 2, nonce := 0
          activeAt := s.core.clk.nominal, told := [] }, 0, []) := by
      unfold baseKeyInstall
      rw [hbs]
      dsimp only
      rw [hslot]
      rw [if_neg (by simp [h1, h4]), if_neg (by simp only [hxvia, hbase', hst]; simp; omega), if_neg (by simp [hfloor, hgen])]
      rfl
    rw [hkey] at heq
    refine ⟨_, congrArg (fun d => Host.Outcome.next (s.after d)) heq, ?_, ?_⟩
    · rw [after_slot_said, Core.slot_setSlot_any _ _ _ (Core.ne_reset_of_st (by nofun)), if_pos rfl]
    · rw [after_out_said]
      rfl

end Keys

/-! ## Seals, hashes and status -/

section Seals

variable {s : State} {o : SessOp} {x : Session} {n i : Nat}

theorem after_dir_said (s : State) (d : Core) (m : SpdmOut) (j : Nat) : (s.after (d.said m)).core.desc j = d.desc j :=
  State.after_desc_of_dir s rfl j

theorem exec_sealSet (h : s.core.inSessionOp o x 0x03 56) (hn : fieldLE o.payload 2 2 = n) (hok : s.core.tenantOk x n = true)
    (hst : (s.core.slot n).st = .active) (hi : s.core.descOf n (fieldLE (o.payload.drop 8) 0 8) = some i) (hr : s.core.dir.rising = true) :
    ∃ t, exec (.sealSet o) s = .next t ∧
      t.core.desc i = { s.core.desc i with sealV := BitVec.ofNat 384 (fieldLE (o.payload.drop 8) 8 48), sealSt := 1, sealBad := false } ∧
      (∀ j, j ≠ i → t.core.desc j = s.core.desc j) ∧ t.core.keep.out = s.core.keep.out ++ [⟨o.via, 0x03, 0, []⟩] := by
  have heq := Core.tenantOp_eq h hn hok hst sealSet
  have hseal : sealSet (s.core.heardBy o x) n (o.payload.drop 8) = ((s.core.heardBy o x).updDesc i (fun d => { d with
      sealV := BitVec.ofNat 384 (fieldLE (o.payload.drop 8) 8 48), sealSt := 1, sealBad := false }), 0, []) := by
    unfold sealSet
    rw [show (s.core.heardBy o x).descOf n (fieldLE (o.payload.drop 8) 0 8) = some i from hi]
  rw [hseal] at heq
  have hr' : (s.core.heardBy o x).dir.rising = true := hr
  refine ⟨_, congrArg (fun d => Host.Outcome.next (s.after d)) heq, ?_, fun j hj => ?_, ?_⟩
  · rw [after_dir_said, Core.desc_updDesc _ _ _ hr']
    rfl
  · rw [after_dir_said, Core.updDesc, Core.desc_setDesc _ _ _ _ hr', if_neg hj]
    rfl
  · rw [after_out_said]
    rfl

theorem exec_sealGet (h : s.core.inSessionOp o x 0x04 8) (hn : fieldLE o.payload 2 2 = n) (hok : s.core.tenantOk x n = true)
    (hst : (s.core.slot n).st = .active) (hi : s.core.descOf n (fieldLE (o.payload.drop 8) 0 8) = some i) :
    ∃ t, exec (.sealGet o) s = .next t ∧ t.core.dir = s.core.dir ∧ t.core.keep.out = s.core.keep.out ++ [⟨o.via, 0x04, 0,
      leBytes 48 (s.core.desc i).sealV.toNat ++ leBytes 1 (s.core.desc i).sealSt ++ leBytes 3 0 ++ leBytes 4 (s.core.desc i).commit.step⟩] := by
  have heq := Core.tenantOp_eq h hn hok hst sealGet
  have hseal : sealGet (s.core.heardBy o x) n (o.payload.drop 8) = (s.core.heardBy o x, 0,
      leBytes 48 (s.core.desc i).sealV.toNat ++ leBytes 1 (s.core.desc i).sealSt ++ leBytes 3 0 ++ leBytes 4 (s.core.desc i).commit.step) := by
    unfold sealGet
    rw [show (s.core.heardBy o x).descOf n (fieldLE (o.payload.drop 8) 0 8) = some i from hi]
    rfl
  rw [hseal] at heq
  refine ⟨_, congrArg (fun d => Host.Outcome.next (s.after d)) heq, ?_, ?_⟩
  · rw [State.after_dir]
    rfl
  · rw [after_out_said]
    rfl

/-- A context set with its digest noted. -/
theorem Core.ctx_updCtxD {c : Core} {y : Nat} {v : Ctx} (hv : c.ctx? y = some v) (f : Ctx → Ctx) :
    (c.updCtxD y f).ctx? y = some (f v) ∧ (c.updCtxD y f).keep.out = c.keep.out := by
  have hset : (c.setCtx y (f v)).ctx? y = some (f v) := (SMap.find_insert c.ctxs y y (f v)).trans (if_pos rfl)
  unfold Core.updCtxD
  rw [hv]
  dsimp only
  split
  · exact ⟨hset, rfl⟩
  · have hnote := (c.setCtx y (f v)).moves_note 7 y 0 ((c.setCtx y (f v)).ctxDigest y (f v))
    refine ⟨?_, ?_⟩
    · rw [Core.ctx?, show ((c.setCtx y (f v)).note 7 y 0 ((c.setCtx y (f v)).ctxDigest y (f v))).ctxs = (c.setCtx y (f v)).ctxs from hnote.frame .ctxs rfl]
      exact hset
    · exact hnote.frame .kout rfl

theorem exec_allowHash {y : Nat} {v : Ctx} (hn : fieldLE o.payload 2 2 = n) (hok : s.core.tenantOk x n = true)
    (hst : (s.core.slot n).st = .active) (h : s.core.inSessionOp o x 0x05 56) (hkind : fieldLE (o.payload.drop 8) 0 1 = 1)
    (h1 : fieldLE (o.payload.drop 8) 1 1 = 0) (h4 : fieldLE (o.payload.drop 8) 4 4 = 0) (hy : fieldLE (o.payload.drop 8) 2 2 = y)
    (hv : s.core.ctx? y = some v) (howner : v.owner = (s.core.slot n).fn) (hslot : v.keySlot = n) (hempty : v.emptyHash = some i) :
    ∃ t v', exec (.allowHash o) s = .next t ∧ t.core.ctx? y = some v' ∧
      v'.hashes = v.hashes.set 0 i (BitVec.ofNat 384 (fieldLE (o.payload.drop 8) 8 48)) ∧ v'.enable = v.enable ∧
      t.core.keep.out = s.core.keep.out ++ [⟨o.via, 0x05, 0, []⟩] := by
  have heq := Core.tenantOp_eq h hn hok hst allowHash
  have hallow : allowHash (s.core.heardBy o x) n (o.payload.drop 8) = ((s.core.heardBy o x).updCtxD y (fun v => { v with
      hashes := v.hashes.set 0 i (BitVec.ofNat 384 (fieldLE (o.payload.drop 8) 8 48)) }), 0, []) := by
    unfold allowHash
    rw [hkind, hy]
    dsimp only
    rw [if_neg (by simp [h1, h4]), show (s.core.heardBy o x).ctx? y = some v from hv]
    dsimp only
    rw [if_neg (by simp only [howner, hslot]; simp [Core.heardBy, Core.setSession, Core.slot]), if_pos rfl, hempty]
  rw [hallow] at heq
  obtain ⟨hctx, hout⟩ := Core.ctx_updCtxD (c := s.core.heardBy o x) hv (fun v => { v with
      hashes := v.hashes.set 0 i (BitVec.ofNat 384 (fieldLE (o.payload.drop 8) 8 48)) })
  refine ⟨_, { v with hashes := v.hashes.set 0 i (BitVec.ofNat 384 (fieldLE (o.payload.drop 8) 8 48)) },
    congrArg (fun d => Host.Outcome.next (s.after d)) heq, ?_, rfl, rfl, ?_⟩
  · rw [Core.ctx?, State.after_ctxs]
    exact hctx
  · rw [after_out_said, hout]
    rfl

theorem exec_status (hn : fieldLE o.payload 2 2 = n) (hok : s.core.tenantOk x n = true) (h : s.core.inSessionOp o x 0x06 0) :
    ∃ t, exec (.status o) s = .next t ∧ t.core.keep.out = s.core.keep.out ++ [⟨o.via, 0x06, 0, slotStatus s.core n⟩] ∧
      t.core.keep.slots = s.core.keep.slots := by
  have heq := Core.sessOp_eq h (Core.via_of_tenantOk h hok) (fun c s slot _ => if c.tenantOk s slot then (c, 0, slotStatus c slot) else (c, 0x0508, []))
  rw [hn, if_pos (show (s.core.heardBy o x).tenantOk x n = true from hok)] at heq
  refine ⟨_, congrArg (fun d => Host.Outcome.next (s.after d)) heq, ?_, ?_⟩
  · rw [after_out_said]
    rfl
  · rw [State.after_keep]
    rfl

end Seals

/-- Settles O37: each operation acts on the slot its header names, and answers its transport. -/
theorem tenantOperations : Obligations.TenantOperations := by
  refine ⟨fun s o x => ⟨fun h hok hst hfloor hgen hpolicy hzero => exec_keyInstall h rfl hok hst hfloor hgen hpolicy hzero,
      fun h hok hst => exec_keyRetire h rfl hok hst, fun h hop hle hn h1 h4 hbase => exec_baseKeyInstall h hop rfl hle hn h1 h4 hbase⟩,
    fun s o x i hok hst => ⟨fun h hi hr => exec_sealSet h rfl hok hst hi hr, fun h hi => exec_sealGet h rfl hok hst hi,
      fun v h hkind h1 h4 hv howner hslot hempty => exec_allowHash rfl hok hst h hkind h1 h4 rfl hv howner hslot hempty,
      fun h => exec_status rfl hok h⟩⟩

end Sys2Proof.Machine

/-! # EXTRACT (O38) -/

namespace Sys2Proof.Machine

set_option Elab.async false

/-- What a scan finds: records of the slot since the beat given, at most as many as asked for, in order. -/
theorem extractScan_spec (slot since : Nat) (rs : List EvRecord) : ∀ i n,
    (∀ q ∈ (extractScan slot since i n rs).1, q.ev.slot = slot ∧ since ≤ q.beat) ∧ (extractScan slot since i n rs).1.length ≤ n ∧
      (extractScan slot since i n rs).1.Sublist rs ∧ (extractScan slot since i n rs).2 ≤ i + rs.length := by
  induction rs with
  | nil =>
    intro i n
    cases n with
    | zero => exact ⟨fun q hq => absurd hq List.not_mem_nil, Nat.zero_le _, List.Sublist.refl _, Nat.le_refl _⟩
    | succ n => exact ⟨fun q hq => absurd hq List.not_mem_nil, Nat.zero_le _, List.Sublist.refl _, Nat.le_refl _⟩
  | cons r rs ih =>
    intro i n
    cases n with
    | zero => exact ⟨fun q hq => absurd hq List.not_mem_nil, Nat.zero_le _, List.nil_sublist _, Nat.le_add_right _ _⟩
    | succ n =>
      unfold extractScan
      split
      · next hr =>
        obtain ⟨hown, hlen, hsub, hidx⟩ := ih (i + 1) n
        refine ⟨fun q hq => ?_, Nat.succ_le_succ hlen, hsub.cons_cons r, by rw [List.length_cons]; dsimp only; omega⟩
        obtain rfl | hq := List.mem_cons.1 hq
        · exact hr
        · exact hown q hq
      · obtain ⟨hown, hlen, hsub, hidx⟩ := ih (i + 1) (n + 1)
        exact ⟨hown, hlen, hsub.cons r, by rw [List.length_cons]; omega⟩

theorem exec_extract {s : State} {o : SessOp} {x : Session} {n : Nat} (h : s.core.inSessionOp o x 0x07 48) (hk : fieldLE o.payload 2 2 = n)
    (hok : s.core.tenantOk x n = true) (hst : (s.core.slot n).st = .active) {m : Nat} (hm : fieldLE (o.payload.drop 8) 8 2 = m) (h1 : 1 ≤ m)
    (h64 : m ≤ 64) (hzero : allZero (slice (o.payload.drop 8) 0xA 6) = true) (hepoch : fieldLE (o.payload.drop 8) 4 4 = s.evr.epoch) {r : List EvRecord × Nat}
    (hr : r = extractScan n (s.core.slot n).activeAt (fieldLE (o.payload.drop 8) 0 4) m (s.evr.records.drop (fieldLE (o.payload.drop 8) 0 4))) :
    ∃ t sig, exec (.extract o) s = .next t ∧
      t.core.keep.out = s.core.keep.out ++ [⟨o.via, 0x07, 0, leBytes 4 s.evr.epoch ++ leBytes 4 r.2 ++ leBytes 2 r.1.length ++
        leBytes 1 (b2n s.evr.full) ++ leBytes 5 0 ++ r.1.flatMap (fun y => y.forTenant.bytes) ++ sig⟩] ∧
      t.evr.records = s.evr.records := by
  have heq := Core.tenantOp_eq h hk hok hst (extract s.evr)
  have hbody : ∃ sig, extract s.evr (s.core.heardBy o x) n (o.payload.drop 8) = ((s.core.heardBy o x).fresh, 0,
      leBytes 4 s.evr.epoch ++ leBytes 4 r.2 ++ leBytes 2 r.1.length ++ leBytes 1 (b2n s.evr.full) ++ leBytes 5 0 ++
        r.1.flatMap (fun y => y.forTenant.bytes) ++ sig) := by
    unfold extract
    rw [hm]
    dsimp only
    rw [if_neg (by simp [h1, h64, hzero]), decide_eq_true hepoch, if_pos rfl, show (s.core.heardBy o x).slot n = s.core.slot n from rfl, ← hr]
    exact ⟨_, rfl⟩
  obtain ⟨sig, hbody⟩ := hbody
  rw [hbody] at heq
  refine ⟨s.afterE (Core.tenantOp 0x07 48 o (extract s.evr) s.core) s.evr, sig, rfl, ?_, ?_⟩
  · show (s.after (Core.tenantOp 0x07 48 o (extract s.evr) s.core)).core.keep.out = _
    rw [heq, after_out_said]
    rfl
  · exact (Evr.brings_takeAll s.core.stamp _ s.evr).records

/-- Settles O38: the scan takes records of the slot alone, and the answer holds what it took. -/
theorem extractOwnRecords : Obligations.ExtractOwnRecords :=
  ⟨fun slot since i n rs => extractScan_spec slot since rs i n,
    fun _ _ _ h hok hst h1 h64 hzero hepoch => exec_extract h rfl hok hst rfl h1 h64 hzero hepoch rfl⟩

end Sys2Proof.Machine

/-! # Host commands: the entry taken, the checks of R346, and the completion that answers it -/

namespace Sys2Proof.Machine

set_option Elab.async false

/-- What a completion entry takes from its pair: the place of the entry and its phase. -/
def Pair.cqPlace (p : Pair) : Nat × Nat × Bool := (p.cqBase, p.cqTail, p.phase)

namespace Core

variable {c : Core}

/-- A completion of `r` is written now, where and as `p` says. -/
def AnswersAt (c : Core) (r : Req) (p : Pair) : Prop := c.answers r ∧ (c.pair r.f r.q).cqPlace = p.cqPlace

theorem AnswersAt.of_moves {w : List Part} {c d : Core} {r : Req} {p : Pair} (ha : c.AnswersAt r p) (h : c.Moves w d)
    (hports : w.contains .ports = false := by rfl) (hcores : w.contains .cores = false := by rfl)
    (hfws : w.contains .fws = false := by rfl) : d.AnswersAt r p :=
  ⟨answers_of_moves h hports hcores hfws ha.1, by rw [pair_of_ports (h.frame .ports hports)]; exact ha.2⟩

theorem AnswersAt.of_hostSide {d : Core} {r : Req} {p : Pair} (ha : c.AnswersAt r p) (hports : d.ports = c.ports)
    (hhalted : d.gate.halted = c.gate.halted) (hwindow : d.gateWindow = c.gateWindow) : d.AnswersAt r p := by
  obtain ⟨⟨hepoch, hup, hopen, htdi⟩, hp⟩ := ha
  have hpair : d.pair r.f r.q = c.pair r.f r.q := pair_of_ports hports _ _
  exact ⟨⟨by rw [hpair]; exact hepoch, by rw [hhalted]; exact hup, hwindow.trans hopen, by rw [fn_of_ports hports]; exact htdi⟩,
    by rw [hpair]; exact hp⟩

/-- A function set to one unlike a function at reset reads as set. -/
theorem fn_setFn_any {f : FnId} (hp : f.port < c.ports.length) {x : HostFn} (hx : x ≠ .reset (f.fn = 0)) : (c.setFn f x).fn f = x := by
  unfold fn
  rw [setFn, port_setPort _ _ _ _ hp, if_pos rfl]
  show SMap.get _ (SMap.set _ _ _ _) _ = _
  rw [SMap.set, if_neg hx, SMap.get_insert_any, if_pos rfl]

/-- A pair set to one unlike a pair at reset reads as set, and its function stays otherwise. -/
theorem setPair_any {f : FnId} (hp : f.port < c.ports.length) (q : Nat) {x : Pair} (hx : x ≠ .reset) :
    (c.setPair f q x).pair f q = x ∧ ((c.setPair f q x).fn f).tdi = (c.fn f).tdi := by
  have hset : ((c.fn f).pairs.set .reset q x).get .reset q = x := by
    rw [SMap.set, if_neg hx, SMap.get_insert_any, if_pos rfl]
  have hfn : (c.setPair f q x).fn f = { c.fn f with pairs := (c.fn f).pairs.set .reset q x } := by
    refine fn_setFn_any hp (fun heq => hx ?_)
    have hnil : (c.fn f).pairs.set .reset q x = [] := congrArg HostFn.pairs heq
    rw [← hset, hnil]
    rfl
  exact ⟨by rw [pair, hfn]; exact hset, by rw [hfn]⟩

theorem takes_spec {f : FnId} {q : Nat} (h : c.takes f q = true) :
    (c.fn f).tdi ≠ .error ∧ c.gate.halted.getD f.port true = false ∧ c.gateWindow = false := by
  simp only [takes, bar2, Bool.and_eq_true, Bool.not_eq_true', bne_iff_ne, ne_eq, decide_eq_true_eq] at h
  obtain ⟨⟨⟨⟨⟨⟨⟨⟨-, htdi⟩, -⟩, hup⟩, hopen⟩, -⟩, -⟩, -⟩, -⟩ := h
  exact ⟨htdi, hup, hopen⟩

/-- The command just taken can be completed, at the place its pair had before. -/
theorem answersAt_take {x : HostCmd} (h : c.takes x.f x.q = true) : (c.take x).1.AnswersAt (c.take x).2 (c.pair x.f x.q) := by
  obtain ⟨htdi, hup, hopen⟩ := takes_spec h
  have hup' : c.gate.halted.getD x.f.port false = false := by
    rw [List.getD_eq_getElem?_getD] at hup ⊢
    cases hg : c.gate.halted[x.f.port]? with
    | none => rfl
    | some b => rw [hg] at hup; exact hup
  have hset : ∀ p : Pair, p ≠ .reset → p.epoch = (c.pair x.f x.q).epoch → p.cqPlace = (c.pair x.f x.q).cqPlace →
      (c.setPair x.f x.q p).AnswersAt (c.take x).2 (c.pair x.f x.q) := by
    intro p hp hepoch hplace
    by_cases hport : x.f.port < c.ports.length
    · obtain ⟨hpair, hfn⟩ := setPair_any hport x.q hp
      exact ⟨⟨(congrArg Pair.epoch hpair).trans hepoch, hup', hopen, by rw [show (c.take x).2.f = x.f from rfl, hfn]; exact htdi⟩,
        (congrArg Pair.cqPlace hpair).trans hplace⟩
    · rw [setPair, setFn_of_no_port hport]
      exact ⟨⟨rfl, hup', hopen, htdi⟩, rfl⟩
  refine ((hset { c.pair x.f x.q with sqHead := ((c.pair x.f x.q).sqHead + 1) % (c.pair x.f x.q).sqSize, taken := (c.pair x.f x.q).taken + 1 }
    (fun heq => absurd (congrArg Pair.taken heq) (Nat.succ_ne_zero _)) rfl rfl).of_moves
      ((moves_bump _ (hstBase x.f.port + 0xA0) 1).then (moves_bump _ (hstBase x.f.port + 0x80) 64)))

end Core

/-- A completion entry is written where the pair of `s` has its tail, in a step that posts it. -/
theorem State.completes_of_post {s t : State} {c : Core} {x : Post} (ha : c.AnswersAt x.req (s.core.pair x.req.f x.req.q))
    (hs : s.core.out.dma <+: c.out.dma) (ht : (c.post x).out.dma <+: t.core.out.dma) : s.completes t x.req x.status := by
  obtain ⟨hac, hplace⟩ := ha
  obtain ⟨before, hbefore⟩ := c.writePost_dma x hac.2.2.2
  obtain ⟨pre, hpre⟩ := hs
  obtain ⟨post, hpost⟩ := ht
  have hbase : (c.pair x.req.f x.req.q).cqBase = (s.core.pair x.req.f x.req.q).cqBase := congrArg Prod.fst hplace
  have htail : (c.pair x.req.f x.req.q).cqTail = (s.core.pair x.req.f x.req.q).cqTail := congrArg (fun y => y.2.1) hplace
  have hphase : (c.pair x.req.f x.req.q).phase = (s.core.pair x.req.f x.req.q).phase := congrArg (fun y => y.2.2) hplace
  refine ⟨pre ++ before, post, x.result, ?_⟩
  dsimp only
  rw [← hpost, Core.post_of_answers _ _ hac, hbefore, ← hpre, hbase, htail]
  unfold completionBytes
  rw [hphase]
  simp only [List.append_assoc]

/-- A command taken in this step completes in it, by a post, whatever else the step does without the host side before it. -/
theorem State.completes_of_take {s : State} {x : HostCmd} (h : s.core.takes x.f x.q = true) {w : List Part} {c d : Core} {code res : Nat}
    {record : List Byte} (hm : (s.core.take x).1.Moves w c) (hd : (c.post ⟨(s.core.take x).2, code, res, record⟩).out.dma <+: d.out.dma)
    (hports : w.contains .ports = false := by rfl) (hcores : w.contains .cores = false := by rfl)
    (hfws : w.contains .fws = false := by rfl) : s.completes (s.after d) (s.core.take x).2 code :=
  State.completes_of_post (x := ⟨(s.core.take x).2, code, res, record⟩) ((Core.answersAt_take h).of_moves hm hports hcores hfws)
    ((s.core.moves_take x).dma.trans hm.dma) (by rw [State.after_dma]; exact hd)

namespace Core

variable {c : Core} {record : Core → Req → List Byte} {x : HostCmd} {k : Form} {admin : Option FnId} {slots : Core → List Nat} {owned : Core → Bool}

/-- A command whose checks refuse it with a code. -/
def refusesWith (c : Core) (record : Core → Req → List Byte) (x : HostCmd) (code : Nat) : Core :=
  (c.take x).1.refuseWith (c.take x).2 code (record c (c.take x).2)

/-- The code of the first check of a command of its own form that refuses it, once its entry is taken (R346 checks 1 to 5). -/
def checkCode (c : Core) (x : HostCmd) (k : Form) (admin : Option FnId) (slots : List Nat) (owned : Bool) : Nat :=
  if malformed x.entry k then 0x0A1D
  else if (admin.map (fun a => a != x.f)).getD false then 0x0A20
  else if slots.any c.leaving then 0x0504
  else if !owned then (if k.op = 0x10 then 0x0A02 else 0x0A1E)
  else if k.op = 1 ∧ !((c.ctx? (hCtx x.entry)).map (fun v => v.enable)).getD false then 0x0A1F
  else 0

theorem acceptWith_of_not_takes (h : c.takes x.f x.q = false) : acceptWith record x k admin slots owned c = (c, none) := by
  unfold acceptWith
  rw [h]
  rfl

theorem acceptWith_of_other (hknown : knownOps.contains (hOp x.entry) = true) (hop : hOp x.entry ≠ k.op) :
    acceptWith record x k admin slots owned c = (c, none) := by
  unfold acceptWith
  by_cases ht : c.takes x.f x.q = true
  · rw [ht, if_neg (by decide)]
    exact if_pos ⟨hknown, hop⟩
  · rw [if_pos (by simpa using ht)]

theorem acceptWith_of_unknown (h : c.takes x.f x.q = true) (hknown : knownOps.contains (hOp x.entry) = false) :
    acceptWith record x k admin slots owned c = ((c.take x).1.refuse (c.take x).2 0x0A1D 0, none) := by
  unfold acceptWith
  rw [h, hknown]
  rfl

/-- What follows the taking of an entry of the form's own opcode. -/
theorem acceptWith_of_taken (h : c.takes x.f x.q = true) (hop : hOp x.entry = k.op) (hk : knownOps.contains k.op = true) :
    acceptWith record x k admin slots owned c =
      if checkCode c x k admin (slots c) (owned c) ≠ 0 then
        (c.refusesWith record x (checkCode c x k admin (slots c) (owned c)), none)
      else if !(opCores k.op).all c.coreUp then ((c.take x).1, none)
      else if k.reads ∧ hBytes x.entry ≠ 0 then
        match x.data with
        | none => (((c.take x).1.dmaFailed x.f).post ⟨(c.take x).2, 0x0601, 0, record c (c.take x).2⟩, none)
        | some d => ((c.take x).1.bump (hstBase x.f.port + 0x80) (hBytes x.entry), some ((c.take x).2, pad (hBytes x.entry) d))
      else ((c.take x).1, some ((c.take x).2, [])) := by
  unfold acceptWith checkCode refusesWith
  rw [h, hop, hk]
  dsimp only
  rw [if_neg (by decide), if_neg (fun hc => hc.2 rfl), if_neg (by decide)]
  split
  · rfl
  · split
    · rfl
    · split
      · rfl
      · split
        · split <;> rfl
        · split
          · rfl
          · rfl

theorem pad_zero (d : List Byte) : pad 0 d = [] := by simp [pad]

/-- A command that passes every check is carried out on the die once its entry is taken and its data read. -/
theorem acceptWith_of_passes (hp : c.passes x k (slots c)) (ho : owned c = true)
    (hadmin : (admin.map (fun a => a != x.f)).getD false = false)
    (hen : k.op = 1 → ((c.ctx? (hCtx x.entry)).map (fun v => v.enable)).getD false = true) (hk : knownOps.contains k.op = true) :
    acceptWith record x k admin slots owned c = (c.entered x k, some ((c.take x).2, if k.reads then hData x else [])) := by
  obtain ⟨htakes, hop, hform, hleaving, hup, hdata⟩ := hp
  have hcode : checkCode c x k admin (slots c) (owned c) = 0 := by
    unfold checkCode
    rw [hform, hadmin, hleaving, ho, if_neg (by decide), if_neg (by decide), if_neg (by decide), if_neg (by decide)]
    exact if_neg (fun hc => absurd (hen hc.1) (by simpa using hc.2))
  rw [acceptWith_of_taken htakes hop hk, hcode, if_neg (fun hc => hc rfl), hup, if_neg (by decide)]
  unfold entered hData
  cases hr : k.reads with
  | false => rw [if_neg (fun hc => Bool.noConfusion hc.1), if_neg (fun hc => Bool.noConfusion hc.1)]; rfl
  | true =>
    by_cases hb : hBytes x.entry = 0
    · rw [if_neg (fun hc => hc.2 hb), if_neg (fun hc => hc.2 hb), hb, pad_zero]
      rfl
    · rw [if_pos ⟨rfl, hb⟩, if_pos ⟨rfl, hb⟩]
      obtain ⟨d, hd⟩ := Option.isSome_iff_exists.1 (hdata hr hb)
      rw [hd]
      rfl

theorem checkedWith_of_none {g : Core → Req → List Byte → Core} {d : Core} (h : acceptWith record x k admin slots owned c = (d, none)) :
    checkedWith record x k admin slots owned g c = d := by
  rw [checkedWith, h]

theorem checkedWith_of_some {g : Core → Req → List Byte → Core} {d : Core} {r : Req} {b : List Byte}
    (h : acceptWith record x k admin slots owned c = (d, some (r, b))) :
    checkedWith record x k admin slots owned g c = g d r b := by
  rw [checkedWith, h]

end Core

/-! ## What each command's checks look at -/

/-- The function that alone may send a command of the form. -/
def hAdmin (tr : Trim) (k : Form) : Option FnId := if k.op = 0x30 ∨ k.op = 0x31 then some tr.admin else none

/-- The key slots a command concerns (R346 check 3). -/
def hSlots (x : HostCmd) (k : Form) (c : Core) : List Nat :=
  if k.op = 0x10 then []
  else if k.ctx then ((c.ctx? (hCtx x.entry)).map (fun v => v.keySlot)).toList
  else if k.op = 0x20 then [hIndex x.entry]
  else if k.op = 0x25 then c.descSlots (hIndex x.entry) ++ [hArg x.entry 0x22 2]
  else if k.op < 0x30 then c.descSlots (hIndex x.entry)
  else if hIndex x.entry < 2 then [4096 + hIndex x.entry] else []

/-- Whether the context or the adaptation a command names is its sender's, or free for CONTEXT_CREATE (R346 check 4). -/
def hOwned (x : HostCmd) (k : Form) (c : Core) : Bool :=
  if k.op = 0x10 then (c.ctx? (hCtx x.entry)).isNone
  else if k.ctx then ((c.ctx? (hCtx x.entry)).map (fun v => decide (v.owner = x.f))).getD false
  else if 0x21 ≤ k.op ∧ k.op ≤ 0x25 then c.ownsDesc x.f (hIndex x.entry)
  else true

theorem hAdmin_none (tr : Trim) {k : Form} (h : k.op < 0x30) : hAdmin tr k = none := if_neg (by omega)

theorem hSlots_ctx {k : Form} (hctx : k.ctx = true) (h : k.op ≠ 0x10) (x : HostCmd) :
    hSlots x k = fun c => ((c.ctx? (hCtx x.entry)).map (fun v => v.keySlot)).toList := by
  funext c
  rw [hSlots, if_neg h, if_pos hctx]

theorem hOwned_ctx {k : Form} (hctx : k.ctx = true) (h : k.op ≠ 0x10) (x : HostCmd) :
    hOwned x k = fun c => ((c.ctx? (hCtx x.entry)).map (fun v => decide (v.owner = x.f))).getD false := by
  funext c
  rw [hOwned, if_neg h, if_pos hctx]

theorem hSlots_desc {k : Form} (hctx : k.ctx = false) (h1 : 0x21 ≤ k.op) (h2 : k.op ≤ 0x24) (x : HostCmd) :
    hSlots x k = fun c => c.descSlots (hIndex x.entry) := by
  funext c
  rw [hSlots, hctx, if_neg (by omega), if_neg (by decide), if_neg (by omega), if_neg (by omega), if_pos (by omega)]

theorem hOwned_desc {k : Form} (hctx : k.ctx = false) (h1 : 0x21 ≤ k.op) (h2 : k.op ≤ 0x25) (x : HostCmd) :
    hOwned x k = fun c => c.ownsDesc x.f (hIndex x.entry) := by
  funext c
  rw [hOwned, hctx, if_neg (by omega), if_neg (by decide), if_pos ⟨h1, h2⟩]

namespace Core

variable {c d : Core} {record : Core → Req → List Byte} {x : HostCmd} {k : Form} {tr : Trim}

/-- No check lets a command of the form through, and they leave the die `d`. -/
def Stopped (c d : Core) (record : Core → Req → List Byte) (x : HostCmd) (k : Form) (tr : Trim) : Prop :=
  c.acceptWith record x k (hAdmin tr k) (hSlots x k) (hOwned x k) = (d, none)

theorem ctxCmdWith_of_stopped {g : Core → Req → Nat → Ctx → List Byte → Core} (h : c.Stopped d record x k tr)
    (hctx : k.ctx = true) (hop : k.op < 0x30 ∧ k.op ≠ 0x10) : ctxCmdWith record x k g c = d := by
  rw [Stopped, hAdmin_none tr hop.1, hSlots_ctx hctx hop.2, hOwned_ctx hctx hop.2] at h
  unfold ctxCmdWith
  exact checkedWith_of_none h

theorem adaptCmd_of_stopped {g : Core → Req → Nat → Desc → Core} (h : c.Stopped d (fun _ _ => []) x k tr)
    (hctx : k.ctx = false) (hop : 0x21 ≤ k.op ∧ k.op ≤ 0x24) : adaptCmd x k g c = d := by
  rw [Stopped, hAdmin_none tr (by omega), hSlots_desc hctx hop.1 hop.2, hOwned_desc hctx hop.1 (by omega)] at h
  unfold adaptCmd
  exact checkedWith_of_none h

end Core

theorem knownOps_of_hostForm {i : Instr} {x : HostCmd} {k : Form} (h : i.hostForm = some (x, k)) : knownOps.contains k.op = true := by
  unfold Instr.hostForm at h
  repeat' split at h
  all_goals cases h
  all_goals rfl

/-- A command that its checks do not let through leaves the die as they do. -/
theorem exec_of_stopped {i : Instr} {x : HostCmd} {k : Form} (h : i.hostForm = some (x, k)) (s : State) :
    ∃ record, ∀ d, s.core.Stopped d record x k s.trim → exec i s = .next (s.after d) := by
  have hnext : ∀ {d e : Core}, e = d → (Host.Outcome.next (s.after e) : Host.Outcome State Fault Refusal) = .next (s.after d) :=
    fun he => congrArg (fun d => Host.Outcome.next (s.after d)) he
  unfold Instr.hostForm at h
  split at h
  case h_1 =>
    obtain ⟨rfl, rfl⟩ := Prod.mk.inj (Option.some.inj h)
    exact ⟨emptyRecord s.trim, fun d hd => hnext (Core.ctxCmdWith_of_stopped hd rfl ⟨by decide, by decide⟩)⟩
  case h_4 x =>
    obtain ⟨rfl, rfl⟩ := Prod.mk.inj (Option.some.inj h)
    refine ⟨fun _ _ => [], fun d hd => hnext (?_ : Core.createCtx x s.core = d)⟩
    unfold Core.createCtx
    exact Core.checkedWith_of_none hd
  case h_5 x =>
    obtain ⟨rfl, rfl⟩ := Prod.mk.inj (Option.some.inj h)
    refine ⟨fun _ _ => [], fun d hd => hnext (?_ : Core.writeCtx x s.core = d)⟩
    unfold Core.writeCtx
    exact Core.ctxCmdWith_of_stopped hd rfl ⟨by decide, by decide⟩
  case h_8 | h_9 | h_10 | h_11 | h_12 | h_13 | h_14 | h_15 =>
    obtain ⟨rfl, rfl⟩ := Prod.mk.inj (Option.some.inj h)
    refine ⟨fun _ _ => [], fun d hd => hnext (Core.ctxCmdWith_of_stopped hd rfl ⟨?_, ?_⟩)⟩ <;> dsimp only <;> decide
  case h_16 x =>
    obtain ⟨rfl, rfl⟩ := Prod.mk.inj (Option.some.inj h)
    refine ⟨fun _ _ => [], fun d hd => hnext (?_ : Core.register s.trim x s.core = d)⟩
    unfold Core.register
    exact Core.checkedWith_of_none hd
  case h_17 =>
    obtain ⟨rfl, rfl⟩ := Prod.mk.inj (Option.some.inj h)
    exact ⟨fun _ _ => [], fun d hd => hnext (Core.adaptCmd_of_stopped hd rfl ⟨by decide, by decide⟩)⟩
  case h_18 x =>
    obtain ⟨rfl, rfl⟩ := Prod.mk.inj (Option.some.inj h)
    refine ⟨fun _ _ => [], fun d hd => hnext (?_ : Core.removeAdapt x s.core = d)⟩
    unfold Core.removeAdapt
    exact Core.adaptCmd_of_stopped hd rfl ⟨by decide, by decide⟩
  case h_19 x =>
    obtain ⟨rfl, rfl⟩ := Prod.mk.inj (Option.some.inj h)
    refine ⟨fun _ _ => [], fun d hd => hnext (?_ : Core.prefetch s.trim x s.core = d)⟩
    unfold Core.prefetch
    exact Core.adaptCmd_of_stopped hd rfl ⟨by decide, by decide⟩
  case h_20 x =>
    obtain ⟨rfl, rfl⟩ := Prod.mk.inj (Option.some.inj h)
    refine ⟨fun _ _ => [], fun d hd => hnext (?_ : Core.writeback s.trim x s.core s.dram = d)⟩
    unfold Core.writeback
    exact Core.adaptCmd_of_stopped hd rfl ⟨by decide, by decide⟩
  case h_22 x =>
    obtain ⟨rfl, rfl⟩ := Prod.mk.inj (Option.some.inj h)
    refine ⟨fun _ _ => [], fun d hd => hnext (?_ : Core.loadBase s.trim x s.core s.dram = d)⟩
    unfold Core.loadBase
    exact Core.checkedWith_of_none hd
  case h_23 x =>
    obtain ⟨rfl, rfl⟩ := Prod.mk.inj (Option.some.inj h)
    refine ⟨fun _ _ => [], fun d hd => hnext (?_ : Core.freeBaseSlot s.trim x s.core = d)⟩
    unfold Core.freeBaseSlot
    exact Core.checkedWith_of_none hd
  case h_2 | h_7 =>
    split at h
    · cases h
    · next hbit =>
      obtain ⟨rfl, rfl⟩ := Prod.mk.inj (Option.some.inj h)
      exact ⟨fun _ _ => [], fun d hd => hnext ((if_neg hbit).trans (Core.ctxCmdWith_of_stopped hd rfl ⟨by dsimp only; decide, by dsimp only; decide⟩))⟩
  case h_3 | h_6 =>
    split at h
    · next hbit =>
      obtain ⟨rfl, rfl⟩ := Prod.mk.inj (Option.some.inj h)
      exact ⟨fun _ _ => [], fun d hd => hnext ((if_neg (by simp [hbit])).trans (Core.ctxCmdWith_of_stopped hd rfl ⟨by dsimp only; decide, by dsimp only; decide⟩))⟩
    · cases h
  case h_21 x =>
    obtain ⟨rfl, rfl⟩ := Prod.mk.inj (Option.some.inj h)
    refine ⟨fun _ _ => [], fun d hd => congrArg (fun r : Core × Dram => Host.Outcome.next (s.afterM r.1 r.2)) (?_ : Core.rewrap x s.core s.dram = (d, s.dram))⟩
    have hd' : Core.accept x _ none (fun c => c.descSlots (hIndex x.entry) ++ [hArg x.entry 0x22 2]) (fun c => c.ownsDesc x.f (hIndex x.entry)) s.core = (d, none) := hd
    unfold Core.rewrap
    dsimp only
    rw [hd']
  case h_24 => cases h

/-- The commands on contexts are those below 0x20. -/
theorem ctx_of_hostForm {i : Instr} {x : HostCmd} {k : Form} (h : i.hostForm = some (x, k)) : k.ctx = decide (k.op < 0x20) := by
  unfold Instr.hostForm at h
  repeat' split at h
  all_goals cases h
  all_goals rfl

/-! ## The first check that fails -/

section

variable {i : Instr} {x : HostCmd} {k : Form} {s : State}

/-- A command whose checks give a code completes with it. -/
theorem fails_of_checkCode (hi : i.hostForm = some (x, k)) (htakes : s.core.takes x.f x.q = true) (hop : hOp x.entry = k.op) {code : Nat}
    (hcode : s.core.checkCode x k (hAdmin s.trim k) (hSlots x k s.core) (hOwned x k s.core) = code) (h0 : code ≠ 0) :
    ∃ t, exec i s = .next t ∧ s.completes t (s.core.take x).2 code := by
  obtain ⟨record, hexec⟩ := exec_of_stopped hi s
  have hstop : s.core.Stopped (s.core.refusesWith record x code) record x k s.trim := by
    rw [Core.Stopped, Core.acceptWith_of_taken htakes hop (knownOps_of_hostForm hi), hcode, if_pos h0]
  exact ⟨_, hexec _ hstop, State.completes_of_take htakes (Core.moves_bump _ (hstBase x.f.port + 0xA8) 1) List.prefix_rfl⟩

/-- A command whose entry names no known opcode completes as not well formed. -/
theorem fails_of_unknown (hi : i.hostForm = some (x, k)) (htakes : s.core.takes x.f x.q = true)
    (hknown : knownOps.contains (hOp x.entry) = false) : ∃ t, exec i s = .next t ∧ s.completes t (s.core.take x).2 0x0A1D := by
  obtain ⟨record, hexec⟩ := exec_of_stopped hi s
  exact ⟨_, hexec _ (Core.acceptWith_of_unknown htakes hknown),
    State.completes_of_take htakes (Core.moves_bump _ (hstBase x.f.port + 0xA8) 1) List.prefix_rfl⟩

/-- A command whose data cannot be read completes with 0x0601. -/
theorem fails_of_no_data (hi : i.hostForm = some (x, k)) (htakes : s.core.takes x.f x.q = true) (hop : hOp x.entry = k.op)
    (hcode : s.core.checkCode x k (hAdmin s.trim k) (hSlots x k s.core) (hOwned x k s.core) = 0)
    (hup : (opCores k.op).all s.core.coreUp = true) (hreads : k.reads = true ∧ hBytes x.entry ≠ 0) (hdata : x.data = none) :
    ∃ t, exec i s = .next t ∧ s.completes t (s.core.take x).2 0x0601 := by
  obtain ⟨record, hexec⟩ := exec_of_stopped hi s
  have hstop : s.core.Stopped (((s.core.take x).1.dmaFailed x.f).post ⟨(s.core.take x).2, 0x0601, 0, record s.core (s.core.take x).2⟩)
      record x k s.trim := by
    rw [Core.Stopped, Core.acceptWith_of_taken htakes hop (knownOps_of_hostForm hi), hcode, if_neg (fun h => h rfl), hup,
      if_neg (by decide), if_pos hreads, hdata]
  exact ⟨_, hexec _ hstop, State.completes_of_take htakes (Core.moves_dmaFailed _ x.f) List.prefix_rfl⟩

namespace Core

variable {c : Core} {admin : Option FnId} {slots : List Nat} {owned : Bool}

theorem checkCode_malformed (h : malformed x.entry k = true) : c.checkCode x k admin slots owned = 0x0A1D := if_pos h

theorem checkCode_admin (hform : malformed x.entry k = false) {a : FnId} (ha : x.f ≠ a) :
    c.checkCode x k (some a) slots owned = 0x0A20 := by
  unfold checkCode
  rw [hform, if_neg (by decide)]
  exact if_pos (bne_iff_ne.2 (Ne.symm ha))

theorem checkCode_leaving (hform : malformed x.entry k = false) (hslots : slots.any c.leaving = true) :
    c.checkCode x k none slots owned = 0x0504 := by
  unfold checkCode
  rw [hform, if_neg (by decide), if_neg (show ¬ (Option.map _ none).getD false = true from Bool.false_ne_true), if_pos hslots]

theorem checkCode_owner (hform : malformed x.entry k = false) (hslots : slots.any c.leaving = false) :
    c.checkCode x k none slots false = if k.op = 0x10 then 0x0A02 else 0x0A1E := by
  unfold checkCode
  rw [hform, if_neg (by decide), if_neg (show ¬ (Option.map _ none).getD false = true from Bool.false_ne_true), hslots, if_neg (by decide), if_pos (by decide)]

theorem checkCode_owned (hform : malformed x.entry k = false) (hslots : slots.any c.leaving = false) :
    c.checkCode x k none slots true =
      if k.op = 1 ∧ !((c.ctx? (hCtx x.entry)).map (fun v => v.enable)).getD false then 0x0A1F else 0 := by
  unfold checkCode
  rw [hform, if_neg (by decide), if_neg (show ¬ (Option.map _ none).getD false = true from Bool.false_ne_true), hslots, if_neg (by decide), if_neg (by decide)]

/-- The key slot of a context is the one its commands concern. -/
theorem hSlots_of_ctx {v : Ctx} (hctx : k.ctx = true) (h10 : k.op ≠ 0x10) (hv : c.ctx? (hCtx x.entry) = some v) :
    (hSlots x k c).any c.leaving = c.leaving v.keySlot ∧ hOwned x k c = decide (v.owner = x.f) := by
  rw [hSlots_ctx hctx h10, hOwned_ctx hctx h10]
  dsimp only
  rw [hv]
  exact ⟨Bool.or_false _, rfl⟩

theorem hSlots_of_no_ctx (hctx : k.ctx = true) (h10 : k.op ≠ 0x10) (hv : c.ctx? (hCtx x.entry) = none) :
    (hSlots x k c).any c.leaving = false ∧ hOwned x k c = false := by
  rw [hSlots_ctx hctx h10, hOwned_ctx hctx h10]
  dsimp only
  rw [hv]
  exact ⟨rfl, rfl⟩

theorem hSlots_of_desc (hctx : k.ctx = false) (h1 : 0x21 ≤ k.op) (h2 : k.op ≤ 0x24) (hst : (c.desc (hIndex x.entry)).st ≠ .free) :
    (hSlots x k c).any c.leaving = c.leaving (c.desc (hIndex x.entry)).keySlot := by
  rw [hSlots_desc hctx h1 h2]
  dsimp only
  rw [descSlots, if_neg hst]
  exact Bool.or_false _

end Core

/-- The checks of the commands on contexts but CONTEXT_CREATE. -/
theorem ctx_checks (hi : i.hostForm = some (x, k)) (htakes : s.core.takes x.f x.q = true) (hop : hOp x.entry = k.op)
    (hform : malformed x.entry k = false) (hctx : k.ctx = true) (h10 : k.op ≠ 0x10) :
    let c := s.core
    let fails (code : Nat) : Prop := ∃ t, exec i s = .next t ∧ s.completes t (c.take x).2 code
    (c.ctx? (hCtx x.entry) = none → fails 0x0A1E) ∧
    (∀ v, c.ctx? (hCtx x.entry) = some v →
      (c.leaving v.keySlot = true → fails 0x0504) ∧
      (c.leaving v.keySlot = false → v.owner ≠ x.f → fails 0x0A1E) ∧
      (c.leaving v.keySlot = false → v.owner = x.f → k.op = 1 → v.enable = false → fails 0x0A1F) ∧
      (c.leaving v.keySlot = false → v.owner = x.f → (k.op = 1 → v.enable = true) → k.reads = true → hBytes x.entry ≠ 0 →
        x.data = none → (opCores k.op).all c.coreUp = true → fails 0x0601)) := by
  have hlow : k.op < 0x20 := of_decide_eq_true ((ctx_of_hostForm hi).symm.trans hctx)
  have hadmin := hAdmin_none s.trim (k := k) (by omega)
  refine ⟨fun hv => ?_, fun v hv => ?_⟩
  · obtain ⟨hslots, howned⟩ := Core.hSlots_of_no_ctx hctx h10 hv
    exact fails_of_checkCode hi htakes hop (by rw [hadmin, howned, Core.checkCode_owner hform hslots, if_neg h10]) (by decide)
  · obtain ⟨hslots, howned⟩ := Core.hSlots_of_ctx hctx h10 hv
    refine ⟨fun hl => ?_, fun hl ho => ?_, fun hl ho h1 hen => ?_, fun hl ho hen hreads hbytes hdata hup => ?_⟩
    · exact fails_of_checkCode hi htakes hop (by rw [hadmin, Core.checkCode_leaving hform (hslots.trans hl)]) (by decide)
    · exact fails_of_checkCode hi htakes hop
        (by rw [hadmin, howned, decide_eq_false ho, Core.checkCode_owner hform (hslots.trans hl), if_neg h10]) (by decide)
    · refine fails_of_checkCode hi htakes hop ?_ (by decide)
      rw [hadmin, howned, decide_eq_true ho, Core.checkCode_owned hform (hslots.trans hl), hv, if_pos ⟨h1, by simp [hen]⟩]
    · refine fails_of_no_data hi htakes hop ?_ hup ⟨hreads, hbytes⟩ hdata
      rw [hadmin, howned, decide_eq_true ho, Core.checkCode_owned hform (hslots.trans hl), hv,
        if_neg (fun hc => absurd (hen hc.1) (by simpa using hc.2))]

/-- The checks of the commands on an adaptation but ADAPT_REWRAP. -/
theorem desc_checks (hi : i.hostForm = some (x, k)) (htakes : s.core.takes x.f x.q = true) (hop : hOp x.entry = k.op)
    (hform : malformed x.entry k = false) (h1 : 0x21 ≤ k.op) (h2 : k.op ≤ 0x24) :
    let c := s.core
    let d := c.desc (hIndex x.entry)
    let fails (code : Nat) : Prop := ∃ t, exec i s = .next t ∧ s.completes t (c.take x).2 code
    (d.st = .free → fails 0x0A1E) ∧ (d.st ≠ .free → c.leaving d.keySlot = true → fails 0x0504) ∧
      (d.st ≠ .free → c.leaving d.keySlot = false → (c.slot d.keySlot).fn ≠ x.f → fails 0x0A1E) := by
  have hctx : k.ctx = false := (ctx_of_hostForm hi).trans (decide_eq_false (by omega))
  have hadmin := hAdmin_none s.trim (k := k) (by omega)
  have howned : hOwned x k s.core = s.core.ownsDesc x.f (hIndex x.entry) := by rw [hOwned_desc hctx h1 (by omega)]
  have h10 : k.op ≠ 0x10 := by omega
  refine ⟨fun hst => ?_, fun hst hl => ?_, fun hst hl hfn => ?_⟩
  · have hslots : (hSlots x k s.core).any s.core.leaving = false := by
      rw [hSlots_desc hctx h1 h2]
      dsimp only
      rw [Core.descSlots, if_pos hst]
      rfl
    have hnot : s.core.ownsDesc x.f (hIndex x.entry) = false := by simp [Core.ownsDesc, hst]
    exact fails_of_checkCode hi htakes hop (by rw [hadmin, howned, hnot, Core.checkCode_owner hform hslots, if_neg h10]) (by decide)
  · exact fails_of_checkCode hi htakes hop
      (by rw [hadmin, Core.checkCode_leaving hform ((Core.hSlots_of_desc hctx h1 h2 hst).trans hl)]) (by decide)
  · have hnot : s.core.ownsDesc x.f (hIndex x.entry) = false := by simp [Core.ownsDesc, hfn]
    exact fails_of_checkCode hi htakes hop
      (by rw [hadmin, howned, hnot, Core.checkCode_owner hform ((Core.hSlots_of_desc hctx h1 h2 hst).trans hl), if_neg h10]) (by decide)

end

/-- Settles O42: a command that its checks stop leaves the die as they do, and they are made in the order of R346. -/
theorem hostChecks : Obligations.HostChecks := by
  intro i x k s hi
  dsimp only
  obtain ⟨record, hexec⟩ := exec_of_stopped hi s
  refine ⟨fun ht => hexec _ (Core.acceptWith_of_not_takes ht), fun hknown hop => hexec _ (Core.acceptWith_of_other hknown hop), fun ht => ?_⟩
  refine ⟨fails_of_unknown hi ht, fun hop hbad => fails_of_checkCode hi ht hop (Core.checkCode_malformed hbad) (by decide),
    fun hop hform => ⟨fun hadm hf => ?_, fun h10 hsome => ?_, ctx_checks hi ht hop hform, desc_checks hi ht hop hform⟩⟩
  · refine fails_of_checkCode hi ht hop ?_ (by decide)
    rw [hAdmin, if_pos hadm, Core.checkCode_admin hform hf]
  · have hslots : (hSlots x k s.core).any s.core.leaving = false := by rw [hSlots, if_pos h10]; rfl
    have howned : hOwned x k s.core = false := by rw [hOwned, if_pos h10, Option.isNone_eq_false_iff]; exact hsome
    refine fails_of_checkCode hi ht hop ?_ (by decide)
    rw [hAdmin_none s.trim (by omega), howned, Core.checkCode_owner hform hslots, if_pos h10]

end Sys2Proof.Machine

/-! # The commands on a context once their checks passed, and its tables -/

namespace Sys2Proof.Machine

set_option Elab.async false

namespace Core

variable {c d : Core} {x : HostCmd} {k : Form} {v : Ctx}

/-- The die once a command on a context is taken, its data and the context read. -/
def began (c : Core) (x : HostCmd) (k : Form) : Core := (c.entered x k).ctxRead (hCtx x.entry) x.dome

theorem moves_entered : (c.take x).1.Moves [.ctr] (c.entered x k) :=
  .ite (moves_bump _ _ _) (.refl _)

theorem moves_began : (c.take x).1.Moves [.failN, .ctxs, .ctr] (c.began x k) :=
  moves_entered.mono.then (moves_ctxRead _ _ _)

theorem began_moves : c.Moves [.failN, .ctxs, .ctr, .ports, .posts] (c.began x k) :=
  (c.moves_take x).mono.then moves_began

theorem ctx_of_ctxs (h : d.ctxs = c.ctxs) (n : Nat) : d.ctx? n = c.ctx? n := by rw [ctx?, ctx?, h]

theorem ctx_setCtx_self (c : Core) (n : Nat) (w : Ctx) : (c.setCtx n w).ctx? n = some w :=
  (SMap.find_insert c.ctxs n n w).trans (if_pos rfl)

theorem ctx_updCtx_self {n : Nat} (h : c.ctx? n = some v) (f : Ctx → Ctx) : (c.updCtx n f).ctx? n = some (f v) := by
  rw [updCtx_of_ctx h, ctx_setCtx_self]

theorem ctx_entered (n : Nat) : (c.entered x k).ctx? n = c.ctx? n :=
  ctx_of_ctxs (((c.moves_take x).mono.then (moves_entered (k := k)) : c.Moves [.ctr, .ports, .posts] _).frame .ctxs rfl) n

/-- The context as its commands find it. -/
theorem ctx_began (h : c.ctx? (hCtx x.entry) = some v) : (c.began x k).ctx? (hCtx x.entry) = some (v.readBy x.dome) := by
  have hread := ctx_of_ctxs (((c.entered x k).moves_domeCheck x.dome (0x20_0000 + 0x1_8000 * hCtx x.entry)).frame .ctxs rfl) (hCtx x.entry)
  rw [ctx_entered, h] at hread
  unfold began ctxRead Ctx.readBy
  dsimp only
  split
  · exact ctx_updCtx_self hread _
  · exact hread

theorem segs_began : (c.began x k).segs = c.segs := began_moves.frame .segs rfl

theorem slot_began (i : Nat) : (c.began x k).slot i = c.slot i := slot_of_slots (began_moves.frame .slots rfl) i

theorem desc_began (i : Nat) : (c.began x k).desc i = c.desc i := by rw [desc, desc, show (c.began x k).dir = c.dir from began_moves.frame .dir rfl]

theorem leaving_of_slots (h : d.keep.slots = c.keep.slots) (i : Nat) : d.leaving i = c.leaving i := by
  rw [leaving, leaving, slot_of_slots h]

/-- A command on a context by its OWNER that passes its checks acts on what it read. -/
theorem ctxCmdWith_of_onCtx {record : Core → Req → List Byte} {g : Core → Req → Nat → Ctx → List Byte → Core} (h : c.onCtx x k v)
    (hk : knownOps.contains k.op = true) :
    ctxCmdWith record x k g c =
      g (c.began x k) (c.take x).2 (hCtx x.entry) (v.readBy x.dome) (if k.reads then hData x else []) := by
  obtain ⟨hv, hpass, howner, hen⟩ := h
  unfold ctxCmdWith
  have hslots : ((c.ctx? (hCtx x.entry)).map (fun v => v.keySlot)).toList = [v.keySlot] := by rw [hv]; rfl
  refine (checkedWith_of_some (acceptWith_of_passes (by rw [hslots]; exact hpass) ?_ rfl ?_ hk)).trans ?_
  · rw [hv]
    exact decide_eq_true howner
  · intro h1
    rw [hv]
    exact hen h1
  · dsimp only
    rw [show ((c.entered x k).ctxRead (hCtx x.entry) x.dome).ctx? (hCtx x.entry) = some (v.readBy x.dome) from ctx_began hv]
    rfl

end Core

/-! ## A command's outcome -/

section

variable {s : State} {x : HostCmd} {c : Core}

/-- A command that completes once it is taken. -/
theorem completes_complete (h : s.core.takes x.f x.q = true) {w : List Part} (hm : (s.core.take x).1.Moves w c) (code res : Nat)
    (hports : w.contains .ports = false := by rfl) (hcores : w.contains .cores = false := by rfl)
    (hfws : w.contains .fws = false := by rfl) : s.completes (s.after (c.complete (s.core.take x).2 code res)) (s.core.take x).2 code :=
  State.completes_of_take h hm List.prefix_rfl hports hcores hfws

/-- A command that is refused once it is taken. -/
theorem completes_refuse (h : s.core.takes x.f x.q = true) {w : List Part} (hm : (s.core.take x).1.Moves w c) (code arg : Nat)
    (hports : w.contains .ports = false := by rfl) (hcores : w.contains .cores = false := by rfl)
    (hfws : w.contains .fws = false := by rfl) : s.completes (s.after (c.refuse (s.core.take x).2 code arg)) (s.core.take x).2 code := by
  have hb := ((hm.mono (w := .ctr :: w) (List.all_eq_true.2 fun p hp => List.contains_iff_mem.2 (List.mem_cons_of_mem _ hp))).then (Core.moves_bump c (hstBase x.f.port + 0xA8) 1)
    (by simp) : (s.core.take x).1.Moves (.ctr :: w) _)
  exact State.completes_of_take h hb List.prefix_rfl
    hports hcores hfws

/-- The meaning of a command on a context whose checks passed. -/
theorem exec_of_ctxCmd {i : Instr} {k : Form} {v : Ctx} {g : Core → Req → Nat → Ctx → List Byte → Core}
    (hexec : exec i s = s.act (Core.ctxCmd x k g)) (h : s.core.onCtx x k v) (hk : knownOps.contains k.op = true := by rfl) :
    exec i s = .next (s.after (g (s.core.began x k) (s.core.take x).2 (hCtx x.entry) (v.readBy x.dome) (if k.reads then hData x else []))) :=
  hexec.trans (congrArg (fun d => Host.Outcome.next (s.after d)) (Core.ctxCmdWith_of_onCtx h hk))

/-- One that reads its data acts on it. -/
theorem exec_of_ctxData {i : Instr} {k : Form} {v : Ctx} {g : Core → Req → Nat → Ctx → List Byte → Core}
    (hexec : exec i s = s.act (Core.ctxCmd x k g)) (h : s.core.onCtx x k v) (hk : knownOps.contains k.op = true := by rfl)
    (hr : k.reads = true := by rfl) :
    exec i s = .next (s.after (g (s.core.began x k) (s.core.take x).2 (hCtx x.entry) (v.readBy x.dome) (hData x))) := by
  have hex := exec_of_ctxCmd hexec h hk
  rwa [if_pos hr] at hex

theorem after_ctx (s : State) (d : Core) (n : Nat) : (s.after d).core.ctx? n = d.ctx? n := Core.ctx_of_ctxs (s.after_ctxs d) n

theorem ctx_complete (d : Core) (r : Req) (a b n : Nat) : (d.complete r a b).ctx? n = d.ctx? n :=
  Core.ctx_of_ctxs ((d.moves_complete r a b).frame .ctxs rfl) n

theorem ctx_refuse (d : Core) (r : Req) (a b n : Nat) : (d.refuse r a b).ctx? n = d.ctx? n :=
  Core.ctx_of_ctxs ((d.moves_refuse r a b).frame .ctxs rfl) n

end

section

variable {s : State} {x : HostCmd} {k : Form} {v : Ctx}

/-- What does not look at POISONED is as it was before the read. -/
theorem readBy_same {α : Type} (f : Ctx → α) (hf : ∀ v, f { v with poisoned := true } = f v) (v : Ctx) (d : Check) : f (v.readBy d) = f v := by
  unfold Ctx.readBy
  split
  · exact hf v
  · rfl

/-- A command refused with a code leaves context `n` as it is on the die it acts on. -/
theorem refused {i : Instr} {w : List Part} {d : Core} {n code arg : Nat} {v' : Ctx} (h : s.core.takes x.f x.q = true)
    (hm : (s.core.take x).1.Moves w d) (hctx : d.ctx? n = some v') (hex : exec i s = .next (s.after (d.refuse (s.core.take x).2 code arg)))
    (hports : w.contains .ports = false := by rfl) (hcores : w.contains .cores = false := by rfl)
    (hfws : w.contains .fws = false := by rfl) :
    ∃ t, exec i s = .next t ∧ t.core.ctx? n = some v' ∧ s.completes t (s.core.take x).2 code :=
  ⟨_, hex, by rw [after_ctx, ctx_refuse, hctx], completes_refuse h hm code arg hports hcores hfws⟩

/-- A command that is carried out leaves context `n` as it is on the die it acts on, and completes. -/
theorem carried {i : Instr} {w : List Part} {d : Core} {n res : Nat} {v' : Ctx} {p : Ctx → Prop} (h : s.core.takes x.f x.q = true)
    (hm : (s.core.take x).1.Moves w d) (hctx : d.ctx? n = some v') (hex : exec i s = .next (s.after (d.complete (s.core.take x).2 0 res)))
    (hp : p v') (hports : w.contains .ports = false := by rfl) (hcores : w.contains .cores = false := by rfl)
    (hfws : w.contains .fws = false := by rfl) :
    ∃ (t : State) (v' : Ctx), exec i s = .next t ∧ t.core.ctx? n = some v' ∧ p v' ∧ s.completes t (s.core.take x).2 0 :=
  ⟨_, v', hex, by rw [after_ctx, ctx_complete, hctx], hp, completes_complete h hm 0 res hports hcores hfws⟩

/-! ## What the tables' checks look at -/

namespace Core

variable {c : Core}

theorem hostImages_began : (c.began x k).hostImages (v.readBy x.dome) = c.hostImages v := by
  rw [hostImages, hostImages, slot_began, readBy_same Ctx.keySlot (fun _ => rfl)]

theorem tableAllowed_began (kind : Nat) (d : List Byte) : (c.began x k).tableAllowed (v.readBy x.dome) kind d = c.tableAllowed v kind d := by
  rw [tableAllowed, tableAllowed, hostImages_began, readBy_same Ctx.allowed (fun _ => rfl)]

theorem inFlight_began (n : Nat) : (c.began x k).inFlight n = c.inFlight n := by rw [inFlight, inFlight, segs_began]

end Core

theorem findIdx?_not_of_all {α : Type} {p : α → Bool} {ws : List α} (h : ws.all p = true) : findIdx? (fun w => !p w) ws = none := by
  rw [findIdx?, Option.map_eq_none_iff, List.find?_eq_none]
  intro e he hp
  have hmem : e.1 ∈ ws := (List.mem_zipIdx' he).2 ▸ List.getElem_mem _
  rw [List.all_eq_true.1 h _ hmem] at hp
  exact Bool.noConfusion hp

theorem findIdx?_not_of_not_all {α : Type} {p : α → Bool} {ws : List α} (h : ws.all p = false) : ∃ y, findIdx? (fun w => !p w) ws = some y := by
  cases hf : findIdx? (fun w => !p w) ws with
  | some y => exact ⟨y, rfl⟩
  | none =>
    rw [findIdx?, Option.map_eq_none_iff, List.find?_eq_none] at hf
    rw [List.all_eq_false] at h
    obtain ⟨w, hw, hp⟩ := h
    obtain ⟨j, hj, rfl⟩ := List.getElem_of_mem hw
    exact absurd (by simpa using hp) (hf (ws[j], j) (List.mem_zipIdx_iff_getElem?.2 (by simp [hj])))

theorem exec_loadChain (hi : Instr.hostForm (.loadChain x) = some (x, k)) (h : s.core.onCtx x k v) :
    let c := s.core
    let n := hCtx x.entry
    let r := (c.take x).2
    let fails (code : Nat) : Prop :=
      ∃ t, exec (.loadChain x) s = .next t ∧ t.core.ctx? n = some (v.readBy x.dome) ∧ State.completes s t r code
    let ws := words (hData x) 0 32 32
    (c.tableAllowed v 2 (hData x) = false → fails 0x050D) ∧
    (c.tableAllowed v 2 (hData x) = true → ws.all chainWordOk = false → fails 0x0A14) ∧
    (c.tableAllowed v 2 (hData x) = true → ws.all chainWordOk = true → c.inFlight n = true → fails 0x0A15) ∧
    (c.tableAllowed v 2 (hData x) = true → ws.all chainWordOk = true → c.inFlight n = false →
      ∃ (t : State) (v' : Ctx), exec (.loadChain x) s = .next t ∧ t.core.ctx? n = some v' ∧
        v' = { v.readBy x.dome with chain := ws } ∧ State.completes s t r 0) := by
  obtain rfl := (Prod.mk.inj (Option.some.inj hi)).2
  have hex := exec_of_ctxData (i := .loadChain x) (s := s) rfl h
  have hctx := Core.ctx_began (k := ⟨0x15, 0, true, true, fun n => n = 1024, 0, true⟩) h.1
  have ht := h.2.1.1
  dsimp only at hex ⊢
  rw [Core.tableAllowed_began, Core.inFlight_began] at hex
  refine ⟨fun ha => ?_, fun ha hall => ?_, fun ha hall hfl => ?_, fun ha hall hfl => ?_⟩
  · rw [ha] at hex
    exact refused ht Core.moves_began hctx hex
  · obtain ⟨y, hy⟩ := findIdx?_not_of_not_all hall
    rw [ha, show findIdx? _ _ = some y from hy] at hex
    exact refused ht Core.moves_began hctx hex
  · rw [ha, show findIdx? _ _ = none from findIdx?_not_of_all hall, hfl] at hex
    exact refused ht Core.moves_began hctx hex
  · rw [ha, show findIdx? _ _ = none from findIdx?_not_of_all hall, hfl] at hex
    exact carried ht (Core.moves_began.mono.then (Core.moves_updCtxD _ _ _) : Core.Moves [.failN, .ctxs, .ctr, .keep] _ _)
      (Core.ctx_updCtxD hctx _).1 hex rfl

/-! ## LOAD_RULES -/

theorem findSome?_range {α : Type} {f : Nat → Option α} {n j : Nat} {y : α} (hj : j < n) (hy : f j = some y)
    (hbefore : ∀ i, i < j → f i = none) : (List.range n).findSome? f = some y := by
  rw [List.findSome?_eq_some_iff]
  obtain ⟨m, rfl⟩ := Nat.exists_eq_add_of_le hj
  refine ⟨List.range j, j, (List.range m).map (fun i => j + 1 + i), ?_, hy, fun i hi => hbefore i (List.mem_range.1 hi)⟩
  rw [List.range_add, List.range_succ, List.append_assoc]
  rfl

theorem findSome?_of_not_all {α : Type} {f : Nat → Option α} {xs : List Nat} (h : xs.all (fun j => (f j).isNone) = false) :
    ∃ y, xs.findSome? f = some y := by
  cases hf : xs.findSome? f with
  | some y => exact ⟨y, rfl⟩
  | none =>
    rw [List.findSome?_eq_none_iff] at hf
    have hall : xs.all (fun j => (f j).isNone) = true := List.all_eq_true.2 (fun j hj => by rw [hf j hj]; rfl)
    exact Bool.noConfusion (h.symm.trans hall)

/-- The first word of rule program `j` of a table that breaks R222, with the program's number. -/
def ruleError (ws : List Nat) (j : Nat) : Option (Nat × Nat) :=
  (ruleBad 0 0 0 [] ((ws.drop (32 * j)).take 32)).map (fun w => (j, w))

theorem exec_loadRules (hi : Instr.hostForm (.loadRules x) = some (x, k)) (h : s.core.onCtx x k v) :
    let c := s.core
    let n := hCtx x.entry
    let r := (c.take x).2
    let fails (code : Nat) : Prop :=
      ∃ t, exec (.loadRules x) s = .next t ∧ t.core.ctx? n = some (v.readBy x.dome) ∧ State.completes s t r code
    let ws := words (hData x) 0 4 1024
    let ok := (List.range 32).all (fun j => (ruleBad 0 0 0 [] ((ws.drop (32 * j)).take 32)).isNone)
    (c.tableAllowed v 3 (hData x) = false → fails 0x050D) ∧
    (c.tableAllowed v 3 (hData x) = true → ok = false → fails 0x0A16) ∧
    (∀ j w, c.tableAllowed v 3 (hData x) = true → ruleBad 0 0 0 [] ((ws.drop (32 * j)).take 32) = some w → j < 32 →
      (∀ j', j' < j → ruleBad 0 0 0 [] ((ws.drop (32 * j')).take 32) = none) →
      ∃ t, exec (.loadRules x) s = .next t ∧ t.core.gate.refArgs = (j, w) ∧ t.core.gate.refCode = c.gate.refCode ∧
        State.completes s t r 0x0A16) ∧
    (c.tableAllowed v 3 (hData x) = true → ok = true → c.inFlight n = true → fails 0x0A17) ∧
    (c.tableAllowed v 3 (hData x) = true → ok = true → c.inFlight n = false →
      ∃ (t : State) (v' : Ctx), exec (.loadRules x) s = .next t ∧ t.core.ctx? n = some v' ∧
        v' = { v.readBy x.dome with rules := ws } ∧ State.completes s t r 0) := by
  obtain rfl := (Prod.mk.inj (Option.some.inj hi)).2
  have hex := exec_of_ctxData (i := .loadRules x) (s := s) rfl h
  have hctx := Core.ctx_began (k := ⟨0x16, 0, true, true, fun n => n = 4096, 0, true⟩) h.1
  have ht := h.2.1.1
  dsimp only at hex ⊢
  rw [Core.tableAllowed_began, Core.inFlight_began] at hex
  have hargs : ∀ y : Nat × Nat, Core.Moves [.failN, .ctxs, .ctr, .gateRefs] (s.core.take x).1
      { s.core.began x ⟨0x16, 0, true, true, fun n => n = 4096, 0, true⟩ with
        gate := { (s.core.began x ⟨0x16, 0, true, true, fun n => n = 4096, 0, true⟩).gate with refArgs := y } } := fun y =>
    Core.moves_began.mono.then (Core.moves_gateRefs _ _ _ _ y)
  generalize words (hData x) 0 4 1024 = ws at hex ⊢
  rw [show (fun k => (ruleBad 0 0 0 [] ((ws.drop (32 * k)).take 32)).map (fun w => (k, w))) = ruleError ws from rfl] at hex
  refine ⟨fun ha => ?_, fun ha hall => ?_, fun j w ha hw hj hbefore => ?_, fun ha hall hfl => ?_, fun ha hall hfl => ?_⟩
  · rw [ha] at hex
    exact refused ht Core.moves_began hctx hex
  · obtain ⟨y, hy⟩ := findSome?_of_not_all (f := ruleError ws) (xs := List.range 32)
      (by simpa only [ruleError, Option.isNone_map] using hall)
    rw [ha, hy] at hex
    exact refused ht (hargs y) hctx hex
  · have hy : (List.range 32).findSome? (ruleError ws) = some (j, w) :=
      findSome?_range hj (by rw [ruleError, hw]; rfl) (fun i hi => by rw [ruleError, hbefore i hi]; rfl)
    rw [ha, hy] at hex
    have hpost := (Core.moves_refuse { s.core.began x ⟨0x16, 0, true, true, fun n => n = 4096, 0, true⟩ with
        gate := { (s.core.began x ⟨0x16, 0, true, true, fun n => n = 4096, 0, true⟩).gate with refArgs := (j, w) } }
        (s.core.take x).2 0x0A16 j).frame .gateRefs rfl
    have hcode : (s.core.began x ⟨0x16, 0, true, true, fun n => n = 4096, 0, true⟩).gate.refCode = s.core.gate.refCode :=
      congrArg Prod.fst (Core.began_moves.frame .gateRefs rfl)
    refine ⟨_, hex, ?_, ?_, completes_refuse ht (hargs (j, w)) _ _⟩
    · rw [State.after_gate]
      exact congrArg (fun y => y.2.2.2) hpost
    · rw [State.after_gate]
      exact (congrArg Prod.fst hpost).trans hcode
  · have hnone : (List.range 32).findSome? (ruleError ws) = none := List.findSome?_eq_none_iff.2 (fun j hj => by
      rw [ruleError, Option.map_eq_none_iff]
      exact Option.isNone_iff_eq_none.1 (List.all_eq_true.1 hall j hj))
    rw [ha, hnone, hfl] at hex
    exact refused ht Core.moves_began hctx hex
  · have hnone : (List.range 32).findSome? (ruleError ws) = none := List.findSome?_eq_none_iff.2 (fun j hj => by
      rw [ruleError, Option.map_eq_none_iff]
      exact Option.isNone_iff_eq_none.1 (List.all_eq_true.1 hall j hj))
    rw [ha, hnone, hfl] at hex
    exact carried ht (Core.moves_began.mono.then (Core.moves_updCtxD _ _ _) : Core.Moves [.failN, .ctxs, .ctr, .keep] _ _)
      (Core.ctx_updCtxD hctx _).1 hex rfl

/-! ## LOAD_GROUPS, LOAD_SCHEDULE and LOAD_RELEASE -/

theorem exec_loadGroups (hi : Instr.hostForm (.loadGroups x) = some (x, k)) (h : s.core.onCtx x k v) :
    let c := s.core
    let n := hCtx x.entry
    let r := (c.take x).2
    let fails (code : Nat) : Prop :=
      ∃ t, exec (.loadGroups x) s = .next t ∧ t.core.ctx? n = some (v.readBy x.dome) ∧ State.completes s t r code
    let gs := parseGroups (hData x) (hArg x.entry 0x20 2)
    let bad := groupsBad (if v.training then (c.desc v.adapt).pages else 0) 0 0 gs
    let held := v.stepOpen || c.segs.any (fun y => (y.st = .queued || y.st = .running || y.st = .swapped) && y.img.adapts.contains v.adapt)
    (bad ≠ none → fails 0x0A19) ∧
    (bad = none → held = true → fails 0x0A17) ∧
    (bad = none → held = false → ∃ (t : State) (v' : Ctx), exec (.loadGroups x) s = .next t ∧ t.core.ctx? n = some v' ∧
      v' = { v.readBy x.dome with groups := mergeGroups v.groups gs } ∧ State.completes s t r 0) := by
  obtain rfl := (Prod.mk.inj (Option.some.inj hi)).2
  have hex := exec_of_ctxData (i := .loadGroups x) (s := s) rfl h
  have hctx := Core.ctx_began (k := ⟨0x17, 0, true, true, fun n => n = 32 * hArg x.entry 0x20 2, argBits 0x20 2,
    decide (1 ≤ hArg x.entry 0x20 2 ∧ hArg x.entry 0x20 2 ≤ 256)⟩) h.1
  have ht := h.2.1.1
  dsimp only at hex ⊢
  rw [readBy_same Ctx.training (fun _ => rfl), readBy_same Ctx.adapt (fun _ => rfl), readBy_same Ctx.stepOpen (fun _ => rfl),
    Core.desc_began, Core.segs_began] at hex
  refine ⟨fun hbad => ?_, fun hbad hheld => ?_, fun hbad hheld => ?_⟩
  · obtain ⟨y, hy⟩ := Option.ne_none_iff_exists'.1 hbad
    rw [hy] at hex
    exact refused ht Core.moves_began hctx hex
  · rw [hbad, hheld] at hex
    exact refused ht Core.moves_began hctx hex
  · rw [hbad, hheld] at hex
    exact carried ht (Core.moves_began.mono.then (Core.moves_updCtx _ _ _) : Core.Moves [.failN, .ctxs, .ctr] _ _)
      (Core.ctx_updCtx_self hctx _) hex (by rw [readBy_same Ctx.groups (fun _ => rfl)])

/-- The commit line of a context and of the adaptation it trains change together. -/
theorem Core.ctx_updCommit {c : Core} {n : Nat} {w : Ctx} (h : c.ctx? n = some w) (f : CommitLine → CommitLine) :
    (c.updCommit n f).ctx? n = some { w with commit := f w.commit } := by
  unfold Core.updCommit
  rw [h]
  dsimp only
  split
  · exact (Core.ctx_of_ctxs ((Core.moves_updDesc _ _ _).frame .ctxs rfl) n).trans (Core.ctx_setCtx_self _ _ _)
  · exact Core.ctx_setCtx_self _ _ _

theorem exec_loadSchedule (hi : Instr.hostForm (.loadSchedule x) = some (x, k)) (h : s.core.onCtx x k v) :
    let n := hCtx x.entry
    let m := hArg x.entry 0x20 2
    let r := (s.core.take x).2
    let fails (code : Nat) : Prop :=
      ∃ t, exec (.loadSchedule x) s = .next t ∧ t.core.ctx? n = some (v.readBy x.dome) ∧ State.completes s t r code
    (schedOk (hData x) m = false → fails 0x0A18) ∧
    (schedOk (hData x) m = true → v.stepOpen = true → fails 0x0A17) ∧
    (schedOk (hData x) m = true → v.stepOpen = false →
      ∃ (t : State) (v' : Ctx), exec (.loadSchedule x) s = .next t ∧ t.core.ctx? n = some v' ∧
        (v'.sched = (List.range (fieldLE (hData x) 2 2)).map (fun i => words (hData x) (64 + 64 * i) 4 16) ∧
          v'.endMode = fieldLE (hData x) 4 1 ∧ v'.loopRow = fieldLE (hData x) 6 2 ∧ v'.commit = { v.commit with pos := m }) ∧
        State.completes s t r 0) := by
  obtain rfl := (Prod.mk.inj (Option.some.inj hi)).2
  have hex := exec_of_ctxData (i := .loadSchedule x) (s := s) rfl h
  have hctx := Core.ctx_began (k := ⟨0x18, 0, true, true, fun n => decide (1 ≤ n ∧ n ≤ 65536), argBits 0x20 2, true⟩) h.1
  have ht := h.2.1.1
  dsimp only at hex ⊢
  rw [readBy_same Ctx.stepOpen (fun _ => rfl)] at hex
  refine ⟨fun hok => ?_, fun hok hopen => ?_, fun hok hopen => ?_⟩
  · rw [hok] at hex
    exact refused ht Core.moves_began hctx hex
  · rw [hok, hopen] at hex
    exact refused ht Core.moves_began hctx hex
  · rw [hok, hopen] at hex
    exact carried ht ((Core.moves_began.mono.then (Core.moves_updCtx _ _ _)).then (Core.moves_updCommit _ _ _) :
        Core.Moves [.failN, .ctxs, .ctr, .dir] _ _) (Core.ctx_updCommit (Core.ctx_updCtx_self hctx _) _) hex
      ⟨rfl, rfl, rfl, by dsimp only; rw [readBy_same Ctx.commit (fun _ => rfl)]⟩

theorem exec_loadRelease (hi : Instr.hostForm (.loadRelease x) = some (x, k)) (h : s.core.onCtx x k v) :
    let c := s.core
    let n := hCtx x.entry
    let r := (c.take x).2
    let ws := words (hData x) 0 8 (hArg x.entry 0x20 2)
    (progBad ws ≠ none → ∃ t, exec (.loadRelease x) s = .next t ∧ t.core.blf = { c.blf with refCode := 0x030A, refCtx := n } ∧
      t.core.ctx? n = some (v.readBy x.dome) ∧ State.completes s t r 0x030A) ∧
    (progBad ws = none → ∃ (t : State) (v' : Ctx), exec (.loadRelease x) s = .next t ∧ t.core.ctx? n = some v' ∧
      (v'.prog = ws ∧ v'.running = none ∧ v'.starts = v.enable) ∧ State.completes s t r 0) := by
  obtain rfl := (Prod.mk.inj (Option.some.inj hi)).2
  have hex := exec_of_ctxData (i := .loadRelease x) (s := s) rfl h
  have hctx := Core.ctx_began (k := ⟨0x1A, 0, true, true, fun n => n = 8 * hArg x.entry 0x20 2, argBits 0x20 2,
    decide (1 ≤ hArg x.entry 0x20 2 ∧ hArg x.entry 0x20 2 ≤ 64)⟩) h.1
  have ht := h.2.1.1
  have hblf : (s.core.began x ⟨0x1A, 0, true, true, fun n => n = 8 * hArg x.entry 0x20 2, argBits 0x20 2,
    decide (1 ≤ hArg x.entry 0x20 2 ∧ hArg x.entry 0x20 2 ≤ 64)⟩).blf = s.core.blf := Core.began_moves.frame .blf rfl
  dsimp only at hex ⊢
  refine ⟨fun hbad => ?_, fun hbad => ?_⟩
  · obtain ⟨y, hy⟩ := Option.ne_none_iff_exists'.1 hbad
    rw [hy] at hex
    dsimp only at hex
    refine ⟨_, hex, ?_, ?_, completes_refuse ht (Core.moves_began.mono.then (Core.moves_blf _ _) : Core.Moves [.failN, .ctxs, .ctr, .blf] _ _) _ _⟩
    · rw [State.after_blf, ← hblf]
      exact (Core.moves_refuse _ _ _ _).frame .blf rfl
    · rw [after_ctx, ctx_refuse]
      exact hctx
  · rw [hbad] at hex
    have hend : ((s.core.began x ⟨0x1A, 0, true, true, fun n => n = 8 * hArg x.entry 0x20 2, argBits 0x20 2,
        decide (1 ≤ hArg x.entry 0x20 2 ∧ hArg x.entry 0x20 2 ≤ 64)⟩).endProg (hCtx x.entry)).ctx? (hCtx x.entry) =
        some { v.readBy x.dome with running := none, starts := false } :=
      (Core.ctx_of_ctxs ((Core.moves_withoutReservations _ _).frame .ctxs rfl) _).trans (Core.ctx_updCtx_self hctx _)
    exact carried ht ((Core.moves_began.mono.then (Core.moves_endProg _ _)).then (Core.moves_updCtx _ _ _) :
        Core.Moves [.failN, .ctxs, .ctr, .pow] _ _) (Core.ctx_updCtx_self hend _) hex ⟨rfl, rfl, readBy_same Ctx.enable (fun _ => rfl) v x.dome⟩

end

/-- Settles O45: each table's checks in turn, and the table a load leaves. -/
theorem tablesLoaded : Obligations.TablesLoaded := fun _ _ _ _ =>
  ⟨exec_loadChain, exec_loadRules, exec_loadGroups, exec_loadSchedule, exec_loadRelease⟩

end Sys2Proof.Machine

/-! # The commands on contexts -/

namespace Sys2Proof.Machine

set_option Elab.async false

/-- Erasing a key of a map in its order hides that key alone. -/
theorem SMap.find_erase {α : Type} (m : SMap α) (k j : Nat) (h : m.rising = true) :
    ((SMap.erase m k).find? (fun e => decide (e.1 = j))).map (fun e => e.2) =
      if j = k then none else (m.find? (fun e => decide (e.1 = j))).map (fun e => e.2) := by
  induction m with
  | nil => simp [SMap.erase]
  | cons e m ih =>
    obtain ⟨i, w⟩ := e
    obtain ⟨habove, hm⟩ := SMap.rising_cons.1 h
    have hnone : ∀ q, q ≤ i → m.find? (fun e => decide (e.1 = q)) = none := fun q hq => List.find?_eq_none.2 (fun e he => by
      have := habove e he
      simp only [decide_eq_true_eq]
      omega)
    have ih := ih hm
    have hi := hnone i (Nat.le_refl i)
    simp only [SMap.erase]
    split
    · next hik => subst hik; simp only [List.find?]; grind
    · split
      · next hki => have hk := hnone k (Nat.le_of_lt hki); simp only [List.find?]; grind
      · simp only [List.find?]; grind

namespace Core

variable {c d : Core} {x : HostCmd} {k : Form} {v : Ctx} {n : Nat}

theorem ctx_setCtx_any (c : Core) (n : Nat) (w : Ctx) (j : Nat) : (c.setCtx n w).ctx? j = if j = n then some w else c.ctx? j :=
  SMap.find_insert c.ctxs n j w

theorem ctx_updCtx_of_ne {j : Nat} (hj : j ≠ n) (f : Ctx → Ctx) : (c.updCtx n f).ctx? j = c.ctx? j := by
  unfold updCtx
  split
  · rw [ctx_setCtx_any, if_neg hj]
  · rfl

theorem updCtx_rising (h : c.ctxs.rising = true) (f : Ctx → Ctx) : (c.updCtx n f).ctxs.rising = true := by
  unfold updCtx
  split
  · exact SMap.rising_insert _ _ h
  · exact h

theorem ctx_began_of_ne {j : Nat} (hj : j ≠ hCtx x.entry) : (c.began x k).ctx? j = c.ctx? j := by
  have hread := ctx_of_ctxs (((c.entered x k).moves_domeCheck x.dome (0x20_0000 + 0x1_8000 * hCtx x.entry)).frame .ctxs rfl) j
  unfold began ctxRead
  dsimp only
  split
  · rw [ctx_updCtx_of_ne hj, hread, ctx_entered]
  · rw [hread, ctx_entered]

theorem ctx_began_none (h : c.ctx? (hCtx x.entry) = none) : (c.began x k).ctx? (hCtx x.entry) = none := by
  have hread := ctx_of_ctxs (((c.entered x k).moves_domeCheck x.dome (0x20_0000 + 0x1_8000 * hCtx x.entry)).frame .ctxs rfl) (hCtx x.entry)
  rw [ctx_entered, h] at hread
  unfold began ctxRead
  dsimp only
  split
  · rw [updCtx, hread]
    exact hread
  · exact hread

theorem began_rising (h : c.ctxs.rising = true) : (c.began x k).ctxs.rising = true := by
  have hread : ((c.entered x k).domeCheck x.dome (0x20_0000 + 0x1_8000 * hCtx x.entry)).ctxs = c.ctxs :=
    ((((c.moves_take x).mono.then (moves_entered (k := k))).then (moves_domeCheck _ _ _) : c.Moves [.ctr, .ports, .posts, .failN] _).frame .ctxs rfl)
  unfold began ctxRead
  dsimp only
  split
  · exact updCtx_rising (hread ▸ h) _
  · rw [hread]
    exact h

end Core

section

variable {s : State} {x : HostCmd} {k : Form} {v : Ctx}

/-! ## CONTEXT_CREATE -/

/-- The form of CONTEXT_CREATE (R345). -/
def createForm : Form := ⟨0x10, 0, true, true, fun n => n = 128, 0, true⟩

/-- What CONTEXT_CREATE writes: a fresh context of the descriptor it brings. -/
def Core.created (c : Core) (n : Nat) (v : Ctx) : Core := (c.setCtx n v).note 7 n 0 ((c.setCtx n v).ctxDigest n v)

theorem Core.moves_created (c : Core) (n : Nat) (v : Ctx) : c.Moves [.ctxs, .keep] (c.created n v) :=
  (moves_setCtx c n v).mono.then (moves_note _ _ _ _ _)

theorem Core.ctx_created (c : Core) (n : Nat) (v : Ctx) (j : Nat) : (c.created n v).ctx? j = if j = n then some v else c.ctx? j :=
  (ctx_of_ctxs ((moves_note _ _ _ _ _).frame .ctxs rfl) j).trans (ctx_setCtx_any c n v j)

/-- CONTEXT_CREATE once its checks passed. -/
theorem exec_create_passed (h : s.core.passes x createForm []) (hnone : s.core.ctx? (hCtx x.entry) = none) :
    let c := s.core.began x createForm
    let r := (s.core.take x).2
    let v := Ctx.fresh (rawCtx (hData x))
    exec (.contextCreate x) s = .next (s.after
      (if c.leaving v.keySlot then c.refuse r 0x0504 0
      else if v.owner ≠ x.f ∨ bit (fieldLE (hData x) 0 2) 0 then c.refuse r 0x0A04 0
      else (c.created (hCtx x.entry) v).complete r 0 0)) := by
  refine (show exec (.contextCreate x) s = .next (s.after (Core.createCtx x s.core)) from rfl).trans
    (congrArg (fun d => Host.Outcome.next (s.after d)) ?_)
  unfold Core.createCtx
  exact Core.checkedWith_of_some (Core.acceptWith_of_passes h (by rw [hnone]; rfl) rfl (fun h1 => by cases h1) rfl)

/-- CONTEXT_CREATE of a number already held. -/
theorem exec_create_held (h : s.core.passes x createForm []) (hsome : (s.core.ctx? (hCtx x.entry)).isSome = true) :
    exec (.contextCreate x) s = .next (s.after (s.core.refusesWith (fun _ _ => []) x 0x0A02)) := by
  have hcode : s.core.checkCode x createForm none [] false = 0x0A02 := Core.checkCode_owner h.2.2.1 rfl
  have hown : hOwned x createForm s.core = false := by
    rw [hOwned, if_pos (show createForm.op = 0x10 from rfl), Option.isNone_eq_false_iff]
    exact hsome
  have hstop : s.core.Stopped (s.core.refusesWith (fun _ _ => []) x 0x0A02) (fun _ _ => []) x createForm s.trim := by
    rw [Core.Stopped, Core.acceptWith_of_taken h.1 h.2.1 rfl, hown, hAdmin_none s.trim (by decide),
      show hSlots x createForm s.core = [] from rfl, hcode, if_pos (by decide)]
  refine (show exec (.contextCreate x) s = .next (s.after (Core.createCtx x s.core)) from rfl).trans
    (congrArg (fun d => Host.Outcome.next (s.after d)) ?_)
  unfold Core.createCtx
  exact Core.checkedWith_of_none hstop

theorem exec_contextCreate (hi : Instr.hostForm (.contextCreate x) = some (x, k)) (h : s.core.passes x k []) :
    let c := s.core
    let n := hCtx x.entry
    let r := (c.take x).2
    let v := Ctx.fresh (rawCtx (hData x))
    let fails (code : Nat) : Prop :=
      ∃ t, exec (.contextCreate x) s = .next t ∧ t.core.ctx? n = c.ctx? n ∧ State.completes s t r code
    ((c.ctx? n).isSome = true → fails 0x0A02) ∧
    (c.ctx? n = none → c.leaving v.keySlot = true → fails 0x0504) ∧
    (c.leaving v.keySlot = false → c.ctx? n = none → (v.owner ≠ x.f ∨ bit (fieldLE (hData x) 0 2) 0 = true) → fails 0x0A04) ∧
    (c.leaving v.keySlot = false → c.ctx? n = none → v.owner = x.f → bit (fieldLE (hData x) 0 2) 0 = false →
      ∃ t, exec (.contextCreate x) s = .next t ∧ t.core.ctx? n = some v ∧ (∀ j, j ≠ n → t.core.ctx? j = c.ctx? j) ∧
        State.completes s t r 0) := by
  obtain rfl : createForm = k := (Prod.mk.inj (Option.some.inj hi)).2
  have ht := h.1
  have hleaving : ∀ i, (s.core.began x createForm).leaving i = s.core.leaving i :=
    Core.leaving_of_slots (Core.began_moves.frame .slots rfl)
  have hfails : ∀ {code : Nat}, s.core.ctx? (hCtx x.entry) = none →
      exec (.contextCreate x) s = .next (s.after ((s.core.began x createForm).refuse (s.core.take x).2 code 0)) →
      ∃ t, exec (.contextCreate x) s = .next t ∧ t.core.ctx? (hCtx x.entry) = s.core.ctx? (hCtx x.entry) ∧ s.completes t (s.core.take x).2 code :=
    fun hnone hex => ⟨_, hex, by rw [after_ctx, ctx_refuse, Core.ctx_began_none hnone, hnone], completes_refuse ht Core.moves_began _ _⟩
  dsimp only
  refine ⟨fun hsome => ?_, fun hnone hl => ?_, fun hl hnone hbad => ?_, fun hl hnone howner hbit => ?_⟩
  · refine ⟨_, exec_create_held h hsome, ?_, State.completes_of_take ht (Core.moves_bump _ (hstBase x.f.port + 0xA8) 1) List.prefix_rfl⟩
    rw [after_ctx]
    exact Core.ctx_of_ctxs (((s.core.moves_take x).trans (Core.moves_refuseWith _ _ _ _)).frame .ctxs rfl) _
  · have hex := exec_create_passed h hnone
    dsimp only at hex
    rw [hleaving, hl, if_pos rfl] at hex
    exact hfails hnone hex
  · have hex := exec_create_passed h hnone
    dsimp only at hex
    rw [hleaving, hl, if_neg Bool.false_ne_true, if_pos hbad] at hex
    exact hfails hnone hex
  · have hex := exec_create_passed h hnone
    dsimp only at hex
    rw [hleaving, hl, if_neg Bool.false_ne_true, if_neg (by simp [howner, hbit])] at hex
    refine ⟨_, hex, by rw [after_ctx, ctx_complete, Core.ctx_created, if_pos rfl], fun j hj => ?_,
      completes_complete ht (Core.moves_began.mono.then (Core.moves_created _ _ _) : Core.Moves [.failN, .ctxs, .ctr, .keep] _ _) 0 0⟩
    rw [after_ctx, ctx_complete, Core.ctx_created, if_neg hj, Core.ctx_began_of_ne hj]

/-! ## CONTEXT_WRITE, CONTEXT_DELETE, CONTEXT_READ and ADVANCE_STEP -/

/-- What CONTEXT_WRITE makes of context `n`, `v` so far, whose descriptor is to be that of `w` (R208, log 32). -/
def Core.written (c : Core) (n : Nat) (v w : Ctx) : Core :=
  let moved := w.training != v.training || w.adapt != v.adapt
  let c := if v.training && moved then c.dropTraining n v.adapt else c
  c.updCtxD n (fun _ => if moved then { w with groups := [] } else w)

theorem Core.moves_written (c : Core) (n : Nat) (v w : Ctx) : c.Moves [.dir, .ctxs, .keep] (c.written n v w) :=
  (Moves.ite (moves_dropTraining c n v.adapt).mono (.refl c)).then (moves_updCtxD _ _ _)

theorem Core.ctx_written {c : Core} {n : Nat} {v v0 w : Ctx} (h : c.ctx? n = some v0) :
    (c.written n v w).ctx? n = some (if w.training = v.training ∧ w.adapt = v.adapt then w else { w with groups := [] }) := by
  have hdrop : ∀ b : Bool, (if b then c.dropTraining n v.adapt else c).ctx? n = some v0 := fun b =>
    (ctx_of_ctxs ((Moves.ite (moves_dropTraining c n v.adapt) (.refl c)).frame .ctxs rfl) n).trans h
  unfold written
  dsimp only
  rw [(ctx_updCtxD (hdrop _) _).1]
  by_cases ht : w.training = v.training ∧ w.adapt = v.adapt
  · rw [if_pos ht, ht.1, ht.2]
    simp
  · rw [if_neg ht, if_pos]
    by_cases ht1 : w.training = v.training
    · simp [show w.adapt ≠ v.adapt from fun hc => ht ⟨ht1, hc⟩]
    · simp [ht1]

/-- The form of CONTEXT_WRITE (R345). -/
def writeForm : Form := ⟨0x11, 0, true, true, fun n => n = 128, 0, true⟩

theorem exec_contextWrite (hi : Instr.hostForm (.contextWrite x) = some (x, k)) (h : s.core.onCtx x k v) :
    let c := s.core
    let n := hCtx x.entry
    let r := (c.take x).2
    let fails (code : Nat) : Prop := ∃ t, exec (.contextWrite x) s = .next t ∧ State.completes s t r code
    let w := { v.readBy x.dome with raw := rawCtx (hData x) }
    (v.enable = true → fails 0x0A0C) ∧
    (v.enable = false → c.leaving w.keySlot = true → fails 0x0504) ∧
    (v.enable = false → c.leaving w.keySlot = false → ∃ t, exec (.contextWrite x) s = .next t ∧
      t.core.ctx? n = some (if w.training = v.training ∧ w.adapt = v.adapt then w else { w with groups := [] }) ∧
      State.completes s t r 0) := by
  obtain rfl : writeForm = k := (Prod.mk.inj (Option.some.inj hi)).2
  have ht := h.2.1.1
  have hctx := Core.ctx_began (k := writeForm) h.1
  have hleaving : ∀ i, (s.core.began x writeForm).leaving i = s.core.leaving i :=
    Core.leaving_of_slots (Core.began_moves.frame .slots rfl)
  intro c n r fails w
  have hstep : Core.writeCtx x s.core =
      (if (v.readBy x.dome).enable then (s.core.began x writeForm).refuse r 0x0A0C 0
      else if (s.core.began x writeForm).leaving w.keySlot then (s.core.began x writeForm).refuse r 0x0504 0
      else ((s.core.began x writeForm).written n (v.readBy x.dome) w).complete r 0 0) := by
    unfold Core.writeCtx
    exact Core.ctxCmdWith_of_onCtx h rfl
  have hex : exec (.contextWrite x) s = .next (s.after _) :=
    (show exec (.contextWrite x) s = .next (s.after (Core.writeCtx x s.core)) from rfl).trans (congrArg (fun d => Host.Outcome.next (s.after d)) hstep)
  rw [readBy_same Ctx.enable (fun _ => rfl), hleaving] at hex
  refine ⟨fun hen => ?_, fun hen hl => ?_, fun hen hl => ?_⟩
  · rw [hen, if_pos rfl] at hex
    exact ⟨_, hex, completes_refuse ht Core.moves_began _ _⟩
  · rw [hen, if_neg Bool.false_ne_true, if_pos hl] at hex
    exact ⟨_, hex, completes_refuse ht Core.moves_began _ _⟩
  · rw [hen, if_neg Bool.false_ne_true, if_neg (by rw [hl]; exact Bool.false_ne_true)] at hex
    refine ⟨_, hex, ?_, completes_complete ht (Core.moves_began.mono.then (Core.moves_written _ _ _ _) : Core.Moves [.failN, .ctxs, .ctr, .dir, .keep] _ _) 0 0⟩
    rw [after_ctx, ctx_complete, Core.ctx_written hctx, readBy_same Ctx.training (fun _ => rfl), readBy_same Ctx.adapt (fun _ => rfl)]

/-- A context deleted is gone, and no other (R251). -/
theorem Core.ctx_deleteCtx {c : Core} {n : Nat} {w : Ctx} (hr : c.ctxs.rising = true) (h : c.ctx? n = some w) (j : Nat) :
    (c.deleteCtx n).ctx? j = if j = n then none else c.ctx? j := by
  have hfree : ∀ d : Core, d.ctxs = c.ctxs → (d.freeTransient n).ctxs.rising = true ∧ (j ≠ n → (d.freeTransient n).ctx? j = c.ctx? j) := by
    intro d hd
    unfold freeTransient
    split
    · exact ⟨hd ▸ hr, fun _ => ctx_of_ctxs hd j⟩
    · exact ⟨updCtx_rising (hd ▸ hr) _, fun hj => (ctx_updCtx_of_ne hj _).trans (ctx_of_ctxs hd j)⟩
  obtain ⟨hrise, hother⟩ := hfree (if w.training then c.dropTraining n w.adapt else c)
    ((Moves.ite (moves_dropTraining c n w.adapt) (.refl c)).frame .ctxs rfl)
  unfold deleteCtx
  rw [h]
  refine (SMap.find_erase _ n j hrise).trans ?_
  split
  · rfl
  · next hj => exact hother hj

theorem exec_contextDelete (hi : Instr.hostForm (.contextDelete x) = some (x, k)) (h : s.core.onCtx x k v) :
    let c := s.core
    let n := hCtx x.entry
    let r := (c.take x).2
    (v.enable = true → ∃ t, exec (.contextDelete x) s = .next t ∧ State.completes s t r 0x0A0C) ∧
    (v.enable = false → c.ctxs.rising = true → ∃ t, exec (.contextDelete x) s = .next t ∧ t.core.ctx? n = none ∧
      (∀ j, j ≠ n → t.core.ctx? j = c.ctx? j) ∧ State.completes s t r 0) := by
  obtain rfl := (Prod.mk.inj (Option.some.inj hi)).2
  have ht := h.2.1.1
  have hctx := Core.ctx_began (k := ⟨0x13, 0, true, false, fun n => n = 0, 0, true⟩) h.1
  have hex := exec_of_ctxCmd (i := .contextDelete x) (s := s) rfl h
  dsimp only at hex ⊢
  rw [readBy_same Ctx.enable (fun _ => rfl)] at hex
  refine ⟨fun hen => ?_, fun hen hr => ?_⟩
  · rw [hen, if_pos rfl] at hex
    exact ⟨_, hex, completes_refuse ht Core.moves_began _ _⟩
  · rw [hen, if_neg Bool.false_ne_true] at hex
    have hgone := Core.ctx_deleteCtx (Core.began_rising (x := x) (k := ⟨0x13, 0, true, false, fun n => n = 0, 0, true⟩) hr) hctx
    refine ⟨_, hex, by rw [after_ctx, ctx_complete, hgone, if_pos rfl], fun j hj => ?_,
      completes_complete ht (Core.moves_began.mono.then (Core.moves_deleteCtx _ _) : Core.Moves [.failN, .ctxs, .ctr, .dir, .runs] _ _) 0 0⟩
    rw [after_ctx, ctx_complete, hgone, if_neg hj, Core.ctx_began_of_ne hj]

theorem Core.domeCheck_dma (c : Core) (d : Check) (off : Nat) : (c.domeCheck d off).out.dma = c.out.dma := by
  have hfail : ∀ (e : Core) (n : Nat), (e.failN n).out.dma = e.out.dma := by
    intro e n
    unfold failN
    split <;> rfl
  cases d with
  | clean => rfl
  | single => rfl
  | uncorrectable => exact hfail _ _

theorem Core.entered_out (c : Core) (x : HostCmd) (k : Form) : (c.entered x k).out = c.out := by
  have htake : (c.take x).1.out = c.out := by
    simp only [take, bump_out, setPair_out]
  unfold entered
  split
  · rw [bump_out, htake]
  · exact htake

/-- The taking of a command and the read of its context write nothing to host memory. -/
theorem Core.began_dma (c : Core) (x : HostCmd) (k : Form) : (c.began x k).out.dma = c.out.dma := by
  have hread := (c.entered x k).domeCheck_dma x.dome (0x20_0000 + 0x1_8000 * hCtx x.entry)
  rw [entered_out] at hread
  unfold began ctxRead
  dsimp only
  split
  · rw [updCtx_out, hread]
  · exact hread

/-- The form of CONTEXT_READ (R345). -/
def readForm : Form := ⟨0x14, 0, true, false, fun n => n = 256, 0, true⟩

/-- What a context reads as does not depend on its POISONED bit. -/
theorem Core.contextBytes_began (c : Core) (x : HostCmd) (k : Form) (n : Nat) (v : Ctx) :
    (c.began x k).ctxBytes n (v.readBy x.dome) ++ (c.began x k).stepBlock (v.readBy x.dome) = c.ctxBytes n v ++ c.stepBlock v := by
  unfold ctxBytes stepBlock settling
  rw [segs_began, readBy_same Ctx.raw (fun _ => rfl), readBy_same Ctx.enable (fun _ => rfl), readBy_same Ctx.commit (fun _ => rfl),
    readBy_same Ctx.record (fun _ => rfl)]

theorem exec_contextRead (hi : Instr.hostForm (.contextRead x) = some (x, k)) (h : s.core.onCtx x k v) :
    let c := s.core
    let n := hCtx x.entry
    let r := (c.take x).2
    ∃ (t : State) (more : List DmaWrite), exec (.contextRead x) s = .next t ∧
      t.core.out.dma = c.out.dma ++ ⟨x.f, hAddr x.entry, c.ctxBytes n v ++ c.stepBlock v⟩ :: more ∧ State.completes s t r 0 := by
  obtain rfl : readForm = k := (Prod.mk.inj (Option.some.inj hi)).2
  have ht := h.2.1.1
  have hex := exec_of_ctxCmd (i := .contextRead x) (s := s) rfl h
  dsimp only at hex ⊢
  rw [Core.contextBytes_began, show (⟨0x14, 0, true, false, fun n => decide (n = 256), 0, true⟩ : Form) = readForm from rfl] at hex
  generalize s.core.ctxBytes (hCtx x.entry) v ++ s.core.stepBlock v = bs at hex ⊢
  have htdi : ((s.core.began x readForm).fn x.f).tdi ≠ .error := ((Core.answersAt_take ht).of_moves Core.moves_began).1.2.2.2
  obtain ⟨more, hmore⟩ := (((s.core.began x readForm).dma x.f (hAddr x.entry) bs).moves_complete (s.core.take x).2 0 0).dma
  refine ⟨_, more, hex, ?_, completes_complete ht (Core.moves_began.mono.then (Core.moves_dma _ _ _ _) : Core.Moves [.failN, .ctxs, .ctr] _ _) 0 0⟩
  rw [State.after_dma, ← hmore, Core.dma_dma _ _ _ _ htdi, Core.began_dma, List.append_assoc]
  rfl

theorem exec_advanceStep (hi : Instr.hostForm (.advanceStep x) = some (x, k)) (h : s.core.onCtx x k v) :
    let n := hCtx x.entry
    let r := (s.core.take x).2
    let fails (code : Nat) : Prop := ∃ t, exec (.advanceStep x) s = .next t ∧ State.completes s t r code
    (v.stepOpen = true → fails 0x0A17) ∧
    (v.stepOpen = false → v.commit.step = 2 ^ 32 - 1 → fails 0x0A1B) ∧
    (v.stepOpen = false → v.commit.step ≠ 2 ^ 32 - 1 → ∃ (t : State) (v' : Ctx), exec (.advanceStep x) s = .next t ∧
      t.core.ctx? n = some v' ∧ v'.commit = { v.commit with step := v.commit.step + 1 } ∧ State.completes s t r 0) := by
  obtain rfl := (Prod.mk.inj (Option.some.inj hi)).2
  have ht := h.2.1.1
  have hctx := Core.ctx_began (k := ⟨0x19, 0, true, false, fun n => n = 0, 0, true⟩) h.1
  have hex := exec_of_ctxCmd (i := .advanceStep x) (s := s) rfl h
  dsimp only at hex ⊢
  rw [readBy_same Ctx.stepOpen (fun _ => rfl), readBy_same Ctx.commit (fun _ => rfl)] at hex
  refine ⟨fun hopen => ?_, fun hopen hlast => ?_, fun hopen hlast => ?_⟩
  · rw [hopen, if_pos rfl] at hex
    exact ⟨_, hex, completes_refuse ht Core.moves_began _ _⟩
  · rw [hopen, if_neg Bool.false_ne_true, if_pos hlast] at hex
    exact ⟨_, hex, completes_refuse ht Core.moves_began _ _⟩
  · rw [hopen, if_neg Bool.false_ne_true, if_neg hlast] at hex
    exact carried ht (Core.moves_began.mono.then (Core.moves_updCommit _ _ _) : Core.Moves [.failN, .ctxs, .ctr, .dir] _ _)
      (Core.ctx_updCommit hctx _) hex (by dsimp only; rw [readBy_same Ctx.commit (fun _ => rfl)])

/-! ## CONTEXT_ENABLE with ENABLE set -/

theorem Core.withdraw_of_none {c : Core} (tr : Trim) {p : Seg → Bool} (h : ∀ y ∈ c.segs, p y = false) (code : Nat) :
    c.withdraw tr p code = c := by
  refine List.foldl_fixed' (fun s0 => ?_) _
  split
  · next y hy =>
    rw [h y (List.mem_of_find?_eq_some hy)]
    rfl
  · rfl

theorem Core.ctx_allocTransient {c : Core} {n : Nat} {w : Ctx} (h : c.ctx? n = some w) :
    (c.allocTransient n).ctx? n = some { w with transient := true } := by
  unfold allocTransient
  rw [h]
  dsimp only
  split
  · next ht => rw [h, ← ht]
  · exact ctx_setCtx_self _ _ _

theorem Core.desc_setDesc_of_claim (c : Core) (i : Nat) {d : Desc} (hd : d ≠ .free) : (c.setDesc i d).desc i = d := by
  show SMap.get _ (SMap.set _ _ _ _) _ = d
  rw [SMap.set, if_neg hd, SMap.get_insert, if_pos rfl]

/-- What the enabling of a context does, where no image waits to be placed (R205, R207, R248, R60). -/
theorem Core.enableCtx_spec {c : Core} (tr : Trim) {n : Nat} {v : Ctx} (hn : n < 256)
    (hwait : ∀ y ∈ c.segs, y.st ≠ .waiting) :
    c.Moves [.dir, .ctxs, .runs, .pool] (c.enableCtx tr n v) ∧ (v.training = true → ((c.enableCtx tr n v).desc v.adapt).trainCtx = n) ∧
    ∃ v', (c.enableCtx tr n v).ctx? n = some v' ∧ v'.enable = true ∧ v'.raw = v.raw ∧ v'.transient = true ∧
      v'.running = (if v.prog = [] then none else some ⟨0, c.cp, [], none⟩) := by
  unfold enableCtx
  extract_lets d w1 c1 w2 c2
  have hw2 : w2.prog = v.prog ∧ w2.raw = v.raw := by
    have hw1 : w1.prog = v.prog ∧ w1.raw = v.raw := by
      unfold w1
      split <;> exact ⟨rfl, rfl⟩
    unfold w2
    split
    · exact hw1
    · exact hw1
  have hm1 : c.Moves [.dir] c1 := .ite (c.moves_updDesc _ _) (.refl c)
  have hm2 : c.Moves [.dir, .ctxs, .runs, .pool] (((c1.setCtx n { w2 with enable := true }).allocTransient n).allocUnits (.ctx n) v.units) :=
    ((hm1.mono.then (moves_setCtx _ _ _)).then (moves_allocTransient _ _)).then (moves_allocUnits _ _ _)
  have hsame : c2 = ((c1.setCtx n { w2 with enable := true }).allocTransient n).allocUnits (.ctx n) v.units := by
    refine withdraw_of_none tr (fun y hy => ?_) _
    rw [show (((c1.setCtx n { w2 with enable := true }).allocTransient n).allocUnits (.ctx n) v.units).segs = c.segs from hm2.frame .segs rfl] at hy
    simp [hwait y hy]
  rw [← hsame] at hm2
  have hctx : c2.ctx? n = some { w2 with enable := true, transient := true } := by
    rw [hsame]
    exact (ctx_of_ctxs ((moves_allocUnits _ _ _).frame .ctxs rfl) n).trans (ctx_allocTransient (ctx_setCtx_self _ _ _))
  have hdesc : v.training = true → (c2.desc v.adapt).trainCtx = n := fun ht => by
    have hdir : c2.dir = c1.dir := by
      rw [hsame]
      exact (((c1.moves_setCtx _ _).mono.then (moves_allocTransient _ _)).then (moves_allocUnits _ _ _) :
        c1.Moves [.ctxs, .runs, .pool] _).frame .dir rfl
    have hne : ({ c.desc v.adapt with trainCtx := n } : Desc) ≠ .free := fun heq => by
      have hfree : n = 0xFFFF := congrArg Desc.trainCtx heq
      omega
    rw [desc, hdir, show c1 = c.updDesc v.adapt (fun d => { d with trainCtx := n }) from if_pos ht]
    exact congrArg Desc.trainCtx (desc_setDesc_of_claim c v.adapt hne)
  have hcp : c2.cp = c.cp := by
    rw [cp, cp, show c2.blf = c.blf from hm2.frame .blf rfl]
  refine ⟨hm2.then (moves_startProg _ _), fun ht => ?_, _, ctx_updCtx_self hctx _, rfl, hw2.2, rfl, ?_⟩
  · rw [desc, show (c2.startProg n).dir = c2.dir from (moves_startProg _ _).frame .dir rfl]
    exact hdesc ht
  · dsimp only
    rw [hw2.1, hcp]

theorem hCtx_lt_of_formed {k : Form} (hctx : k.ctx = true) (h : malformed x.entry k = false) : hCtx x.entry < 256 := by
  simp only [malformed, hctx, Bool.not_eq_false', Bool.and_eq_true, if_pos, decide_eq_true_eq] at h
  exact h.1.1.2

/-- GTH_REFUSAL shows a refused CONTEXT_ENABLE (R269). -/
def Core.showRefusal (c : Core) (code n : Nat) (f : FnId) : Core :=
  { c with gate := { c.gate with refCode := code, refCtx := n, refFn := f } }

theorem Core.moves_showRefusal (c : Core) (code n : Nat) (f : FnId) : c.Moves [.gateRefs] (c.showRefusal code n f) :=
  c.moves_gateRefs code n f c.gate.refArgs

theorem exec_contextEnable (hi : Instr.hostForm (.contextEnable x) = some (x, k)) (h : s.core.onCtx x k v) :
    let c := s.core
    let n := hCtx x.entry
    let r := (c.take x).2
    let c1 := (c.entered x k).ctxRead n x.dome
    (v.enable = true → ∃ t, exec (.contextEnable x) s = .next t ∧ State.completes s t r 0) ∧
    (∀ code, v.enable = false → c1.enableCode n (v.readBy x.dome) = code → code ≠ 0 → ∃ t, exec (.contextEnable x) s = .next t ∧
      t.core.gate.refCode = code ∧ t.core.gate.refCtx = n ∧ t.core.gate.refFn = x.f ∧ t.core.ctxs = c1.ctxs ∧
      State.completes s t r code) ∧
    (v.enable = false → c1.enableCode n (v.readBy x.dome) = 0 → (∀ y ∈ c.segs, y.st ≠ .waiting) →
      ∃ (t : State) (v' : Ctx), exec (.contextEnable x) s = .next t ∧ t.core.ctx? n = some v' ∧ v'.enable = true ∧
        v'.raw = v.raw ∧ v'.transient = true ∧ v'.running = (if v.prog = [] then none else some ⟨0, c.cp, [], none⟩) ∧
        (v.training = true → (t.core.desc v.adapt).trainCtx = n) ∧ State.completes s t r 0) := by
  have hbit : bit (hArg x.entry 0x20 1) 0 = true := by
    by_contra hb
    rw [Instr.hostForm, if_neg hb] at hi
    cases hi
  rw [Instr.hostForm, if_pos hbit] at hi
  obtain rfl := (Prod.mk.inj (Option.some.inj hi)).2
  have ht := h.2.1.1
  have hctx := Core.ctx_began (k := ⟨0x12, 0, true, false, fun n => n = 0, 1, true⟩) h.1
  have hn := hCtx_lt_of_formed rfl h.2.1.2.2.1
  have hex : exec (.contextEnable x) s = .next (s.after (Core.ctxEnable s.trim x s.core)) := rfl
  unfold Core.ctxEnable Core.ctxCmd at hex
  rw [hbit, if_neg (by decide), Core.ctxCmdWith_of_onCtx h rfl] at hex
  dsimp only at hex ⊢
  rw [readBy_same Ctx.enable (fun _ => rfl)] at hex
  rw [show ((s.core.entered x ⟨0x12, 0, true, false, fun n => decide (n = 0), 1, true⟩).ctxRead (hCtx x.entry) x.dome) =
    s.core.began x ⟨0x12, 0, true, false, fun n => decide (n = 0), 1, true⟩ from rfl]
  refine ⟨fun hen => ?_, fun code hen hcode h0 => ?_, fun hen hcode hwait => ?_⟩
  · rw [hen, if_pos rfl] at hex
    exact ⟨_, hex, completes_complete ht Core.moves_began 0 0⟩
  · rw [hen, if_neg Bool.false_ne_true, hcode] at hex
    obtain ⟨m, rfl⟩ := Nat.exists_eq_succ_of_ne_zero h0
    have hm : Core.Moves [.failN, .ctxs, .ctr, .gateRefs] (s.core.take x).1
        ((s.core.began x ⟨0x12, 0, true, false, fun n => decide (n = 0), 1, true⟩).showRefusal (m + 1) (hCtx x.entry) x.f) :=
      Core.moves_began.mono.then (Core.moves_showRefusal _ _ _ _)
    have hrefs := ((s.core.began x ⟨0x12, 0, true, false, fun n => decide (n = 0), 1, true⟩).showRefusal (m + 1) (hCtx x.entry) x.f).moves_refuse
      (s.core.take x).2 (m + 1) 0
    have hgate := hrefs.frame .gateRefs rfl
    refine ⟨_, hex, ?_, ?_, ?_, ?_, completes_refuse ht hm _ _⟩
    · rw [State.after_gate]
      exact congrArg Prod.fst hgate
    · rw [State.after_gate]
      exact congrArg (fun y => y.2.1) hgate
    · rw [State.after_gate]
      exact congrArg (fun y => y.2.2.1) hgate
    · rw [State.after_ctxs]
      exact hrefs.frame .ctxs rfl
  · rw [hen, if_neg Bool.false_ne_true, hcode] at hex
    replace hex : exec (.contextEnable x) s = .next (s.after (((s.core.began x ⟨0x12, 0, true, false, fun n => decide (n = 0), 1, true⟩).enableCtx
      s.trim (hCtx x.entry) (v.readBy x.dome)).complete (s.core.take x).2 0 0)) := hex
    have hwait' : ∀ y ∈ (s.core.began x ⟨0x12, 0, true, false, fun n => decide (n = 0), 1, true⟩).segs, y.st ≠ .waiting := by
      rw [Core.segs_began]
      exact hwait
    obtain ⟨hm, hclaim, v', hv', hon, hraw, htrans, hrun⟩ := Core.enableCtx_spec s.trim (v := v.readBy x.dome) hn hwait'
    have hcp : (s.core.began x ⟨0x12, 0, true, false, fun n => decide (n = 0), 1, true⟩).cp = s.core.cp := by
      rw [Core.cp, Core.cp, show (s.core.began x ⟨0x12, 0, true, false, fun n => decide (n = 0), 1, true⟩).blf = s.core.blf from
        Core.began_moves.frame .blf rfl]
    rw [readBy_same Ctx.raw (fun _ => rfl)] at hraw
    rw [readBy_same Ctx.prog (fun _ => rfl), hcp] at hrun
    rw [readBy_same Ctx.training (fun _ => rfl), readBy_same Ctx.adapt (fun _ => rfl)] at hclaim
    refine ⟨_, v', hex, by rw [after_ctx, ctx_complete, hv'], hon, hraw, htrans, hrun, fun htr => ?_,
      completes_complete ht (Core.moves_began.mono.then hm : Core.Moves [.failN, .ctxs, .ctr, .dir, .runs, .pool] _ _) 0 0⟩
    rw [Core.desc, State.after_dir]
    refine Eq.trans (congrArg (fun m => (SMap.get Desc.free m v.adapt).trainCtx) ?_) (hclaim htr)
    exact (Core.moves_complete _ _ _ _).frame .dir rfl

/-! ## CONTEXT_ENABLE with ENABLE clear -/

namespace Core

variable {c d : Core} {n y : Nat}

/-- Context `n` is disabled and runs no program. -/
def Off (n : Nat) (c : Core) : Prop := ∃ v, c.ctx? n = some v ∧ v.enable = false ∧ v.running = none

/-- `f` leaves CTX_ENABLE and the program's run as they are. -/
def KeepsRun (f : Ctx → Ctx) : Prop := ∀ v, (f v).enable = v.enable ∧ (f v).running = v.running

theorem Off.of_ctxs (h : c.Off n) (hctxs : d.ctxs = c.ctxs) : d.Off n := by
  obtain ⟨v, hv, hoff⟩ := h
  exact ⟨v, (ctx_of_ctxs hctxs n).trans hv, hoff⟩

theorem Off.of_moves {w : List Part} (h : c.Off n) (hm : c.Moves w d) (hw : w.contains .ctxs = false := by rfl) : d.Off n :=
  h.of_ctxs (hm.frame .ctxs hw)

theorem Off.setCtx (h : c.Off n) {w v : Ctx} (hv : c.ctx? y = some v) (hw : w.enable = v.enable ∧ w.running = v.running) : (c.setCtx y w).Off n := by
  obtain ⟨v0, hv0, hon, hrun⟩ := h
  by_cases hy : n = y
  · subst hy
    obtain rfl := Option.some.inj (hv0.symm.trans hv)
    exact ⟨w, ctx_setCtx_self c n w, hw.1.trans hon, hw.2.trans hrun⟩
  · exact ⟨v0, by rw [ctx_setCtx_any, if_neg hy, hv0], hon, hrun⟩

theorem Off.updCtx (h : c.Off n) {f : Ctx → Ctx} (hf : KeepsRun f) : (c.updCtx y f).Off n := by
  unfold Core.updCtx
  split
  · next v hv => exact h.setCtx hv (hf v)
  · exact h

theorem Off.updCommit (h : c.Off n) (f : CommitLine → CommitLine) : (c.updCommit y f).Off n := by
  unfold Core.updCommit
  split
  · exact h
  · next v hv =>
    have hset : (c.setCtx y { v with commit := f v.commit }).Off n := h.setCtx hv ⟨rfl, rfl⟩
    dsimp only
    split
    · exact hset.of_moves (moves_updDesc _ _ _)
    · exact hset

theorem Off.freeTransient (h : c.Off n) (y : Nat) : (c.freeTransient y).Off n := by
  unfold Core.freeTransient
  split
  · exact h
  · exact (h.updCtx (f := fun v => { v with transient := false }) fun _ => ⟨rfl, rfl⟩).of_ctxs rfl

theorem keepsRun_closeStep : KeepsRun Ctx.closeStep := fun v => by
  unfold Ctx.closeStep
  split <;> exact ⟨rfl, rfl⟩

theorem Off.abandon (h : c.Off n) (y : Nat) : (c.abandon y).Off n := by
  have hhold : ∀ {d : Core}, d.Off n → (d.holdStep y 0x0332 0 0 0).Off n := fun {d} hd => by
    unfold holdStep
    split
    · exact hd
    · refine Off.freeTransient ?_ y
      have hclosed : ((d.updCommit y (fun l => { l with last := 0x0332 })).updCtx y Ctx.closeStep).Off n := (hd.updCommit _).updCtx keepsRun_closeStep
      split
      · exact hclosed.of_moves (moves_raise _ _)
      · exact hclosed
  unfold Core.abandon
  split
  · next v hv =>
    split
    · exact hhold (h.setCtx hv ⟨rfl, rfl⟩)
    · exact h
  · exact h

theorem off_foldl {α : Type} {f : Core → α → Core} (hf : ∀ d x, d.Off n → (f d x).Off n) (xs : List α) : ∀ {c : Core}, c.Off n → (xs.foldl f c).Off n := by
  induction xs with
  | nil => exact id
  | cons x xs ih => exact fun h => ih (hf _ x h)

theorem Off.leaveSteps (h : c.Off n) (z : Seg) : (c.leaveSteps z).Off n := by
  refine Off.of_moves (off_foldl (fun d x hd => ?_) z.steps h) (moves_dueSettle _)
  exact hd.updCtx (fun v => ⟨rfl, rfl⟩)

theorem Off.withdraw (h : c.Off n) (tr : Trim) (p : Seg → Bool) (code : Nat) : (c.withdraw tr p code).Off n := by
  refine off_foldl (fun d z hd => ?_) _ h
  split
  · split
    · exact (hd.leaveSteps _).of_moves (moves_cancelSeg _ _ _ _ _)
    · exact hd
  · exact hd

/-- The context is off as its disabling begins, and stays so. -/
theorem off_disableCtx (tr : Trim) {v : Ctx} (hv : c.ctx? n = some v) (hen : v.enable = true) : (c.disableCtx tr n).Off n := by
  unfold disableCtx
  rw [hv]
  dsimp only
  rw [hen, if_neg (by decide)]
  have hoff : (((c.updCtx n (fun v => { v with enable := false })).releaseUnits (.ctx n)).endProg n).Off n := by
    refine Off.of_moves (c := ((c.updCtx n (fun v => { v with enable := false })).releaseUnits (.ctx n)).updCtx n _) ?_
      (moves_withoutReservations _ n)
    refine ⟨{ v with enable := false, running := none, starts := false }, ?_, rfl, rfl⟩
    exact ctx_updCtx_self ((ctx_of_ctxs ((moves_releaseUnits _ (.ctx n)).frame .ctxs rfl) n).trans (ctx_updCtx_self hv _)) _
  generalize ((c.updCtx n (fun v => { v with enable := false })).releaseUnits (.ctx n)).endProg n = e at hoff ⊢
  have hgone := (((hoff.withdraw tr (fun s => s.names n && s.st.before) 0x0A21).withdraw tr (fun s => s.ctx = n && s.st = .swapped) 0x0A0D).abandon
    n).freeTransient n
  have hdome := hgone.updCtx (y := n) (f := fun v => { v with dome := [] }) (fun v => ⟨rfl, rfl⟩)
  refine Off.of_moves ?_ (moves_wake _ tr)
  split
  · exact (hdome.of_moves (moves_dueSettle _)).of_moves (moves_noteReset _ 5 0)
  · exact hdome.of_moves (moves_dueSettle _)

theorem disableCtx_of_off (tr : Trim) {v : Ctx} (hv : c.ctx? n = some v) (hen : v.enable = false) : c.disableCtx tr n = c := by
  unfold disableCtx
  rw [hv]
  dsimp only
  rw [hen]
  rfl

/-- The disabling of a context while no segment stands reaches no pair. -/
theorem moves_disableCtx_of_no_segs (tr : Trim) (h : c.segs = []) :
    c.Moves [.ctxs, .pow, .pool, .dir, .runs, .segs, .keep] (c.disableCtx tr n) := by
  unfold disableCtx
  split
  · exact .refl c
  · refine .ite (.refl c) ?_
    extract_lets busy c1 c2 c3 c4 c5
    have hnil : ∀ (d : Core) (p : Seg → Bool) (code : Nat), d.segs = [] → d.withdraw tr p code = d := fun d p code hd =>
      withdraw_of_none tr (by rw [hd]; exact fun y hy => absurd hy (List.not_mem_nil)) code
    have hoff : c.Moves [.ctxs, .pow, .pool] c1 := ((c.moves_updCtx _ _).mono.then (moves_releaseUnits _ _)).then (moves_endProg _ _)
    have hsegs1 : c1.segs = [] := (hoff.frame .segs rfl).trans h
    have h3 : c3 = c1 := by
      show (c1.withdraw tr _ _).withdraw tr _ _ = c1
      rw [hnil c1 _ _ hsegs1, hnil c1 _ _ hsegs1]
    have hdome : c1.Moves [.ctxs, .dir, .runs] c4 := by
      show c1.Moves _ (((c3.abandon n).freeTransient n).updCtx n _)
      rw [h3]
      exact ((moves_abandon c1 n).mono.then (moves_freeTransient _ _)).then (moves_updCtx _ _ _)
    have hsegs4 : c4.segs = [] := (hdome.frame .segs rfl).trans hsegs1
    have hm4 : c.Moves [.ctxs, .pow, .pool, .dir, .runs, .segs, .keep] c4 := hoff.mono.trans hdome.mono
    clear_value c4
    have hsegs : c4.dueSettle.segs = [] := by
      show c4.segs.map _ = []
      rw [hsegs4]
      rfl
    have hsegs5 : c5.segs = [] := by
      unfold c5
      split
      · exact ((moves_noteReset _ 5 0).frame .segs rfl).trans hsegs
      · exact hsegs
    rw [wake_of_no_segs _ _ hsegs5]
    exact .ite ((hm4.then (moves_dueSettle _)).then (moves_noteReset _ 5 0)) (hm4.then (moves_dueSettle _))

end Core

theorem exec_contextDisable (hi : Instr.hostForm (.contextDisable x) = some (x, k)) (h : s.core.onCtx x k v) :
    let c := s.core
    let n := hCtx x.entry
    let r := (c.take x).2
    (v.enable = false → ∃ t, exec (.contextDisable x) s = .next t ∧ State.completes s t r 0) ∧
    (v.enable = true → ∃ (t : State) (v' : Ctx), exec (.contextDisable x) s = .next t ∧ t.core.ctx? n = some v' ∧
      v'.enable = false ∧ v'.running = none ∧ (c.segs = [] → State.completes s t r 0)) := by
  have hbit : ¬ bit (hArg x.entry 0x20 1) 0 = true := by
    intro hb
    rw [Instr.hostForm, if_pos hb] at hi
    cases hi
  rw [Instr.hostForm, if_neg hbit] at hi
  obtain rfl := (Prod.mk.inj (Option.some.inj hi)).2
  have ht := h.2.1.1
  have hctx := Core.ctx_began (k := ⟨0x12, 0, true, false, fun n => n = 0, 1, true⟩) h.1
  have hex : exec (.contextDisable x) s = .next (s.after (if bit (hArg x.entry 0x20 1) 0 then s.core else Core.ctxCmd x _ _ s.core)) := rfl
  rw [if_neg hbit, Core.ctxCmd, Core.ctxCmdWith_of_onCtx h rfl] at hex
  dsimp only at hex ⊢
  have hen : (v.readBy x.dome).enable = v.enable := readBy_same Ctx.enable (fun _ => rfl) v x.dome
  refine ⟨fun hoff => ?_, fun hon => ?_⟩
  · rw [Core.disableCtx_of_off s.trim hctx (hen.trans hoff)] at hex
    exact ⟨_, hex, completes_complete ht Core.moves_began 0 0⟩
  · obtain ⟨v', hv', hoff, hrun⟩ := Core.off_disableCtx s.trim hctx (hen.trans hon)
    refine ⟨_, v', hex, by rw [after_ctx, ctx_complete, hv'], hoff, hrun, fun hsegs => ?_⟩
    exact completes_complete ht (Core.moves_began.mono.trans (Core.moves_disableCtx_of_no_segs s.trim (by rw [Core.segs_began]; exact hsegs)).mono :
      Core.Moves [.failN, .ctr, .ctxs, .pow, .pool, .dir, .runs, .segs, .keep] _ _) 0 0

end

/-- Settles O44: each command on a context, its refusals in turn and what it leaves of the context. -/
theorem contextsManaged : Obligations.ContextsManaged := fun _ _ _ =>
  ⟨exec_contextCreate, fun _ => ⟨exec_contextWrite, exec_contextDelete, exec_contextRead, exec_advanceStep, exec_contextEnable, exec_contextDisable⟩⟩

end Sys2Proof.Machine

/-! # The commands on adaptations -/

namespace Sys2Proof.Machine

set_option Elab.async false

namespace Core

variable {c d : Core} {x : HostCmd} {k : Form}

/-- The die once a command on an adaptation is taken and its descriptor read. -/
def descBegun (c : Core) (x : HostCmd) (k : Form) (i : Nat) : Core := (c.entered x k).descRead i x.dome

theorem desc_of_dir (h : d.dir = c.dir) (i : Nat) : d.desc i = c.desc i := by rw [desc, desc, h]

/-- A descriptor set to one that is not FREE reads as set, and every other as before. -/
theorem desc_setDesc_any (c : Core) (i : Nat) {v : Desc} (hv : v ≠ .free) (j : Nat) : (c.setDesc i v).desc j = if j = i then v else c.desc j := by
  show SMap.get _ (SMap.set _ _ _ _) _ = _
  rw [SMap.set, if_neg hv, SMap.get_insert]
  rfl

theorem moves_readDesc (i : Nat) : (c.take x).1.Moves [.failN, .dir, .ctr] (c.descBegun x k i) :=
  moves_entered.mono.then (moves_descRead _ _ _)

theorem readDesc_moves (i : Nat) : c.Moves [.failN, .dir, .ctr, .ports, .posts] (c.descBegun x k i) :=
  (c.moves_take x).mono.then (moves_readDesc i)

theorem dir_entered : (c.entered x k).dir = c.dir :=
  ((c.moves_take x).mono.then (moves_entered (k := k)) : c.Moves [.ctr, .ports, .posts] _).frame .dir rfl

theorem slots_entered : (c.entered x k).keep.slots = c.keep.slots :=
  ((c.moves_take x).mono.then (moves_entered (k := k)) : c.Moves [.ctr, .ports, .posts] _).frame .slots rfl

/-- What does not look at POISONED is the same of every descriptor once one is read. -/
theorem desc_readDesc {α : Type} (f : Desc → α) (hf : ∀ v, f { v with poisoned := true } = f v) (i j : Nat) :
    f ((c.descBegun x k i).desc j) = f (c.desc j) := by
  have hread := desc_of_dir (((c.entered x k).moves_domeCheck x.dome (128 * i)).frame .dir rfl) j
  rw [desc_of_dir dir_entered] at hread
  unfold descBegun descRead
  dsimp only
  split
  · rw [updDesc, desc_setDesc_any _ _ (fun h => Bool.noConfusion (congrArg Desc.poisoned h))]
    split
    · next hj => subst hj; rw [hf, hread]
    · rw [hread]
  · rw [hread]

theorem desc_readDesc_of_ne {i j : Nat} (hj : j ≠ i) : (c.descBegun x k i).desc j = c.desc j := by
  have hread := desc_of_dir (((c.entered x k).moves_domeCheck x.dome (128 * i)).frame .dir rfl) j
  rw [desc_of_dir dir_entered] at hread
  unfold descBegun descRead
  dsimp only
  split
  · rw [updDesc, desc_setDesc_any _ _ (fun h => Bool.noConfusion (congrArg Desc.poisoned h)), if_neg hj, hread]
  · exact hread

theorem readDesc_rising (h : c.dir.rising = true) (i : Nat) : (c.descBegun x k i).dir.rising = true := by
  have hread : ((c.entered x k).domeCheck x.dome (128 * i)).dir = c.dir := (((c.entered x k).moves_domeCheck x.dome (128 * i)).frame .dir rfl).trans dir_entered
  unfold descBegun descRead
  dsimp only
  split
  · exact SMap.rising_set _ _ (hread ▸ h)
  · rw [hread]
    exact h

/-- A command that passes its checks acts on the die that they leave. -/
theorem checked_of_passes {admin : Option FnId} {slots : Core → List Nat} {owned : Core → Bool} {g : Core → Req → List Byte → Core}
    (h : c.passes x k (slots c)) (ho : owned c = true) (hadmin : (admin.map (fun a => a != x.f)).getD false = false) (h1 : k.op ≠ 1)
    (hk : knownOps.contains k.op = true) :
    checked x k admin slots owned g c = g (c.entered x k) (c.take x).2 (if k.reads then hData x else []) :=
  checkedWith_of_some (acceptWith_of_passes h ho hadmin (fun hop => absurd hop h1) hk)

/-- One that reads its data acts on it. -/
theorem checked_of_passes_reads {admin : Option FnId} {slots : Core → List Nat} {owned : Core → Bool} {g : Core → Req → List Byte → Core}
    (h : c.passes x k (slots c)) (ho : owned c = true) (hadmin : (admin.map (fun a => a != x.f)).getD false = false) (h1 : k.op ≠ 1)
    (hk : knownOps.contains k.op = true) (hr : k.reads = true) :
    checked x k admin slots owned g c = g (c.entered x k) (c.take x).2 (hData x) := by
  rw [checked_of_passes h ho hadmin h1 hk, if_pos hr]

/-- A command on an adaptation by its owner that passes its checks acts on what it read. -/
theorem adaptCmd_of_onDesc {g : Core → Req → Nat → Desc → Core} {i : Nat} (h : c.onDesc x k i) (h1 : k.op ≠ 1)
    (hk : knownOps.contains k.op = true) : adaptCmd x k g c = g (c.descBegun x k i) (c.take x).2 i ((c.descBegun x k i).desc i) := by
  obtain ⟨rfl, hpass, howns⟩ := h
  unfold adaptCmd
  exact checkedWith_of_some (acceptWith_of_passes hpass howns rfl (fun hop => absurd hop h1) hk)

/-- What a descriptor reads as does not depend on its POISONED bit. -/
theorem descBytes_descBegun (c : Core) (x : HostCmd) (k : Form) (i : Nat) :
    (c.descBegun x k i).descBytes i ((c.descBegun x k i).desc i) = c.descBytes i (c.desc i) := by
  have hcopies : (c.descBegun x k i).gate.copies = c.gate.copies := congrArg Prod.snd ((readDesc_moves (c := c) (x := x) (k := k) i).frame .pool rfl)
  have hsame := desc_readDesc (c := c) (x := x) (k := k) (c.descBytes i) (fun _ => rfl) i i
  rw [← hsame, descBytes, descBytes, hcopies]

/-- The read of a descriptor writes nothing to host memory. -/
theorem descBegun_dma (c : Core) (x : HostCmd) (k : Form) (i : Nat) : (c.descBegun x k i).out.dma = c.out.dma := by
  have hread := (c.entered x k).domeCheck_dma x.dome (128 * i)
  rw [entered_out] at hread
  unfold descBegun descRead
  dsimp only
  split
  · exact hread
  · exact hread

end Core

section

variable {s : State} {x : HostCmd} {k : Form} {i : Nat}

theorem after_desc (s : State) (d : Core) (i : Nat) : (s.after d).core.desc i = d.desc i := Core.desc_of_dir (s.after_dir d) i

theorem desc_complete (d : Core) (r : Req) (a b i : Nat) : (d.complete r a b).desc i = d.desc i :=
  Core.desc_of_dir ((d.moves_complete r a b).frame .dir rfl) i

/-- The meaning of a command on an adaptation whose checks passed. -/
theorem exec_of_adaptCmd {a : Instr} {g : Core → Req → Nat → Desc → Core} (hexec : exec a s = s.act (Core.adaptCmd x k g))
    (h : s.core.onDesc x k i) (h1 : k.op ≠ 1 := by decide) (hk : knownOps.contains k.op = true := by rfl) :
    exec a s = .next (s.after (g (s.core.descBegun x k i) (s.core.take x).2 i ((s.core.descBegun x k i).desc i))) :=
  hexec.trans (congrArg (fun d => Host.Outcome.next (s.after d)) (Core.adaptCmd_of_onDesc h h1 hk))

/-! ## ADAPT_READ and ADAPT_REMOVE -/

theorem exec_adaptRead (hi : Instr.hostForm (.adaptRead x) = some (x, k)) (h : s.core.onDesc x k i) :
    let c := s.core
    let r := (c.take x).2
    ∃ (t : State) (more : List DmaWrite), exec (.adaptRead x) s = .next t ∧
      t.core.out.dma = c.out.dma ++ ⟨x.f, hAddr x.entry, c.descBytes i (c.desc i)⟩ :: more ∧ State.completes s t r 0 := by
  obtain rfl := (Prod.mk.inj (Option.some.inj hi)).2
  have ht := h.2.1.1
  have hex := exec_of_adaptCmd (a := .adaptRead x) (s := s) rfl h
  dsimp only at hex ⊢
  have hm : (s.core.take x).1.Moves [.failN, .dir, .ctr] (s.core.descBegun x ⟨0x21, 0, false, false, fun n => decide (n = 128), argBits 0x20 2, true⟩ i) :=
    Core.moves_readDesc i
  have hdma := s.core.descBegun_dma x ⟨0x21, 0, false, false, fun n => decide (n = 128), argBits 0x20 2, true⟩ i
  rw [Core.descBytes_descBegun] at hex
  generalize s.core.descBytes i (s.core.desc i) = bs at hex ⊢
  generalize s.core.descBegun x ⟨0x21, 0, false, false, fun n => decide (n = 128), argBits 0x20 2, true⟩ i = e at hex hm hdma
  have htdi : (e.fn x.f).tdi ≠ .error := ((Core.answersAt_take ht).of_moves hm).1.2.2.2
  obtain ⟨more, hmore⟩ := ((e.dma x.f (hAddr x.entry) bs).moves_complete (s.core.take x).2 0 0).dma
  refine ⟨_, more, hex, ?_, completes_complete ht (hm.then (Core.moves_dma _ _ _ _)) 0 0⟩
  rw [State.after_dma, ← hmore, Core.dma_dma _ _ _ _ htdi, hdma, List.append_assoc]
  rfl

/-- A descriptor freed that nothing waits for is FREE, and no other changes (R250). -/
theorem Core.freeDesc_spec {c : Core} (hr : c.dir.rising = true) (hfetch : (c.desc i).fetch = none) (hwb : (c.desc i).wb = none) (code : Nat) :
    c.Moves [.pool, .runs, .xfers, .dir] (c.freeDesc i code) ∧ ∀ j, (c.freeDesc i code).desc j = if j = i then .free else c.desc j := by
  unfold freeDesc
  extract_lets d c1 c2 c3 c4
  have hm2 : c.Moves [.pool, .runs, .xfers] c2 := ((c.moves_dropCopies i).mono.then (moves_dropRun _ i)).then (moves_xfers _ _)
  have hdir2 : c2.dir = c.dir := hm2.frame .dir rfl
  have h4 : c4 = c3 := by
    show c3.completeAll ((d.fetch.map (fun f => f.reqs)).getD []) code 0 = c3
    rw [show d.fetch = none from hfetch]
    rfl
  rw [show d.wb = none from hwb, h4]
  refine ⟨hm2.mono.then (moves_setDesc _ _ _), fun j => ?_⟩
  show (c2.setDesc i .free).desc j = _
  rw [desc, setDesc, SMap.get_set _ _ _ _ _ (hdir2 ▸ hr), hdir2, desc]

theorem exec_adaptRemove (hi : Instr.hostForm (.adaptRemove x) = some (x, k)) (h : s.core.onDesc x k i) :
    let c := s.core
    let r := (c.take x).2
    let d := ((c.entered x k).descRead i x.dome).desc i
    ((d.claimant ≠ 0 ∨ d.pins ≠ 0 ∨ d.trainCtx ≠ 0xFFFF) → ∃ t, exec (.adaptRemove x) s = .next t ∧ State.completes s t r 0x0A02) ∧
    (d.claimant = 0 → d.pins = 0 → d.trainCtx = 0xFFFF → d.fetch = none → d.wb = none → c.dir.rising = true →
      ∃ t, exec (.adaptRemove x) s = .next t ∧ t.core.desc i = .free ∧ (∀ j, j ≠ i → t.core.desc j = c.desc j) ∧
        State.completes s t r 0) := by
  obtain rfl := (Prod.mk.inj (Option.some.inj hi)).2
  have ht := h.2.1.1
  have hex : exec (.adaptRemove x) s = .next (s.after (Core.removeAdapt x s.core)) := rfl
  unfold Core.removeAdapt at hex
  rw [Core.adaptCmd_of_onDesc h (by decide) rfl] at hex
  dsimp only at hex ⊢
  have hm : (s.core.take x).1.Moves [.failN, .dir, .ctr] (s.core.descBegun x ⟨0x22, 0, false, false, fun n => decide (n = 0), argBits 0x20 2, true⟩ i) :=
    Core.moves_readDesc i
  have hother : ∀ j, j ≠ i → (s.core.descBegun x ⟨0x22, 0, false, false, fun n => decide (n = 0), argBits 0x20 2, true⟩ i).desc j = s.core.desc j :=
    fun j hj => Core.desc_readDesc_of_ne hj
  have hrise : s.core.dir.rising = true → (s.core.descBegun x ⟨0x22, 0, false, false, fun n => decide (n = 0), argBits 0x20 2, true⟩ i).dir.rising = true :=
    fun hr => Core.readDesc_rising hr i
  rw [show (s.core.entered x ⟨0x22, 0, false, false, fun n => decide (n = 0), argBits 0x20 2, true⟩).descRead i x.dome =
    s.core.descBegun x ⟨0x22, 0, false, false, fun n => decide (n = 0), argBits 0x20 2, true⟩ i from rfl]
  generalize s.core.descBegun x ⟨0x22, 0, false, false, fun n => decide (n = 0), argBits 0x20 2, true⟩ i = e at hex hm hother hrise ⊢
  refine ⟨fun hheld => ?_, fun hc hp htr hf hw hr => ?_⟩
  · rw [if_pos hheld] at hex
    exact ⟨_, hex, completes_refuse ht hm _ _⟩
  · rw [if_neg (by simp [hc, hp, htr])] at hex
    obtain ⟨hfree, hdesc⟩ := Core.freeDesc_spec (hrise hr) hf hw 0
    refine ⟨_, hex, by rw [after_desc, desc_complete, hdesc, if_pos rfl], fun j hj => ?_,
      completes_complete ht (hm.mono.trans hfree.mono : Core.Moves [.failN, .ctr, .pool, .runs, .xfers, .dir] _ _) 0 0⟩
    rw [after_desc, desc_complete, hdesc, if_neg hj, hother j hj]

/-! ## ADAPT_REGISTER -/

theorem Core.activeFor_of_slots {c d : Core} (h : d.keep.slots = c.keep.slots) (n : Nat) (f : FnId) : d.activeFor n f = c.activeFor n f := by
  rw [activeFor, activeFor, slot_of_slots h]

theorem Core.freeIndex_of_dir {c d : Core} (h : d.dir = c.dir) : d.freeIndex = c.freeIndex := by
  unfold freeIndex
  simp only [desc_of_dir h]

theorem Core.noMemory_of_moves {w : List Part} {c d : Core} (h : c.Moves w d) (hw : w.contains .chans = false) : d.noMemory = c.noMemory := by
  rw [noMemory, noMemory, show d.mem.ctls = c.mem.ctls from congrArg Prod.fst (h.frame .chans hw)]

/-- A fetch from host memory starts at once (R255, R259). -/
theorem Core.startFetch_host {c : Core} (tr : Trim) {i : Nat} {v : Desc} (hv : c.desc i = v) (hhost : bits v.tier2 0 2 = 2)
    (hmem : c.noMemory = false) (training keepLocal : Bool) (req : Option Req) :
    (c.startFetch tr i training keepLocal req).desc i =
      { v with st := if v.st = .resident then .resident else .fetching, claimant := 1, kind := 1
               fetch := some ⟨training, keepLocal, req.toList, false, []⟩ } := by
  unfold startFetch
  dsimp only
  rw [hv, noMemory_of_moves (moves_setDesc c i _) rfl, hmem, if_neg Bool.false_ne_true, if_neg (by rw [hhost]; decide),
    desc_setDesc_any _ _ (fun heq => Option.some_ne_none _ (congrArg Desc.fetch heq)), if_pos rfl]
  simp only [decide_eq_true_eq]

theorem newDesc_remote (c : Core) (x : HostCmd) (bs : List Byte) : (c.newDesc x bs).st = .remote := rfl

theorem exec_adaptRegister (hi : Instr.hostForm (.adaptRegister x) = some (x, k)) (h : s.core.passes x k [hIndex x.entry]) :
    let c := s.core
    let r := (c.take x).2
    let c1 := (c.entered x k).descRead i x.dome
    let fails (code : Nat) : Prop := ∃ t, exec (.adaptRegister x) s = .next t ∧ State.completes s t r code
    let v := c1.newDesc x (hData x)
    let owns := c.activeFor (hIndex x.entry) x.f
    (owns = false → fails 0x0A1C) ∧
    (owns = true → c.freeIndex = none → fails 0x0A03) ∧
    (owns = true → c.freeIndex = some i → c1.descOk v = false → fails 0x0A04) ∧
    (owns = true → c.freeIndex = some i → c1.descOk v = true → bit (hFlags x.entry) 0 = false →
      ∃ t, exec (.adaptRegister x) s = .next t ∧ t.core.desc i = v ∧ (∀ j, j ≠ i → t.core.desc j = c.desc j) ∧
        State.completes s t r 0) ∧
    (owns = true → c.freeIndex = some i → c1.descOk v = true → bit (hFlags x.entry) 0 = true → bits v.tier2 0 2 = 2 →
      c.noMemory = false → ∃ t, exec (.adaptRegister x) s = .next t ∧
        t.core.desc i = { v with st := .fetching, claimant := 1, kind := 1, fetch := some ⟨true, true, [r], false, []⟩ }) := by
  obtain rfl := (Prod.mk.inj (Option.some.inj hi)).2
  have ht := h.1
  have hex : exec (.adaptRegister x) s = .next (s.after (Core.register s.trim x s.core)) := rfl
  unfold Core.register at hex
  rw [Core.checked_of_passes_reads h rfl rfl (by decide) rfl rfl] at hex
  dsimp only at hex
  have hm0 : (s.core.take x).1.Moves [.ctr] (s.core.entered x ⟨0x20, 1, false, true, fun n => decide (n = 8192), argBits 0x20 2 + argBits 0x28 24, true⟩) :=
    Core.moves_entered
  have hm : (s.core.take x).1.Moves [.failN, .dir, .ctr]
      (s.core.descBegun x ⟨0x20, 1, false, true, fun n => decide (n = 8192), argBits 0x20 2 + argBits 0x28 24, true⟩ i) := Core.moves_readDesc i
  have hother : ∀ j, j ≠ i → (s.core.descBegun x ⟨0x20, 1, false, true, fun n => decide (n = 8192), argBits 0x20 2 + argBits 0x28 24, true⟩ i).desc j = s.core.desc j :=
    fun j hj => Core.desc_readDesc_of_ne hj
  rw [Core.activeFor_of_slots Core.slots_entered, Core.freeIndex_of_dir Core.dir_entered] at hex
  dsimp only
  rw [show (s.core.entered x ⟨0x20, 1, false, true, fun n => decide (n = 8192), argBits 0x20 2 + argBits 0x28 24, true⟩).descRead i x.dome =
    s.core.descBegun x ⟨0x20, 1, false, true, fun n => decide (n = 8192), argBits 0x20 2 + argBits 0x28 24, true⟩ i from rfl]
  have hmem0 : (s.core.descBegun x ⟨0x20, 1, false, true, fun n => decide (n = 8192), argBits 0x20 2 + argBits 0x28 24, true⟩ i).noMemory = s.core.noMemory :=
    Core.noMemory_of_moves (Core.readDesc_moves i) rfl
  refine ⟨fun ho => ?_, fun ho hnone => ?_, ?_⟩
  · rw [ho] at hex
    exact ⟨_, hex, completes_refuse ht hm0 _ _⟩
  · rw [ho, hnone] at hex
    exact ⟨_, hex, completes_refuse ht hm0 _ _⟩
  obtain ⟨e, he⟩ : ∃ e, e = s.core.descBegun x ⟨0x20, 1, false, true, fun n => decide (n = 8192), argBits 0x20 2 + argBits 0x28 24, true⟩ i :=
    ⟨_, rfl⟩
  have hstep : s.core.activeFor (hIndex x.entry) x.f = true → s.core.freeIndex = some i → exec (.adaptRegister x) s = .next (s.after
      (if !e.descOk (e.newDesc x (hData x)) then e.refuse (s.core.take x).2 0x0A04 0
      else if bit (hFlags x.entry) 0 then (e.setDesc i (e.newDesc x (hData x))).startFetch s.trim i true true (some (s.core.take x).2)
      else (e.setDesc i (e.newDesc x (hData x))).complete (s.core.take x).2 0 i)) := fun ho hsome => by
    rw [ho, hsome, if_neg (by decide)] at hex
    rw [he]
    exact hex
  rw [← he] at hm hother hmem0 ⊢
  have hset := Core.desc_setDesc_any e i (v := e.newDesc x (hData x)) (fun heq => nomatch (congrArg Desc.st heq))
  refine ⟨fun ho hsome hok => ?_, fun ho hsome hok hbit => ?_, fun ho hsome hok hbit htier hmem => ?_⟩
  · have hex := hstep ho hsome
    rw [hok, if_pos (by decide)] at hex
    exact ⟨_, hex, completes_refuse ht hm _ _⟩
  · have hex := hstep ho hsome
    rw [hok, if_neg (by decide), if_neg (by rw [hbit]; exact Bool.false_ne_true)] at hex
    refine ⟨_, hex, by rw [after_desc, desc_complete, hset, if_pos rfl], fun j hj => ?_, completes_complete ht (hm.then (Core.moves_setDesc _ _ _)) 0 i⟩
    rw [after_desc, desc_complete, hset, if_neg hj, hother j hj]
  · have hex := hstep ho hsome
    rw [hok, if_neg (by decide), if_pos hbit] at hex
    refine ⟨_, hex, ?_⟩
    rw [after_desc]
    exact Core.startFetch_host s.trim (v := e.newDesc x (hData x)) (by rw [hset, if_pos rfl]) htier
      ((Core.noMemory_of_moves (Core.moves_setDesc _ _ _) rfl).trans (hmem0.trans hmem)) true true (some (s.core.take x).2)

/-! ## ADAPT_PREFETCH and ADAPT_WRITEBACK -/

theorem exec_adaptPrefetch (hi : Instr.hostForm (.adaptPrefetch x) = some (x, k)) (h : s.core.onDesc x k i) :
    let c := s.core
    let r := (c.take x).2
    let d := ((c.entered x k).descRead i x.dome).desc i
    let fails (code : Nat) : Prop := ∃ t, exec (.adaptPrefetch x) s = .next t ∧ State.completes s t r code
    let training := bit (hArg x.entry 0x22 1) 0
    let there := d.st = .resident ∧ (training = true → d.training = true)
    (∀ f, d.fetch = some f → ¬there → training = true → f.training = false → fails 0x0A02) ∧
    (∀ f, d.fetch = some f → ¬there → (training = true → f.training = true) → ∃ t, exec (.adaptPrefetch x) s = .next t ∧
      t.core.desc i = { d with fetch := some { f with reqs := f.reqs ++ [r] } }) ∧
    (there → fails 0) ∧
    (d.fetch = none → (d.st ≠ .resident ∨ (training = true ∧ d.training = false)) → d.claimant ≠ 0 → fails 0x0A02) ∧
    (d.fetch = none → d.st = .remote → d.claimant = 0 → bits d.tier2 0 2 = 2 → c.noMemory = false →
      ∃ t, exec (.adaptPrefetch x) s = .next t ∧
        t.core.desc i = { d with st := .fetching, claimant := 1, kind := 1, fetch := some ⟨training, false, [r], false, []⟩ }) := by
  obtain rfl := (Prod.mk.inj (Option.some.inj hi)).2
  have ht := h.2.1.1
  have hex : exec (.adaptPrefetch x) s = .next (s.after (Core.prefetch s.trim x s.core)) := rfl
  unfold Core.prefetch at hex
  rw [Core.adaptCmd_of_onDesc h (by decide) rfl] at hex
  have hm : (s.core.take x).1.Moves [.failN, .dir, .ctr]
      (s.core.descBegun x ⟨0x23, 0, false, false, fun n => decide (n = 0), argBits 0x20 2 + 2 ^ 16, true⟩ i) := Core.moves_readDesc i
  have hmem0 : (s.core.descBegun x ⟨0x23, 0, false, false, fun n => decide (n = 0), argBits 0x20 2 + 2 ^ 16, true⟩ i).noMemory = s.core.noMemory :=
    Core.noMemory_of_moves (Core.readDesc_moves i) rfl
  dsimp only at hex ⊢
  rw [show (s.core.entered x ⟨0x23, 0, false, false, fun n => decide (n = 0), argBits 0x20 2 + 2 ^ 16, true⟩).descRead i x.dome =
    s.core.descBegun x ⟨0x23, 0, false, false, fun n => decide (n = 0), argBits 0x20 2 + 2 ^ 16, true⟩ i from rfl]
  generalize s.core.descBegun x ⟨0x23, 0, false, false, fun n => decide (n = 0), argBits 0x20 2 + 2 ^ 16, true⟩ i = e at hex hm hmem0 ⊢
  generalize bit (hArg x.entry 0x22 1) 0 = training at hex ⊢
  have hthere : ∀ d : Desc, (d.st = .resident ∧ ((!training) = true ∨ d.training = true)) ↔ (d.st = .resident ∧ (training = true → d.training = true)) := by
    cases training <;> simp
  refine ⟨fun f hf hnot htr hftr => ?_, fun f hf hnot htr => ?_, fun hres => ?_, fun hf hnot hc => ?_, fun hf hst hc htier hmem => ?_⟩
  · rw [hf] at hex
    dsimp only at hex
    rw [if_neg (mt (hthere _).1 hnot), htr, hftr] at hex
    exact ⟨_, hex, completes_refuse ht hm _ _⟩
  · rw [hf] at hex
    dsimp only at hex
    rw [if_neg (mt (hthere _).1 hnot), if_neg (by cases training <;> simp_all)] at hex
    refine ⟨_, hex, ?_⟩
    rw [after_desc, Core.desc_setDesc_any _ _ (fun heq => Option.some_ne_none _ (congrArg Desc.fetch heq)), if_pos rfl]
  · cases hf : (e.desc i).fetch with
    | some f =>
      rw [hf] at hex
      dsimp only at hex
      rw [if_pos ((hthere _).2 hres)] at hex
      exact ⟨_, hex, completes_complete ht hm 0 0⟩
    | none =>
      rw [hf] at hex
      dsimp only at hex
      rw [if_pos (by have := (hthere _).2 hres; simpa using this)] at hex
      exact ⟨_, hex, completes_complete ht hm 0 0⟩
  · rw [hf] at hex
    dsimp only at hex
    rw [if_neg (by rcases hnot with hst | ⟨htr, hd⟩ <;> simp [*]), if_pos hc] at hex
    exact ⟨_, hex, completes_refuse ht hm _ _⟩
  · rw [hf] at hex
    dsimp only at hex
    rw [if_neg (by simp [hst]), if_neg (by simp [hc])] at hex
    refine ⟨_, hex, ?_⟩
    rw [after_desc, Core.startFetch_host s.trim (v := e.desc i) rfl htier (hmem0.trans hmem), hst]
    rfl

theorem exec_adaptWriteback (hi : Instr.hostForm (.adaptWriteback x) = some (x, k)) (h : s.core.onDesc x k i) :
    let c := s.core
    let r := (c.take x).2
    let d := ((c.entered x k).descRead i x.dome).desc i
    let fails (code : Nat) : Prop := ∃ t, exec (.adaptWriteback x) s = .next t ∧ State.completes s t r code
    (bits d.tier2 0 2 = 0 → fails 0x0A04) ∧
    (bits d.tier2 0 2 ≠ 0 → (d.claimant ≠ 0 ∨ d.pins ≠ 0 ∨ d.st ≠ .resident) → fails 0x0A02) ∧
    (bits d.tier2 0 2 = 2 → d.claimant = 0 → d.pins = 0 → d.st = .resident → c.serves d 0 = false → fails 0x0505) ∧
    (bits d.tier2 0 2 = 2 → d.claimant = 0 → d.pins = 0 → d.st = .resident → c.serves d 0 = true → ∃ t, exec (.adaptWriteback x) s = .next t ∧
      t.core.desc i = { d with claimant := 1, kind := 2, wb := some (some r) } ∧ t.dram = s.dram) := by
  obtain rfl := (Prod.mk.inj (Option.some.inj hi)).2
  have ht := h.2.1.1
  have hex : exec (.adaptWriteback x) s = .next (s.afterM (Core.writeback s.trim x s.core s.dram) s.dram) := rfl
  rw [State.afterM_same_dram] at hex
  unfold Core.writeback at hex
  rw [Core.adaptCmd_of_onDesc h (by decide) rfl] at hex
  have hm : (s.core.take x).1.Moves [.failN, .dir, .ctr]
      (s.core.descBegun x ⟨0x24, 0, false, false, fun n => decide (n = 0), argBits 0x20 2, true⟩ i) := Core.moves_readDesc i
  have hslots : (s.core.descBegun x ⟨0x24, 0, false, false, fun n => decide (n = 0), argBits 0x20 2, true⟩ i).keep.slots = s.core.keep.slots :=
    (Core.readDesc_moves i).frame .slots rfl
  dsimp only at hex ⊢
  rw [show (s.core.entered x ⟨0x24, 0, false, false, fun n => decide (n = 0), argBits 0x20 2, true⟩).descRead i x.dome =
    s.core.descBegun x ⟨0x24, 0, false, false, fun n => decide (n = 0), argBits 0x20 2, true⟩ i from rfl]
  generalize s.core.descBegun x ⟨0x24, 0, false, false, fun n => decide (n = 0), argBits 0x20 2, true⟩ i = e at hex hm hslots ⊢
  have hserves : ∀ d : Desc, e.serves d 0 = s.core.serves d 0 := fun d => by
    unfold Core.serves
    rw [Core.slot_of_slots hslots]
  have hclaimed : ∀ j, ((e.dropCopies i).updDesc i (fun d => { d with claimant := 1, kind := 2, wb := some (some (s.core.take x).2) })).desc j =
      if j = i then { e.desc i with claimant := 1, kind := 2, wb := some (some (s.core.take x).2) } else e.desc j := fun j => by
    rw [Core.updDesc, Core.desc_setDesc_any _ _ (fun heq => Option.some_ne_none _ (congrArg Desc.wb heq))]
    rfl
  have hmoves := (e.moves_dropCopies i).mono.then (Core.moves_updDesc _ i (fun d => { d with claimant := 1, kind := 2, wb := some (some (s.core.take x).2) }))
    (w := [.pool, .dir])
  have hserves2 := fun d => show ((e.dropCopies i).updDesc i (fun d => { d with claimant := 1, kind := 2, wb := some (some (s.core.take x).2) })).serves d 0 =
    s.core.serves d 0 from hserves d
  refine ⟨fun h0 => ?_, fun h0 hheld => ?_, fun h2 hc hp hst hserve => ?_, fun h2 hc hp hst hserve => ?_⟩
  · rw [if_pos h0] at hex
    exact ⟨_, hex, completes_refuse ht hm _ _⟩
  · rw [if_neg h0, if_pos hheld] at hex
    exact ⟨_, hex, completes_refuse ht hm _ _⟩
  all_goals
    rw [if_neg (by rw [h2]; decide), if_neg (by simp [hc, hp, hst])] at hex
    generalize (e.dropCopies i).updDesc i (fun d => { d with claimant := 1, kind := 2, wb := some (some (s.core.take x).2) }) = e2 at hex hclaimed hmoves hserves2
    have hstart : e2.startWriteback s.trim s.dram i e2.defaultBudget = (e2, if s.core.serves (e.desc i) 0 then 0 else 0x0505) := by
      unfold Core.startWriteback
      dsimp only
      rw [hclaimed, if_pos rfl, if_pos h2, hserves2]
      rfl
    rw [hstart, hserve] at hex
  · have hwb : (e2.desc i).wb = some (some (s.core.take x).2) := by rw [hclaimed, if_pos rfl]
    replace hex : exec (.adaptWriteback x) s = .next (s.after (e2.writebackFail i 0x0505)) := hex
    unfold Core.writebackFail at hex
    dsimp only at hex
    rw [hwb] at hex
    exact ⟨_, hex, completes_complete ht ((hm.mono.trans hmoves.mono : Core.Moves [.failN, .dir, .ctr, .pool] _ _).then (Core.moves_setDesc _ _ _)) _ _⟩
  · replace hex : exec (.adaptWriteback x) s = .next (s.after e2) := hex
    exact ⟨_, hex, by rw [after_desc, hclaimed, if_pos rfl], State.after_dram s e2⟩

/-! ## ADAPT_REWRAP -/

/-- The run goes over to slot `m`: what ADAPT_REWRAP leaves of the entry, once every page has been read (R319). -/
theorem Core.rewrapInto_spec {c : Core} (dr : Dram) (r : Req) (i m : Nat) (ps : List (Nat × List Line)) (hst : (c.desc i).st = .resident) :
    ∃ d : Core, c.Moves [.ctr, .runs, .dir] d ∧ (c.rewrapInto dr r i m ps).1 = d.complete r 0 0 ∧
      d.desc i = { c.desc i with keySlot := m, gen := (c.slot m).gen, sealSt := 0, dirty := true } := by
  unfold rewrapInto
  extract_lets g c1 y
  have hrun : c.Moves [.runs] c1 := by
    unfold c1
    split
    · exact c.moves_setRun _ _
    · exact .refl c
  have hy : c.Moves [.ctr, .runs] y.1 := hrun.mono.then (moves_rewrite c1 i ps dr)
  refine ⟨_, hy.mono.then (moves_updDesc _ _ _), rfl, ?_⟩
  have hdesc : y.1.desc i = c.desc i := desc_of_dir (hy.frame .dir rfl) i
  have hne : ({ c.desc i with keySlot := m, gen := g, sealSt := 0, dirty := true } : Desc) ≠ .free := fun heq => by
    have hfree : (c.desc i).st = .free := congrArg Desc.st heq
    exact DirSt.noConfusion (hst.symm.trans hfree)
  rw [updDesc, hdesc]
  exact (desc_setDesc_any _ _ hne i).trans (if_pos rfl)

theorem exec_adaptRewrap (hi : Instr.hostForm (.adaptRewrap x) = some (x, k)) (hix : hIndex x.entry = i)
    (hpass : s.core.passes x k (s.core.descSlots i ++ [hArg x.entry 0x22 2])) (howns : s.core.ownsDesc x.f i = true) :
    let c := s.core
    let r := (c.take x).2
    let m := hArg x.entry 0x22 2
    let c1 := (c.entered x k).descRead i x.dome
    let d := c1.desc i
    let pages := d.statePages (c1.groupsOf i) true
    (∀ code, c1.rewrapCode x.f i m = code → code ≠ 0 → ∃ t, exec (.adaptRewrap x) s = .next t ∧ State.completes s t r code) ∧
    (∀ c' p, c1.rewrapCode x.f i m = 0 → (c1.dropCopies i).readAll s.dram i pages = (c', .error p) →
      ∃ t, exec (.adaptRewrap x) s = .next t ∧ t.core.desc i = d ∧ t.dram = s.dram ∧ State.completes s t r p) ∧
    (∀ c' ps, c1.rewrapCode x.f i m = 0 → (c1.dropCopies i).readAll s.dram i pages = (c', .ok ps) →
      ∃ t, exec (.adaptRewrap x) s = .next t ∧
        t.core.desc i = { d with keySlot := m, gen := (c.slot m).gen, sealSt := 0, dirty := true } ∧ State.completes s t r 0) := by
  obtain rfl := (Prod.mk.inj (Option.some.inj hi)).2
  subst hix
  have ht := hpass.1
  have haccept : Core.accept x _ none (fun c => c.descSlots (hIndex x.entry) ++ [hArg x.entry 0x22 2]) (fun c => c.ownsDesc x.f (hIndex x.entry)) s.core = _ :=
    Core.acceptWith_of_passes hpass howns rfl (fun h1 => by cases h1) rfl
  have hex : exec (.adaptRewrap x) s = .next (s.afterM (Core.rewrap x s.core s.dram).1 (Core.rewrap x s.core s.dram).2) := rfl
  unfold Core.rewrap at hex
  dsimp only at hex
  rw [haccept] at hex
  have hm : (s.core.take x).1.Moves [.failN, .dir, .ctr]
      (s.core.descBegun x ⟨0x25, 0, false, false, fun n => decide (n = 0), argBits 0x20 4, true⟩ (hIndex x.entry)) := Core.moves_readDesc _
  have hslots : (s.core.descBegun x ⟨0x25, 0, false, false, fun n => decide (n = 0), argBits 0x20 4, true⟩ (hIndex x.entry)).keep.slots = s.core.keep.slots :=
    (Core.readDesc_moves _).frame .slots rfl
  dsimp only at hex ⊢
  rw [show (s.core.entered x ⟨0x25, 0, false, false, fun n => decide (n = 0), argBits 0x20 4, true⟩).descRead (hIndex x.entry) x.dome =
    s.core.descBegun x ⟨0x25, 0, false, false, fun n => decide (n = 0), argBits 0x20 4, true⟩ (hIndex x.entry) from rfl] at hex ⊢
  generalize s.core.descBegun x ⟨0x25, 0, false, false, fun n => decide (n = 0), argBits 0x20 4, true⟩ (hIndex x.entry) = e at hex hm hslots ⊢
  have hall := fun us => ((e.moves_dropCopies (hIndex x.entry)).mono.trans ((e.dropCopies (hIndex x.entry)).moves_readAll s.dram (hIndex x.entry) us).mono :
    e.Moves [.pool, .ctr, .chans] _)
  refine ⟨fun code hcode h0 => ?_, fun c' p hcode hread => ?_, fun c' ps hcode hread => ?_⟩
  · obtain ⟨n, rfl⟩ := Nat.exists_eq_succ_of_ne_zero h0
    rw [hcode] at hex
    exact ⟨_, hex, completes_refuse ht hm _ _⟩
  · rw [hcode] at hex
    rw [hread] at hex
    have hc' := hall ((e.desc (hIndex x.entry)).statePages (e.groupsOf (hIndex x.entry)) true)
    rw [hread] at hc'
    refine ⟨_, hex, ?_, rfl, completes_complete ht (hm.mono.trans hc'.mono : Core.Moves [.failN, .dir, .ctr, .pool, .chans] _ _) p 0⟩
    show (s.after (c'.complete (s.core.take x).2 p 0)).core.desc _ = _
    rw [after_desc, desc_complete]
    exact Core.desc_of_dir (hc'.frame .dir rfl) _
  · rw [hcode] at hex
    rw [hread] at hex
    have hc' := hall ((e.desc (hIndex x.entry)).statePages (e.groupsOf (hIndex x.entry)) true)
    rw [hread] at hc'
    have hdesc : c'.desc (hIndex x.entry) = e.desc (hIndex x.entry) := Core.desc_of_dir (hc'.frame .dir rfl) _
    have hst : (e.desc (hIndex x.entry)).st = .resident := by
      unfold Core.rewrapCode at hcode
      by_contra hne
      split at hcode
      · exact Nat.succ_ne_zero _ hcode
      · rw [if_pos (Or.inr (Or.inr (Or.inl hne)))] at hcode
        exact Nat.succ_ne_zero _ hcode
    have hgen : (c'.slot (hArg x.entry 0x22 2)).gen = (s.core.slot (hArg x.entry 0x22 2)).gen := by
      rw [Core.slot_of_slots ((hc'.frame .slots rfl).trans hslots)]
    obtain ⟨d, hmd, hd, hdd⟩ := Core.rewrapInto_spec s.dram (s.core.take x).2 (hIndex x.entry) (hArg x.entry 0x22 2) ps (hdesc ▸ hst)
    refine ⟨_, hex, ?_, ?_⟩
    · show (s.after (c'.rewrapInto s.dram (s.core.take x).2 (hIndex x.entry) (hArg x.entry 0x22 2) ps).1).core.desc _ = _
      rw [after_desc, hd, desc_complete, hdd, hdesc, hgen]
    · show s.completes (s.after (c'.rewrapInto s.dram (s.core.take x).2 (hIndex x.entry) (hArg x.entry 0x22 2) ps).1) _ _
      rw [hd]
      exact completes_complete ht ((hm.mono.trans hc'.mono : Core.Moves [.failN, .dir, .ctr, .pool, .chans, .runs] _ _).trans hmd.mono) 0 0

end

/-- Settles O46: each command on an adaptation, its refusals in turn and what it leaves of the descriptor. -/
theorem adaptationsManaged : Obligations.AdaptationsManaged := fun _ _ _ _ =>
  ⟨exec_adaptRegister, exec_adaptRead, exec_adaptRemove, exec_adaptPrefetch, exec_adaptWriteback, exec_adaptRewrap⟩

end Sys2Proof.Machine

/-! # Base slots -/

namespace Sys2Proof.Machine

set_option Elab.async false

namespace Core

variable {c d : Core} {x : HostCmd} {k : Form} {b : Nat}

theorem base_of_bases (h : d.gate.bases = c.gate.bases) (b : Nat) : d.base b = c.base b := by rw [base, base, h]

theorem entered_moves : c.Moves [.ctr, .ports, .posts] (c.entered x k) := (c.moves_take x).mono.then moves_entered

theorem base_entered (b : Nat) : (c.entered x k).base b = c.base b := base_of_bases (entered_moves.frame .bases rfl) b

theorem slot_entered (i : Nat) : (c.entered x k).slot i = c.slot i := slot_of_slots slots_entered i

theorem comingFrames_entered : (c.entered x k).comingFrames = c.comingFrames := by
  have hruns : (c.entered x k).mem.runs = c.mem.runs := entered_moves.frame .runs rfl
  have hent : (c.entered x k).runEnt = c.runEnt := by
    funext i
    rw [runEnt, runEnt, hruns]
  have hused : (c.entered x k).usedBlocks = c.usedBlocks := by rw [usedBlocks, usedBlocks, hruns]
  rw [comingFrames, comingFrames, freeFrames, freeFrames, hused, hent, dir_entered]

/-- Room that is there is not made (R260). -/
theorem evictFor_of_room (tr : Trim) (dr : Dram) {n : Nat} (h : n ≤ c.comingFrames) : c.evictFor tr dr n = c := by
  unfold evictFor
  split
  · rfl
  · exact List.foldl_fixed' (f := fun (c : Core) i => if c.comingFrames ≥ n then c else c.evict tr dr i) (fun i => if_pos h) _

theorem canFree_of_room {n : Nat} (h : n ≤ c.comingFrames) : c.canFree n = true :=
  decide_eq_true (Nat.le_trans h (Nat.le_add_right _ _))

end Core

section

variable {s : State} {x : HostCmd} {k : Form} {b : Nat}

theorem after_base (s : State) (d : Core) (b : Nat) : (s.after d).core.base b = d.base b :=
  Core.base_of_bases (congrArg Gate.bases (s.after_gate d)) b

theorem base_complete (d : Core) (r : Req) (a n b : Nat) : (d.complete r a n).base b = d.base b :=
  Core.base_of_bases ((d.moves_complete r a n).frame .bases rfl) b

theorem base_refuse (d : Core) (r : Req) (a n b : Nat) : (d.refuse r a n).base b = d.base b :=
  Core.base_of_bases ((d.moves_refuse r a n).frame .bases rfl) b

/-! ## BASE_LOAD -/

/-- The form of BASE_LOAD (R345). -/
def baseLoadForm : Form :=
  ⟨0x30, 0, false, false, fun n => n = 0, argBits 0x20 2 + argBits 0x28 16 + (2 ^ 12 - 1) * 2 ^ 192 + 2 ^ 207, true⟩

/-- A base slot goes to LOADING, with frames where they are free (R271). -/
def Core.loading (c : Core) (b bytes : Nat) (y : Base) : Core :=
  (((c.setBase b y).noteTag b).placeBase b bytes).getD ((c.setBase b y).noteTag b)

theorem Core.base_loading {c : Core} (hb : b < c.gate.bases.length) (bytes : Nat) (y : Base) : (c.loading b bytes y).base b = y := by
  refine (base_of_bases (((moves_noteTag _ b).mono.then (moves_placeBase_getD _ b bytes) : (c.setBase b y).Moves [.keep, .runs] _).frame .bases rfl) b).trans ?_
  exact (base_setBase c b b y hb).trans (if_pos rfl)

/-- BASE_LOAD of the administration PF whose checks passed: what refuses it, and what it does with host memory as its source. -/
theorem Core.loadBase_passed {c : Core} {tr : Trim} {dr : Dram} (hix : hIndex x.entry = b) (hb : b < 2) (hadmin : x.f = tr.admin)
    (h : c.passes x baseLoadForm [4096 + b]) :
    let e := c.entered x baseLoadForm
    let r := (c.take x).2
    let tag := hArg x.entry 0x28 8
    let bytes := hArg x.entry 0x30 8
    ∃ rest, Core.loadBase tr x c dr =
      (if bytes = 0 then e.refuse r 0x0A04 0
      else if (e.base b).st ≠ .empty then e.refuse r 0x0A02 0
      else if tag = 0 ∨ tag = (e.base (1 - b)).tag then e.refuse r 0x0A04 0
      else if (e.slot (4096 + b)).st ≠ .active then e.refuse r 0x0A04 0
      else if e.noMemory ∨ !e.canFree (roundUp (ceilDiv bytes 4096) 16) then e.refuse r 0x0A0B 0
      else rest) ∧
      (bit (hArg x.entry 0x38 2) 15 = false →
        rest = (e.evictFor tr dr (roundUp (ceilDiv bytes 4096) 16)).loading b bytes ⟨.loading, tag, bytes, 0, some r, false⟩) := by
  subst hix
  have hadm : ((some tr.admin).map (fun a => a != x.f)).getD false = false := by
    rw [hadmin]
    exact bne_self_eq_false' tr.admin
  have hnot : ¬ (hIndex x.entry > 1) := by omega
  have hor : ∀ p : Prop, (hIndex x.entry > 1 ∨ p) = p := fun p => by simp [hnot]
  unfold loadBase
  dsimp only
  rw [checked_of_passes (slots := fun _ => if hIndex x.entry < 2 then [4096 + hIndex x.entry] else []) (by rw [if_pos hb]; exact h) rfl hadm (by decide) rfl]
  refine ⟨_, (if_congr (Iff.of_eq (hor _)) rfl rfl), fun hlink => ?_⟩
  rw [hlink]
  rfl

theorem exec_baseLoad (hix : hIndex x.entry = b) (hb : b < 2) (hlen : s.core.gate.bases.length = 2) (hadmin : x.f = s.trim.admin)
    (h : s.core.passes x k [4096 + b]) (hi : Instr.hostForm (.baseLoad x) = some (x, k)) :
    let c := s.core
    let r := (c.take x).2
    let tag := hArg x.entry 0x28 8
    let bytes := hArg x.entry 0x30 8
    let fails (code : Nat) : Prop := ∃ t, exec (.baseLoad x) s = .next t ∧ t.core.base b = c.base b ∧ State.completes s t r code
    (bytes = 0 → fails 0x0A04) ∧
    (bytes ≠ 0 → (c.base b).st ≠ .empty → fails 0x0A02) ∧
    (bytes ≠ 0 → (c.base b).st = .empty → (tag = 0 ∨ tag = (c.base (1 - b)).tag ∨ (c.slot (4096 + b)).st ≠ .active) → fails 0x0A04) ∧
    (bytes ≠ 0 → (c.base b).st = .empty → tag ≠ 0 → tag ≠ (c.base (1 - b)).tag → (c.slot (4096 + b)).st = .active →
      (c.noMemory = true → fails 0x0A0B) ∧
      (c.noMemory = false → roundUp (ceilDiv bytes 4096) 16 ≤ c.comingFrames → bit (hArg x.entry 0x38 2) 15 = false →
        ∃ t, exec (.baseLoad x) s = .next t ∧ t.core.base b = ⟨.loading, tag, bytes, 0, some r, false⟩)) := by
  obtain rfl : baseLoadForm = k := (Prod.mk.inj (Option.some.inj hi)).2
  have ht := h.1
  dsimp only
  obtain ⟨rest, hload, hrest⟩ := Core.loadBase_passed (tr := s.trim) (dr := s.dram) hix hb hadmin h
  have hmem : (s.core.entered x baseLoadForm).noMemory = s.core.noMemory := Core.noMemory_of_moves Core.entered_moves rfl
  rw [Core.base_entered, Core.base_entered, Core.slot_entered, hmem] at hload
  have hex : exec (.baseLoad x) s = .next (s.after (Core.loadBase s.trim x s.core s.dram)) := rfl
  rw [hload] at hex
  have hfails : ∀ {code : Nat}, exec (.baseLoad x) s = .next (s.after ((s.core.entered x baseLoadForm).refuse (s.core.take x).2 code 0)) →
      ∃ t, exec (.baseLoad x) s = .next t ∧ t.core.base b = s.core.base b ∧ s.completes t (s.core.take x).2 code := fun hex =>
    ⟨_, hex, by rw [after_base, base_refuse, Core.base_entered], completes_refuse ht Core.moves_entered _ _⟩
  generalize hArg x.entry 0x30 8 = bytes at hex hrest ⊢
  generalize hArg x.entry 0x28 8 = tag at hex hrest ⊢
  refine ⟨fun h0 => ?_, fun h0 hst => ?_, fun h0 hst hbad => ?_, fun h0 hst htag hother hkey => ⟨fun hno => ?_, fun hno hroom hlink => ?_⟩⟩
  · rw [if_pos h0] at hex
    exact hfails hex
  · rw [if_neg h0, if_pos hst] at hex
    exact hfails hex
  · rw [if_neg h0, if_neg (fun hne => hne hst)] at hex
    by_cases htag : tag = 0 ∨ tag = (s.core.base (1 - b)).tag
    · rw [if_pos htag] at hex
      exact hfails hex
    · rw [if_neg htag, if_pos (by tauto)] at hex
      exact hfails hex
  · rw [if_neg h0, if_neg (fun hne => hne hst), if_neg (by tauto), if_neg (fun hne => hne hkey), if_pos (Or.inl hno)] at hex
    exact hfails hex
  · have hroom' : roundUp (ceilDiv bytes 4096) 16 ≤ (s.core.entered x baseLoadForm).comingFrames := by
      rw [Core.comingFrames_entered]
      exact hroom
    rw [if_neg h0, if_neg (fun hne => hne hst), if_neg (by tauto), if_neg (fun hne => hne hkey),
      if_neg (by simp [hno, Core.canFree_of_room hroom']), hrest hlink, Core.evictFor_of_room _ _ hroom'] at hex
    refine ⟨_, hex, ?_⟩
    rw [after_base, Core.base_loading]
    rw [show (s.core.entered x baseLoadForm).gate.bases = s.core.gate.bases from Core.entered_moves.frame .bases rfl, hlen]
    exact hb

/-! ## BASE_FREE -/

/-- The form of BASE_FREE (R345). -/
def baseFreeForm : Form := ⟨0x31, 0, false, false, fun n => n = 0, argBits 0x20 2, true⟩

/-- A base slot is emptied, and its key slot retires with it (R271, R311). -/
def Core.emptyBase (c : Core) (b : Nat) : Core :=
  ((((c.dropRun (16640 + b)).setBase b .empty).retire (4096 + b)).noteTag b).note 6 0xFFFF b 0

/-- The retirement of an ACTIVE slot, outside the Keep's window (R303). -/
theorem Core.retire_of_active {c : Core} {i : Nat} (hkey : (c.slot i).st = .active) (hw : ¬(c.keep.fwState = 2 ∧ c.keep.fwKind = 1)) :
    c.retire i = c.setSlot i { c.slot i with st := .retiring, deadline := c.clk.nominal + drainBeats, told := [] } := by
  unfold retire
  rw [if_neg hw]
  unfold retireNow
  dsimp only
  rw [hkey]

theorem Core.emptyBase_spec {c : Core} (hb : b < c.gate.bases.length) (hkey : (c.slot (4096 + b)).st = .active)
    (hw : ¬(c.keep.fwState = 2 ∧ c.keep.fwKind = 1)) :
    c.Moves [.runs, .bases, .slots, .keep] (c.emptyBase b) ∧ (c.emptyBase b).base b = .empty ∧
      ((c.emptyBase b).slot (4096 + b)).st = .retiring := by
  have hset : ∀ d : Core, d.Moves [.keep] ((d.noteTag b).note 6 0xFFFF b 0) := fun d => (d.moves_noteTag b).then (moves_note _ _ _ _ _)
  have hretire := retire_of_active (c := (c.dropRun (16640 + b)).setBase b .empty) (i := 4096 + b) hkey hw
  unfold emptyBase
  rw [hretire]
  refine ⟨(((c.moves_dropRun _).mono.then (moves_setBase _ _ _)).then (moves_setSlot _ _ _)).then (hset _), ?_, ?_⟩
  · refine (base_of_bases ((hset _).frame .bases rfl) b).trans ?_
    exact (base_setBase (c.dropRun (16640 + b)) b b .empty hb).trans (if_pos rfl)
  · rw [slot_of_slots ((hset _).frame .slots rfl), slot_setSlot_any _ _ _ (ne_reset_of_st (fun heq => SlotSt.noConfusion heq)), if_pos rfl]

theorem exec_baseFree (hix : hIndex x.entry = b) (hb : b < 2) (hlen : s.core.gate.bases.length = 2) (hadmin : x.f = s.trim.admin)
    (h : s.core.passes x k [4096 + b]) (hi : Instr.hostForm (.baseFree x) = some (x, k)) :
    let c := s.core
    let r := (c.take x).2
    let fails (code : Nat) : Prop := ∃ t, exec (.baseFree x) s = .next t ∧ t.core.base b = c.base b ∧ State.completes s t r code
    ((c.base b).st ≠ .ready → fails 0x0A0A) ∧
    (let used := c.ctxs.any (fun v => v.2.enable && v.2.baseSlot = b) || c.dir.any (fun d => d.2.st != .free && d.2.baseTag = (c.base b).tag)
     ((c.base b).st = .ready → used = true → fails 0x0A09) ∧
     ((c.base b).st = .ready → used = false → (c.slot (4096 + b)).st = .active → ¬(c.keep.fwState = 2 ∧ c.keep.fwKind = 1) →
       ∃ t, exec (.baseFree x) s = .next t ∧ t.core.base b = .empty ∧ (t.core.slot (4096 + b)).st = .retiring ∧
         State.completes s t r 0)) := by
  obtain rfl : baseFreeForm = k := (Prod.mk.inj (Option.some.inj hi)).2
  subst hix
  have ht := h.1
  have hadm : ((some s.trim.admin).map (fun a => a != x.f)).getD false = false := by
    rw [hadmin]
    exact bne_self_eq_false' s.trim.admin
  have hor : ∀ p : Prop, (hIndex x.entry > 1 ∨ p) = p := fun p => by simp [show ¬ (hIndex x.entry > 1) by omega]
  have hfree : Core.freeBaseSlot s.trim x s.core =
      (if ((s.core.entered x baseFreeForm).base (hIndex x.entry)).st ≠ .ready then (s.core.entered x baseFreeForm).refuse (s.core.take x).2 0x0A0A 0
      else if (s.core.entered x baseFreeForm).ctxs.any (fun v => v.2.enable && v.2.baseSlot = hIndex x.entry) ∨
          (s.core.entered x baseFreeForm).dir.any (fun d => d.2.st != .free &&
            d.2.baseTag = ((s.core.entered x baseFreeForm).base (hIndex x.entry)).tag) then
        (s.core.entered x baseFreeForm).refuse (s.core.take x).2 0x0A09 0
      else ((s.core.entered x baseFreeForm).emptyBase (hIndex x.entry)).complete (s.core.take x).2 0 0) := by
    unfold Core.freeBaseSlot
    dsimp only
    rw [Core.checked_of_passes (slots := fun _ => if hIndex x.entry < 2 then [4096 + hIndex x.entry] else [])
      (by rw [if_pos hb]; exact h) rfl hadm (by decide) rfl]
    exact if_congr (Iff.of_eq (hor _)) rfl rfl
  have hctxs : (s.core.entered x baseFreeForm).ctxs = s.core.ctxs := Core.entered_moves.frame .ctxs rfl
  rw [Core.base_entered, hctxs, Core.dir_entered] at hfree
  have hex : exec (.baseFree x) s = .next (s.after (Core.freeBaseSlot s.trim x s.core)) := rfl
  rw [hfree] at hex
  have hfails : ∀ {code : Nat}, exec (.baseFree x) s = .next (s.after ((s.core.entered x baseFreeForm).refuse (s.core.take x).2 code 0)) →
      ∃ t, exec (.baseFree x) s = .next t ∧ t.core.base (hIndex x.entry) = s.core.base (hIndex x.entry) ∧ s.completes t (s.core.take x).2 code :=
    fun hex => ⟨_, hex, by rw [after_base, base_refuse, Core.base_entered], completes_refuse ht Core.moves_entered _ _⟩
  dsimp only
  refine ⟨fun hst => ?_, fun hst hused => ?_, fun hst hused hkey hw => ?_⟩
  · rw [if_pos hst] at hex
    exact hfails hex
  · rw [if_neg (fun hne => hne hst), if_pos ((Bool.or_eq_true _ _).mp hused)] at hex
    exact hfails hex
  · rw [if_neg (fun hne => hne hst), if_neg (fun hor => Bool.false_ne_true (hused.symm.trans ((Bool.or_eq_true _ _).mpr hor)))] at hex
    have hlen' : hIndex x.entry < (s.core.entered x baseFreeForm).gate.bases.length := by
      rw [show (s.core.entered x baseFreeForm).gate.bases = s.core.gate.bases from Core.entered_moves.frame .bases rfl, hlen]
      exact hb
    have hfw := Core.entered_moves (c := s.core) (x := x) (k := baseFreeForm) |>.frame .fws rfl
    have hstate : (s.core.entered x baseFreeForm).keep.fwState = s.core.keep.fwState := congrArg (fun y => y.2.1) hfw
    have hkind : (s.core.entered x baseFreeForm).keep.fwKind = s.core.keep.fwKind := congrArg (fun y => y.2.2.1) hfw
    obtain ⟨hm, hempty, hret⟩ := Core.emptyBase_spec (c := s.core.entered x baseFreeForm) hlen' (by rw [Core.slot_entered, hkey])
      (by rw [hstate, hkind]; exact hw)
    refine ⟨_, hex, by rw [after_base, base_complete, hempty], ?_,
      completes_complete ht (Core.moves_entered.mono.trans hm.mono : Core.Moves [.ctr, .runs, .bases, .slots, .keep] _ _) 0 0⟩
    rw [Core.slot_of_slots ((congrArg Keep.slots (s.after_keep _)).trans ((Core.moves_complete _ _ _ _).frame .slots rfl)), hret]

end

/-! ## The end of a base load -/

section

variable {s : State} {b : Nat} {r : Req}

theorem Core.baseFail_spec {c : Core} (hb : b < c.gate.bases.length) (hreq : (c.base b).req = some r) (code : Nat) :
    ∃ d : Core, c.Moves [.bases, .runs, .xfers, .keep] d ∧ c.baseFail b code = d.complete r code 0 ∧ d.base b = .empty := by
  unfold baseFail
  extract_lets x c1 c2
  have hm : (c.setBase b .empty).Moves [.runs, .xfers, .keep] c2 :=
    ((moves_dropRun _ (16640 + b)).mono.then (moves_xfers c1 _)).then (moves_noteTag _ _)
  refine ⟨c2, (c.moves_setBase b .empty).mono.trans hm.mono, by rw [show x.req = some r from hreq], ?_⟩
  exact (base_of_bases (hm.frame .bases rfl) b).trans ((base_setBase c b b .empty hb).trans (if_pos rfl))

theorem exec_baseLoadFailed (hb : b < 2) (hlen : s.core.gate.bases.length = 2) (hst : (s.core.base b).st = .loading)
    (hlink : (s.core.base b).link = false) (hreq : (s.core.base b).req = some r) (ha : s.core.answers r) :
    ∃ t, exec (.baseLoadDone b none) s = .next t ∧ t.core.base b = .empty ∧ State.completes s t r 0x0601 := by
  have hm := s.core.moves_dmaFailed r.f
  have hbase : (s.core.dmaFailed r.f).base b = s.core.base b := Core.base_of_bases (hm.frame .bases rfl) b
  obtain ⟨d, hmd, hfail, hempty⟩ := Core.baseFail_spec (c := s.core.dmaFailed r.f) (b := b) (r := r)
    (by rw [show (s.core.dmaFailed r.f).gate.bases = s.core.gate.bases from hm.frame .bases rfl, hlen]; exact hb) (hbase ▸ hreq) 0x0601
  have hdone : Core.baseDone b none s.core s.dram = (d.complete r 0x0601 0, s.dram) := by
    unfold Core.baseDone
    dsimp only
    rw [if_neg (by rw [hst]; simp; omega), if_neg (by rw [hlink]; simp), if_pos (by rw [hlink]; simp), hreq]
    exact congrArg (fun c => (c, s.dram)) hfail
  refine ⟨_, congrArg (fun y : Core × Dram => Host.Outcome.next (s.afterM y.1 y.2)) hdone, ?_, ?_⟩
  · show (s.after (d.complete r 0x0601 0)).core.base b = _
    rw [after_base, base_complete, hempty]
  · exact State.completes_of_moves (x := ⟨r, 0x0601, 0, []⟩) (hm.mono.trans hmd.mono : s.core.Moves [.ctr, .bases, .runs, .xfers, .keep] d)
      rfl rfl rfl ha List.prefix_rfl

/-- A base whose pages read well is READY with its hash, and the command that loaded it completes (R398). -/
theorem Core.measureBase_spec {c c' : Core} {dr : Dram} {ps : List (Nat × List Line)} (hb : b < c.gate.bases.length) (hreq : (c.base b).req = some r)
    (hread : c.readAll dr (16640 + b) (List.range (ceilDiv (c.base b).bytes 4096)) = (c', .ok ps)) :
    ∃ d : Core, c.Moves [.ctr, .chans, .bases, .xfers, .keep] d ∧ c.measureBase b dr = d.complete r 0 0 ∧
      d.base b = { c.base b with
        st := .ready, hash := Config.sha384 (((ps.flatMap (fun p => p.2)).flatMap lineBytes).take (c.base b).bytes), req := none } := by
  have hmr := c.moves_readAll dr (16640 + b) (List.range (ceilDiv (c.base b).bytes 4096))
  rw [hread] at hmr
  have hb' : b < c'.gate.bases.length := by
    rw [show c'.gate.bases = c.gate.bases from hmr.frame .bases rfl]
    exact hb
  unfold measureBase
  dsimp only
  rw [hread]
  dsimp only
  rw [hreq]
  generalize Config.sha384 (((ps.flatMap (fun p => p.2)).flatMap lineBytes).take (c.base b).bytes) = h
  have hnote : (c'.setBase b { c.base b with st := .ready, hash := h, req := none }).Moves [.xfers, .keep]
      ({ c'.setBase b { c.base b with st := .ready, hash := h, req := none } with
        xfers := (c'.setBase b { c.base b with st := .ready, hash := h, req := none }).xfers.filter (fun y => !decide (y.role = XferRole.base b)) }.note
          5 0xFFFF b h) := (moves_xfers _ _).mono.then (moves_note _ _ _ _ _)
  refine ⟨_, (hmr.mono.then (moves_setBase _ _ _)).trans hnote.mono, rfl, ?_⟩
  exact (base_of_bases (hnote.frame .bases rfl) b).trans ((base_setBase c' b b _ hb').trans (if_pos rfl))

theorem exec_baseLoaded (hb : b < 2) (hlen : s.core.gate.bases.length = 2) (hst : (s.core.base b).st = .loading)
    (hlink : (s.core.base b).link = false) (hreq : (s.core.base b).req = some r) (ha : s.core.answers r)
    (src : List Byte) (ps : List (Nat × List Line)) (c' : Core) (hrun : (s.core.runEnt (16640 + b)).isSome = true)
    (hread : (Core.landBase b src s.core s.dram).1.readAll (Core.landBase b src s.core s.dram).2 (16640 + b)
      (List.range (ceilDiv (s.core.base b).bytes 4096)) = (c', .ok ps)) :
    ∃ t, exec (.baseLoadDone b (some src)) s = .next t ∧ t.dram = (Core.landBase b src s.core s.dram).2 ∧
      (t.core.base b).st = .ready ∧ (t.core.base b).tag = (s.core.base b).tag ∧
      (t.core.base b).hash = Config.sha384 (((ps.flatMap (fun p => p.2)).flatMap lineBytes).take (s.core.base b).bytes) ∧
      State.completes s t r 0 := by
  have hm := s.core.moves_landBase b src s.dram
  have hbase : (Core.landBase b src s.core s.dram).1.base b = s.core.base b := Core.base_of_bases (hm.frame .bases rfl) b
  obtain ⟨d, hmd, hmeasure, hready⟩ := Core.measureBase_spec (c := (Core.landBase b src s.core s.dram).1) (b := b) (r := r) (c' := c') (ps := ps)
    (dr := (Core.landBase b src s.core s.dram).2)
    (by rw [show (Core.landBase b src s.core s.dram).1.gate.bases = s.core.gate.bases from hm.frame .bases rfl, hlen]; exact hb)
    (hbase ▸ hreq) (by rw [hbase]; exact hread)
  have hdone : Core.baseDone b (some src) s.core s.dram = (d.complete r 0 0, (Core.landBase b src s.core s.dram).2) := by
    unfold Core.baseDone
    dsimp only
    rw [if_neg (by rw [hst]; simp; omega), if_neg (by rw [hlink]; simp), if_neg (by rw [hlink]; simp), hrun, if_pos rfl]
    exact congrArg (fun c => (c, (Core.landBase b src s.core s.dram).2)) hmeasure
  have hend : ((s.afterM (d.complete r 0 0) (Core.landBase b src s.core s.dram).2).core).base b = d.base b := by
    show (s.after (d.complete r 0 0)).core.base b = _
    rw [after_base, base_complete]
  rw [hready, hbase] at hend
  refine ⟨_, congrArg (fun y : Core × Dram => Host.Outcome.next (s.afterM y.1 y.2)) hdone, rfl, ?_, ?_, ?_, ?_⟩
  · exact congrArg Base.st hend
  · exact (congrArg Base.tag hend :)
  · exact (congrArg Base.hash hend :)
  · exact State.completes_of_moves (x := ⟨r, 0, 0, []⟩) (hm.mono.trans hmd.mono : s.core.Moves [.ctr, .chans, .dir, .bases, .xfers, .keep] d)
      rfl rfl rfl ha List.prefix_rfl

end

/-- Settles O47: the loading, the end of a load and the freeing of a base slot. -/
theorem baseSlots : Obligations.BaseSlots :=
  ⟨fun _ _ _ _ hix hb hlen hadmin h => ⟨exec_baseLoad hix hb hlen hadmin h, exec_baseFree hix hb hlen hadmin h⟩,
    fun _ _ _ hb hlen hst hlink hreq ha => ⟨exec_baseLoadFailed hb hlen hst hlink hreq ha, exec_baseLoaded hb hlen hst hlink hreq ha⟩⟩

end Sys2Proof.Machine

/-! # SUBMIT_SEGMENT and IMAGE_HASH -/

namespace Sys2Proof.Machine

set_option Elab.async false

/-- A chain of checks that gives 0 has passed its first. -/
theorem of_check_eq_zero {p : Prop} [Decidable p] {a b : Nat} (h : (if p then a else b) = 0) (ha : a ≠ 0) : ¬p ∧ b = 0 := by
  by_cases hp : p
  · rw [if_pos hp] at h
    exact absurd h ha
  · exact ⟨hp, (if_neg hp).symm.trans h⟩

namespace Core

variable {c d : Core} {y : Seg}

/-- The conditions on the members of a segment that its hand-over looks at again (R181, R206). -/
theorem of_memberCode {f : FnId} {n : Nat} {im : Image} {resupport : Bool} (h : c.memberCode f n im resupport = 0) :
    ¬(im.training = true ∧ im.ctxs.any (fun x => (c.ctx? x).any (fun v => v.commit.step = 2 ^ 32 - 1)) = true) ∧
      ¬(resupport = true ∧ im.adapts.any (fun i => (c.desc i).claimant ≠ 0 ∨ (c.desc i).pins ≠ 0) = true) := by
  unfold memberCode at h
  dsimp only at h
  have h := (of_check_eq_zero h (by decide)).2
  have h := (of_check_eq_zero h (by decide)).2
  have h := (of_check_eq_zero h (by decide)).2
  have h := (of_check_eq_zero h (by decide)).2
  have h := (of_check_eq_zero h (by decide)).2
  have h := (of_check_eq_zero h (by decide)).2
  have h := (of_check_eq_zero h (by decide)).2
  have h := (of_check_eq_zero h (by decide)).2
  have h := (of_check_eq_zero h (by decide)).2
  have h := (of_check_eq_zero h (by decide)).2
  obtain ⟨hstep, h⟩ := of_check_eq_zero h (by decide)
  have h := (of_check_eq_zero h (by decide)).2
  obtain ⟨hclaim, -⟩ := of_check_eq_zero h (by decide)
  refine ⟨fun ⟨htr, hany⟩ => hstep ⟨htr, ?_⟩, hclaim⟩
  obtain ⟨x, hx, hv⟩ := List.any_eq_true.1 hany
  cases hc : c.ctx? x with
  | none =>
    rw [hc] at hv
    exact Bool.noConfusion hv
  | some v =>
    rw [hc] at hv
    refine List.any_eq_true.2 ⟨v, List.mem_filterMap.2 ⟨some v, ?_, rfl⟩, hv⟩
    exact List.mem_map.2 ⟨x, List.mem_dedup.2 hx, hc⟩

/-- Pinning adds to each adaptation as many pins as the list names it. -/
theorem desc_pinAll (j : Nat) (is : List Nat) : ∀ c : Core, (c.pinAll is).desc j = { c.desc j with pins := (c.desc j).pins + is.count j } := by
  induction is with
  | nil => exact fun c => rfl
  | cons i is ih =>
    intro c
    show ((c.updDesc i (fun d => { d with pins := d.pins + 1 })).pinAll is).desc j = _
    rw [ih, updDesc, desc_setDesc_any _ _ (fun heq => Nat.succ_ne_zero _ (congrArg Desc.pins heq)), List.count_cons]
    by_cases hj : j = i
    · subst hj
      rw [if_pos rfl]
      simp only [beq_self_eq_true, if_true]
      rw [Nat.add_assoc, Nat.add_comm 1]
    · rw [if_neg hj]
      simp [Ne.symm hj]

theorem nodup_toPin (c : Core) (y : Seg) : (c.toPin y).Nodup := (List.nodup_dedup _).filter _

/-- A segment queued behind the others, which pins its adaptations. -/
def addSeg (c : Core) (y : Seg) : Core := { c with segs := c.segs ++ [y], nextSeg := c.nextSeg + 1 }.pinAll y.pinned

theorem moves_add (c : Core) (y : Seg) : c.Moves [.segs, .nextSeg, .dir] (c.addSeg y) := (c.moves_addSeg y _).mono.then (moves_pinAll _ _)

theorem segs_addSeg (c : Core) (y : Seg) : (c.addSeg y).segs = c.segs ++ [y] :=
  (moves_pinAll { c with segs := c.segs ++ [y], nextSeg := c.nextSeg + 1 } y.pinned).frame .segs rfl

theorem nextSeg_addSeg (c : Core) (y : Seg) : (c.addSeg y).nextSeg = c.nextSeg + 1 :=
  (moves_pinAll { c with segs := c.segs ++ [y], nextSeg := c.nextSeg + 1 } y.pinned).frame .nextSeg rfl

/-- A new segment whose members meet every condition meets those of its hand-over (R181, R206, R267). -/
theorem handCode_addSeg {f : FnId} {n : Nat} (h : c.memberCode f n y.img y.resupport = 0) (hpin : y.pinned = c.toPin { y with pinned := [] })
    (hplace : c.unplaceable y.raw.length = false) : (c.addSeg y).handCode y = 0 := by
  obtain ⟨hstep, hclaim⟩ := of_memberCode h
  have hm := c.moves_add y
  have hctx : ∀ x, (c.addSeg y).ctx? x = c.ctx? x := ctx_of_ctxs (hm.frame .ctxs rfl)
  have hunits : (c.addSeg y).unplaceable y.raw.length = c.unplaceable y.raw.length := by
    rw [unplaceable, unplaceable, ctxUnits, ctxUnits, show (c.addSeg y).gate.units = c.gate.units from congrArg Prod.fst (hm.frame .pool rfl)]
  unfold handCode
  rw [if_neg (by simpa only [hctx] using hstep), hunits, hplace, if_neg ?_, if_neg Bool.false_ne_true]
  rintro ⟨hre, hall⟩
  refine Bool.noConfusion (hall.symm.trans (congrArg (! ·) (List.all_eq_true.2 (fun i hi => ?_))))
  have hfree : (c.desc i).claimant = 0 ∧ (c.desc i).pins = 0 := by
    by_contra hne
    refine hclaim ⟨hre, List.any_eq_true.2 ⟨i, hi, decide_eq_true ?_⟩⟩
    by_cases h0 : (c.desc i).claimant = 0
    · exact Or.inr (fun hp => hne ⟨h0, hp⟩)
    · exact Or.inl h0
  have hdesc : (c.addSeg y).desc i = { c.desc i with pins := (c.desc i).pins + y.pinned.count i } := desc_pinAll i y.pinned _
  have hcount : y.pinned.count i ≤ b2n (y.pinned.contains i) := by
    by_cases hmem : i ∈ y.pinned
    · rw [List.contains_iff_mem.2 hmem]
      exact List.nodup_iff_count_le_one.1 (by rw [hpin]; exact nodup_toPin _ _) i
    · rw [List.count_eq_zero_of_not_mem hmem]
      exact Nat.zero_le _
  unfold mayResupport
  dsimp only
  rw [hdesc]
  dsimp only
  rw [hfree.1, hfree.2, Nat.zero_add, decide_eq_true hcount]
  rfl

/-- An image that may be handed over is placed or waits for room. -/
theorem placeImage_mem (tr : Trim) (h : c.handCode y = 0) (hy : y ∈ c.segs) :
    ∃ z ∈ (placeImage tr c y).segs, (z.st = .handed ∨ z.st = .waiting) ∧ z.id = y.id ∧ z.ctx = y.ctx ∧ z.req = y.req ∧ z.raw = y.raw := by
  have hy' : y ∈ (c.claimResupport y).segs := by
    rw [show (c.claimResupport y).segs = c.segs from (c.moves_claimResupport y).frame .segs rfl]
    exact hy
  have hp : placeImage tr c y =
      (if (c.claimResupport y).coreUp 3 ∧ (c.claimResupport y).poolUsed + (c.claimResupport y).unitsFor y.raw.length ≤ poolSize then
        ((c.claimResupport y).setSeg { y with st := .handed, pooled := (c.claimResupport y).unitsFor y.raw.length }).allocUnits (.image y.id)
          ((c.claimResupport y).unitsFor y.raw.length)
      else (c.claimResupport y).setSeg { y with st := .waiting }) := by
    unfold placeImage
    rw [h]
    rfl
  rw [hp]
  split
  · refine ⟨{ y with st := .handed, pooled := (c.claimResupport y).unitsFor y.raw.length }, ?_, Or.inl rfl, rfl, rfl, rfl, rfl⟩
    have hsegs : (((c.claimResupport y).setSeg { y with st := .handed, pooled := (c.claimResupport y).unitsFor y.raw.length }).allocUnits
          (.image y.id) ((c.claimResupport y).unitsFor y.raw.length)).segs =
        ((c.claimResupport y).setSeg { y with st := .handed, pooled := (c.claimResupport y).unitsFor y.raw.length }).segs :=
      (moves_allocUnits _ _ _).frame .segs rfl
    rw [hsegs]
    exact mem_setSeg hy' rfl
  · exact ⟨{ y with st := .waiting }, mem_setSeg hy' rfl, Or.inr rfl, rfl, rfl, rfl, rfl⟩

/-! ## The ways a new segment goes -/

variable {tr : Trim} {park : Nat}

/-- The segment as it is queued, with the adaptations it pins. -/
def pinning (c : Core) (y : Seg) : Seg := { y with pinned := c.toPin y }

theorem queueSeg_unready (h : c.ready y = false) (hpark : park = 0xFFFF) :
    ∃ record, c.queueSeg tr y park = (c.bump 0x448 1).post ⟨y.req, 0x0A06, 0, record⟩ := by
  unfold queueSeg
  dsimp only
  rw [h, if_pos (by simp [hpark])]
  exact ⟨_, rfl⟩

theorem queueSeg_full (h : c.ready y = false) (hpark : park ≠ 0xFFFF) (hfull : 4096 ≤ c.parked) :
    ∃ record, c.queueSeg tr y park = c.post ⟨y.req, 0x0A08, 0, record⟩ := by
  unfold queueSeg
  dsimp only
  rw [h, if_neg (by simp [hpark]), if_pos (by simp [hfull])]
  exact ⟨_, rfl⟩

theorem queueSeg_parks (h : c.ready y = false) (hpark : park ≠ 0xFFFF) (hroom : c.parked < 4096) :
    ∃ z, c.queueSeg tr y park = (c.addSeg z).kick tr := by
  unfold queueSeg
  dsimp only
  rw [h, if_neg (by simp [hpark]), if_neg (by simp [hroom]), if_pos (by decide)]
  exact ⟨_, rfl⟩

theorem queueSeg_waits (h : c.ready y = true) (hbefore : c.segs.any (fun z => z.ctx = y.ctx && (z.st = .parked || z.st = .waiting)) = true) :
    c.queueSeg tr y park = c.addSeg { c.pinning y with st := .waiting } := by
  unfold queueSeg
  dsimp only
  rw [h, if_neg (by simp), if_neg (by simp), if_neg (by decide), if_pos hbefore]
  rfl

theorem queueSeg_places (h : c.ready y = true) (hbefore : c.segs.any (fun z => z.ctx = y.ctx && (z.st = .parked || z.st = .waiting)) = false) :
    c.queueSeg tr y park = (c.addSeg (c.pinning y)).placeImage tr (c.pinning y) := by
  unfold queueSeg
  dsimp only
  rw [h, if_neg (by simp), if_neg (by simp), if_neg (by decide), if_neg (by rw [hbefore]; exact Bool.false_ne_true)]
  rfl

end Core

section

variable {s : State} {x : HostCmd} {k : Form} {v : Ctx}

/-- The form of SUBMIT_SEGMENT (R345). -/
def submitForm : Form := ⟨1, 3, true, true, fun n => decide (1 ≤ n ∧ n ≤ 2 ^ 25), 0, true⟩

/-- The segment that a SUBMIT_SEGMENT describes. -/
def submitted (x : HostCmd) (id : Nat) (r : Req) : Seg := newSeg id (hCtx x.entry) r (hData x) (bit (hFlags x.entry) 0) (bit (hFlags x.entry) 1)

/-- What SUBMIT_SEGMENT does once its checks passed, as the model says it. -/
def Core.submitWith (tr : Trim) (x : HostCmd) (c : Core) (r : Req) (n : Nat) (_ : Ctx) (d : List Byte) : Core :=
  let y := newSeg c.nextSeg n r d (bit (hFlags x.entry) 0) (bit (hFlags x.entry) 1)
  match c.memberCode x.f n y.img y.resupport with
  | 0 => if c.unplaceable d.length then c.refuseWith r 0x0A0F (emptyRecord tr c r) else c.queueSeg tr y (hPark x.entry)
  | code => c.refuseWith r code (emptyRecord tr c r)

theorem Core.submit_eq (tr : Trim) (x : HostCmd) :
    Core.submit tr x = Core.ctxCmdWith (emptyRecord tr) x submitForm (Core.submitWith tr x) := rfl

/-- A member that fails its check. -/
theorem Core.submitWith_refused {e : Core} {tr : Trim} {x : HostCmd} {r : Req} {v : Ctx} {code : Nat}
    (hcode : e.memberCode x.f (hCtx x.entry) (submitted x e.nextSeg r).img (submitted x e.nextSeg r).resupport = code) (h0 : code ≠ 0) :
    e.submitWith tr x r (hCtx x.entry) v (hData x) = e.refuseWith r code (emptyRecord tr e r) := by
  obtain ⟨m, rfl⟩ := Nat.exists_eq_succ_of_ne_zero h0
  unfold Core.submitWith
  rw [show newSeg e.nextSeg (hCtx x.entry) r (hData x) (bit (hFlags x.entry) 0) (bit (hFlags x.entry) 1) = submitted x e.nextSeg r from rfl]
  dsimp only
  rw [hcode]
  rfl

/-- A member that passes its check. -/
theorem Core.submitWith_passed {e : Core} {tr : Trim} {x : HostCmd} {r : Req} {v : Ctx}
    (hcode : e.memberCode x.f (hCtx x.entry) (submitted x e.nextSeg r).img (submitted x e.nextSeg r).resupport = 0) :
    e.submitWith tr x r (hCtx x.entry) v (hData x) = if e.unplaceable (hData x).length then e.refuseWith r 0x0A0F (emptyRecord tr e r)
      else e.queueSeg tr (submitted x e.nextSeg r) (hPark x.entry) := by
  unfold Core.submitWith
  rw [show newSeg e.nextSeg (hCtx x.entry) r (hData x) (bit (hFlags x.entry) 0) (bit (hFlags x.entry) 1) = submitted x e.nextSeg r from rfl]
  dsimp only
  rw [hcode]
  rfl

/-- SUBMIT_SEGMENT once the checks of R346 passed. -/
theorem exec_submit_passed (h : s.core.onCtx x submitForm v) :
    exec (.submitSegment x) s = .next (s.after ((s.core.began x submitForm).submitWith s.trim x (s.core.take x).2 (hCtx x.entry)
      (v.readBy x.dome) (hData x))) := by
  refine (show exec (.submitSegment x) s = .next (s.after (Core.submit s.trim x s.core)) from rfl).trans
    (congrArg (fun d => Host.Outcome.next (s.after d)) ?_)
  rw [Core.submit_eq, Core.ctxCmdWith_of_onCtx h rfl, if_pos (show submitForm.reads = true from rfl)]

/-- A command of the Gatehouse that ends with a post leaves the segments as they were. -/
theorem posted {w : List Part} {d : Core} {code : Nat} {record : List Byte} (ht : s.core.takes x.f x.q = true) (hm : (s.core.take x).1.Moves w d)
    (hex : exec (.submitSegment x) s = .next (s.after (d.post ⟨(s.core.take x).2, code, 0, record⟩)))
    (hsegs : w.contains .segs = false := by rfl) (hports : w.contains .ports = false := by rfl) (hcores : w.contains .cores = false := by rfl)
    (hfws : w.contains .fws = false := by rfl) :
    ∃ t, exec (.submitSegment x) s = .next t ∧ t.core.segs = s.core.segs ∧ s.completes t (s.core.take x).2 code := by
  refine ⟨_, hex, ?_, State.completes_of_take ht hm List.prefix_rfl hports hcores hfws⟩
  rw [State.after_segs]
  have hpost : (d.post ⟨(s.core.take x).2, code, 0, record⟩).segs = d.segs := (Core.moves_post _ _).frame .segs rfl
  have hd : d.segs = (s.core.take x).1.segs := hm.frame .segs hsegs
  exact hpost.trans (hd.trans ((s.core.moves_take x).frame .segs rfl))

theorem exec_submitSegment (hi : Instr.hostForm (.submitSegment x) = some (x, k)) (h : s.core.onCtx x k v) :
    let c := s.core
    let n := hCtx x.entry
    let r := (c.take x).2
    let c1 := (c.entered x k).ctxRead n x.dome
    let y := newSeg c1.nextSeg n r (hData x) (bit (hFlags x.entry) 0) (bit (hFlags x.entry) 1)
    let code := c1.memberCode x.f n y.img y.resupport
    let fails (code : Nat) : Prop :=
      ∃ t, exec (.submitSegment x) s = .next t ∧ t.core.segs = c.segs ∧ State.completes s t r code
    (code ≠ 0 → fails code) ∧
    (code = 0 → c1.unplaceable (hData x).length = true → fails 0x0A0F) ∧
    (code = 0 → c1.unplaceable (hData x).length = false →
      (c1.ready y = false → hPark x.entry = 0xFFFF → fails 0x0A06) ∧
      (c1.ready y = false → hPark x.entry ≠ 0xFFFF → 4096 ≤ c.parked → fails 0x0A08) ∧
      (c1.ready y = false → hPark x.entry ≠ 0xFFFF → c.parked < 4096 →
        ∃ t, exec (.submitSegment x) s = .next t ∧ t.core.nextSeg = c.nextSeg + 1) ∧
      (c1.ready y = true → c.segs.any (fun z => z.ctx = n && (z.st = .parked || z.st = .waiting)) = true →
        ∃ t, exec (.submitSegment x) s = .next t ∧ t.core.segs = c.segs ++ [{ y with st := .waiting, pinned := c1.toPin y }]) ∧
      (c1.ready y = true → c.segs.any (fun z => z.ctx = n && (z.st = .parked || z.st = .waiting)) = false →
        ∃ t, exec (.submitSegment x) s = .next t ∧ ∃ z ∈ t.core.segs, (z.st = .handed ∨ z.st = .waiting) ∧
          z.id = c.nextSeg ∧ z.ctx = n ∧ z.req = r ∧ z.raw = (hData x))) := by
  obtain rfl : submitForm = k := (Prod.mk.inj (Option.some.inj hi)).2
  have ht := h.2.1.1
  have hex := exec_submit_passed h
  dsimp only at hex ⊢
  have hm : (s.core.take x).1.Moves [.failN, .ctxs, .ctr] (s.core.began x submitForm) := Core.moves_began
  have hsegs : (s.core.began x submitForm).segs = s.core.segs := Core.segs_began
  have hnext : (s.core.began x submitForm).nextSeg = s.core.nextSeg := Core.began_moves.frame .nextSeg rfl
  have hparked : s.core.parked = (s.core.began x submitForm).parked := by rw [Core.parked, Core.parked, hsegs]
  rw [hparked, ← hsegs, show (s.core.entered x submitForm).ctxRead (hCtx x.entry) x.dome = s.core.began x submitForm from rfl]
  generalize s.core.began x submitForm = e at hex hm hsegs hnext ⊢
  rw [← hnext]
  change _ ∧ _
  have hy : newSeg e.nextSeg (hCtx x.entry) (s.core.take x).2 (hData x) (bit (hFlags x.entry) 0) (bit (hFlags x.entry) 1) =
    submitted x e.nextSeg (s.core.take x).2 := rfl
  rw [hy]
  obtain ⟨y, hyy⟩ : ∃ y, y = submitted x e.nextSeg (s.core.take x).2 := ⟨_, rfl⟩
  have hreq : y.req = (s.core.take x).2 := by rw [hyy]; rfl
  have hctx : y.ctx = hCtx x.entry := by rw [hyy]; rfl
  have hraw : y.raw = hData x := by rw [hyy]; rfl
  have hid : y.id = e.nextSeg := by rw [hyy]; rfl
  have hpinned : y.pinned = [] := by rw [hyy]; rfl
  rw [← hyy]
  refine ⟨fun h0 => ?_, fun h0 hun => ?_, fun h0 hun => ?_⟩
  · rw [Core.submitWith_refused (hyy ▸ rfl) h0] at hex
    rw [hsegs]
    exact posted ht (hm.then (Core.moves_bump _ _ _)) hex
  · rw [Core.submitWith_passed (hyy ▸ h0), if_pos hun] at hex
    rw [hsegs]
    exact posted ht (hm.then (Core.moves_bump _ _ _)) hex
  · have hcode := h0
    rw [Core.submitWith_passed (hyy ▸ h0), if_neg (by rw [hun]; exact Bool.false_ne_true), ← hyy] at hex
    refine ⟨fun hr hp => ?_, fun hr hp hfull => ?_, fun hr hp hroom => ?_, fun hr hb => ?_, fun hr hb => ?_⟩
    · obtain ⟨record, hq⟩ := Core.queueSeg_unready (tr := s.trim) hr hp
      rw [hq, hreq] at hex
      rw [hsegs]
      exact posted ht (hm.then (Core.moves_bump _ _ _)) hex
    · obtain ⟨record, hq⟩ := Core.queueSeg_full (tr := s.trim) hr hp hfull
      rw [hq, hreq] at hex
      rw [hsegs]
      exact posted ht hm hex
    · obtain ⟨z, hq⟩ := Core.queueSeg_parks (tr := s.trim) hr hp hroom
      rw [hq] at hex
      refine ⟨_, hex, ?_⟩
      rw [State.after_nextSeg, show ((e.addSeg z).kick s.trim).nextSeg = (e.addSeg z).nextSeg from (Core.moves_kick _ _).frame .nextSeg rfl,
        Core.nextSeg_addSeg]
    · rw [Core.queueSeg_waits hr (by rw [hctx]; exact hb)] at hex
      refine ⟨_, hex, ?_⟩
      rw [State.after_segs, Core.segs_addSeg]
      rfl
    · rw [Core.queueSeg_places hr (by rw [hctx]; exact hb)] at hex
      have hhand := Core.handCode_addSeg (c := e) (y := e.pinning y) (f := x.f) (n := hCtx x.entry) hcode
        (by rw [Core.pinning, ← hpinned]) (by rw [show (e.pinning y).raw = y.raw from rfl, hraw]; exact hun)
      obtain ⟨z, hz, hst, hzid, hzctx, hzreq, hzraw⟩ := Core.placeImage_mem s.trim hhand (by rw [Core.segs_addSeg]; exact List.mem_append_right _ (List.mem_singleton_self _))
      refine ⟨_, hex, z, by rw [State.after_segs]; exact hz, hst, hzid.trans hid, hzctx.trans hctx, hzreq.trans hreq, hzraw.trans hraw⟩

/-! ## IMAGE_HASH -/

theorem exec_imageHash (hi : Instr.hostForm (.imageHash x) = some (x, k)) (h : s.core.onCtx x k v) :
    let c := s.core
    let n := hCtx x.entry
    let r := (c.take x).2
    (c.hostImages v = true → ∃ (t : State) (v' : Ctx), exec (.imageHash x) s = .next t ∧ t.core.ctx? n = some v' ∧
      v'.hashes = v.hashes.set 0 (hArg x.entry 0x20 2) (BitVec.ofNat 384 (leNat (hData x))) ∧ State.completes s t r 0) ∧
    (c.hostImages v = false → ∃ t, exec (.imageHash x) s = .next t ∧ State.completes s t r 0x050D) := by
  have hbit : ¬ bit (hFlags x.entry) 0 = true := by
    intro hb
    rw [Instr.hostForm, if_pos hb] at hi
    cases hi
  rw [Instr.hostForm, if_neg hbit] at hi
  obtain rfl := (Prod.mk.inj (Option.some.inj hi)).2
  have ht := h.2.1.1
  have hctx := Core.ctx_began (k := ⟨2, 0, true, true, fun n => n = 48, argBits 0x20 2, decide (hArg x.entry 0x20 2 < 64)⟩) h.1
  have hex : exec (.imageHash x) s = .next (s.after (if bit (hFlags x.entry) 0 then s.core else Core.ctxCmd x _ _ s.core)) := rfl
  rw [if_neg hbit, Core.ctxCmd, Core.ctxCmdWith_of_onCtx h rfl] at hex
  dsimp only at hex ⊢
  rw [Core.hostImages_began, if_pos rfl] at hex
  refine ⟨fun hon => ?_, fun hoff => ?_⟩
  · rw [hon] at hex
    exact carried ht (Core.moves_began.mono.then (Core.moves_updCtxD _ _ _) : Core.Moves [.failN, .ctxs, .ctr, .keep] _ _)
      (Core.ctx_updCtxD hctx _).1 hex (by dsimp only; rw [readBy_same Ctx.hashes (fun _ => rfl)])
  · rw [hoff] at hex
    exact ⟨_, hex, completes_refuse ht Core.moves_began _ _⟩

theorem exec_imageHashClear (hi : Instr.hostForm (.imageHashClear x) = some (x, k)) (h : s.core.onCtx x k v) :
    let n := hCtx x.entry
    let r := (s.core.take x).2
    ∃ (t : State) (v' : Ctx), exec (.imageHashClear x) s = .next t ∧ t.core.ctx? n = some v' ∧
      v'.hashes = v.hashes.set 0 (hArg x.entry 0x20 2) 0 ∧ State.completes s t r 0 := by
  have hbit : bit (hFlags x.entry) 0 = true := by
    by_contra hb
    rw [Instr.hostForm, if_neg hb] at hi
    cases hi
  rw [Instr.hostForm, if_pos hbit] at hi
  obtain rfl := (Prod.mk.inj (Option.some.inj hi)).2
  have ht := h.2.1.1
  have hctx := Core.ctx_began (k := ⟨2, 1, true, false, fun n => n = 0, argBits 0x20 2, decide (hArg x.entry 0x20 2 < 64)⟩) h.1
  have hex : exec (.imageHashClear x) s = .next (s.after (if !bit (hFlags x.entry) 0 then s.core else Core.ctxCmd x _ _ s.core)) := rfl
  rw [hbit, if_neg (by decide), Core.ctxCmd, Core.ctxCmdWith_of_onCtx h rfl] at hex
  dsimp only at hex ⊢
  exact carried ht (Core.moves_began.mono.then (Core.moves_updCtxD _ _ _) : Core.Moves [.failN, .ctxs, .ctr, .keep] _ _)
    (Core.ctx_updCtxD hctx _).1 hex (by dsimp only; rw [readBy_same Ctx.hashes (fun _ => rfl)])

end

/-- Settles O43: a segment submitted is refused, parks, waits or is handed over, and the hash list is written. -/
theorem segmentsSubmitted : Obligations.SegmentsSubmitted := fun _ _ _ _ =>
  ⟨exec_submitSegment, exec_imageHash, exec_imageHashClear⟩

end Sys2Proof.Machine

/-! # Resets (17: R459 to R463)

A region reset fences its region and takes its towers to reset values; a warm reset stops everything and keeps the Keep's slots;
a cold reset keeps flash alone. -/

namespace Sys2Proof.Machine

set_option Elab.async false

/-! ## What a move keeps, part by part -/

namespace Core.Moves

variable {c d : Core} {w : List Part}

theorem clk_eq (h : c.Moves w d) (hw : w.contains .clk = false) : d.clk = c.clk := h.frame .clk hw
theorem towers_eq (h : c.Moves w d) (hw : w.contains .towers = false) : d.towers = c.towers := h.frame .towers hw
theorem prc_eq (h : c.Moves w d) (hw : w.contains .prc = false) : d.prc = c.prc := h.frame .prc hw
theorem blf_eq (h : c.Moves w d) (hw : w.contains .blf = false) : d.blf = c.blf := h.frame .blf hw
theorem segs_eq (h : c.Moves w d) (hw : w.contains .segs = false) : d.segs = c.segs := h.frame .segs hw
theorem links_eq (h : c.Moves w d) (hw : w.contains .links = false) : d.links = c.links := h.frame .links hw
theorem slots_eq (h : c.Moves w d) (hw : w.contains .slots = false) : d.keep.slots = c.keep.slots := h.frame .slots hw
theorem xfers_eq (h : c.Moves w d) (hw : w.contains .xfers = false) : d.xfers = c.xfers := congrArg Prod.fst (h.frame .xfers hw)
theorem sessions_eq (h : c.Moves w d) (hw : w.contains .sessions = false) : d.keep.sessions = c.keep.sessions :=
  congrArg Prod.fst (h.frame .sessions hw)
theorem ready_eq (h : c.Moves w d) (hw : w.contains .cores = false) : d.gate.ready = c.gate.ready :=
  congrArg Prod.fst (h.frame .cores hw)
theorem resets_eq (h : c.Moves w d) (hw : w.contains .keep = false) : d.keep.resets = c.keep.resets := by
  have hk : (Part.view .keep d : Keep) = Part.view .keep c := h.frame .keep hw
  have hf := congrArg Keep.resets hk
  exact hf
theorem waiting_eq (h : c.Moves w d) (hw : w.contains .keep = false) : d.keep.waiting = c.keep.waiting := by
  have hk : (Part.view .keep d : Keep) = Part.view .keep c := h.frame .keep hw
  have hf := congrArg Keep.waiting hk
  exact hf
end Core.Moves

section Region

variable {c : Core}

/-- A tower as the reset of its region leaves it. -/
def Tower.fencedReset (now : Nat) : Tower := { Tower.reset (now + selfTestBeats) with fenced := true }

theorem Core.tower_setTower_self {k : Nat} (x : Tower) (h : k < c.towers.length) : (c.setTower k x).tower k = x :=
  (Core.tower_setTower c k k x h).trans (if_pos rfl)

/-- Towers taken to their reset values, one after the other. -/
theorem Core.tower_resetTowers (ks : List Nat) (k : Nat) (hlen : k < c.towers.length) :
    (ks.foldl (fun (d : Core) j => d.setTower j { Tower.reset (d.clk.nominal + selfTestBeats) with fenced := true }) c).tower k =
      if k ∈ ks then Tower.fencedReset c.clk.nominal else c.tower k := by
  induction ks generalizing c with
  | nil => rfl
  | cons j js ih =>
    rw [List.foldl_cons, ih (by rw [Core.setTower]; simpa using hlen)]
    by_cases hjs : k ∈ js
    · rw [if_pos hjs, if_pos (List.mem_cons_of_mem _ hjs)]
      rfl
    · rw [if_neg hjs]
      by_cases hj : k = j
      · subst hj
        rw [if_pos List.mem_cons_self]
        exact Core.tower_setTower_self _ hlen
      · rw [if_neg (by simp [hj, hjs])]
        exact Core.tower_setTower_of_ne _ _ hj

theorem Core.moves_clearTowers_towers (r : Nat) : c.Moves [.regs, .locks, .ctr, .towers] (c.clearTowers r) := by
  unfold clearTowers
  extract_lets mine c1
  have h1 : c.Moves [.regs, .locks, .ctr, .towers] c1 := (c.moves_regsLocks _ _).mono.then (moves_clearCtr _ mine)
  clear_value c1
  exact h1.then (c1.moves_setTowers _ _)

theorem Core.tower_clearTowers (r : Nat) {k : Nat} (hlo : 4 * r ≤ k) (hhi : k < 4 * r + 4) (hlen : k < c.towers.length) :
    (c.clearTowers r).tower k = Tower.fencedReset c.clk.nominal := by
  unfold clearTowers
  extract_lets mine c1
  have h1 : c1.towers = c.towers ∧ c1.clk = c.clk := ⟨rfl, rfl⟩
  clear_value c1
  rw [Core.tower_resetTowers _ k (by rw [h1.1]; exact hlen), if_pos (List.mem_range'_1.2 ⟨hlo, hhi⟩), h1.2]

theorem Core.towers_wake_unfilled (tr : Trim) (n k : Nat) : ((c.wake tr).unfilled n k).towers = c.towers :=
  ((c.moves_wake tr).then (moves_unfilled _ _ _) : c.Moves fetchParts _).towers_eq rfl

theorem Core.clk_fence (tr : Trim) (r cause value : Nat) : (c.fence tr r cause value).clk = c.clk :=
  (c.moves_fence tr r cause value).clk_eq rfl

/-- A fence keeps the number of towers. -/
theorem Core.towers_length_fence (tr : Trim) (r cause value : Nat) : (c.fence tr r cause value).towers.length = c.towers.length := by
  unfold fence
  extract_lets before x c1 c2 c3
  have h1 : c1.towers = c.towers := Core.cleared_towers _ _
  have h2 : c2.towers.length = c1.towers.length := (c1.fenceMarks_kept _).1
  have h3 : c3.towers.length = c2.towers.length := (congrArg List.length (Core.raise_towers (c2.fenceTowers r) _)).trans (c2.fenceTowers_kept r).1
  rw [towers_wake_unfilled, h3, h2, h1]

/-- A region whose towers are at their reset values and under test. -/
def Core.testing (c : Core) (r : Nat) : Core := { c with prc := { c.prc with busy := some r } }

/-- What follows the fence in the start of a region's reset. -/
theorem Core.moves_cleared_noted (r : Nat) : c.Moves [.regs, .locks, .ctr, .towers, .keep] ((c.clearTowers r).noteReset 2 r) :=
  (c.moves_clearTowers_towers r).mono.then (moves_noteReset _ 2 r)

theorem Core.tower_cleared_noted (r : Nat) {k : Nat} (hlo : 4 * r ≤ k) (hhi : k < 4 * r + 4) (hlen : k < c.towers.length) :
    ((c.clearTowers r).noteReset 2 r).tower k = Tower.fencedReset c.clk.nominal := by
  rw [Core.tower, ((c.clearTowers r).moves_noteReset 2 r).towers_eq rfl]
  exact c.tower_clearTowers r hlo hhi hlen

/-- What the start of a region's reset leaves. -/
theorem Core.startRegionReset_spec (tr : Trim) {r : Nat} (hr : r < 16) (hregions : c.prc.regions.length = 16) (htowers : c.towers.length = 64) :
    (c.startRegionReset tr r).prc.busy = some r ∧ ((c.startRegionReset tr r).region r).fenced = true ∧
      (∀ k, 4 * r ≤ k → k < 4 * r + 4 → (c.startRegionReset tr r).tower k = Tower.fencedReset c.clk.nominal) ∧
      ∃ pre more, (c.startRegionReset tr r).outbox = c.outbox ++ pre ++ ⟨0x0801, 0xFFFF, r, 0, 0, 0xFFFF, r⟩ :: more := by
  obtain ⟨hregion, -, pre, more, hout⟩ := c.fence_spec tr (cause := 0) (value := 0) hr (by omega) hregions htowers
  have hclk : (c.fence tr r 0 0).clk = c.clk := Core.clk_fence tr r 0 0
  have hlen := c.towers_length_fence tr r 0 0
  rw [show c.startRegionReset tr r = (((c.fence tr r 0 0).clearTowers r).noteReset 2 r).testing r from rfl]
  obtain ⟨d, hd⟩ : ∃ d, c.fence tr r 0 0 = d := ⟨_, rfl⟩
  rw [hd] at hregion hout hclk hlen ⊢
  have hmove := d.moves_cleared_noted (r := r)
  have htower := fun k => d.tower_cleared_noted r (k := k)
  obtain ⟨f, hf⟩ : ∃ f, (d.clearTowers r).noteReset 2 r = f := ⟨_, rfl⟩
  rw [hf] at hmove htower ⊢
  obtain ⟨extra, hextra⟩ := hmove.more
  refine ⟨rfl, ?_, fun k hlo hhi => ?_, pre, more ++ extra, ?_⟩
  · show (f.prc.regions.getD r .reset).fenced = true
    rw [hmove.prc_eq rfl]
    exact congrArg Region.fenced hregion
  · rw [← hclk]
    exact htower k hlo hhi (by omega)
  · show f.outbox = _
    rw [hextra, hout]
    simp only [List.append_assoc, List.cons_append, Nat.zero_mod]

/-! ## The end of a region's reset -/

/-- A tower whose self-test has ended with `unit` the first failing unit. -/
def Tower.tested (x : Tower) (unit : Nat) : Tower :=
  { x with testDone := true, testPass := unit = 0, testUnit := unit, fenced := decide (unit ≠ 0) }

theorem Core.towers_regionTest {k : Nat} (unit : Nat) (h : (c.tower k).testDone = false) :
    (c.regionTest k unit).towers = (c.setTower k ((c.tower k).tested unit)).towers := by
  have htest : c.regionTest k unit = if unit = 0 then c.setTower k ((c.tower k).tested unit)
      else (c.setTower k ((c.tower k).tested unit)).raise (sysEvent 0x010B unit 0 0 k) := if_neg (by rw [h]; exact Bool.false_ne_true)
  rw [htest]
  split
  · rfl
  · exact Core.raise_towers _ _

/-- The tests of towers `4 * r + i`, one after the other. -/
theorem Core.tower_regionTests (r : Nat) (units : List Nat) (is : List Nat) (hnodup : is.Nodup)
    (hlen : ∀ i ∈ is, 4 * r + i < c.towers.length) (hdone : ∀ i ∈ is, (c.tower (4 * r + i)).testDone = false) :
    (∀ i ∈ is, (is.foldl (fun (d : Core) i => d.regionTest (4 * r + i) (units.getD i 0)) c).tower (4 * r + i) =
      (c.tower (4 * r + i)).tested (units.getD i 0)) ∧
    (∀ k, (∀ i ∈ is, k ≠ 4 * r + i) →
      (is.foldl (fun (d : Core) i => d.regionTest (4 * r + i) (units.getD i 0)) c).tower k = c.tower k) := by
  induction is generalizing c with
  | nil => exact ⟨fun i hi => absurd hi List.not_mem_nil, fun _ _ => rfl⟩
  | cons j js ih =>
    have htowers := c.towers_regionTest (units.getD j 0) (hdone j List.mem_cons_self)
    have hother : ∀ k, k ≠ 4 * r + j → (c.regionTest (4 * r + j) (units.getD j 0)).tower k = c.tower k := fun k hk => by
      rw [Core.tower, htowers]
      exact Core.tower_setTower_of_ne _ _ hk
    have hself : (c.regionTest (4 * r + j) (units.getD j 0)).tower (4 * r + j) = (c.tower (4 * r + j)).tested (units.getD j 0) := by
      rw [Core.tower, htowers]
      exact Core.tower_setTower_self _ (hlen j List.mem_cons_self)
    have hne : ∀ i ∈ js, 4 * r + i ≠ 4 * r + j := fun i hi heq => (List.nodup_cons.1 hnodup).1 (Nat.add_left_cancel heq ▸ hi)
    obtain ⟨htested, hkept⟩ := ih (c := c.regionTest (4 * r + j) (units.getD j 0)) (List.nodup_cons.1 hnodup).2
      (fun i hi => by rw [htowers, Core.setTower]; simpa using hlen i (List.mem_cons_of_mem _ hi))
      (fun i hi => by rw [hother _ (hne i hi)]; exact hdone i (List.mem_cons_of_mem _ hi))
    rw [List.foldl_cons]
    refine ⟨fun i hi => ?_, fun k hk => ?_⟩
    · rcases List.mem_cons.1 hi with rfl | hi
      · rw [hkept _ (fun i hi heq => hne i hi heq.symm), hself]
      · rw [htested i hi, hother _ (hne i hi)]
    · rw [hkept k (fun i hi => hk i (List.mem_cons_of_mem _ hi)), hother _ (hk j List.mem_cons_self)]
end Region

/-! ## The warm reset -/

section Warm

/-- Nothing is left of segments, links and transfers; clocks, towers, Belfry, slots, sessions and the counts of resets are those
of `a`. -/
structure Core.Emptied (a d : Core) : Prop where
  segs : d.segs = []
  xfers : d.xfers = []
  links : d.links = List.replicate 36 .reset
  clk : d.clk = a.clk
  towers : d.towers = a.towers
  blf : d.blf = a.blf
  ready : d.gate.ready = a.gate.ready
  slots : d.keep.slots = a.keep.slots
  sessions : d.keep.sessions = a.keep.sessions
  resets : d.keep.resets = a.keep.resets

namespace Core.Emptied

variable {a d e : Core}

/-- The parts outside of which a move keeps what `Emptied` speaks of. -/
def loose : List Part := [.regs, .ctr, .ctxs, .dir, .bases, .pool, .runs, .ports, .posts, .failN]

theorem of_moves {w : List Part} (h : a.Emptied d) (m : d.Moves w e) (hw : w.all loose.contains = true := by decide) : a.Emptied e := by
  have g : d.Moves loose e := m.mono hw
  exact ⟨(g.segs_eq rfl).trans h.segs, (g.xfers_eq rfl).trans h.xfers, (g.links_eq rfl).trans h.links, (g.clk_eq rfl).trans h.clk,
    (g.towers_eq rfl).trans h.towers, (g.blf_eq rfl).trans h.blf, (g.ready_eq rfl).trans h.ready, (g.slots_eq rfl).trans h.slots,
    (g.sessions_eq rfl).trans h.sessions, (g.resets_eq rfl).trans h.resets⟩

/-- Transfers are only dropped, and the counts of resets stand. -/
theorem of_drops {w : List Part} (h : a.Emptied d) (m : d.Moves w e) (hx : d.xfers = [] → e.xfers = []) (hr : e.keep.resets = d.keep.resets)
    (hw : w.all (Part.xfers :: Part.keep :: loose).contains = true := by decide) : a.Emptied e := by
  have g : d.Moves (Part.xfers :: Part.keep :: loose) e := m.mono hw
  exact ⟨(g.segs_eq rfl).trans h.segs, hx h.xfers, (g.links_eq rfl).trans h.links, (g.clk_eq rfl).trans h.clk,
    (g.towers_eq rfl).trans h.towers, (g.blf_eq rfl).trans h.blf, (g.ready_eq rfl).trans h.ready, (g.slots_eq rfl).trans h.slots,
    (g.sessions_eq rfl).trans h.sessions, hr.trans h.resets⟩

theorem ite {p : Prop} [Decidable p] (hd : p → a.Emptied d) (he : ¬ p → a.Emptied e) : a.Emptied (if p then d else e) := by
  split
  · next h => exact hd h
  · next h => exact he h

theorem foldl {α : Type} {f : Core → α → Core} (hf : ∀ d x, a.Emptied d → a.Emptied (f d x)) (xs : List α) {d : Core} (h : a.Emptied d) :
    a.Emptied (xs.foldl f d) := by
  induction xs generalizing d with
  | nil => exact h
  | cons x xs ih => exact ih (hf d x h)

theorem dropXfers (h : a.Emptied d) (p : Xfer → Bool) : a.Emptied { d with xfers := d.xfers.filter p } :=
  h.of_drops (d.moves_xfers _) (fun hx => by rw [hx, List.filter_nil]) rfl

theorem fetchFail (h : a.Emptied d) (tr : Trim) (i code : Nat) : a.Emptied (d.fetchFail tr i code) := by
  cases hf : (d.desc i).fetch with
  | none =>
    rw [show d.fetchFail tr i code = d by unfold Core.fetchFail; dsimp only; rw [hf]]
    exact h
  | some f =>
    obtain ⟨c1, hmove, -, hxfers, heq⟩ := d.fetchFail_eq tr i code hf
    have hparked : d.parkedOn i = [] := by rw [Core.parkedOn, h.segs]; rfl
    rw [heq, hparked, List.foldl_nil]
    exact (h.of_drops hmove (fun hx => by rw [hxfers, hx, List.filter_nil]) (hmove.resets_eq rfl)).of_moves (Core.moves_completeFetch _ _ _ _)

theorem noteTag (h : a.Emptied d) (b : Nat) : a.Emptied (d.noteTag b) :=
  .foldl (fun e _ he => .ite (fun _ => he.of_drops (e.moves_note _ _ _ _) (fun hx => hx) rfl) (fun _ => he)) _ h

theorem baseFail (h : a.Emptied d) (b code : Nat) : a.Emptied (d.baseFail b code) := by
  unfold Core.baseFail
  extract_lets x c1 c2
  have h2 : a.Emptied c2 := ((h.of_moves ((d.moves_setBase b .empty).mono (w := [.bases, .runs]) |>.then (Core.moves_dropRun _ _))).dropXfers _).noteTag b
  clear_value c1 c2
  split
  · exact h2.of_moves (Core.moves_complete _ _ _ _)
  · exact h2

theorem freeDesc (h : a.Emptied d) (i code : Nat) : a.Emptied (d.freeDesc i code) := by
  unfold Core.freeDesc
  extract_lets x c1 c2 c3 c4
  have h1 : a.Emptied c1 := h.of_moves ((d.moves_dropCopies i).mono (w := [.pool, .runs]) |>.then (Core.moves_dropRun _ _))
  have h4 : a.Emptied c4 := ((h1.dropXfers _).of_moves (Core.moves_setDesc _ _ _)).of_moves (Core.moves_completeAll _ _ _ _)
  clear_value c1 c2 c3 c4
  split
  · exact h4.of_moves (Core.moves_complete _ _ _ _)
  · exact h4

theorem holdOpen (h : a.Emptied d) (x code : Nat) : a.Emptied (d.holdOpen x code) := h.of_moves (d.moves_holdOpen x code)

theorem warmCtx (h : a.Emptied d) (x : Nat) : a.Emptied (d.warmCtx x) := by
  unfold Core.warmCtx
  extract_lets c1
  have h1 : a.Emptied c1 := (h.of_moves (d.moves_updCtx x _)).of_moves (Core.moves_freeTransient _ x)
  clear_value c1
  exact .ite (fun _ => (h1.of_moves (c1.moves_deleteCtx x)).of_moves (Core.moves_raise _ _)) (fun _ => h1)

theorem warmDesc (h : a.Emptied d) (tr : Trim) (i : Nat) : a.Emptied (d.warmDesc tr i) := by
  unfold Core.warmDesc
  extract_lets c1 c2 c3
  have h1 : a.Emptied c1 := (h.fetchFail tr i _).of_moves (Core.moves_writebackFail _ i _)
  have h2 : a.Emptied c2 := .ite (fun _ => h1.of_moves (c1.moves_dropRun i)) (fun _ => h1)
  have h3 : a.Emptied c3 := h2.of_moves (c2.moves_updDesc i _)
  clear_value c1 c2 c3
  exact .ite (fun _ => (h3.freeDesc i _).of_moves (Core.moves_raise _ _)) (fun _ => h3)

theorem warmSettle (h : a.Emptied d) (tr : Trim) : a.Emptied (d.warmSettle tr) :=
  .foldl (fun _ b he => .ite (fun _ => he.baseFail b _) (fun _ => he)) _
    (.foldl (fun _ i he => he.warmDesc tr i) _ (.foldl (fun _ x he => he.warmCtx x) _ (.foldl (fun _ x he => he.holdOpen x _) _ h)))

end Core.Emptied

/-- The settlements that have begun complete. -/
def Core.settleBegun (tr : Trim) (c : Core) : Core :=
  (c.segs.filter (fun s => s.st = .ended && s.due != 0)).foldl (fun (c : Core) s0 =>
    match c.seg? s0.id with
    | some s => c.settle tr s
    | none => c) c

/-- Every pair of every function is DISABLED. -/
def Core.noPairs (c : Core) : Core :=
  { c with ports := c.ports.map (fun (p : Port) => { p with fns := p.fns.map (fun (x : Nat × HostFn) => (x.1, x.2.drop)) }) }

/-- The parts that the settlements before a warm reset move. -/
def settleParts : List Part := [.ctxs, .dir, .runs, .pool, .ctr, .ports, .posts, .segs]

theorem Core.moves_settleBegun (c : Core) (tr : Trim) : c.Moves settleParts (c.settleBegun tr) := by
  refine .foldl _ (fun d s => ?_) _
  split
  · exact d.moves_settle tr _
  · exact .refl d

theorem Core.moves_noPairs (c : Core) : c.Moves [.ports] c.noPairs :=
  c.moves_portMap _ (fun _ h => SMap.rising_map (g := fun x => (x.1, x.2.drop)) (fun _ => rfl) h)

theorem Core.warmStop_eq (c : Core) (tr : Trim) : c.warmStop tr =
    { c.noPairs.settleBegun tr with segs := [], links := List.replicate 36 .reset, xfers := [], cadence := (3, 0, 0) } := rfl

/-- The reset values of step 5, but for the towers and FAIL_N. -/
def Core.blocked (c : Core) : Core :=
  { c with
    regs := c.regs.keep warmKeeps, locks := c.locks.filter (fun x => warmKeeps x.1)
    blf := c.blf.warm, tref := .reset c.clk.nominal, clk := { c.clk with total := 0 }
    pow := { Power.reset with
      envPower := c.reg 0x30_0010, envPhase := c.reg 0x30_0018, apply := c.pow.apply, refCode := c.pow.refCode }
    gate := { Gate.reset with ready := c.gate.ready, run := List.replicate 4 true, bases := c.gate.bases } }.clearCtr (fun o => !warmKeeps o)

theorem Core.warmBlocks_eq (c : Core) : c.warmBlocks = c.blocked.warmTowers.okN 2 := rfl

/-- A tower after a warm reset runs nothing, and its self-test is to come. -/
theorem Core.tower_warmTowers (c : Core) {k : Nat} (h : k < c.towers.length) :
    (c.warmTowers.tower k).seg = none ∧ (c.warmTowers.tower k).testDone = false := by
  have htower : c.warmTowers.tower k = { Tower.reset (c.clk.nominal + selfTestBeats) with
      fenced := (c.towers[k]).fenced && c.prc.busy != some (k / 4) } := by
    unfold Core.tower Core.warmTowers
    rw [List.getD_eq_getElem _ _ (by simpa using h)]
    simp
  rw [htower]
  exact ⟨rfl, rfl⟩

/-- What steps 1 to 5 leave, but for the Keep's part. -/
structure Core.Blocked (c d : Core) : Prop where
  segs : d.segs = []
  xfers : d.xfers = []
  links : d.links = List.replicate 36 .reset
  nominal : d.clk.nominal = c.clk.nominal
  total : d.clk.total = 0
  towers : ∀ k, k < c.towers.length → (d.tower k).seg = none ∧ (d.tower k).testDone = false
  run : d.blf.run = false
  admission : d.blf.segAdmit = false
  ready : d.gate.ready = c.gate.ready
  slots : d.keep.slots = c.keep.slots
  resets : d.keep.resets = c.keep.resets
  waiting : d.keep.waiting = c.keep.waiting

theorem Core.blocked_warm (c : Core) (tr : Trim) : c.Blocked (c.warmStop tr).warmBlocks := by
  have hsettled : c.Moves settleParts (c.noPairs.settleBegun tr) := c.moves_noPairs.mono.trans (c.noPairs.moves_settleBegun tr)
  rw [warmStop_eq]
  obtain ⟨d, hd⟩ : ∃ d, c.noPairs.settleBegun tr = d := ⟨_, rfl⟩
  rw [hd] at hsettled ⊢
  obtain ⟨e, he⟩ : ∃ e : Core, { d with segs := [], links := List.replicate 36 .reset, xfers := [], cadence := (3, 0, 0) } = e := ⟨_, rfl⟩
  have hsegs : e.segs = [] ∧ e.xfers = [] ∧ e.links = List.replicate 36 .reset := by rw [← he]; exact ⟨rfl, rfl, rfl⟩
  have hkept : e.clk = d.clk ∧ e.towers = d.towers ∧ e.gate = d.gate ∧ e.keep = d.keep := by rw [← he]; exact ⟨rfl, rfl, rfl, rfl⟩
  rw [he, warmBlocks_eq]
  obtain ⟨hclk, htowers, hgate, hkeep⟩ := hkept
  have htower := fun k => e.blocked.tower_warmTowers (k := k)
  have hmove : e.blocked.Moves [.prc, .towers, .failN] (e.blocked.warmTowers.okN 2) := e.blocked.moves_warmTowers.mono.then (Core.moves_okN _ 2)
  have hlast : (e.blocked.warmTowers.okN 2).towers = e.blocked.warmTowers.towers := rfl
  have hblocked : e.blocked.segs = e.segs ∧ e.blocked.xfers = e.xfers ∧ e.blocked.links = e.links ∧ e.blocked.clk = { e.clk with total := 0 } ∧
      e.blocked.towers = e.towers ∧ e.blocked.blf = e.blf.warm ∧ e.blocked.gate.ready = e.gate.ready ∧ e.blocked.keep = e.keep :=
    ⟨rfl, rfl, rfl, rfl, rfl, rfl, rfl, rfl⟩
  obtain ⟨bsegs, bxfers, blinks, bclk, btowers, bblf, bready, bkeep⟩ := hblocked
  obtain ⟨f, hf⟩ : ∃ f, e.blocked.warmTowers.okN 2 = f := ⟨_, rfl⟩
  rw [hf] at hmove hlast ⊢
  exact {
    segs := (hmove.segs_eq rfl).trans (bsegs.trans hsegs.1)
    xfers := (hmove.xfers_eq rfl).trans (bxfers.trans hsegs.2.1)
    links := (hmove.links_eq rfl).trans (blinks.trans hsegs.2.2)
    nominal := by rw [hmove.clk_eq rfl, bclk, hclk, hsettled.clk_eq rfl]
    total := by rw [hmove.clk_eq rfl, bclk]
    towers := fun k hk => by
      rw [Core.tower, hlast]
      exact htower k (by rw [btowers, htowers, hsettled.towers_eq rfl]; exact hk)
    run := by rw [hmove.blf_eq rfl, bblf]; rfl
    admission := by rw [hmove.blf_eq rfl, bblf]; rfl
    ready := by rw [hmove.ready_eq rfl, bready, hgate, hsettled.ready_eq rfl]
    slots := by rw [hmove.slots_eq rfl, bkeep, hkeep, hsettled.slots_eq rfl]
    resets := by rw [hmove.resets_eq rfl, bkeep, hkeep, hsettled.resets_eq rfl]
    waiting := by rw [hmove.waiting_eq rfl, bkeep, hkeep, hsettled.waiting_eq rfl] }

/-- The sessions end, and nothing waits. -/
def Core.noSessions (c : Core) : Core := { c with keep := { c.keep with sessions := [], waiting := [] } }

theorem Core.resets_bootFail (c : Core) : c.bootFail.keep.resets = c.keep.resets := by
  unfold bootFail
  exact (Core.moves_failN _ 7).resets_eq rfl

/-- The Keep's part of a warm reset: no session is left, and with nothing waiting the slots stand. -/
theorem Core.warmKeep_spec (c : Core) : ∃ w : List Part, w = [.fws, .failN, .keep, .slots] ∧ c.noSessions.Moves w c.warmKeep ∧
    c.warmKeep.keep.resets = c.keep.resets ∧ (c.keep.waiting = [] → c.warmKeep.keep.slots = c.keep.slots) := by
  refine ⟨_, rfl, ?_⟩
  unfold warmKeep
  extract_lets k open_ ws keep c1 fw c2 c3
  have h2 : c.noSessions.Moves [.fws] c2 := .ite (((Core.moves_fwIdle c.noSessions).then (Core.moves_setFw _ _ _)).then (Core.moves_raise _ _)) (.refl _)
  have h3 : c2.Moves [.slots] c3 := .foldl _ (fun d i => d.moves_retireNow i) _
  have hnone : c.keep.waiting = [] → c3 = c2 := fun h => by
    show c.keep.waiting.foldl Core.retireNow c2 = c2
    rw [h]
    rfl
  clear_value c2 c3
  have h : c.noSessions.Moves [.fws, .slots] c3 := h2.mono.then h3
  have hslots : c.keep.waiting = [] → c3.keep.slots = c.keep.slots := fun hw => by
    rw [hnone hw, h2.slots_eq rfl]
    rfl
  split
  · next d hd =>
    have hboot := c3.moves_bootKinds hd
    exact ⟨h.mono.then hboot, (hboot.resets_eq rfl).trans (h.resets_eq rfl), fun hw => (hboot.slots_eq rfl).trans (hslots hw)⟩
  · exact ⟨h.mono.then (Core.moves_bootFail _), c3.resets_bootFail.trans (h.resets_eq rfl),
      fun hw => ((c3.moves_bootFail).slots_eq rfl).trans (hslots hw)⟩

/-- What a warm reset leaves. -/
structure Core.Warmed (c d : Core) : Prop where
  segs : d.segs = []
  xfers : d.xfers = []
  links : d.links = List.replicate 36 .reset
  nominal : d.clk.nominal = c.clk.nominal
  total : d.clk.total = 0
  towers : ∀ k, k < c.towers.length → (d.tower k).seg = none ∧ (d.tower k).testDone = false
  run : d.blf.run = false
  admission : d.blf.segAdmit = false
  ready : d.gate.ready = c.gate.ready
  sessions : d.keep.sessions = []
  slots : c.keep.waiting = [] → d.keep.slots = c.keep.slots
  warm : d.keep.resets.warm = incSat 32 c.keep.resets.warm

theorem Core.warmed_warm (c : Core) (tr : Trim) (h : c.takesReset = true) (hready : c.gate.ready = true) : c.Warmed (c.warm tr) := by
  have hb := c.blocked_warm tr
  rw [show c.warm tr = ((((c.warmStop tr).warmBlocks.warmKeep).warmSettle tr).noteReset 1 0) from if_neg (by rw [h, hready]; decide)]
  obtain ⟨d, hd⟩ : ∃ d, (c.warmStop tr).warmBlocks = d := ⟨_, rfl⟩
  rw [hd] at hb ⊢
  obtain ⟨w, hw, hmove, hresets, hslots⟩ := d.warmKeep_spec
  obtain ⟨e, he⟩ : ∃ e, d.warmKeep = e := ⟨_, rfl⟩
  rw [he] at hmove hresets hslots ⊢
  subst hw
  have hsame : e.segs = d.segs ∧ e.xfers = d.xfers ∧ e.links = d.links ∧ e.clk = d.clk ∧ e.towers = d.towers ∧ e.blf = d.blf ∧
      e.gate.ready = d.gate.ready ∧ e.keep.sessions = [] :=
    ⟨hmove.segs_eq rfl, hmove.xfers_eq rfl, hmove.links_eq rfl, hmove.clk_eq rfl, hmove.towers_eq rfl, hmove.blf_eq rfl, hmove.ready_eq rfl,
      hmove.sessions_eq rfl⟩
  obtain ⟨esegs, exfers, elinks, eclk, etowers, eblf, eready, esessions⟩ := hsame
  have hempty : e.Emptied e := ⟨esegs.trans hb.segs, exfers.trans hb.xfers, elinks.trans hb.links, rfl, rfl, rfl, rfl, rfl, rfl, rfl⟩
  have hsettled := hempty.warmSettle tr
  obtain ⟨f, hf⟩ : ∃ f, e.warmSettle tr = f := ⟨_, rfl⟩
  rw [hf] at hsettled ⊢
  have hnote := f.moves_noteReset 1 0
  have hwarm : (f.noteReset 1 0).keep.resets.warm = incSat 32 f.keep.resets.warm := rfl
  obtain ⟨g, hg⟩ : ∃ g, f.noteReset 1 0 = g := ⟨_, rfl⟩
  rw [hg] at hnote hwarm ⊢
  exact {
    segs := (hnote.segs_eq rfl).trans hsettled.segs
    xfers := (hnote.xfers_eq rfl).trans hsettled.xfers
    links := (hnote.links_eq rfl).trans hsettled.links
    nominal := by rw [hnote.clk_eq rfl, hsettled.clk, eclk, hb.nominal]
    total := by rw [hnote.clk_eq rfl, hsettled.clk, eclk, hb.total]
    towers := fun k hk => by
      rw [Core.tower, hnote.towers_eq rfl, hsettled.towers, etowers]
      exact hb.towers k hk
    run := by rw [hnote.blf_eq rfl, hsettled.blf, eblf, hb.run]
    admission := by rw [hnote.blf_eq rfl, hsettled.blf, eblf, hb.admission]
    ready := by rw [hnote.ready_eq rfl, hsettled.ready, eready, hb.ready]
    sessions := by rw [hnote.sessions_eq rfl, hsettled.sessions, esessions]
    slots := fun hwait => by rw [hnote.slots_eq rfl, hsettled.slots, hslots (hb.waiting.trans hwait), hb.slots]
    warm := by rw [hwarm, hsettled.resets, hresets, hb.resets] }

end Warm

/-! ## The commands -/

variable {s : State}

theorem exec_regionReset_admin : exec (.regionReset s.trim.admin) s = .next (s.after (s.core.regionReset s.trim)) :=
  (show exec (.regionReset s.trim.admin) s = .next (s.after (if s.trim.admin = s.trim.admin then s.core.regionReset s.trim else s.core)) from
    rfl).trans (congrArg (fun d => Host.Outcome.next (s.after d)) (if_pos rfl))

theorem exec_warm_admin : exec (.warm s.trim.admin) s = .next (s.after (s.core.warm s.trim)) :=
  (show exec (.warm s.trim.admin) s = .next (s.after (if s.trim.admin = s.trim.admin then s.core.warm s.trim else s.core)) from
    rfl).trans (congrArg (fun d => Host.Outcome.next (s.after d)) (if_pos rfl))

theorem exec_regionReset_starts (hregions : s.core.prc.regions.length = 16) (htowers : s.core.towers.length = 64)
    (ht : s.core.takesReset = true) (hbusy : s.core.prc.busy = none) (hfw : s.core.keep.fwState ≠ 2) :
    let c := s.core
    let r := bits (c.reg 0x30_0070) 8 4
    ∃ (t : State) (pre more : List Event), exec (.regionReset s.trim.admin) s = .next t ∧
      t.core.prc.busy = some r ∧ (t.core.region r).fenced = true ∧
      (∀ k, 4 * r ≤ k → k < 4 * r + 4 → t.core.tower k = { Tower.reset (c.clk.nominal + 1_048_576) with fenced := true }) ∧
      t.evr = (s.evr.takeAll c.stamp (c.outbox ++ pre ++ ⟨0x0801, 0xFFFF, r, 0, 0, 0xFFFF, r⟩ :: more)).1 := by
  dsimp only
  have hr : bits (s.core.reg 0x30_0070) 8 4 < 16 := Nat.mod_lt _ (by decide)
  obtain ⟨hb, hregion, htower, pre, more, hout⟩ := s.core.startRegionReset_spec s.trim hr hregions htowers
  have hstart : s.core.regionReset s.trim = s.core.startRegionReset s.trim (bits (s.core.reg 0x30_0070) 8 4) := by
    unfold Core.regionReset
    rw [if_neg (by rw [ht, hbusy]; decide), if_neg hfw]
    rfl
  have hexec := exec_regionReset_admin (s := s)
  rw [hstart] at hexec
  obtain ⟨d, hd⟩ : ∃ d, s.core.startRegionReset s.trim (bits (s.core.reg 0x30_0070) 8 4) = d := ⟨_, rfl⟩
  rw [hd] at hexec hb hregion htower hout
  refine ⟨_, pre, more, hexec, ?_, ?_, fun k hlo hhi => ?_, ?_⟩
  · rw [State.after_prc]
    exact hb
  · rw [State.after_region]
    exact hregion
  · rw [Core.tower, State.after_towers]
    exact htower k hlo hhi
  · rw [State.after_evr, hout]

theorem exec_regionResetDone_ends {q : Nat} {units : List Nat} (hregions : s.core.prc.regions.length = 16) (htowers : s.core.towers.length = 64)
    (hbusy : s.core.prc.busy = some q) (hq : q < 16)
    (htest : ∀ i, i < 4 → (s.core.tower (4 * q + i)).testDone = false ∧ (s.core.tower (4 * q + i)).testEnd ≤ s.core.clk.nominal) :
    ∃ t, exec (.regionResetDone units) s = .next t ∧ t.core.prc.busy = none ∧ (t.core.region q).fenced = false ∧
      (∀ i, i < 4 → (t.core.tower (4 * q + i)).testDone = true ∧ (t.core.tower (4 * q + i)).fenced = decide (units.getD i 0 ≠ 0)) ∧
      ∀ k, (k < 4 * q ∨ 4 * q + 4 ≤ k) → t.core.tower k = s.core.tower k := by
  obtain ⟨d, hd⟩ : ∃ d, s.core.setRegion q { s.core.region q with fenced := false, cause := 0 } = d := ⟨_, rfl⟩
  have hdtowers : d.towers = s.core.towers := by rw [← hd]; rfl
  have hdregion : (d.region q).fenced = false := by
    rw [← hd, Core.region_setRegion _ _ _ _ (by omega), if_pos rfl]
  have hdone : s.core.regionResetDone units =
      { (List.range 4).foldl (fun (c : Core) i => c.regionTest (4 * q + i) (units.getD i 0)) d with
        prc := { ((List.range 4).foldl (fun (c : Core) i => c.regionTest (4 * q + i) (units.getD i 0)) d).prc with busy := none } } := by
    unfold Core.regionResetDone
    rw [hbusy]
    dsimp only
    rw [if_neg ?_, hd]
    rw [List.any_eq_true]
    rintro ⟨k, hk, hlate⟩
    obtain ⟨i, hi, rfl⟩ := List.mem_range'.1 hk
    rw [Nat.one_mul] at hlate
    exact absurd (htest i hi).2 (Nat.not_le.2 (of_decide_eq_true hlate))
  obtain ⟨htested, hkept⟩ := d.tower_regionTests q units (List.range 4) List.nodup_range
    (fun i hi => by rw [hdtowers]; have := List.mem_range.1 hi; omega)
    (fun i hi => by rw [Core.tower, hdtowers]; exact (htest i (List.mem_range.1 hi)).1)
  have hmove : d.Moves [.towers] ((List.range 4).foldl (fun (c : Core) i => c.regionTest (4 * q + i) (units.getD i 0)) d) :=
    .foldl _ (fun e i => e.moves_regionTest _ _) _
  obtain ⟨e, he⟩ : ∃ e, (List.range 4).foldl (fun (c : Core) i => c.regionTest (4 * q + i) (units.getD i 0)) d = e := ⟨_, rfl⟩
  have hexec : exec (.regionResetDone units) s = .next (s.after (s.core.regionResetDone units)) := rfl
  rw [hdone, he] at hexec
  rw [he] at htested hkept hmove
  refine ⟨_, hexec, ?_, ?_, fun i hi => ?_, fun k hk => ?_⟩
  · rw [State.after_prc]
  · rw [State.after_region]
    show (e.prc.regions.getD q .reset).fenced = false
    rw [hmove.prc_eq rfl]
    exact hdregion
  · rw [Core.tower, State.after_towers]
    have htower := htested i (List.mem_range.2 hi)
    rw [Core.tower] at htower
    rw [htower]
    exact ⟨rfl, rfl⟩
  · rw [Core.tower, State.after_towers]
    refine (hkept k (fun i hi => ?_)).trans (congrArg (fun ts : List Tower => ts.getD k _) hdtowers)
    have := List.mem_range.1 hi
    omega

theorem exec_warm_resets (htowers : s.core.towers.length = 64) (ht : s.core.takesReset = true) (hready : s.core.gate.ready = true) :
    ∃ t, exec (.warm s.trim.admin) s = .next t ∧ t.core.segs = [] ∧ t.core.xfers = [] ∧
      t.core.links = List.replicate 36 .reset ∧ t.core.gate.ready = true ∧ t.core.blf.run = false ∧ t.core.blf.segAdmit = false ∧
      t.core.clk.total = 0 ∧ t.core.clk.nominal = s.core.clk.nominal ∧ t.core.keep.sessions = [] ∧
      t.core.keep.resets.warm = min (2 ^ 32 - 1) (s.core.keep.resets.warm + 1) ∧
      (∀ k, k < 64 → (t.core.tower k).seg = none ∧ (t.core.tower k).testDone = false) ∧
      (s.core.keep.waiting = [] → ∀ k, (t.core.slot k).st = (s.core.slot k).st ∧ (t.core.slot k).root = (s.core.slot k).root) := by
  have hw := s.core.warmed_warm s.trim ht hready
  have hexec := exec_warm_admin (s := s)
  obtain ⟨d, hd⟩ : ∃ d, s.core.warm s.trim = d := ⟨_, rfl⟩
  rw [hd] at hw hexec
  refine ⟨_, hexec, ?_⟩
  simp only [State.after_segs, State.after_xfers, State.after_links, State.after_gate, State.after_blf, State.after_clk, State.after_keep,
    Core.tower, Core.slot, State.after_towers]
  refine ⟨hw.segs, hw.xfers, hw.links, hw.ready.trans hready, hw.run, hw.admission, hw.total, hw.nominal, hw.sessions, hw.warm,
    fun k hk => hw.towers k (by omega), fun hwait k => ?_⟩
  rw [hw.slots hwait]
  exact ⟨rfl, rfl⟩

/-- Settles O60: a region reset ends with the towers that passed their tests out of FENCED, a warm reset keeps the Keep's slots,
and a cold reset keeps flash alone. -/
theorem resetsTaken : Obligations.ResetsTaken := by
  unfold Obligations.ResetsTaken
  intro s c a r hregions htowers
  refine ⟨fun ht hb hf => exec_regionReset_starts hregions htowers ht hb hf, fun hb => ?_, fun ht hb hf => ?_,
    fun q units hb hq hlen htest => exec_regionResetDone_ends hregions htowers hb hq htest,
    fun ht hready => exec_warm_resets htowers ht hready, fun h => ?_, fun ht => ?_, fun ht => ?_⟩
  · refine exec_regionReset_admin.trans (congrArg (fun d => Host.Outcome.next (s.after d)) (if_pos ?_))
    rw [Option.isSome_iff_ne_none.2 hb, Bool.or_true]
  · have hexec := exec_regionReset_admin (s := s)
    rw [show s.core.regionReset s.trim = { s.core with prc := { s.core.prc with
        resetWait := some (s.core.prc.resetWait.getD s.core.resetRegion) } } from
      (if_neg (by rw [ht, hb]; decide)).trans (if_pos hf)] at hexec
    exact ⟨_, hexec, by rw [State.after_prc]; rfl, by rw [State.after_towers]⟩
  · refine exec_warm_admin.trans (congrArg (fun d => Host.Outcome.next (s.after d)) (if_pos ?_))
    rcases h with h | h <;> rw [h]
    · rfl
    · exact Bool.or_true _
  · have hexec : exec (.cold s.trim.admin) s = .next (s.lose (s.core.dark s.core.tripWord)) := if_pos ⟨rfl, ht⟩
    exact ⟨_, hexec, rfl, rfl, rfl, rfl, rfl, rfl, rfl, rfl⟩
  · exact if_neg (fun h => Bool.false_ne_true (ht.symm.trans h.2))

end Sys2Proof.Machine

/-! # Orderly stops (15: R416 to R418)

What the end of an orderly stop does with one running segment, and the links in PF_SAFE. -/

namespace Sys2Proof.Machine

set_option Elab.async false

section Links

variable {c : Core}

/-- A link that goes DOWN is DOWN. -/
theorem Core.linkOff_down (tr : Trim) (k : Nat) : ((c.linkOff tr k).link k).st = .down := by
  unfold linkOff
  dsimp only
  split
  · next h => exact h
  · next h =>
    have hk : k < c.links.length := Nat.lt_of_not_le fun hle => h (by rw [Core.link, List.getD_eq_default _ _ hle]; rfl)
    have hlinks : (if (c.link k).st = .up then c.raise (sysEvent 0x0705 0 0 0 k) else c).links = c.links := by
      split
      · exact (c.moves_raise _).links_eq rfl
      · rfl
    rw [Core.linkFall_link _ tr (by rw [hlinks]; exact hk) (by decide)]
    rfl

/-- A link that is DOWN stays so while another goes DOWN. -/
theorem Core.linkOff_keeps (tr : Trim) {j k : Nat} (h : (c.link j).st = .down) : ((c.linkOff tr k).link j).st = .down := by
  by_cases hjk : j = k
  · rw [hjk]
    exact Core.linkOff_down tr k
  · unfold linkOff
    dsimp only
    split
    · exact h
    · have hraise : Core.Still j c (if (c.link k).st = .up then c.raise (sysEvent 0x0705 0 0 0 k) else c) :=
        .ite ((c.moves_raise _).still rfl) (.refl j c)
      have hstill := hraise.trans (Core.still_linkFall_of_ne _ tr .down hjk)
      rw [hstill (by rw [h]; decide)]
      exact h

theorem Core.linksOff_down (tr : Trim) (ks : List Nat) {k : Nat} (h : k ∈ ks ∨ (c.link k).st = .down) :
    ((ks.foldl (Core.linkOff tr) c).link k).st = .down := by
  induction ks generalizing c with
  | nil => exact h.resolve_left List.not_mem_nil
  | cons j js ih =>
    refine ih ?_
    rcases h with h | h
    · rcases List.mem_cons.1 h with rfl | h
      · exact .inr (Core.linkOff_down tr _)
      · exact .inl h
    · exact .inr (Core.linkOff_keeps tr h)

/-- What PF_SAFE leaves, whatever the end of the stop was. -/
theorem exec_pfSafe_enters {s : State} (hst : s.core.prc.state = .stopping) (hms : s.core.prc.stopAt + 1_250_000 ≤ s.core.clk.nominal)
    (hlen : s.core.links.length = 36) : ∃ (t : State) (pre : List Event), exec .pfSafe s = .next t ∧
      t.core.prc.state = .pfSafe ∧ (∀ k, (t.core.link k).st = .down) ∧ 5 ∈ t.core.out.failN ∧
      t.evr = (s.evr.takeAll s.core.stamp (s.core.outbox ++ pre ++ [⟨0x0807, 0xFFFF, 0, 0, 0, 0xFFFF, 0⟩])).1 := by
  have hend := s.core.moves_stopEnd s.trim
  have hlinks : (s.core.stopEnd s.trim).links = s.core.links := hend.links_eq rfl
  have hdown (k : Nat) : (((List.range 36).foldl (Core.linkOff s.trim) (s.core.stopEnd s.trim)).link k).st = .down := by
    refine Core.linksOff_down s.trim _ ?_
    by_cases hk : k < 36
    · exact .inl (List.mem_range.2 hk)
    · refine .inr ?_
      rw [Core.link, hlinks, List.getD_eq_default _ _ (by omega)]
      rfl
  obtain ⟨pre, hpre⟩ := (s.core.moves_safeEnd s.trim).more
  have hexec : exec .pfSafe s = .next (s.after (({ (List.range 36).foldl (Core.linkOff s.trim) (s.core.stopEnd s.trim) with
      prc := { ((List.range 36).foldl (Core.linkOff s.trim) (s.core.stopEnd s.trim)).prc with state := .pfSafe } }.raise
        (sysEvent 0x0807 0 0 0 0)).failN 5)) := by
    show Host.Outcome.next (s.after (s.core.pfSafe s.trim)) = _
    unfold Core.pfSafe
    rw [if_pos ⟨hst, hms⟩]
  obtain ⟨d, hd⟩ : ∃ d, (List.range 36).foldl (Core.linkOff s.trim) (s.core.stopEnd s.trim) = d := ⟨_, rfl⟩
  rw [hd] at hexec hdown hpre
  have hfail := Core.moves_failN ({ d with prc := { d.prc with state := .pfSafe } }.raise (sysEvent 0x0807 0 0 0 0)) 5
  have hin : 5 ∈ (({ d with prc := { d.prc with state := .pfSafe } }.raise (sysEvent 0x0807 0 0 0 0)).failN 5).out.failN :=
    Core.mem_failN.2 (.inl rfl)
  have hraised : (({ d with prc := { d.prc with state := .pfSafe } }.raise (sysEvent 0x0807 0 0 0 0)).failN 5).outbox =
      d.outbox ++ [sysEvent 0x0807 0 0 0 0] := by
    unfold Core.failN
    split <;> rfl
  obtain ⟨e, he⟩ : ∃ e, ({ d with prc := { d.prc with state := .pfSafe } }.raise (sysEvent 0x0807 0 0 0 0)).failN 5 = e := ⟨_, rfl⟩
  rw [he] at hexec hfail hin hraised
  refine ⟨_, pre, hexec, ?_, fun k => ?_, ?_, ?_⟩
  · rw [State.after_prc, hfail.prc_eq rfl]
    rfl
  · rw [Core.link, State.after_links, hfail.links_eq rfl]
    exact hdown k
  · exact (State.after_mem_failN _ _ (by decide)).2 hin
  · rw [State.after_evr, hraised, hpre, sysEvent, Nat.zero_mod]

end Links

/-! ## The end of the stop, cut into its steps (R417) -/

section StopEnd

variable {c : Core} {x : Seg}

/-- The segments that an orderly stop holds for RESUME (R417 step 4). -/
def Core.keptIds (c : Core) : List Nat :=
  (c.segs.filter (fun s => (c.ctxIds.filter c.heldForResume).contains s.ctx && (s.st = .swapped || s.st = .queued || s.st = .ended))).map (fun s => s.id)

/-- Open steps held, ended segments completed, and what waits withdrawn. -/
def Core.stopHeld (tr : Trim) (kept steps : List Nat) (c : Core) : Core :=
  let c := steps.foldl (fun (c : Core) x => c.holdOpen x 0x0806) c
  let c := (c.segs.filter (fun s => s.st = .ended && !kept.contains s.id)).foldl (fun (c : Core) s =>
    c.finishSeg tr { s with heldCount := s.left.length } 0x0806 0) c
  c.withdraw tr (fun s => s.st != .ended && !kept.contains s.id) 0x0806

/-- Fetches, write-backs and base loads fail, and what waits for the Gatehouse's window completes. -/
def Core.stopTraffic (tr : Trim) (before : Nat) (c : Core) : Core :=
  let c := (c.dir.map (fun x => x.1)).foldl (fun (c : Core) i => (c.fetchFail tr i 0x0806).writebackFail i 0x0806) c
  let c := [0, 1].foldl (fun (c : Core) b => if (c.base b).st = .loading then c.baseFail b 0x0806 else c) c
  c.flushPosts.unfilled before c.binNow

theorem Core.stopEnd_eq (tr : Trim) (c : Core) : ∃ (steps : List Nat) (before : Nat), c.stopEnd tr =
    ((((((c.settleBegun tr).segs.filter (fun s => s.st = .running)).map (fun s => s.id)).foldl (Core.stopSeg tr) (c.settleBegun tr)).stopHeld tr
      (c.settleBegun tr).keptIds steps).stopTraffic tr before) := ⟨_, _, rfl⟩

/-! ### With one running segment -/

theorem Core.settleBegun_of_running (tr : Trim) (hsegs : c.segs = [x]) (hst : x.st = .running) : c.settleBegun tr = c := by
  unfold settleBegun
  rw [hsegs]
  simp [hst]

theorem Core.keptIds_of_running (hsegs : c.segs = [x]) (hst : x.st = .running) : c.keptIds = [] := by
  unfold keptIds
  rw [hsegs]
  simp [hst]

theorem Core.stopEnd_of_running (tr : Trim) (hsegs : c.segs = [x]) (hst : x.st = .running) :
    ∃ (steps : List Nat) (before : Nat), c.stopEnd tr = ((c.stopSeg tr x.id).stopHeld tr [] steps).stopTraffic tr before := by
  obtain ⟨steps, before, heq⟩ := c.stopEnd_eq tr
  refine ⟨steps, before, ?_⟩
  rw [heq, Core.settleBegun_of_running tr hsegs hst, Core.keptIds_of_running hsegs hst, hsegs, List.filter_cons_of_pos (by simp [hst])]
  rfl

/-! ### Towers stopped -/

/-- Tower `k` as a stop of segment `x` leaves it, before the segment's end. -/
def Core.stoppedTower (c : Core) (x : Seg) (k : Nat) : Tower :=
  (c.tower k).stop ⟨0x0806, 0, 0, (c.tower k).pc, (c.tower k).nextBeat (x.img.prog k)⟩

/-- Every tower of a segment stops. -/
def Core.stopTowers (c : Core) (x : Seg) (ks : List Nat) : Core :=
  ks.foldl (fun (c : Core) k =>
    let y := c.tower k
    if y.seg = some x.id ∧ y.st ≠ .faulted then c.setTower k (y.stop ⟨0x0806, 0, 0, y.pc, y.nextBeat (x.img.prog k)⟩) else c) c

theorem Core.moves_stopTowers (ks : List Nat) : c.Moves [.towers] (c.stopTowers x ks) :=
  .foldl _ (fun d k => .ite (d.moves_setTower k _) (.refl d)) _

/-- A tower that has stopped with 0x0806 while segment `i` holds it. -/
def Tower.stoppedFor (t : Tower) (i : Nat) : Prop := t.seg = some i ∧ t.st = .faulted ∧ t.fault.code = 0x0806

theorem Core.stopTowers_stopped (ks : List Nat) {k : Nat} (hlen : k < c.towers.length)
    (h : (k ∈ ks ∧ (c.tower k).seg = some x.id ∧ (c.tower k).st = .running) ∨ (c.tower k).stoppedFor x.id) :
    ((c.stopTowers x ks).tower k).stoppedFor x.id := by
  unfold stopTowers
  induction ks generalizing c with
  | nil => exact h.resolve_left (fun h => absurd h.1 List.not_mem_nil)
  | cons j js ih =>
    rw [List.foldl_cons]
    dsimp only
    split
    · next hj =>
      refine ih (by rw [Core.setTower]; simpa using hlen) ?_
      by_cases hjk : k = j
      · subst hjk
        rw [Core.tower_setTower_self _ hlen]
        exact .inr ⟨hj.1, rfl, rfl⟩
      · rw [Core.tower_setTower_of_ne _ _ hjk]
        exact h.imp_left (fun h => ⟨(List.mem_cons.1 h.1).resolve_left hjk, h.2⟩)
    · next hj =>
      refine ih hlen ?_
      rcases h with ⟨hk, hseg, hst⟩ | h
      · refine .inl ⟨(List.mem_cons.1 hk).resolve_left (fun heq => hj ?_), hseg, hst⟩
        rw [← heq]
        exact ⟨hseg, by rw [hst]; decide⟩
      · exact .inr h

theorem Tower.stoppedFor_freed {t : Tower} {i n : Nat} (h : t.stoppedFor i) : (t.freed n).st = .faulted ∧ (t.freed n).fault.code = 0x0806 :=
  ⟨if_pos h.2.1, h.2.2⟩

/-! ### The segment's end -/

/-- The command of segment `x` has been completed with 0x0806 on the way from `s` to the die `d`. -/
def State.completedOn (s : State) (x : Seg) (d : Core) : Prop :=
  ∃ (w : List Part) (e : Core) (y : Seg), s.core.Moves w e ∧ w.contains .ports = false ∧ w.contains .cores = false ∧ w.contains .fws = false ∧
    y.req = x.req ∧ (e.finishSeg s.trim y 0x0806 0).out.dma <+: d.out.dma

theorem State.completedOn.later {s : State} {d e : Core} (h : s.completedOn x d) (hde : d.out.dma <+: e.out.dma) : s.completedOn x e := by
  obtain ⟨w, e', y, hm, hports, hcores, hfws, hreq, hdma⟩ := h
  exact ⟨w, e', y, hm, hports, hcores, hfws, hreq, hdma.trans hde⟩

theorem State.completedOn.completes {s : State} {d : Core} (h : s.completedOn x d) (ha : s.core.answers x.req) :
    s.completes (s.after d) x.req 0x0806 := by
  obtain ⟨w, e, y, hm, hports, hcores, hfws, hreq, hdma⟩ := h
  rw [← hreq] at ha ⊢
  exact State.completes_of_finishSeg hm hports hcores hfws ha hdma

/-- The segment has been completed with 0x0806, or waits, ended, for the steps it closes. -/
def State.endsStopped (s : State) (x : Seg) (d : Core) : Prop :=
  (s.completedOn x d ∧ d.segs = []) ∨
    (∃ (w : List Part) (y : Seg), s.core.Moves w d ∧ w.contains .ports = false ∧ w.contains .cores = false ∧ w.contains .fws = false ∧
      d.segs = [y] ∧ y.st = .ended ∧ y.req = x.req)

theorem Core.stopSeg_eq (tr : Trim) (hsegs : c.segs = [x]) : c.stopSeg tr x.id =
    (c.stopTowers x (towersOf x.img.towerSet)).endSeg tr { x with out := { x.out with fault := if x.out.fault = 0 then 0x0806 else x.out.fault } }
      ((c.stopTowers x (towersOf x.img.towerSet)).clk.total + 1) := by
  unfold stopSeg
  have hx : c.seg? x.id = some x := by
    unfold seg?
    rw [hsegs]
    exact List.find?_cons_of_pos (by simp)
  rw [hx]
  rfl

theorem Core.segs_dueSettle_single {y : Seg} (h : c.segs = [y]) : ∃ n, c.dueSettle.segs = [{ y with due := n }] := by
  unfold dueSettle
  rw [h]
  dsimp only [List.map]
  split
  · exact ⟨_, rfl⟩
  · exact ⟨y.due, rfl⟩

theorem Core.segs_setSeg_single {y : Seg} (h : c.segs = [x]) (hid : x.id = y.id) : (c.setSeg y).segs = [y] := by
  unfold setSeg
  rw [h]
  simp [hid]

/-- The parts that a stop of a segment moves before its end. -/
def stopSegParts : List Part := [.ctxs, .pool, .free, .pow, .towers, .segs]

theorem stopSeg_ends {s : State} (hsegs : s.core.segs = [x]) (hf : x.out.fault = 0) : s.endsStopped x (s.core.stopSeg s.trim x.id) ∧
    ∀ k, k < s.core.towers.length → k ∈ towersOf x.img.towerSet → (s.core.tower k).seg = some x.id → (s.core.tower k).st = .running →
      ((s.core.stopSeg s.trim x.id).tower k).st = .faulted ∧ ((s.core.stopSeg s.trim x.id).tower k).fault.code = 0x0806 := by
  rw [Core.stopSeg_eq s.trim hsegs, if_pos hf]
  have hstop := s.core.moves_stopTowers (x := x) (towersOf x.img.towerSet)
  have hstopped := fun k hlen hk hseg hst => s.core.stopTowers_stopped (x := x) (towersOf x.img.towerSet) (k := k) hlen (.inl ⟨hk, hseg, hst⟩)
  obtain ⟨e, he⟩ : ∃ e, s.core.stopTowers x (towersOf x.img.towerSet) = e := ⟨_, rfl⟩
  rw [he] at hstop hstopped ⊢
  obtain ⟨d, y, hy, hmove, htowers, heq⟩ := Core.endSeg_eq s.trim e { x with out := { x.out with fault := 0x0806 } } (e.clk.total + 1)
  obtain ⟨hid, hreq, hout, hst, -⟩ := hy
  have hcode : y.out.fault = 0x0806 := by rw [hout]
  have hd : s.core.Moves stopSegParts d := hstop.mono.trans hmove.mono
  have hdsegs : d.segs = [x] := ((hstop.mono (w := [.ctxs, .pool, .free, .pow, .towers]).trans hmove).segs_eq rfl).trans hsegs
  rw [heq]
  refine ⟨?_, fun k hlen hk hseg hrun => ?_⟩
  · by_cases hleft : y.left = []
    · rw [if_pos hleft, hcode]
      have hfree := Core.moves_freeDisabled (d.dueSettle.finishSeg s.trim y 0x0806 0)
        (({ x with out := { x.out with fault := 0x0806 } } : Seg).ctx :: ({ x with out := { x.out with fault := 0x0806 } } : Seg).img.ctxs)
      refine .inl ⟨⟨stopSegParts, d.dueSettle, y, hd.then (Core.moves_dueSettle d), rfl, rfl, rfl, hreq, hfree.dma⟩, ?_⟩
      obtain ⟨n, hn⟩ := Core.segs_dueSettle_single hdsegs
      rw [hfree.segs_eq rfl, Core.segs_finishSeg, hn]
      simp [hid]
    · rw [if_neg hleft]
      have hset : d.Moves [.segs] (d.setSeg { y with status := 0 }).dueSettle := (Core.moves_setSeg _ _).then (Core.moves_dueSettle _)
      obtain ⟨n, hn⟩ := Core.segs_dueSettle_single (Core.segs_setSeg_single (y := { y with status := 0 }) hdsegs hid.symm)
      have hfree := Core.moves_freeDisabled (d.setSeg { y with status := 0 }).dueSettle
        (({ x with out := { x.out with fault := 0x0806 } } : Seg).ctx :: ({ x with out := { x.out with fault := 0x0806 } } : Seg).img.ctxs)
      refine .inr ⟨.runs :: stopSegParts, { y with status := 0, due := n }, ((hd.mono.then hset).then hfree), rfl, rfl, rfl, ?_, hst, hreq⟩
      rw [hfree.segs_eq rfl, hn]
  · have hend := (d.moves_ended s.trim { x with out := { x.out with fault := 0x0806 } } y).towers_eq rfl
    unfold Core.ended at hend
    rw [Core.tower, hend, htowers]
    have hfor := hstopped k hlen hk hseg hrun
    have hfreed := Core.tower_freeTowers e { x with out := { x.out with fault := 0x0806 } } (e.clk.total + 1) k
    rw [if_pos hfor.1] at hfreed
    rw [Core.tower] at hfreed
    rw [hfreed]
    exact Tower.stoppedFor_freed hfor

/-! ### What follows -/

theorem all_contains_append (xs w : List Part) : w.all (xs ++ w).contains = true := by
  simp +contextual [List.all_eq_true]

theorem State.endsStopped.held {s : State} {d : Core} (h : s.endsStopped x d) (steps : List Nat) :
    s.completedOn x (d.stopHeld s.trim [] steps) ∧ (d.stopHeld s.trim [] steps).segs = [] ∧ (d.stopHeld s.trim [] steps).towers = d.towers := by
  unfold Core.stopHeld
  extract_lets c1 c2
  have h1 : d.Moves [.ctxs, .dir, .runs] c1 := .foldl _ (fun e x => e.moves_holdOpen x _) _
  have hc1 : c1.towers = d.towers := h1.towers_eq rfl
  have hnone : ∀ e : Core, e.segs = [] → e.withdraw s.trim (fun s => s.st != .ended && !([] : List Nat).contains s.id) 0x0806 = e := fun e he =>
    Core.withdraw_of_none s.trim (by rw [he]; exact fun y hy => absurd hy List.not_mem_nil) _
  rcases h with ⟨hdone, hsegs⟩ | ⟨w, y, hm, hports, hcores, hfws, hsegs, hst, hreq⟩
  · have hsegs1 : c1.segs = [] := (h1.segs_eq rfl).trans hsegs
    have h2 : c2 = c1 := by
      show List.foldl _ c1 (c1.segs.filter _) = c1
      rw [hsegs1]
      rfl
    rw [h2, hnone c1 hsegs1]
    exact ⟨hdone.later h1.dma, hsegs1, hc1⟩
  · have hsegs1 : c1.segs = [y] := (h1.segs_eq rfl).trans hsegs
    have h2 : c2 = c1.finishSeg s.trim { y with heldCount := y.left.length } 0x0806 0 := by
      show List.foldl _ c1 (c1.segs.filter _) = _
      rw [hsegs1, List.filter_cons_of_pos (by simp [hst])]
      rfl
    have hgone : c2.segs = [] := by
      rw [h2, Core.segs_finishSeg, hsegs1]
      simp
    have htowers : c2.towers = c1.towers := by
      rw [h2]
      exact (Core.moves_finishSeg _ _ _ _ _).towers_eq rfl
    rw [hnone c2 hgone, htowers]
    refine ⟨⟨[.ctxs, .dir, .runs] ++ w, c1, { y with heldCount := y.left.length }, (hm.mono (all_contains_append _ _)).trans (h1.mono ?_),
      ?_, ?_, ?_, hreq, by rw [h2]⟩, hgone, hc1⟩
    · simp
    · simpa using hports
    · simpa using hcores
    · simpa using hfws

theorem Core.segs_fetchFail_of_none (tr : Trim) (i code : Nat) (h : c.segs = []) : (c.fetchFail tr i code).segs = [] := by
  cases hf : (c.desc i).fetch with
  | none =>
    rw [show c.fetchFail tr i code = c by unfold Core.fetchFail; dsimp only; rw [hf]]
    exact h
  | some f =>
    obtain ⟨c1, hmove, -, -, heq⟩ := c.fetchFail_eq tr i code hf
    have hparked : c.parkedOn i = [] := by rw [Core.parkedOn, h]; rfl
    rw [heq, hparked, List.foldl_nil, (Core.moves_completeFetch _ _ _ _).segs_eq rfl, hmove.segs_eq rfl]
    exact h

/-- With no segment left, the end of the traffic leaves none, and the towers. -/
theorem Core.stopTraffic_quiet (tr : Trim) (before : Nat) (h : c.segs = []) : (c.stopTraffic tr before).segs = [] ∧
    (c.stopTraffic tr before).towers = c.towers ∧ c.out.dma <+: (c.stopTraffic tr before).out.dma := by
  unfold stopTraffic
  extract_lets c1 c2
  have h1 : c1.segs = [] := by
    refine List.foldlRecOn (motive := fun d : Core => d.segs = []) _ _ h (fun d hd i _ => ?_)
    rw [(Core.moves_writebackFail _ i 0x0806).segs_eq rfl]
    exact Core.segs_fetchFail_of_none tr i 0x0806 hd
  have hm1 : c.Moves Core.dropParts c1 := .foldl _ (fun d i => (d.moves_fetchFail tr i _).then (moves_writebackFail _ i _)) _
  have hm2 : c1.Moves Core.baseParts c2 := .foldl _ (fun d b => .ite (d.moves_baseFail b _) (.refl d)) _
  clear_value c1 c2
  have hm3 : c2.Moves [.ctr, .ports, .posts] (c2.flushPosts.unfilled before c2.binNow) := c2.moves_flushPosts.then (moves_unfilled _ _ _)
  exact ⟨(hm3.segs_eq rfl).trans ((hm2.segs_eq rfl).trans h1), (hm3.towers_eq rfl).trans ((hm2.towers_eq rfl).trans (hm1.towers_eq rfl)),
    hm1.dma.trans (hm2.dma.trans hm3.dma)⟩

/-- The end of a stop with one running segment. -/
theorem exec_stopYieldEnd {s : State} (hst : s.core.prc.state = .stopping) (hms : s.core.prc.stopAt + 1_250_000 ≤ s.core.clk.nominal)
    (hsegs : s.core.segs = [x]) (hrun : x.st = .running) (hf : x.out.fault = 0) (hlen : s.core.towers.length = 64)
    (htowers : ∀ k ∈ towersOf x.img.towerSet, k < 64 ∧ (s.core.tower k).seg = some x.id ∧ (s.core.tower k).st = .running)
    (ha : s.core.answers x.req) : ∃ t, exec .orderlyStopYieldEnd s = .next t ∧ t.core.segs = [] ∧ State.completes s t x.req 0x0806 ∧
      ∀ k ∈ towersOf x.img.towerSet, (t.core.tower k).st = .faulted ∧ (t.core.tower k).fault.code = 0x0806 := by
  have hexec : exec .orderlyStopYieldEnd s = .next (s.after (s.core.stopEnd s.trim)) :=
    (show exec .orderlyStopYieldEnd s = .next (s.after (s.core.yieldEnd s.trim)) from rfl).trans
      (congrArg (fun d => Host.Outcome.next (s.after d)) (if_pos ⟨hst, hms⟩))
  obtain ⟨steps, before, heq⟩ := s.core.stopEnd_of_running s.trim hsegs hrun
  obtain ⟨hends, hstopped⟩ := stopSeg_ends hsegs hf
  obtain ⟨hdone, hnone, hkept⟩ := hends.held steps
  obtain ⟨hquiet, hsame, hdma⟩ := Core.stopTraffic_quiet s.trim before hnone
  rw [heq] at hexec
  refine ⟨_, hexec, by rw [State.after_segs]; exact hquiet, (hdone.later hdma).completes ha, fun k hk => ?_⟩
  obtain ⟨hk64, hseg, hrunning⟩ := htowers k hk
  rw [Core.tower, State.after_towers, hsame, hkept]
  exact hstopped k (by omega) hk hseg hrunning

end StopEnd

/-- Settles O57: what still runs is held with 0x0806, the links go DOWN, and RESUME brings the module back. -/
theorem orderlyStops : Obligations.OrderlyStops := by
  unfold Obligations.OrderlyStops
  intro s c p
  refine ⟨fun cause hp hready h3 h4 hcause => ?_, fun h cause => ?_, fun h => ⟨?_, ?_⟩,
    fun x hst hms hsegs hrun hf hlen _ htowers ha => exec_stopYieldEnd hst hms hsegs hrun hf hlen htowers ha,
    fun hst hms hlen => exec_pfSafe_enters hst hms hlen, fun hst hband hgood => ?_, fun h => ?_⟩
  · have hcauseOk : c.stopCause cause = true := by
      rcases hcause with ⟨rfl, h⟩ | ⟨rfl, h⟩ | ⟨rfl, h⟩
      · exact decide_eq_true h
      · exact decide_eq_true h
      · exact congrArg not h
    refine congrArg (fun d => Host.Outcome.next (s.after d)) (if_neg ?_)
    rw [Core.governed, show c.prc.powered = true from hp, hready, hcauseOk]
    rintro (h | h | h | h)
    · exact absurd h (by decide)
    · exact h3 h
    · exact h4 h
    · exact absurd h (by decide)
  · exact congrArg (fun d => Host.Outcome.next (s.after d)) (if_pos (.inr (h.imp_right .inl)))
  · exact congrArg (fun d => Host.Outcome.next (s.after d)) (if_neg (fun hc => h.elim (fun h => h hc.1) (Nat.not_lt.2 hc.2)))
  · exact congrArg (fun d => Host.Outcome.next (s.after d)) (if_neg (fun hc => h.elim (fun h => h hc.1) (Nat.not_lt.2 hc.2)))
  · refine (adminAct_admin s Core.resume).trans (congrArg (fun d => Host.Outcome.next (s.after d)) (if_neg ?_))
    rw [show s.core.prc.pwrgd = true from hgood]
    rintro (h | h | h)
    · exact h hst
    · exact h hband
    · exact absurd h (by decide)
  · refine (adminAct_admin s Core.resume).trans (congrArg (fun d => Host.Outcome.next (s.after d)) (if_pos ?_))
    rcases h with h | h | h
    · exact .inl h
    · exact .inr (.inl h)
    · exact .inr (.inr (by rw [show s.core.prc.pwrgd = false from h]; rfl))

end Sys2Proof.Machine

/-! # Settlements (08: R206, R235 to R239)

A closing segment with one member left commits or holds that member's step, and completes with its outcome. -/

namespace Sys2Proof.Machine

set_option Elab.async false

namespace Core

variable {α : Type} {c d e : Core}

/-- From `c` to `d` the directory keeps its form, and what `p` reads of every entry stays. -/
def KeepsOf (p : Desc → α) (c d : Core) : Prop := c.dir.rising = true → d.dir.rising = true ∧ ∀ i, p (d.desc i) = p (c.desc i)

namespace KeepsOf

variable {p : Desc → α}

theorem refl (c : Core) : KeepsOf p c c := fun h => ⟨h, fun _ => rfl⟩

theorem trans (h : KeepsOf p c d) (g : KeepsOf p d e) : KeepsOf p c e := fun hr =>
  ⟨(g (h hr).1).1, fun i => ((g (h hr).1).2 i).trans ((h hr).2 i)⟩

theorem of_dir (h : d.dir = c.dir) : KeepsOf p c d := fun hr => ⟨h.symm ▸ hr, fun i => by rw [Core.desc, Core.desc, h]⟩

theorem of_moves {w : List Part} (h : c.Moves w d) (hw : w.contains .dir = false) : KeepsOf p c d := of_dir (h.frame .dir hw)

theorem updDesc (c : Core) (i : Nat) {f : Desc → Desc} (hf : ∀ x, p (f x) = p x) : KeepsOf p c (c.updDesc i f) := fun hr =>
  ⟨SMap.rising_set _ _ hr, fun j => by
    by_cases hj : j = i
    · rw [hj, c.desc_updDesc i f hr, hf]
    · exact congrArg p ((SMap.get_set _ _ _ _ _ hr).trans (if_neg hj))⟩

theorem foldl {β : Type} {f : Core → β → Core} (hf : ∀ d x, KeepsOf p d (f d x)) (xs : List β) (c : Core) : KeepsOf p c (xs.foldl f c) := by
  induction xs generalizing c with
  | nil => exact .refl c
  | cons x xs ih => exact (hf c x).trans (ih _)

/-- The end of a segment changes pins and claims alone. -/
theorem closed (hpins : ∀ (x : Desc) n, p { x with pins := n } = p x) (hclaim : ∀ (x : Desc), p { x with claimant := 0, kind := 0 } = p x)
    (c : Core) (s : Seg) : KeepsOf p c (c.closed s) := by
  have hpinned : KeepsOf p c (s.pinned.foldl (fun (c : Core) i => c.updDesc i (fun d => { d with pins := d.pins - 1 })) c) :=
    .foldl (fun d i => .updDesc d i (fun x => hpins x _)) _ c
  have hdrop (d : Core) : KeepsOf p d (d.dropClaim s) := by
    unfold dropClaim
    split
    · refine .foldl (fun d i => .updDesc d i (fun x => ?_)) _ d
      split
      · exact hclaim x
      · rfl
    · exact .refl d
  unfold Core.closed
  generalize s.pinned.foldl (fun (c : Core) i => c.updDesc i (fun d => { d with pins := d.pins - 1 })) c = d at hpinned ⊢
  exact hpinned.trans ((of_moves (moves_releaseUnits d _) rfl).trans ((hdrop _).trans (of_moves (moves_dropSave _ s) rfl)))

theorem finishSeg (hpins : ∀ (x : Desc) n, p { x with pins := n } = p x) (hclaim : ∀ (x : Desc), p { x with claimant := 0, kind := 0 } = p x)
    (tr : Trim) (c : Core) (s : Seg) (a b : Nat) : KeepsOf p c (c.finishSeg tr s a b) := by
  rw [finishSeg_eq]
  exact ((closed hpins hclaim c s).trans (.of_moves (moves_post _ _) rfl)).trans (.of_dir rfl)

end KeepsOf

/-! ## One member -/

variable {i z : Nat} {v : Ctx}

theorem commit_closeStep (v : Ctx) : v.closeStep.commit = v.commit := by
  unfold Ctx.closeStep
  split <;> rfl

theorem usesTransient_of_segs (h : d.segs = c.segs) (x : Nat) : d.usesTransient x = c.usesTransient x := by
  unfold usesTransient
  rw [h]

/-- The transient allocation goes, unless a released segment names the context. -/
theorem ctx_freeTransient (h : c.ctx? z = some v) : ∃ v', (c.freeTransient z).ctx? z = some v' ∧ v'.commit = v.commit ∧
    (c.usesTransient z = false → v'.transient = false) := by
  unfold freeTransient
  split
  · next hu => exact ⟨v, h, rfl, fun hn => absurd (hn.symm.trans hu) Bool.false_ne_true⟩
  · exact ⟨{ v with transient := false }, (ctx_of_ctxs rfl z).trans (ctx_updCtx_self h _), rfl, fun _ => rfl⟩

/-- The adaptation whose training claim the context holds takes the new commit line. -/
theorem desc_updCommit (h : c.ctx? z = some v) (hr : c.dir.rising = true) (f : CommitLine → CommitLine) (ht : v.training = true)
    (hclaim : (c.desc v.adapt).trainCtx = z) : ((c.updCommit z f).desc v.adapt).commit = f (c.desc v.adapt).commit := by
  unfold updCommit
  rw [h]
  dsimp only
  rw [if_pos ⟨ht, hclaim⟩]
  rw [desc_updDesc _ _ _ (show (c.setCtx z { v with commit := f v.commit }).dir.rising = true from hr)]
  rfl

theorem rising_updCommit (hr : c.dir.rising = true) (f : CommitLine → CommitLine) : (c.updCommit z f).dir.rising = true := by
  unfold updCommit
  split
  · exact hr
  · dsimp only
    split
    · exact SMap.rising_set _ _ hr
    · exact hr

/-- A held step changes LAST_CODE alone. -/
theorem ctx_holdStep (h : c.ctx? z = some v) (code a0 a1 a2 : Nat) :
    ∃ v', (c.holdStep z code a0 a1 a2).ctx? z = some v' ∧ v'.commit = { v.commit with last := code } := by
  unfold holdStep
  rw [h]
  extract_lets c1 c2 c3
  have h1 : c1.ctx? z = some { v with commit := { v.commit with last := code } } := ctx_updCommit h _
  have h2 : c2.ctx? z = some (Ctx.closeStep { v with commit := { v.commit with last := code } }) := ctx_updCtx_self h1 _
  have h3 : c3.ctx? z = some (Ctx.closeStep { v with commit := { v.commit with last := code } }) := by
    show (if _ then _ else _ : Core).ctx? z = _
    split
    · exact (ctx_of_ctxs ((moves_raise _ _).frame .ctxs rfl) z).trans h2
    · exact h2
  clear_value c1 c2 c3
  obtain ⟨v', hv', hcommit, -⟩ := ctx_freeTransient h3
  exact ⟨v', hv', hcommit.trans (commit_closeStep _)⟩

/-- The outcome of the step that settles, with R206's limit. -/
def outcomeOf (v : Ctx) : Nat × Nat := if v.outcome.1 = 0 ∧ v.commit.step = 2 ^ 32 - 1 then (0x0A1B, 0) else v.outcome

theorem settleMember_held (h : c.ctx? z = some v) (hclose : v.record.closing = some i) {code : Nat} (hcode : (outcomeOf v).1 = code) (hne : code ≠ 0) :
    ∃ v', (c.settleMember i z).2 = code ∧ (c.settleMember i z).1.ctx? z = some v' ∧ v'.commit = { v.commit with last := code } := by
  subst hcode
  have hheld : c.settleMember i z = (c.holdStep z (outcomeOf v).1 (if (outcomeOf v).1 = 0x0330 then v.record.tensor else (outcomeOf v).2)
      (if (outcomeOf v).1 = 0x0330 then v.record.index / 2 ^ 16 else 0) (if (outcomeOf v).1 = 0x0330 then v.record.index else 0), (outcomeOf v).1) := by
    unfold settleMember
    rw [h]
    dsimp only
    rw [if_neg (fun hc => hc hclose)]
    exact if_neg hne
  obtain ⟨v', hv', hcommit⟩ := ctx_holdStep h (outcomeOf v).1 (if (outcomeOf v).1 = 0x0330 then v.record.tensor else (outcomeOf v).2)
    (if (outcomeOf v).1 = 0x0330 then v.record.index / 2 ^ 16 else 0) (if (outcomeOf v).1 = 0x0330 then v.record.index else 0)
  rw [hheld]
  exact ⟨v', rfl, hv', hcommit⟩

/-- The commit line after a commit (R237). -/
def committedLine (v : Ctx) : CommitLine := ⟨v.commit.step + 1, v.nextPos, 0, v.commit.bank ^^^ v.flips⟩

/-- The tier-0 copies of groups whose bank flips are dead (R264), and the pages dirty. -/
def flipped (v : Ctx) (c : Core) : Core :=
  { c with gate := { c.gate with copies := mapIf (fun (k : Copy0) => k.idx = v.adapt && (v.groups.zipIdx.any (fun g =>
      bit v.flips g.2 && g.1.first ≤ k.page && k.page < g.1.first + g.1.pages))) (fun k => { k with dead := true }) c.gate.copies } }.updDesc v.adapt
    (fun d => { d with dirty := d.dirty || decide (v.flips ≠ 0) })

/-- A context as its commit leaves it. -/
def settledCtx (w : Ctx) : Ctx := { w with groups := markSingular w.record.singular w.groups }.closeStep

theorem moves_flipped (v : Ctx) (c : Core) : c.Moves [.pool, .dir] (c.flipped v) := (c.moves_copies _).mono.then (moves_updDesc _ _ _)

theorem keepsOf_flipped (v : Ctx) (c : Core) : KeepsOf Desc.commit c (c.flipped v) := by
  refine KeepsOf.trans ?_ (KeepsOf.updDesc _ _ (fun _ => ?_))
  · exact .of_dir rfl
  · rfl

theorem settleMember_eq (h : c.ctx? z = some v) (hclose : v.record.closing = some i) (h0 : v.outcome.1 = 0) (hstep : v.commit.step ≠ 2 ^ 32 - 1) :
    c.settleMember i z = ((((c.updCommit z (fun _ => committedLine v)).updCtx z settledCtx).flipped v).freeTransient z, 0) := by
  unfold settleMember
  rw [h]
  dsimp only
  rw [if_neg (fun hc => hc hclose)]
  exact if_pos (by rw [if_neg (fun hc => hstep hc.2)]; exact h0)

theorem settleMember_commits (h : c.ctx? z = some v) (hclose : v.record.closing = some i) (h0 : v.outcome.1 = 0)
    (hstep : v.commit.step ≠ 2 ^ 32 - 1) (hr : c.dir.rising = true) :
    ∃ v', (c.settleMember i z).2 = 0 ∧ (c.settleMember i z).1.ctx? z = some v' ∧ v'.commit = committedLine v ∧
      (v.training = true → (c.desc v.adapt).trainCtx = z → ((c.settleMember i z).1.desc v.adapt).commit = committedLine v) ∧
      (c.usesTransient z = false → v'.transient = false) ∧ (c.settleMember i z).1.dir.rising = true := by
  rw [settleMember_eq h hclose h0 hstep]
  have h1 := ctx_updCommit h (fun _ => committedLine v)
  have hd1 : (c.updCommit z (fun _ => committedLine v)).dir.rising = true := rising_updCommit hr _
  have hm1 := c.moves_updCommit z (fun _ => committedLine v)
  have hcommit := fun ht hclaim => desc_updCommit h hr (fun _ => committedLine v) ht hclaim
  obtain ⟨c1, hc1⟩ : ∃ c1, c.updCommit z (fun _ => committedLine v) = c1 := ⟨_, rfl⟩
  rw [hc1] at h1 hd1 hm1 hcommit ⊢
  have h2 := ctx_updCtx_self h1 settledCtx
  have hm2 := c1.moves_updCtx z settledCtx
  obtain ⟨c2, hc2⟩ : ∃ c2, c1.updCtx z settledCtx = c2 := ⟨_, rfl⟩
  rw [hc2] at h2 hm2 ⊢
  have hm3 := c2.moves_flipped v
  have hkeep : KeepsOf Desc.commit c1 (c2.flipped v) := (KeepsOf.of_moves hm2 rfl).trans (c2.keepsOf_flipped v)
  obtain ⟨c3, hc3⟩ : ∃ c3, c2.flipped v = c3 := ⟨_, rfl⟩
  rw [hc3] at hm3 hkeep ⊢
  obtain ⟨v', hv', hline, htransient⟩ := ctx_freeTransient ((ctx_of_ctxs (hm3.frame .ctxs rfl) z).trans h2)
  have hfree : KeepsOf Desc.commit c3 (c3.freeTransient z) := .of_moves (moves_freeTransient c3 z) rfl
  obtain ⟨hr3, hsame3⟩ := hkeep hd1
  obtain ⟨hr4, hsame4⟩ := hfree hr3
  refine ⟨v', rfl, hv', hline.trans (commit_closeStep _), fun ht hclaim => ?_, fun hu => htransient ?_, hr4⟩
  · rw [hsame4, hsame3, hcommit ht hclaim]
  · rw [usesTransient_of_segs ((hm3.segs_eq rfl).trans ((hm2.segs_eq rfl).trans (hm1.segs_eq rfl)))]
    exact hu

/-! ## The segment -/

theorem moves_settleMember_parts (i z : Nat) : c.Moves [.ctxs, .dir, .runs, .pool] (c.settleMember i z).1 := (c.moves_settleMember i z).mono

/-- What the members of `x` left make of it, member by member. -/
def settleAll (c : Core) (x : Seg) : Core × Nat × Nat × Nat :=
  x.left.foldl (fun (r : Core × Nat × Nat × Nat) z =>
    let y := r.1.settleMember x.id z
    if y.2 = 0 then (y.1, r.2.1 + 1, r.2.2.1, r.2.2.2)
    else (y.1, r.2.1, r.2.2.1 + 1, if r.2.2.2 = 0 then y.2 else r.2.2.2)) (c, x.committed, x.heldCount, x.status)

theorem settle_eq (tr : Trim) (c : Core) (x : Seg) : c.settle tr x =
    ((c.settleAll x).1.finishSeg tr { x with committed := (c.settleAll x).2.1, heldCount := (c.settleAll x).2.2.1 } (c.settleAll x).2.2.2 0).dueSettle :=
  rfl

theorem moves_settleAll_members (x : Seg) : c.Moves [.ctxs, .dir, .runs, .pool] (c.settleAll x).1 := by
  refine .foldl_fst (r := (c, _)) _ (fun r z => ?_) _
  show r.1.Moves _ (ite _ _ _ : Core × Nat × Nat × Nat).1
  split <;> exact r.1.moves_settleMember_parts _ _

theorem settleAll_single {x : Seg} (h : x.left = [z]) : (c.settleAll x).1 = (c.settleMember x.id z).1 ∧
    (c.settleAll x).2.2.2 = if (c.settleMember x.id z).2 = 0 ∨ x.status ≠ 0 then x.status else (c.settleMember x.id z).2 := by
  unfold settleAll
  rw [h]
  dsimp only [List.foldl]
  by_cases h0 : (c.settleMember x.id z).2 = 0
  · rw [if_pos h0, if_pos (.inl h0)]
    exact ⟨rfl, rfl⟩
  · rw [if_neg h0]
    refine ⟨rfl, ?_⟩
    by_cases hs : x.status = 0
    · simp [h0, hs]
    · simp [hs]

theorem ids_dueSettle (i : Nat) (h : ∀ y ∈ c.segs, y.id ≠ i) : ∀ y ∈ c.dueSettle.segs, y.id ≠ i := by
  unfold dueSettle
  dsimp only
  intro y hy
  obtain ⟨w, hw, rfl⟩ := List.mem_map.1 hy
  split
  · exact h w hw
  · exact h w hw

end Core

/-! ## The command -/

section Settle

variable {s : State} {x : Seg} {z : Nat} {v : Ctx}

theorem exec_stepSettle (hfind : s.core.segs.find? (fun y => y.st = .ended && decide (y.due ≠ 0 ∧ y.due ≤ s.core.clk.total)) = some x)
    (hfw : ¬(s.core.keep.fwState = 2 ∧ s.core.keep.fwKind = 4)) : exec .stepSettle s = .next (s.after (s.core.settle s.trim x)) := by
  refine (show exec .stepSettle s = .next (s.after (s.core.stepSettle s.trim)) from rfl).trans
    (congrArg (fun d => Host.Outcome.next (s.after d)) ?_)
  unfold Core.stepSettle
  rw [if_neg hfw, hfind]

/-- A settlement completes the command with the code its members leave. -/
theorem settle_completes (ha : s.core.answers x.req) : s.completes (s.after (s.core.settle s.trim x)) x.req (s.core.settleAll x).2.2.2 := by
  have hm := s.core.moves_settleAll_members (x := x)
  have hdue := Core.moves_dueSettle ((s.core.settleAll x).1.finishSeg s.trim
    { x with committed := (s.core.settleAll x).2.1, heldCount := (s.core.settleAll x).2.2.1 } (s.core.settleAll x).2.2.2 0)
  rw [Core.settle_eq]
  exact State.completes_of_finishSeg (y := { x with committed := (s.core.settleAll x).2.1, heldCount := (s.core.settleAll x).2.2.1 })
    hm rfl rfl rfl ha hdue.dma

/-- What follows the members leaves contexts, and the commit lines of the adaptations. -/
theorem settle_keeps (hleft : x.left = [z]) :
    (s.after (s.core.settle s.trim x)).core.ctx? z = (s.core.settleMember x.id z).1.ctx? z ∧
      ((s.core.settleMember x.id z).1.dir.rising = true → ∀ i,
        ((s.after (s.core.settle s.trim x)).core.desc i).commit = ((s.core.settleMember x.id z).1.desc i).commit) := by
  rw [Core.settle_eq, (Core.settleAll_single hleft).1]
  generalize (s.core.settleMember x.id z).1 = d
  have hfinish := d.moves_finishSeg s.trim { x with committed := (s.core.settleAll x).2.1, heldCount := (s.core.settleAll x).2.2.1 } (s.core.settleAll x).2.2.2 0
  have hkeep : Core.KeepsOf Desc.commit d (d.finishSeg s.trim
      { x with committed := (s.core.settleAll x).2.1, heldCount := (s.core.settleAll x).2.2.1 } (s.core.settleAll x).2.2.2 0) :=
    .finishSeg (fun _ _ => rfl) (fun _ => rfl) _ _ _ _ _
  generalize d.finishSeg s.trim { x with committed := (s.core.settleAll x).2.1, heldCount := (s.core.settleAll x).2.2.1 } (s.core.settleAll x).2.2.2 0 = e
    at hfinish hkeep ⊢
  have hdue := e.moves_dueSettle
  refine ⟨(after_ctx s _ z).trans (Core.ctx_of_ctxs ((hdue.frame .ctxs rfl).trans (hfinish.frame .ctxs rfl)) z), fun hr i => ?_⟩
  rw [State.after_desc_of_dir s (hdue.frame .dir rfl)]
  exact (hkeep hr).2 i

/-- Settles O31: the member's step commits or is held, and the segment completes. -/
theorem stepsSettle : Obligations.StepsSettle := by
  unfold Obligations.StepsSettle
  intro s x c hfind hfw hr
  refine ⟨_, exec_stepSettle hfind hfw, ?_, ?_, fun ha => ⟨_, settle_completes ha⟩, fun z v hleft hv hclose => ?_⟩
  · rw [State.after_segs, Core.settle_eq]
    refine Core.ids_dueSettle x.id (fun y hy => ?_)
    rw [Core.segs_finishSeg] at hy
    exact bne_iff_ne.1 (List.mem_filter.1 hy).2
  · rw [State.after_towers]
    exact (Core.moves_settle _ _ _).towers_eq rfl
  · obtain ⟨hctx, hcommits⟩ := settle_keeps (s := s) hleft
    have hstatus := (Core.settleAll_single (c := s.core) hleft).2
    have hdone := fun ha => settle_completes (s := s) (x := x) ha
    have hheld (code : Nat) (hcode : (Core.outcomeOf v).1 = code) (hne : code ≠ 0) : ∃ v' : Ctx,
        (s.after (s.core.settle s.trim x)).core.ctx? z = some v' ∧ v'.commit = { v.commit with last := code } ∧
        (x.status = 0 → s.core.answers x.req → s.completes (s.after (s.core.settle s.trim x)) x.req code) := by
      obtain ⟨v', hy, hv', hline⟩ := Core.settleMember_held hv hclose hcode hne
      refine ⟨v', hctx.trans hv', hline, fun hs ha => ?_⟩
      have hcompletes := hdone ha
      rw [hstatus, hy, if_neg (by simp [hne, hs])] at hcompletes
      exact hcompletes
    refine ⟨fun h0 hstep => ?_, fun h0 hstep => hheld 0x0A1B ?_ (by decide), fun hne => hheld _ ?_ hne⟩
    · obtain ⟨v', hy, hv', hline, hadapt, htransient, hrise⟩ := Core.settleMember_commits hv hclose h0 hstep hr
      refine ⟨v', hctx.trans hv', hline, fun ht hclaim => ?_, htransient, fun ha => ?_⟩
      · rw [hcommits hrise, hadapt ht hclaim, hline]
      · have hcompletes := hdone ha
        rw [hstatus, if_pos (.inl hy)] at hcompletes
        exact hcompletes
    · rw [Core.outcomeOf, if_pos ⟨h0, hstep⟩]
    · rw [Core.outcomeOf, if_neg (fun h => hne h.1)]

end Settle

end Sys2Proof.Machine

/-! # Fetches and write-backs (O32)

The statement has it that a tag list that proceeds leaves the fetch standing, whatever else waits. A re-support that holds the entry's
claim loses it when another of its adaptations cannot be fetched; the entry is then claimed afresh, and that fetch fails as well. -/

namespace Sys2Proof.Machine

set_option Elab.async false

/-- An image that names adaptations 8 and 7, and nothing else. -/
def twoMembers : List Byte :=
  List.replicate 0x36 0 ++ [2, 0] ++ List.replicate 0x10 0 ++ leBytes 8 0x50 ++ leBytes 8 (8 * 2 ^ 16) ++ leBytes 8 (7 * 2 ^ 16)

/-- A parked re-support of both. -/
def resupporting : Seg := newSeg 1 0 ⟨⟨0, 0⟩, 0, 0, 0, 0, 0⟩ twoMembers false true

/-- The fetch whose tag list is awaited. -/
def awaited : Fetch := ⟨false, false, [], false, []⟩

/-- An entry under that fetch, claimed by segment 1. -/
def claimedEntry : Desc := { Desc.free with st := .remote, claimant := 1, kind := 3, fetch := some awaited }

/-- A module whose external memory failed training, with the re-support parked on adaptations 8 and 7. -/
def State.claimLost : State :=
  let c := State.reset.core
  { State.reset with
    core := { c with
      segs := [resupporting], dir := [(7, claimedEntry), (8, { Desc.free with st := .remote })]
      mem := { c.mem with ctls := c.mem.ctls.set 0 { c.mem.ctls.getD 0 .reset with trainFail := 1 } } } }

/-- Whether adaptation 7 is under a fetch in what a command leaves. -/
def fetchAfter : Host.Outcome State Fault Refusal → Option Bool
  | .next s => some (s.core.desc 7).fetch.isSome
  | _ => none

theorem claimLost_fails : fetchAfter (exec (.tagListReceived 7 [] .clean) State.claimLost) = some false := by decide +kernel

theorem claimLost_allocates : (State.claimLost.core.allocRun 7 awaited.training).isSome = true := by decide

/-- Refutes O32: frames are there and the tag list is adopted, and yet no fetch of the entry stands after the step. -/
theorem not_fetchesAndWritebacks : ¬ Obligations.FetchesAndWritebacks := by
  unfold Obligations.FetchesAndWritebacks
  intro h
  obtain ⟨-, htags, -⟩ := h
  have hadopt := (htags State.claimLost 7 [] .clean awaited (by decide) rfl rfl (by decide) rfl (by decide) (by decide)).2
  obtain ⟨t, ht, hfetch, -⟩ := hadopt (.inr rfl) claimLost_allocates
  have hstated : fetchAfter (exec (.tagListReceived 7 [] .clean) State.claimLost) = some true := by
    rw [ht, fetchAfter, hfetch]
    rfl
  exact absurd (claimLost_fails.symm.trans hstated) (by decide)

end Sys2Proof.Machine
